-- ==== Sys2Proof/Word.lean ====
section
/-! DEFINITION. The word types of the SKV128 and the shape of a sparse table.

R6, R8, R99: registers are 32 bits, data words 24 bits, bark tags 10 bits, sideband codes 4 bits. -/

namespace Sys2Proof

/-- A register as canopy cores and PCIe see it (R8). -/
abbrev Word := BitVec 32
/-- A data word of the fabric (R15, R99). -/
abbrev W24 := BitVec 24
/-- A bark tag (R5, R99): tenant number, 0x200 the operator, 0x3FF no owner. -/
abbrev Tag := BitVec 10
/-- One byte. -/
abbrev Byte := BitVec 8
/-- A 20-bit cell handle, bank in [19:16] (R173). -/
abbrev Handle := BitVec 20

/-- A sparse table: key and value pairs, keys strictly rising, no entry equal to the table's default. -/
abbrev Tbl (α : Type) := List (Nat × α)

/-- A word on a switch channel (R99). -/
structure CWord where
  tag  : Tag
  m    : Bool
  code : BitVec 4
  data : W24
  deriving DecidableEq, Repr

/-- The operator domain's tag (R5). -/
abbrev opTag : Tag := 0x200#10
/-- The tag of no owner (R5). -/
abbrev noTag : Tag := 0x3FF#10

/-- A party that makes an access (R11). A tenant acts through its own VF; the canopy cores and PF0 are the operator;
heartwood includes the configuration controller's writes with heartwood's authority (R311). -/
inductive Party where
  | heartwood
  | core (n : Fin 8)
  | pf0
  | tenant (t : Fin 512)
  deriving DecidableEq, Repr

/-- A PCIe function (R346). -/
inductive HostFn where
  | pf0
  | vf (v : Fin 512)
  deriving DecidableEq, Repr

/-- A configuration port (R453). -/
inductive CfgPort where
  | scp | pcp | bar2
  deriving DecidableEq, Repr

/-- The names of the registers of the register tables. An instance is a name and an index; Machine/Regs.lean gives
each name its index range, fields, reset value and place in the address maps. -/
inductive RegName where
  -- tiles and rings (R62-R71)
  | tlGcal | tlGphase | tlGcalact | tlGfault | tlCal | tlGrp | tlWin | tlRst | tlSidx
  -- stream switch (R122-R124)
  | swGbark | swGpar | swIn
  -- control lattice (R145-R147)
  | ltMcown | ltIsown | ltOut
  -- stream FIFOs (R166-R172)
  | ffOwn | ffCfg | ffThr | ffCtl | ffFill | ffStat | ffDrop | ffPar
  -- cell exchange (R203-R208)
  | cxStat | cxFill | cxEcc | cxLost | cxKeygen | cxBank | cxIndrop
  | cxQuota | cxFloor | cxUsed | cxTerr | cxTnobuf
  -- queue engine (R227-R236)
  | qeQcfg | qeQrate | qeQburst | qeQlvl | qeQpkt | qeQcell
  | qeBcfg | qeBcir | qeBcburst | qeBpir | qeBpburst | qeBclvl | qeBplvl
  | qePcfg | qePrate | qeHcfg | qeHmax | qeHbin
  -- lanes (R302-R307)
  | lnGcfg | lnCfg | lnStat | lnIen | lnTrain | lnTxeq | lnRxdly | lnTxdly | lnRawfill
  | lnTxtsh | lnTxtsl | lnTxtsn | lnTxtsf | lnEyectl | lnEye | lnPyl | lnPymach | lnPymacl | lnCntctl | lnCnt
  | lnPys | lnPyg | lnPyc | lnPyd
  -- time base (R308)
  | msTbcmd | msTbincr | msTbrsh | msTbrsl | msTbrns | msTbrfr | msTbwsh | msTbwsl | msTbwns | msTbwfr
  | msPpsish | msPpsisl | msPpsins | msPpsifr | msPpscfg | msPpsdly | msRclk
  -- network on chip (R342-R345)
  | ncMode | ncCprio | ncRteL | ncRteH | ncInjA | ncInjB
  -- host interface (R374, R375, R346)
  | hiPfcfg | hiPfstat | hiPfevt | hiH2cd | hiH2cdb | hiC2hd | hiC2hdb | hiMbst | hiOpdb
  | hiVid | hiVstat | hiVopdb | hiVevcfg | hiVerrcnt | hiVerrl | hiVerrh | hiVfev
  | hiQsqbl | hiQsqbh | hiQcqbl | hiQcqbh | hiQcfg | hiQsqt | hiQcqh | hiQstat
  | hiGctl | hiGstat | hiGrcv | hiVbsel | hiVhsel | hiMsix | hiPba
  -- dispatcher (R408-R410)
  | dpCtl | dpTicklen | dpTnow | dpLosttick | dpFstat | dpTrnom | dpDlmiss
  | dpTake | dpCcmd | dpCarg0 | dpCarg1 | dpCres | dpCwake | dpCbus | dpCstat | dpCload
  | dpThra | dpThrb | dpSem | dpEg | dpEvpend | dpEvb | dpTrstat | dpTrl | dpTrh
  -- heartwood and the persistent bank (R432-R435)
  | htReq | htRsp | htCtl | htSt | htStat | pb | pbRtcl | pbRtch | pbRtcsub | pbMono | pbStat
  -- configuration (R475-R477, R500, R501)
  | cfId | cfStat | cfCtl | cfWdog | cfImgsvn | cfLoads | cfDisc | cfNvmwin | cfOgstat | cfGpcnt | cfGpdisc
  -- clocks, power and reset (R552, R553)
  | ckRefcfg | ckStat | ckRefppm | pwDompwr | pwDomfen | pwRstctl | pwRstsrc
  -- pins and peripherals (R526-R528)
  | gpOut | gpOe | gpSet | gpClr | gpTgl | gpIn | gpDeny | gpBank | gpPcfg | gpFsel
  | gpPmskl | gpPmskh | gpPvall | gpPvalh | gpPctl
  | gpTcfg | gpTper | gpTcmp | gpTcnt | gpTcap | gpTstat
  | spUcfg | spUdata | spUstat | spScfg | spSdata | spSstat
  | spTcfg | spTcmd | spTdata | spTstat | spMcfg | spMcmd | spMdata | spMstat
  -- measurement (R575-R577)
  | msOerrl | msOerrh | msOerrcnt | msAlarm | msFatal | msSctl | msTalm | msValm
  | msTemp | msTlim | msTmm | msVolt | msVlim | msVmm | meterLo | meterHi
  deriving DecidableEq, Repr

/-- One register: its name and which instance of it. -/
structure RegId where
  name : RegName
  idx  : Nat
  deriving DecidableEq, Repr

/-- A read or write as its issuer makes it. `len` is in bytes; `data` holds the 32-bit words of a write. -/
structure Access where
  write : Bool
  addr  : Nat
  len   : Nat
  data  : List Word
  deriving DecidableEq, Repr

/-- What an atomic memory operation does (R376: the A extension). -/
inductive AmoFn where
  | swap | add | xor | and | or | min | max | minu | maxu
  deriving DecidableEq, Repr

/-- What a canopy core does in a CORE_BUS_ACCESS (R376-R378): a load or store, an atomic access, an access to one of its own CSRs, an
instruction it does not have, the return from an exception, or taking its interrupt. -/
inductive CoreOp where
  | plain
  | lr
  | sc
  | amo (f : AmoFn)
  | csrRead (c : BitVec 12)
  | csrWrite (c : BitVec 12) (v : BitVec 64)
  | illegal
  | mret
  | interrupt
  deriving DecidableEq, Repr

/-- Where a core stands as it acts: the address of its instruction, and how many instructions it has retired since it was last shown. -/
structure CoreAt where
  pc : BitVec 64
  retired : Nat
  deriving DecidableEq, Repr

/-- A codeword of the RS(544,514) FEC as decoded: the symbols corrected, none when it is uncorrectable, and the bits
corrected (R306). -/
structure FecWord where
  corrected : Option (Fin 16)
  bits : Nat
  deriving DecidableEq, Repr

/-- A frame as it arrives at a lane's receive balls: its bytes from the first byte of the destination address to the last
FCS byte, whether a PCS error or an uncorrectable codeword fell inside it and whether it was cut short, the lane being disabled or
losing alignment during it (R271), the words of it that its ingress buffer gives back with an uncorrectable error, counted from its first data word (R567), how long before the start of this fc its timestamp point lay, in 1/65,536 fc, and which member of
the port carried the bit there (R282), and the codewords decoded since the frame before (R306). -/
structure RxFrame where
  bytes : List Byte
  pcsError : Bool
  cut : Bool
  rot : List Nat
  ago : Nat
  lane : Fin 8
  fec : List FecWord
  deriving DecidableEq, Repr

/-- What a raw lane received (R280): one beat of 144 bits, or one codeword with its 5,140 payload bits in 215 words. -/
inductive RawUnit where
  | beat (words : List W24)
  | codeword (payload : List W24) (fec : FecWord)
  deriving DecidableEq, Repr

/-- Host memory's answer to a read of the PCIe bridge (R364). -/
inductive HostAnswer where
  | data (ws : List Word)
  | poisoned (ws : List Word)
  | unsupported
  | timeout
  deriving DecidableEq, Repr

/-- Which instruction the JTAG TAP is asked to load (R542). -/
inductive TapInstr where
  | extest | clamp | highz | bypass
  /-- the debug module of a canopy core is asked (R428) -/
  | debug (n : Fin 8)
  deriving DecidableEq, Repr

/-- What triggers a warm reset (R543, R545). -/
inductive WarmTrigger where
  | rstN (ns : Nat)
  | write (p : Party) (w : Word)
  deriving DecidableEq, Repr

/-- What takes a supply out of range (R536). -/
inductive SupplyFault where
  | vin | rail
  deriving DecidableEq, Repr

/-- Whose chain gives up its next cell (R180, R185, R193). -/
inductive FreeSource where
  | cellIn (p : Fin 128)
  | cellOut (p : Fin 128)
  | tenant (t : Fin 512)
  deriving DecidableEq, Repr

/-- The ECC health of a cell a bank reads (R196, R197): the units found with one wrong bit, the units found
uncorrectable, and of the link entry whether one wrong bit was corrected and whether the next handle cannot be corrected. -/
structure CellHealth where
  corrected : List (Fin 24)
  bad       : List (Fin 24)
  linkFixed : Bool
  linkBad   : Bool
  deriving DecidableEq, Repr

/-- What the ECC finds in the units that a direct window access touches (R196, R200): those with one wrong bit and those that cannot be
corrected; unit j of its first cell is j, of its second 24 + j. -/
structure UnitHealth where
  corrected : List (Fin 48)
  bad       : List (Fin 48)
  deriving DecidableEq, Repr

/-- What strikes a flit on its way into a router (R312, R332, R333): the 64-bit words in which one bit is wrong since the router before,
those in which two are, and whether a head then fails HPAR. -/
structure FlitUpset where
  single : List (Fin 4)
  double : List (Fin 4)
  hpar   : Bool
  deriving DecidableEq, Repr

/-- A flit that nothing strikes. -/
def FlitUpset.none : FlitUpset := ⟨[], [], false⟩

/-- What the dispatcher's self-checks found (R402): the cause bits of DP_FSTAT. -/
structure DispCheck where
  comp   : Bool
  parity : Bool
  table  : Bool
  audit  : Bool
  deriving DecidableEq, Repr

/-- The kind of a serial port. -/
inductive SerialKind where
  | uart | spi | twoWire | mdio
  deriving DecidableEq, Repr

/-- A configuration memory entry found bad by the scrubber (R566). -/
inductive ScrubEntry where
  | ring (g t : Fin 64) (r : Fin 16)
  | select (g t : Fin 64) (o : Fin 42)
  | owner (g t : Fin 64) (i : Fin 46)
  | calendar (g t : Fin 64) (e : Fin 64)
  | group (g t : Fin 64) (n : Fin 15)
  | window (g t : Fin 64) (r : Fin 16)
  | mcOwner (g : Fin 64) (m : Fin 32)
  | isOwner (g : Fin 64) (i : Fin 96)
  | slot (g : Fin 64) (i : Fin 96)
  | term (g : Fin 64) (n : Fin 160)
  | macrocell (g : Fin 64) (m : Fin 32)
  | quad (g : Fin 64) (q : Fin 8)
  | decode (g : Fin 64) (k : Fin 16)
  | line (g : Fin 64) (k : Fin 16)
  | fifoRec (g : Fin 64) (f : Fin 8)
  deriving DecidableEq, Repr

end Sys2Proof
end

