-- ==== Sys2Proof/Syntax.lean ====
section
/-! DEFINITION. The commands of the SKV128: one constructor per row of spec/opcode_table.json, in the table's order.
The table gives no operands; the operands name the unit, the party and the outside values that the row's rule
speaks of (log entry 1). -/

namespace Sys2Proof

/-- A command (R46 and the rules named at each constructor). -/
inductive Instr where
  /-- TILE_SLOT (R46). In each fc of a running grove, a tile reads its calendar entry, chooses the member ring by the steering index, and executes it, idles, skips it or counts an owner fault. -/
  | tileSlot (g t : Fin 64) (upset : List (Fin 2048))
  /-- TL_GCAL_COMMIT (R62). A heartwood write of COMMIT requests that all shadows of the grove be copied at the next calendar wrap. -/
  | tlGcalCommit (p : Party) (g : Fin 64) (w : Word)
  /-- SHADOW_COMMIT (R57). At the calendar wrap after a commit request, all shadow copies of the grove become active together. -/
  | shadowCommit (g : Fin 64)
  /-- LATTICE_EVALUATE (R132). In each fc the grove lattice evaluates its product terms and updates its macrocells and outputs. -/
  | latticeEvaluate (g : Fin 64)
  /-- BARK_CHECK (R112). Each switch input compares an arriving word's tag, after any gate, with the segment owner, and drops a word that fails. -/
  | barkCheck (g t : Fin 64) (src : Fin 46) (upset : Bool)
  /-- STAGE_TRANSFER (R116). A register stage accepts a word when it has room and presents its oldest word onward under valid/ready flow control. -/
  | stageTransfer (g t : Fin 64) (o : Fin 42)
  /-- FIFO_WRITE (R154). An item arriving at a FIFO write end is stored, or dropped into a gap marker when the FIFO is full. -/
  | fifoWrite (g : Fin 64) (f : Fin 8) (upset : List (Fin 6))
  /-- FIFO_READ (R153). A FIFO read end delivers its head entry, an IDLE item or nothing, under the cut-through hold. -/
  | fifoRead (g : Fin 64) (f : Fin 8) (upset line : List (Fin 6))
  /-- FLUSH (R159). A write of FLUSH empties the FIFO and marks the next stored entry with M 1. -/
  | flush (p : Party) (g : Fin 64) (f : Fin 8)
  /-- FIFO_NOC_TIMEOUT (R160). A held FIFO data-window access completes TIMEOUT after 65,536 fc. -/
  | fifoNocTimeout (g : Fin 64) (f : Fin 8)
  /-- CELL_IN_BEAT (R176). A cell-in port accepts a beat of six words and treats each word by its code. -/
  | cellInBeat (p : Fin 128)
  /-- BANK_GRANT (R189). Each online bank grants at most one presented request per fc by class and rotation, and winners over quota are answered NOBUF. -/
  | bankGrant
  /-- PACKET_COMPLETE (R181). A packet is completed at its closing word or its last grant, and is enqueued or held with a status record. -/
  | packetComplete (p : Fin 128)
  /-- CELL_WRITE (R191). A bank writes one closed cell per fc, choosing among ports in rotating order. -/
  | cellWrite (b : Fin 16)
  /-- CHAIN_FREE (R180). The cells of a dropped or freed chain are freed one per fc. -/
  | chainFree (src : FreeSource)
  /-- STATUS_RECORD_SEND (R183). Node 88 sends a waiting status record to FIFO g.STF when its injection bucket allows, or discards it. -/
  | statusRecordSend (tag : Tag)
  /-- CELL_OUT_BEAT (R192). A cell-out port delivers the META beat or a data beat of a selected packet when all taps accept. -/
  | cellOutBeat (p : Fin 128) (line : List (Fin 6))
  /-- CELL_READ (R192). A bank reads one cell per fc for cell-out ports in rotating order. -/
  | cellRead (b : Fin 16) (health : CellHealth)
  /-- DIRECT_WINDOW_ACCESS (R200). An access through the cell direct window reads or writes cells of the issuer's own tag. -/
  | directWindowAccess (p : Party) (a : Access) (x : UnitHealth)
  /-- QUEUE_SELECT (R221). For each free port the queue engine selects one packet by phase, DWRR and strict priority, and debits its buckets. -/
  | queueSelect (p : Fin 128) (bad : Option (Fin 16384))
  /-- BUCKET_REFILL (R218). When the refill counter stands at 255, every open bucket is refilled and clipped at its burst. -/
  | bucketRefill
  /-- FORGIVE (R219). A rate write with FORGIVE 1 sets a negative bucket level to 0. -/
  | forgive (p : Party) (r : RegId) (w : Word)
  /-- QUEUE_ATTACH (R211). A tenant write of BEN and BOUGH attaches a queue to its own bough, or is refused. -/
  | queueAttach (p : Party) (q : Fin 16384) (w : Word)
  /-- BOUGH_CHANGE (R212). A change of a bough's OWNER or PORT detaches its queues and zeroes its levels and deficits. -/
  | boughChange (p : Party) (b : Fin 2048) (w : Word)
  /-- HISTOGRAM_CLEAR (R223). CLEAR or a change of scope, target or shift zeroes a histogram. -/
  | histogramClear (p : Party) (h : Fin 64) (w : Word)
  /-- LANE_ENABLE (R263). A write of EN to LN_CFGj enables a lane or port after its checks, and starts lock and calibration. -/
  | laneEnable (p : Party) (j : Fin 128) (w : Word)
  /-- PLL_LOCK_CHANGE (R303). A lane group PLL gains or loses lock and asserts its event source. -/
  | pllLockChange (g : Fin 16) (lock : Bool)
  /-- CALIBRATION_DONE (R281). A lane finishes measuring its path delays and sets CALDONE. -/
  | calibrationDone (j : Fin 128)
  /-- LOCK_CHANGE (R303). A lane's LOCK or ALIGN changes and its sticky bit is set. -/
  | lockChange (j : Fin 128) (lock align : Bool)
  /-- RECEIVE_FRAME (R268). A lane group delivers a received frame as a META beat and data beats on its edge channels. -/
  | receiveFrame (j : Fin 128) (f : RxFrame)
  /-- RAW_RECEIVE (R280). A raw lane delivers beats or corrected codewords, with lock, GAP and ERR handling. -/
  | rawReceive (j : Fin 128) (u : RawUnit) (ago : Nat) (rot : List Nat)
  /-- TRANSMIT_FRAME (R276). A lane takes a command word and a frame from its edge outputs and transmits it. -/
  | transmitFrame (j : Fin 128) (beats : Nat) (lane : Fin 8) (rot : Bool) (upset : List (Fin 48))
  /-- RAW_TRANSMIT (R280). A raw lane transmits words or codeword payloads, and fill on underrun. -/
  | rawTransmit (j : Fin 128) (due : Bool) (upset : List (Fin 48))
  /-- TRAINING_START (R266). A write of START begins PMD training on a lane, or is refused. -/
  | trainingStart (p : Party) (j : Fin 128) (w : Word)
  /-- TRAINING_END (R266). Training ends OK, FAIL or TIMEOUT, writes LN_TXEQj and sets TRDONE. -/
  | trainingEnd (j : Fin 128) (result : BitVec 2) (taps : List Word)
  /-- EYE_START (R305). A write of START begins an eye measurement, or is refused. -/
  | eyeStart (p : Party) (j : Fin 128) (w : Word)
  /-- EYE_DONE (R305). An eye measurement ends, writes its margins and sets EYEDONE. -/
  | eyeDone (j : Fin 128) (m0 m1 m2 : Word)
  /-- LANE_COUNTER_SNAP (R306). A write of SNAP copies a lane's live counters and zeroes them. -/
  | laneCounterSnap (p : Party) (j : Fin 128) (w : Word)
  /-- TIME_BASE_SET (R287). A write of SET loads the staged value into the time base. -/
  | timeBaseSet (p : Party) (w : Word)
  /-- TIME_BASE_ADJ (R287). A write of ADJ adds or subtracts the staged value from the time base. -/
  | timeBaseAdj (p : Party) (w : Word)
  /-- TIME_BASE_SNAP (R287). A write of SNAP copies the time base into the snapshot registers. -/
  | timeBaseSnap (p : Party) (w : Word)
  /-- PPS_OUT_PULSE (R288). PPS_OUT rises when the time base reaches a whole second plus OFFSET and falls after WIDTH. -/
  | ppsOutPulse (rise : Bool)
  /-- PPS_IN_CAPTURE (R289). A rising edge of PPS_IN captures the time base and asserts source 724. -/
  | ppsInCapture
  /-- HELLO_SEND (R295). A Pyril lane sends a HELLO every 1,600,000 fc. -/
  | helloSend (j : Fin 128)
  /-- HELLO_RECEIVE (R294). A valid HELLO brings the lane UP, updates the peer's GRANTED and may restart the lane on a new epoch. -/
  | helloReceive (j : Fin 128) (f : RxFrame)
  /-- HELLO_TIMEOUT (R294). No valid hello for 3 ms returns the lane to DOWN and resets its counts. -/
  | helloTimeout (j : Fin 128)
  /-- CREDIT_SEND (R295). A lane sends a CREDIT frame listing changed GRANTED values after credit is returned. -/
  | creditSend (j : Fin 128)
  /-- CREDIT_RECEIVE (R293). A received CREDIT frame updates the peer's GRANTED for its streams. -/
  | creditReceive (j : Fin 128) (f : RxFrame)
  /-- CREDIT_RETURN (R298). A CTRL word from operator logic adds COUNT to a stream's GRANTED. -/
  | creditReturn (j : Fin 128) (upset : List (Fin 48))
  /-- PYRIL_DATA_SEND (R296). A Pyril data frame is sent with headers when credit allows, held, or discarded. -/
  | pyrilDataSend (j : Fin 128) (beats : Nat) (rot : Bool) (upset : List (Fin 48))
  /-- PYRIL_DATA_RECEIVE (R297). A received Pyril data frame is judged and delivered or discarded. -/
  | pyrilDataReceive (j : Fin 128) (f : RxFrame) (pay : Fin 39)
  /-- NOC_REQUEST_ISSUE (R326). A source NI issues a request when credit, response space and bucket allow, or refuses it locally. -/
  | nocRequestIssue (ni : Fin 5)
  /-- FLIT_FORWARD (R325). A router forwards at most one flit per output per fc by seal, priority, aging and round robin. -/
  | flitForward (resp : Bool) (r : Fin 64) (out : Fin 6) (upset : FlitUpset)
  /-- NOC_SERVE (R320). A target NI serves its next whole request and injects exactly one response. -/
  | nocServe (node : Fin 92) (upset : List Nat)
  /-- NOC_RESPONSE_ARRIVE (R326). A response reaches its requester and returns credit and reservation, or is absorbed. -/
  | nocResponseArrive (ni : Fin 5)
  /-- NOC_TIMEOUT (R335). A request without a response after 1,048,576 fc completes TIMEOUT. -/
  | nocTimeout (ni : Fin 5) (txid : BitVec 8)
  /-- NOC_BUCKET_REFILL (R328). At refill counter 255 each injection bucket gains RATE, clipped at BURST. -/
  | nocBucketRefill
  /-- FENCE_REQ (R336). A target NI starts answering FENCED, completes its request in service and returns FENCE_ACK. -/
  | fenceReq (d : Fin 96)
  /-- DOMAIN_WAKE (R337). A request to a powered-down domain in boot, test or recovery is held and its domain woken. -/
  | domainWake (ni : Fin 5)
  /-- WAKE_DELIVERY (R337). The held request is delivered when the domain is ready or after 32,000 fc. -/
  | wakeDelivery (d : Fin 96)
  /-- ROUTE_ENTRY_WRITE (R317). A write of NC_RTEd_H checks and installs a route table entry. -/
  | routeEntryWrite (p : Party) (ni : Fin 92) (d : Fin 128) (w : Word)
  /-- INJECTION_ENTRY_WRITE (R345). A write of NC_INJi_B installs an injection entry with its level at BURST. -/
  | injectionEntryWrite (p : Party) (ni : Fin 5) (n : Fin 2048) (w : Word)
  /-- NOC_MODE_SWITCH (R442). Once no transaction is in flight, every router switches to the new mode and held requests issue. -/
  | nocModeSwitch
  /-- HOST_BAR_ACCESS (R347). A host memory access to a BAR is served locally or forwarded as a NoC request and recorded in the function's status. -/
  | hostBarAccess (f : HostFn) (a : Access)
  /-- CONFIG_STREAM_WRITE (R352). A write to PF0 BAR2 appends words to the configuration command stream. -/
  | configStreamWrite (len : Nat) (ws : List Word)
  /-- H2C_DOORBELL (R353). A host write of HI_H2CDBn sets H2CFULL and asserts source 736 + n. -/
  | h2cDoorbell (p : Party) (n : Fin 8)
  /-- C2H_DOORBELL (R353). A canopy write of HI_C2HDBn sets C2HFULL and signals PF0 vector n. -/
  | c2hDoorbell (p : Party) (n : Fin 8)
  /-- VOPDB_DOORBELL (R355). A tenant write of HI_VOPDB stores the value and asserts source 1024 + t. -/
  | vopdbDoorbell (v : Fin 512) (w : Word)
  /-- VF_ERROR_READ (R358). A read of HI_VERRH returns and removes the oldest record of the VF error queue. -/
  | vfErrorRead (v : Fin 512)
  /-- VF_FIFO_EVENT_READ (R359). A read of HI_VFEV returns and removes the oldest FIFO event. -/
  | vfFifoEventRead (v : Fin 512)
  /-- ERROR_RECORD_ENQUEUE (R557). An error record enters its domain's queue, or is discarded when the queue is full, and is logged by heartwood. -/
  | errorRecordEnqueue
  /-- SUBMISSION_TAIL (R361). A write of HI_QSQTq gives a queue pair work up to the new tail. -/
  | submissionTail (v : Fin 512) (q : Fin 8) (w : Word)
  /-- DESCRIPTOR_FETCH (R361). A queue pair fetches the descriptor at SQHEAD and checks it. -/
  | descriptorFetch (v : Fin 512) (q : Fin 8)
  /-- DMA_CHUNK (R364). A queue pair starts one chunk of a descriptor as a NoC transaction after the previous one's response. -/
  | dmaChunk (v : Fin 512) (q : Fin 8)
  /-- COMPLETION_WRITE (R365). A finished descriptor's completion entry is written and SQHEAD and CQTAIL advance. -/
  | completionWrite (v : Fin 512) (q : Fin 8)
  /-- QUEUE_PAIR_ENABLE (R367). A write of EN 1 resets a disabled queue pair's pointers and starts it. -/
  | queuePairEnable (v : Fin 512) (q : Fin 8) (w : Word)
  /-- QUEUE_PAIR_DISABLE (R367). A write of EN 0 stops fetching after the descriptor in progress. -/
  | queuePairDisable (v : Fin 512) (q : Fin 8) (w : Word)
  /-- OPEN (R371). A write of OPEN reserves graft staging space or answers NOBUF. -/
  | graftOpen (v : Fin 512) (w : Word)
  /-- GRAFT_DATA_WRITE (R371). A write to the graft data port appends words to an open submission. -/
  | graftDataWrite (v : Fin 512) (ws : List Word)
  /-- COMMIT (R371). A write of COMMIT with all words received passes the submission to heartwood. -/
  | graftCommitWrite (v : Fin 512) (w : Word)
  /-- CANCEL (R371). A write of CANCEL releases an open submission's space. -/
  | graftCancel (v : Fin 512) (w : Word)
  /-- GRAFT_SUBMISSION_TIMEOUT (R371). An open submission with no write for 100 ms is released with TIMEOUT. -/
  | graftSubmissionTimeout (v : Fin 512)
  /-- GRAFT_CHECK (R482). Heartwood verifies a graft file and checks every record before writing its shadows and requesting the commit. -/
  | graftCheck
  /-- VF_FUNCTION_LEVEL_RESET (R372). A Function Level Reset of a VF stops its pairs, empties its queues and resets its registers. -/
  | vfFunctionLevelReset (v : Fin 512)
  /-- PF0_RESET (R373). A PF0 FLR, hot reset or link-down resets every VF, PF0 registers and pending BAR2 words. -/
  | pf0Reset
  /-- TAKE (R386). A core's read of DP_TAKEn returns its current thread to its level and is held until a thread is assigned. -/
  | take (n : Fin 8) (u : DispCheck)
  /-- CREATE (R391). Command CREATE makes a FREE thread READY at the tail of its level. -/
  | create (n : Fin 8) (obj : BitVec 10) (u : DispCheck)
  /-- DESTROY (R391). Command DESTROY frees a thread and clears its bindings. -/
  | destroy (n : Fin 8) (obj : BitVec 10) (u : DispCheck)
  /-- SETPRIO (R391). Command SETPRIO changes a thread's priority and re-places it. -/
  | setprio (n : Fin 8) (obj : BitVec 10) (u : DispCheck)
  /-- SETAFF (R391). Command SETAFF changes a thread's affinity for later assignments. -/
  | setaff (n : Fin 8) (obj : BitVec 10) (u : DispCheck)
  /-- WAKE (R391). Command WAKE makes a waiting or delayed thread READY with CANCEL. -/
  | wakeThread (n : Fin 8) (obj : BitVec 10) (u : DispCheck)
  /-- YIELD (R391). Command YIELD puts the current thread at the tail of its level. -/
  | yieldThread (n : Fin 8) (obj : BitVec 10) (u : DispCheck)
  /-- EXIT (R391). Command EXIT frees the current thread. -/
  | exitThread (n : Fin 8) (obj : BitVec 10) (u : DispCheck)
  /-- DELAY (R391). Command DELAY makes the current thread DELAYED for a number of ticks. -/
  | delay (n : Fin 8) (obj : BitVec 10) (u : DispCheck)
  /-- DELAYTO (R391). Command DELAYTO makes the current thread DELAYED until a stamp. -/
  | delayto (n : Fin 8) (obj : BitVec 10) (u : DispCheck)
  /-- SETDL (R391). Command SETDL sets the current thread's deadline. -/
  | setdl (n : Fin 8) (obj : BitVec 10) (u : DispCheck)
  /-- CLRDL (R391). Command CLRDL removes the current thread's deadline. -/
  | clrdl (n : Fin 8) (obj : BitVec 10) (u : DispCheck)
  /-- SEMTAKE (R392). Command SEMTAKE takes a semaphore count or makes the thread wait. -/
  | semtake (n : Fin 8) (obj : BitVec 10) (u : DispCheck)
  /-- SEMGIVE (R392). Command SEMGIVE readies the first waiter or raises the count. -/
  | semgive (n : Fin 8) (obj : BitVec 10) (u : DispCheck)
  /-- SEMINIT (R391). Command SEMINIT sets a semaphore's MAX and COUNT. -/
  | seminit (n : Fin 8) (obj : BitVec 10) (u : DispCheck)
  /-- EGSET (R393). Command EGSET ORs bits into a group and readies satisfied waiters. -/
  | egset (n : Fin 8) (obj : BitVec 10) (u : DispCheck)
  /-- EGCLR (R391). Command EGCLR clears bits of a group. -/
  | egclr (n : Fin 8) (obj : BitVec 10) (u : DispCheck)
  /-- EGWAIT (R393). Command EGWAIT completes when the group condition holds or makes the thread wait. -/
  | egwait (n : Fin 8) (obj : BitVec 10) (all clr : Bool) (u : DispCheck)
  /-- EVWAIT (R396). Command EVWAIT takes a pending bound source or makes the thread wait for one. -/
  | evwait (n : Fin 8) (obj : BitVec 10) (u : DispCheck)
  /-- EVBIND (R395). Command EVBIND binds an event source to a thread, a group bit or nothing. -/
  | evbind (n : Fin 8) (obj : BitVec 10) (u : DispCheck)
  /-- EVCLR (R391). Command EVCLR clears an event source's pending bit. -/
  | evclr (n : Fin 8) (obj : BitVec 10) (u : DispCheck)
  /-- EVENT_PENDING (R23). An asserting event source sets its pending bit. -/
  | eventPending (e : Fin 2048)
  /-- EVENT_DELIVERY (R396). The dispatcher delivers a pending bound source to its thread or group bit. -/
  | eventDelivery (e : Fin 2048) (u : DispCheck)
  /-- TICK (R397). At a tick boundary TNOW rises and the tick operation runs with its comparator self-test. -/
  | tick (upset : DispCheck)
  /-- WAKE_EXPIRY (R398). A due wake entry makes its thread READY with TIMEOUT or RESUME. -/
  | wakeExpiry
  /-- DEADLINE_MISS (R398). A due deadline entry is queued as a miss, asserts source 716 and is removed. -/
  | deadlineMiss
  /-- DLMISS_READ (R408). A read of DP_DLMISS returns and removes the oldest deadline miss. -/
  | dlmissRead (p : Party)
  /-- TRACE_READ (R401). A read of DP_TRH by an allowed reader returns and removes the oldest trace record. -/
  | traceRead (p : Party)
  /-- AUDIT (R402). Once per tick interval the dispatcher walks its wake and deadline lists and checks them. -/
  | audit (upset : DispCheck)
  /-- REBUILD (R404). Heartwood rebuilds the dispatcher lists, readies due threads and resumes dispatch, or resets the canopy. -/
  | rebuild (tableOk selfTestOk : Bool)
  /-- CORE_BUS_ACCESS (R379). A canopy core access completes with its status recorded in DP_CBUSn. -/
  | coreBusAccess (n : Fin 8) (c : CoreAt) (op : CoreOp) (a : Access) (x : UnitHealth)
  /-- HEARTWOOD_BOOT (R420). Heartwood restores MONO, verifies and loads canopy firmware, releases the cores and opens the mailbox. -/
  | heartwoodBoot
  /-- COMPARATOR_SELF_TEST (R413). Every 1 ms heartwood injects a mismatch into each comparator copy, which must flag it. -/
  | comparatorSelfTest (flag0 flag1 : Bool)
  /-- HEARTWOOD_FAULT (R414). A heartwood fault stops both cores, records the cause, sets HALTED and drives FAULT_N. -/
  | heartwoodFault (cause : BitVec 4)
  /-- GO (R422). A write of GO queues a mailbox call. -/
  | go (p : Party) (ch : Fin 9)
  /-- INFO (R426). Call INFO returns the device identity, versions, MONO and key slot states. -/
  | infoCall (ch : Fin 9)
  /-- ADMIT (R426). Call ADMIT judges and admits a resource vector. -/
  | admitTenant (ch : Fin 9)
  /-- EXTEND (R426). Call EXTEND adds items to an admitted vector. -/
  | extend (ch : Fin 9)
  /-- RELEASE (R244). Call RELEASE releases granted items and may end an admission. -/
  | releaseCall (ch : Fin 9)
  /-- TRESET (R548). Call TRESET performs a tenant reset. -/
  | treset (ch : Fin 9)
  /-- REGRANT (R426). Call REGRANT replaces granted CELLS, BRATE and NOC items. -/
  | regrant (ch : Fin 9)
  /-- VREAD (R426). Call VREAD copies an admitted vector to canopy SRAM. -/
  | vread (ch : Fin 9)
  /-- TKEYSET (R417). Call TKEYSET fills or rotates a tenant key registry slot. -/
  | tkeyset (ch : Fin 9)
  /-- TKEYCLR (R417). Call TKEYCLR empties the slot of a tenant not admitted. -/
  | tkeyclr (ch : Fin 9)
  /-- OPKEYPROG (R416). Call OPKEYPROG programs an operator key slot. -/
  | opkeyprog (ch : Fin 9)
  /-- OPKEYREV (R416). Call OPKEYREV revokes an operator key slot. -/
  | opkeyrev (ch : Fin 9)
  /-- ROLLFWD (R418). Call ROLLFWD raises the anti-rollback counter. -/
  | rollfwd (ch : Fin 9)
  /-- REKEY (R187). Call REKEY sets a new placement key. -/
  | rekey (ch : Fin 9)
  /-- BANK (R426). Call BANK sets a bank's ONLINE bit, and taking it offline starts shedding. -/
  | bankCall (ch : Fin 9)
  /-- DOMAIN (R539). Call DOMAIN fences and powers off, or restores, a power domain. -/
  | domainCall (ch : Fin 9)
  /-- PORTRATE (R426). Call PORTRATE writes an egress port's rate. -/
  | portrate (ch : Fin 9)
  /-- PINOWN (R508). Call PINOWN sets a pin's owner and clears its OUT and OE bits. -/
  | pinown (ch : Fin 9)
  /-- TRNOM (R401). Call TRNOM nominates the trace reader. -/
  | trnom (ch : Fin 9)
  /-- BOOTCFG (R426). Call BOOTCFG sets AUTOBOOT and the seed image pointer. -/
  | bootcfg (ch : Fin 9)
  /-- PBREAD (R426). Call PBREAD returns PB0 to PB5. -/
  | pbread (ch : Fin 9)
  /-- RTCSET (R426). Call RTCSET sets the real-time clock and RTCVALID. -/
  | rtcset (ch : Fin 9)
  /-- FWWRITE (R426). Call FWWRITE verifies and writes a canopy firmware copy. -/
  | fwwrite (ch : Fin 9)
  /-- NVMWRITE (R426). Call NVMWRITE writes pages of image slot A or B. -/
  | nvmwrite (ch : Fin 9)
  /-- DEBUG (R429). Call DEBUG puts a debug token in force. -/
  | debugCall (ch : Fin 9)
  /-- DEBUGEND (R426). Call DEBUGEND ends debug access. -/
  | debugend (ch : Fin 9)
  /-- DEBUG_TOKEN_EXPIRY (R429). A debug token leaves force at its expiry. -/
  | debugTokenExpiry
  /-- RTC_READ_LATCH (R434). A read of PB_RTCL latches PB_RTCH and PB_RTCSUB. -/
  | rtcReadLatch (p : Party)
  /-- SESSION_START (R454). A MAGIC or readback word at an idle controller opens a session on its port. -/
  | sessionStart (port : CfgPort) (w : Word)
  /-- HEADER_CHECK (R463). The header and key blocks of a host image are checked, and the load begins or fails. -/
  | headerCheck (ws : List Word)
  /-- NOP (R440). Command NOP does nothing. -/
  | nopCmd (ws : List Word)
  /-- FRAME_WRITE (R440). Command FRAME_WRITE checks and writes one frame. -/
  | frameWrite (ws : List Word)
  /-- FRAME_REPEAT (R443). Command FRAME_REPEAT writes the previous frame's data to several addresses. -/
  | frameRepeat (ws : List Word)
  /-- FRAME_FILL (R443). Command FRAME_FILL writes a pattern to every word of a frame. -/
  | frameFill (ws : List Word)
  /-- MEMORY_WRITE (R445). Command MEMORY_WRITE writes words to the image data area. -/
  | memoryWrite (ws : List Word)
  /-- SET_DEVICE (R442). Command SET_DEVICE sets NoC mode, PLL requirements, lane families and bank supplies. -/
  | setDevice (ws : List Word)
  /-- RELEASE_ORDER (R440). Command RELEASE_ORDER sets the order and gaps of the release stages. -/
  | releaseOrder (ws : List Word)
  /-- CHECKPOINT (R444). Command CHECKPOINT compares a CRC-32C and fails the load on mismatch. -/
  | checkpoint (ws : List Word)
  /-- END (R440). Command END ends the command section. -/
  | endCmd (ws : List Word)
  /-- RECORD_WRITE (R481). Graft command RECORD_WRITE writes one record. -/
  | recordWrite (ws : List Word)
  /-- IMAGE_VERIFY (R439). At SIG heartwood verifies the image signature and GCM tag. -/
  | imageVerify (ws : List Word)
  /-- LOAD_FAIL (R464). A failed load records its cause and enters FALLBACK or SAFE. -/
  | loadFail (cause : BitVec 8)
  /-- SESSION_TIMEOUT (R463). An open host session with no word for 100 ms fails with TIMEOUT. -/
  | sessionTimeout
  /-- SCP_TRUNCATION (R454). SCP_CS_N rising before the end of an image fails the load with TRUNC. -/
  | scpTruncation
  /-- PLL_LOCK_WAIT (R457). In LOCK the device proceeds when the required PLLs lock, or fails with LOCK after 10 ms. -/
  | pllLockWait
  /-- OUT (R458). Release stage OUT puts pins, lanes, taps, NoC entries and bindings into effect. -/
  | stageOut
  /-- WEN (R458). Release stage WEN lets FIFO write ends, cell-in ports, memory writes and queue selection act. -/
  | stageWen
  /-- RUN (R458). Release stage RUN releases phase counters and lattice registers. -/
  | stageRun
  /-- WATCHDOG_EXPIRY (R466). An armed watchdog that runs out fails the load with WDOG. -/
  | watchdogExpiry
  /-- WDCLR (R466). A write of WDCLR disarms the watchdog. -/
  | wdclr (p : Party) (w : Word)
  /-- RELOAD (R461). A write of RELOAD starts a load from NVM slot A or the seed address. -/
  | reload (p : Party) (w : Word)
  /-- NVM_PREVERIFY (R462). An NVM image is read and verified in full before its load begins. -/
  | nvmPreverify (eccBad : Bool)
  /-- FULL_LOAD_START (R451). A full load returns image-written state to reset values, powers the domains and ends admissions. -/
  | fullLoadStart
  /-- READBACK (R467). A readback request returns a status and masked frames with a CRC, capturing groves when asked. -/
  | readback (ws : List Word)
  /-- OPERATOR_GRAFT_SESSION (R484). An operator graft file is staged through a configuration port and queued for heartwood. -/
  | operatorGraftSession (ws : List Word)
  /-- GRAFT_PORT_RECORD (R488). Graft port command RECORD checks a record and writes its shadow, or refuses it with a record. -/
  | graftPortRecord
  /-- GRAFT_PORT_COMMIT (R489). Graft port command COMMIT requests the commit of the issuer's group. -/
  | graftPortCommit
  /-- GRAFT_PORT_DISCARD (R489). Graft port command DISCARD drops the issuer's group shadows. -/
  | graftPortDiscard
  /-- GRAFT_PORT_COMMAND_DISCARD (R487). A malformed port command is discarded whole and counted. -/
  | graftPortCommandDiscard
  /-- GRAFT_COMMIT (R491). At the wrap after a graft's commit request, its shadows take effect in each grove and its resources are held. -/
  | graftCommit (g : Fin 64)
  /-- GRAFT_WEN (R494). At c + 16 the grafted FIFO write ends accept. -/
  | graftWen (g : Fin 64)
  /-- GRAFT_RUN (R494). At the first pass from c + 32 the grafted resources are released and the graft may be done. -/
  | graftRun (g : Fin 64)
  /-- GPIO_SET (R514). A write of GP_SETL or GP_SETH sets OUT bits the issuer may write. -/
  | gpioSet (p : Party) (hi : Fin 2) (w : Word)
  /-- GPIO_CLEAR (R514). A write of GP_CLRL or GP_CLRH clears OUT bits the issuer may write. -/
  | gpioClear (p : Party) (hi : Fin 2) (w : Word)
  /-- GPIO_TOGGLE (R514). A write of GP_TGLL or GP_TGLH inverts OUT bits the issuer may write. -/
  | gpioToggle (p : Party) (hi : Fin 2) (w : Word)
  /-- PATTERN_MATCH (R515). A pattern unit whose condition holds asserts its event source. -/
  | patternMatch (u : Fin 8)
  /-- TIMER_WRAP (R516). A timer's count returns to 0, sets WRAP and applies pending settings. -/
  | timerWrap (n : Fin 8)
  /-- TIMER_CAPTURE (R516). An edge of a timer's capture input copies CNT or sets OVR. -/
  | timerCapture (n : Fin 8)
  /-- UART_TRANSMIT (R518). A UART sends a queued byte. -/
  | uartTransmit (n : Fin 4)
  /-- UART_RECEIVE (R518). A UART receives a byte, or a break, and sets its flags. -/
  | uartReceive (n : Fin 4) (byte : Byte) (parity stop : Bool)
  /-- SPI_TRANSFER (R519). An SPI controller exchanges one byte and drives its chip select. -/
  | spiTransfer (n : Fin 4) (miso : Byte)
  /-- START (R520). Two-wire command START sends a START or repeated START, or sets BUSLOW. -/
  | twStart (n : Fin 8)
  /-- WRITE (R520). Two-wire command WRITE sends a byte and records the acknowledge. -/
  | twWrite (n : Fin 8) (ack : Bool)
  /-- READ_ACK (R520). Two-wire command READ reads a byte and acknowledges it. -/
  | twReadAck (n : Fin 8) (byte : Byte)
  /-- READ_NACK (R520). Two-wire command READ reads a byte and does not acknowledge it. -/
  | twReadNack (n : Fin 8) (byte : Byte)
  /-- STOP (R520). Two-wire command STOP sends a STOP condition. -/
  | twStop (n : Fin 8)
  /-- STRETCH_TIMEOUT (R520). A clock stretch longer than STRTMO releases the bus and sets TIMEOUT. -/
  | stretchTimeout (n : Fin 8)
  /-- MDIO_FRAME (R521). An MDIO command sends one Clause 22 or 45 frame and ends with DONE. -/
  | mdioFrame (n : Fin 2) (drives : Bool) (rdata : BitVec 16)
  /-- SERIAL_RECEIVE_READ (R517). A read of a serial receive data register takes one byte. -/
  | serialReceiveRead (p : Party) (k : SerialKind) (n : Fin 8)
  /-- REFERENCE_SELECT (R531). A write of SEL starts a phase-continuous slew to the other reference. -/
  | referenceSelect (p : Party) (w : Word)
  /-- SLEW_DONE (R531). The PLL reaches the new reference and SLEW clears. -/
  | slewDone
  /-- REFERENCE_LOSS (R532). REFOK falling while REF_IN is selected enters holdover and records REFLOSS. -/
  | referenceLoss
  /-- PLL_LOCK_LOSS (R530). The taproot PLL loses lock, sets LOCKLOSS, reports and relocks. -/
  | pllLockLoss
  /-- COLD_RESET (R535). VIN qualification starts a cold reset and the power-up sequence. -/
  | coldReset
  /-- SUPPLY_FAILURE (R536). VIN below 10.0 V or an always-on rail out of range shuts the device down into a cold reset. -/
  | supplyFailure (k : SupplyFault)
  /-- WARM_RESET (R546). RST_N low or a PW_RSTCTL WARM write starts a warm reset. -/
  | warmReset (tr : WarmTrigger)
  /-- WARM_RESET_END (R543). A warm reset ends after 10 µs, RST_N rising or the thermal hold ending, and heartwood boots. -/
  | warmResetEnd
  /-- CANOPY_RESET (R547). A PW_RSTCTL CANOPY write or heartwood resets the canopy and reloads its firmware. -/
  | canopyReset (p : Party) (w : Word)
  /-- THERMAL_TRIP (R549). Two samples at or above 125 °C trip the device into a warm reset and a thermal hold. -/
  | thermalTrip (sensor : Fin 16)
  /-- THERMAL_HOLD_END (R549). Two samples below 115 °C on every sensor end the thermal hold. -/
  | thermalHoldEnd
  /-- DOMAIN_READY (R541). A restored domain signals ready and takes its staged release or relock. -/
  | domainReady (d : Fin 96)
  /-- TENANT_RESET_RELEASE (R548). In each grove at fc c the tenant's words are emptied, its state zeroed and its stages taken. -/
  | tenantResetRelease (g : Fin 64) (t : Fin 512)
  /-- SENSOR_SAMPLE (R568). Every 1 ms all sensors are sampled and limits checked. -/
  | sensorSample (temps volts : List (BitVec 16))
  /-- RAIL_FAULT (R564). A domain rail out of range makes heartwood fence the domain or take the bank offline. -/
  | railFault (d : Fin 96)
  /-- CANOPY_ECC_ERROR (R565). An uncorrectable canopy memory error faults the access, asserts a source and sends a record. -/
  | canopyEccError (n : Fin 8) (addr : BitVec 40) (fetch : Bool) (pc : BitVec 64)
  /-- SCRUB (R566). The scrubber corrects configuration entries and replaces uncorrectable ones with safe values. -/
  | scrub (e : ScrubEntry)
  /-- NOC_FATAL_REPORT (R562). Heartwood sets NOCHDR and reports the first fatal alarm to the operator. -/
  | nocFatalReport
  /-- OPERATOR_ERROR_READ (R559). A read of MS_OERRH returns and removes the oldest operator error record. -/
  | operatorErrorRead (p : Party)
  /-- METER_READ_LATCH (R572). A read of a meter's low register latches its high register. -/
  | meterReadLatch (p : Party) (d : Fin 513) (m : Fin 6)
  /-- MMCLR (R576). A write of MMCLR restarts the sensor minimum and maximum registers. -/
  | mmclr (p : Party) (w : Word)
  /-- REGISTER_WRITE (R12). A write to a register with no row of its own is judged field by field and completes OK, DENIED or BARK. -/
  | registerWrite (p : Party) (r : RegId) (w : Word)
  /-- HUB_EDGE (R512). At each 200 MHz hub edge the pad inputs advance through the two-flip-flop synchroniser, lattice output lines are sampled and pads take their new drive. -/
  | hubEdge (pads : BitVec 64)
  /-- PGOOD_CHANGE (R502). A bank running from VIO_x gains or loses PGOOD as its external supply enters or leaves range, and the bank behaves as powered or unpowered. -/
  | pgoodChange (b : Fin 4) (good : Bool)
  /-- REFERENCE_RETURN (R532). REF_IN becomes present and within 100 ppm of FREQ, and REFOK rises. -/
  | referenceReturn (ppm : BitVec 16)
  /-- TAPROOT_RELOCK (R530). The taproot PLL relocks of its own accord after a loss of lock and LOCK returns to 1. -/
  | taprootRelock
  /-- HOST_COMPLETION (R364). Host memory answers a read that the PCIe bridge issued for a descriptor or DMA data, with data, a poisoned completion, UR or CA, or the completion timer expires. -/
  | hostCompletion (v : Fin 512) (q : Fin 8) (a : HostAnswer)
  /-- TAP_INSTRUCTION (R542). The JTAG TAP loads an instruction, entering the test state on EXTEST, CLAMP or HIGHZ in WAIT or SAFE, or BYPASS in their place otherwise. -/
  | tapInstruction (t : TapInstr)
  /-- FENCE_I (R380). A canopy core executes FENCE.I and invalidates its I-cache and fetch buffer after its own stores are visible. -/
  | fenceI (n : Fin 8)
  deriving DecidableEq, Repr

end Sys2Proof
end

