-- ==== Sys2Proof/Config.lean ====
section
/-! DEFINITION. What an implementation fixes, and the values the spec leaves open. Each constant is opaque, so that
no proof can see what it is (log entries 3, 6, 7, 8). -/

namespace Sys2Proof.Config

/-- Heartwood's true random source (R187, R411): the n-th key drawn. UNVERIFIED value, free (log entry 6). -/
opaque randomKey : Nat → BitVec 128

/-- Which of a bank's free cells a grant takes: the spec gives no order (R189). Free (log entry 7). -/
opaque freeCell : Nat → Nat

/-- Whether an RST_N low of 0.5 µs to 1 µs starts a warm reset (R543, R583). Free (log entry 8). -/
opaque shortLowResets : Nat → Bool

/-- The fused device identity (R426). Fixed per device (log entry 9). -/
opaque devid : BitVec 64

/-- ROM version that INFO returns (R426). Fixed per device (log entry 9). -/
opaque romVersion : BitVec 8

/-- The fused image key-encryption key, 32 bytes (R438). Fixed per device (log entry 9). -/
opaque imageKek : Nat

/-- The words of the boot ROM alias (R25), whose contents the spec does not give. Fixed per device (log entry 9). -/
opaque bootRom : Nat → BitVec 32

/-- The eight check bits of a 64-bit word of a flit (R312), whose code the spec does not give. Fixed (log entry 9). -/
opaque flitEcc : BitVec 64 → BitVec 8

/-- Heartwood's mask ROM by word, 0 to 16,383: its code is not stated (R411). -/
opaque heartwoodRom : Nat → BitVec 32

/-- Whether the n-th open value says that a sealed slot of the tenant key registry fails authentication (R417). -/
opaque slotFails : Nat → Bool

/-- A value the spec does not state for an effect it does give: the n-th such value (log entry 3). -/
opaque freeWord : Nat → BitVec 32

end Sys2Proof.Config
end

