-- ==== Sys2Proof/Machine/State.lean ====
section
/-! DEFINITION. The state of the SKV128 as plain data, the reasons a command could stop, and the state after reset.

Every register of a register table lives in `regs` (one 32-bit word per register instance, keyed by `RegName.key`, an
unlisted key reading as the register's reset value); shadow registers have their active copy in `act`. What the spec
keeps outside registers stands in one structure per block. -/

namespace Sys2Proof.Machine

/-- Why a command could stop with a fault. No meaning of this model raises one (log entry 5): the spec's faults are
effects on state. -/
inductive Fault where
  /-- Raised by nobody: the block has no fault that stops it. Safe. -/
  | none
  deriving DecidableEq, Repr

/-- Why a command has no meaning. -/
inductive Refusal where
  /-- Raised only by an arm of `exec` whose command has no meaning yet. Safe: the machine stops. -/
  | notModelled (mnemonic : String)
  deriving DecidableEq, Repr

/-- The shared status codes (R14). -/
inductive Status where
  | ok | fenced | nobuf | freeDup | freeForeign | bark | poison | unmapped | aborted | timeout | denied | drop
  deriving DecidableEq, Repr

/-- What the access or call answered last returned: its status and the words read. The model's own field (log entry 4). -/
structure Answer where
  status : Status
  data   : List Word
  deriving DecidableEq, Repr

/-! ## Tiles and rings -/

/-- The flags of a ring (R37). -/
structure Flags where
  c : Bool
  z : Bool
  n : Bool
  v : Bool
  cond : Bool
  sat : Bool
  aov : Bool
  wfault : Bool
  deriving DecidableEq, Repr

/-- The flag changes of one slot, which land together in fc s+2 (R74, R80, R95). -/
structure FlagUpd where
  /-- C, Z, N, V when FUPD stores them -/
  arith : Option (Bool × Bool × Bool × Bool)
  /-- COND when CUPD stores it -/
  cond : Option Bool
  condOp : BitVec 3
  setSat : Bool
  setWf : Bool
  clrSat : Bool
  clrAov : Bool
  clrWf : Bool
  deriving DecidableEq, Repr

/-- What one MAC does to an accumulator (R83): replace it, or add a signed amount, which stands as a 56-bit word and
its exact value. -/
inductive AccAct where
  | set (v : Int)
  | add (v : Int)
  deriving DecidableEq, Repr

/-- A store of an accumulator (R85): shift, destination register, whether it is written, and whether the accumulator
is cleared after (STC). -/
structure StoreAct where
  acc : Fin 4
  shift : Nat
  dst : Fin 8
  dwr : Bool
  clear : Bool
  deriving DecidableEq, Repr

/-- The MAC work of one slot, which lands in fc s+3 (R74, R83-R89): the changes of MAC0 in order, those of MAC1, the
stores, whether it is a dump slot (R89), whether an operand was poisoned (R87), the output routing and the
tile-memory write that waits for S0 or S1 (R94). -/
structure MacJob where
  acts0 : List (Fin 4 × AccAct)
  acts1 : List (Fin 4 × AccAct)
  st0 : Option StoreAct
  st1 : Option StoreAct
  dump : Bool
  poison : Bool
  outsel : BitVec 16
  memS0 : Option Nat
  memS1 : Option Nat
  deriving DecidableEq, Repr

/-- One effect waiting to land (R74). -/
inductive Effect where
  | dreg (i : Fin 8) (v : W24)
  | ptr (k : Fin 4) (v : BitVec 11)
  | base (k : Fin 4) (v : BitVec 11)
  | len (k : Fin 4) (v : BitVec 12)
  | port (k : Fin 4) (w : CWord)
  | flags (u : FlagUpd)
  | setSat
  | mac (j : MacJob)
  | mem (addr : Nat) (v : W24)
  deriving DecidableEq, Repr

/-- An effect with the fc it lands in and the ring that issued it; a tile's list is in issue order. -/
structure Landing where
  due  : Nat
  ring : Fin 16
  tag  : Tag
  eff  : Effect
  deriving DecidableEq, Repr

/-- A steering update that takes effect in fc `due` (R49); a value of 16 + r takes the flags of ring r as they then stand
(STEER 0x7). -/
structure Steer where
  due : Nat
  group : Nat
  value : Nat
  deriving DecidableEq, Repr

/-- The private state of rings (R37), the steering indices (R38) and the macrocell registers (R132): what a readback
capture copies (R469). Keys: ring 16(64g+t)+r, with 8, 4 entries a ring for `d` and the others; group 16(64g+t)+n;
macrocell 32g+m. -/
structure RingTbls where
  d    : Tbl W24
  acc  : Tbl (BitVec 56)
  p    : Tbl (BitVec 11)
  base : Tbl (BitVec 11)
  len  : Tbl (BitVec 12)
  fl   : Tbl Flags
  sidx : Tbl (BitVec 4)
  mcq  : Tbl Bool
  deriving DecidableEq, Repr

/-- Tiles and rings. -/
structure TileB where
  /-- active ring records (R32), keyed 16(64g+t)+r -/
  recs : Tbl (BitVec 192)
  rst  : RingTbls
  /-- rings held off pending staged release (R39, R70) -/
  held : Tbl Bool
  /-- a shadow OWNER and RIPE awaiting the commit: heartwood's write of R57 -/
  shOwn : Tbl (Option (Tag × Bool))
  land : Tbl (List Landing)
  steer : Tbl (List Steer)
  /-- tile memory, keyed 2048(64g+t)+w (R60) -/
  mem : Tbl W24
  /-- words whose parity is bad (R96) -/
  bad : Tbl Bool
  /-- fc+1 of the last slot a tile took (one slot per fc, R46) -/
  slotAt : Tbl Nat
  /-- fc+1 of the commit request that a grove has outstanding (R57) -/
  commitAt : Tbl Nat
  deriving DecidableEq, Repr

/-- A register stage, an output port or an edge stage: its words oldest first with the fc from which each may move on,
and the fc+1 of its last accept and last release (R116). -/
structure Stage where
  q   : List (Nat × CWord)
  acc : Nat
  rel : Nat
  deriving DecidableEq, Repr

/-- The stream switch. Keys: output 64(64g+t)+o; output port 4(64g+t)+k; lane edge channel 8·lane+k. -/
structure SwitchB where
  sel    : Tbl (BitVec 6)
  stage  : Tbl Stage
  outp   : Tbl Stage
  edgeIn : Tbl Stage
  /-- DROPSEEN of lane group inputs, keyed lane group, and of FIFO write ends, keyed 16+8g+f (R112) -/
  dropSeen : Tbl Bool
  deriving DecidableEq, Repr

/-- The control lattice's records (R140, R141) and the values it keeps between fcs. -/
structure LatticeB where
  isel  : Tbl (BitVec 11)
  pt    : Tbl (BitVec 192)
  mc    : Tbl (BitVec 32)
  quad  : Tbl (BitVec 64)
  sd    : Tbl (BitVec 32)
  line  : Tbl (BitVec 8)
  held  : Tbl Bool
  /-- term, macrocell and quad records the scrubber has replaced, and none rewritten since (R566), keyed 512g + 160 terms, then 32
  macrocells and 8 quads -/
  dead  : Tbl Bool
  /-- outputs L of a grove as last evaluated, and as they stood the fc before -/
  out   : Tbl (BitVec 32)
  prev  : Tbl (BitVec 32)
  /-- fc+1 of the last evaluation -/
  evalAt : Tbl Nat
  /-- decodes in effect this fc, and those the words of this fc set for the next (R127) -/
  sdNow : Tbl (BitVec 16)
  sdNext : Tbl (BitVec 16)
  /-- pin input lines of groves 0-3, keyed 8g+k, and pin output levels (R136) -/
  pinIn : Tbl Bool
  pinOut : Tbl Bool
  deriving DecidableEq, Repr

/-- A stored FIFO entry: its words as they will be delivered (tag not stored, R151), whether it is a gap marker with its count,
and the fc it was accepted in. -/
structure FEntry where
  ws  : List CWord
  gap : Bool
  cnt : Nat
  fc  : Nat
  deriving DecidableEq, Repr

/-- One FIFO's contents and marks (R152, R159): fc+1 of the last entry accepted, the last one that left and the last
flush, and whether the next entry stored carries M 1. -/
structure FifoSt where
  q   : List FEntry
  acc : Nat
  rel : Nat
  flushAt : Nat
  markM : Bool
  deriving DecidableEq, Repr

/-- The stream FIFOs, keyed 8g+f. -/
structure FifoB where
  st   : Tbl FifoSt
  recd : Tbl (BitVec 32)
  /-- held off until stage WEN of a graft, tenant reset or restoration (R494) -/
  held : Tbl Bool
  deriving DecidableEq, Repr

/-! ## Cell exchange and queue engine -/

/-- The state of a cell (R175). -/
inductive CellState where
  | free | assembling | held | queued | body
  deriving DecidableEq, Repr

/-- A link RAM entry (R175): the handle of the next cell, and the packet length in a head cell; `freed` is the fc+1 of the
cell's last freeing (R191). -/
structure Link where
  st    : CellState
  owner : Tag
  next  : Option Handle
  len   : Nat
  freed : Nat
  deriving DecidableEq, Repr

/-- A packet a cell-in port is assembling, or has closed while a cell request of it still stands (R179, R181): its number at
the port, its tag and META data, for each of its cells the handle granted and the words placed in it, the words taken, and
the valid bytes of its closing word once that has come. -/
structure OpenPkt where
  id    : Nat
  tag   : Tag
  mdat  : W24
  cells : List (Option Handle × Nat)
  words : Nat
  closed : Option Nat
  deriving DecidableEq, Repr

/-- A cell in a port's staging (R176, R186): the packet and the place in its chain, the words, the candidate banks, the handle
once granted, and whether it is closed. -/
structure StCell where
  pkt  : Nat
  idx  : Nat
  tag  : Tag
  ws   : List W24
  b1   : Nat
  b2   : Nat
  grant : Option Handle
  closed : Bool
  deriving DecidableEq, Repr

/-- One cell-in port: its pending META, its packets oldest first, the tags of dropped packets whose words are being discarded, its
staging, its request counter (R186), and the chains being freed, each one cell an fc, the next from the fc it carries (R180, R185). -/
structure CellInSt where
  mpend : Option (Tag × W24)
  pkts  : List OpenPkt
  nextId : Nat
  skip  : List Tag
  staging : List StCell
  cnt   : Word
  freeing : List (List Handle × Nat)
  deriving DecidableEq, Repr

/-- A packet in a queue (R210): head cell, length, cells, the fc it was enqueued in and the cell-in port it came from. -/
structure Pkt where
  head  : Handle
  len   : Nat
  cells : Nat
  enq   : Nat
  port  : Nat
  deriving DecidableEq, Repr

/-- A packet a cell-out port delivers: queue, tag, length, the words read and not yet delivered (a word that lies in a bad unit
is `none`), how many words have been delivered, the handle to read next, the cells read and not yet freed, and whether the
chain broke off (R197). -/
structure OutPkt where
  queue : Nat
  tag   : Tag
  len   : Nat
  ready : List (Option W24)
  sent  : Nat
  next  : Option Handle
  cellsRead : List Handle
  broken : Bool
  deriving DecidableEq, Repr

/-- One cell-out port (R192, R193, R213): the selected packet whose META beat is not delivered, with the fc of its selection, and
the fc from which the slot is free; the packet in delivery; and the cells to free, as of a cell-in port. -/
structure CellOutSt where
  slot : Option (Nat × OutPkt)
  slotFree : Nat
  cur  : Option OutPkt
  freeing : List (List Handle × Nat)
  deriving DecidableEq, Repr

/-- A status record waiting at NI 88 (R182, R183), and whether it was held for a wake and released (R337). -/
structure StatusRec where
  port : Nat
  stf  : Nat
  w0   : W24
  w1   : W24
  woken : Bool
  deriving DecidableEq, Repr

/-- The cell exchange. -/
structure CellB where
  /-- words of cells, keyed 64·handle+w -/
  words : Tbl W24
  link  : Tbl Link
  badUnit : Tbl Bool
  inp   : Tbl CellInSt
  outp  : Tbl CellOutSt
  /-- rotating pointers of the banks: grant, write, read (R189, R191, R192) -/
  ptrGrant : Tbl Nat
  ptrWrite : Tbl Nat
  ptrRead  : Tbl Nat
  key   : BitVec 128
  recs  : Tbl (List StatusRec)
  /-- whether the allocated count stood above the fill limit when last judged (R195) -/
  above : Bool
  /-- cells of a tenant a tenant reset is still freeing, keyed tenant (R548) -/
  tfree : Tbl (List Handle)
  /-- fcs at which a bank showed an uncorrectable unit (R564), keyed bank -/
  badAt : Tbl (List Nat)
  /-- fc+1 of the last grant round, and of each bank's last write and read (R189, R191, R192) -/
  grantAt : Nat
  wrAt  : Tbl Nat
  rdAt  : Tbl Nat
  deriving DecidableEq, Repr

/-- What a register write does to a bucket's level in step 2 of its fc (R218, R219): forgive a debt, clip at a lowered burst, or put the
bucket back to 0 (R212). -/
inductive LevelAct where
  | forgive
  | clip (burst : Nat)
  | zero
  deriving DecidableEq, Repr

/-- What has befallen a bucket in this fc (R218): its debit, and the writes in the order they landed. -/
structure BucketDay where
  debit : Nat
  acts  : List LevelAct
  deriving DecidableEq, Repr

/-- A selection of this fc (R222): queue, bough, port and sojourn. -/
structure Selected where
  queue : Nat
  bough : Nat
  port  : Nat
  soj   : Nat
  deriving DecidableEq, Repr

/-- The queue engine beyond its registers. Residues and what befell a bucket in this fc: keyed by the level register's key; deficits keyed
4096·member set and member; pointers keyed by member set (R221). -/
structure QueueB where
  pkts : Tbl (List Pkt)
  resid : Tbl (BitVec 16)
  deficit : Tbl Nat
  ptr  : Tbl Nat
  refill : Nat
  /-- fc+1 of the last bucket refill (R218) -/
  refillAt : Nat
  day  : Tbl BucketDay
  /-- the selections of this fc -/
  sel  : List Selected
  deriving DecidableEq, Repr

/-! ## Tenancy -/

/-- An admitted resource vector (R238, R239). -/
structure AVec where
  cls   : BitVec 2
  sealed : Bool
  items : List (BitVec 64)
  deriving DecidableEq, Repr

/-- Admissions, VF bindings and service-wheel reservations (R237, R247, R356): a bank wheel's position belongs to a port of a domain, a
NoC or DMA one to a domain. -/
structure TenantB where
  adm  : Tbl (Option AVec)
  bind : Tbl (Option Tag)
  wheelIn  : Tbl (Option (Nat × Tag))
  wheelOut : Tbl (Option (Nat × Tag))
  wheelNi  : Tbl (Option Tag)
  wheelDma : Tbl (Option Tag)
  deriving DecidableEq, Repr

/-! ## Lanes and time -/

/-- A frame in the transmit buffer (R276, R279): its command, its words so far, once its end has come whether it is whole, the beats the
line has had of it, and once it is being sent its egress time and the headers that go ahead of it. -/
structure TxFrame where
  cmd  : Nat
  ws   : List CWord
  ended : Option Bool
  sent : Nat
  start : Option (Nat × List Byte)
  deriving DecidableEq, Repr

/-- A lane port's transmit side (R276, R279, R280): the command word that waits, the words of a raw lane, whether a frame is open and
whether the rest of one is being discarded, and the frames in the buffer, oldest first, the open one last. -/
structure TxSt where
  cmd  : Option W24
  ws   : List CWord
  inFrame : Bool
  skip : Bool
  q    : List TxFrame
  deriving DecidableEq, Repr

/-- A Pyril lane's engine (R291, R294, R295): what the peer's last valid hello gave, the hello sequence, the fc of the last valid hello,
that of the last hello sent or of leaving OFF, and whether none has been sent since. -/
structure PyrilSt where
  peerSa : Option (BitVec 48)
  peerEpoch : Option (BitVec 16)
  hseq : Word
  heard : Nat
  helloAt : Nat
  first : Bool
  deriving DecidableEq, Repr

/-- The lane groups beyond their registers. Keys: lane; 32·lane+i for live counters; 256g+s for streams. `rx` holds the rows of
beats that wait for the edge stages (R272, R274). -/
structure LaneB where
  rx   : Tbl (List (List (List CWord)))
  rxGap : Tbl Nat
  tx   : Tbl TxSt
  live : Tbl Word
  py   : Tbl PyrilSt
  sent : Tbl Word
  recv : Tbl Word
  /-- what operator logic has returned since link up: GRANTED is INITCRED plus it (R293) -/
  granted : Tbl Word
  peerGranted : Tbl Word
  changed : Tbl Bool
  /-- codeword lock runs of a raw lane with FEC: consecutive good and bad codewords (R280) -/
  good : Tbl Nat
  badRun : Tbl Nat
  relock : Tbl Bool
  /-- the fc in which a lane's training began (R266) -/
  trainAt : Tbl Nat
  /-- transmitters released from electrical idle by stage OUT (R265) -/
  txOn : Bool
  deriving DecidableEq, Repr

/-- The taproot time base (R286): seconds, nanoseconds and fraction in 2^-32 ns; the step of SET or ADJ that takes effect in the
next fc (R287), in 2^-32 ns; whether this fc was reached by a step; PPS_OUT and the fc it last rose in (R288); and how it has run,
newest first: from which fc on, with what value then and what increment (R283). -/
structure TimeB where
  sec  : BitVec 48
  ns   : Nat
  frac : BitVec 32
  setTo : Option Nat
  adj  : Int
  stepped : Bool
  ppsOut : Bool
  ppsAt : Nat
  hist : List (Nat × Nat × Nat)
  deriving DecidableEq, Repr

/-! ## Network on chip -/

/-- What a requester is (R311): to whom the response of a request belongs. -/
inductive Requester where
  | core (n : Fin 8)
  | heartwood
  | config
  | pf0
  | vf (v : Fin 512)
  | dma (v : Fin 512) (q : Fin 8)
  | cells
  deriving DecidableEq, Repr

/-- A request at its source NI (R311, R313). -/
structure NocReq where
  who  : Requester
  tag  : Tag
  htw  : Bool
  prio : BitVec 2
  dst  : Nat
  write : Bool
  addr : Nat
  words : Nat
  data : List Word
  psn  : Bool
  /-- held for a wake and released (R337) -/
  woken : Bool
  deriving DecidableEq, Repr

/-- A transaction's header as a flit carries it (R313). `op` is 0 READ, 1 WRITE, 2 RDRESP, 3 WRRESP. -/
structure Hdr where
  prio : BitVec 2
  src  : BitVec 7
  dst  : BitVec 7
  route : BitVec 42
  tag  : Tag
  htw  : Bool
  sealed : Bool
  op   : BitVec 2
  txid : BitVec 8
  len  : BitVec 6
  addr : BitVec 24
  status : Status
  deriving DecidableEq, Repr

/-- A flit (R312), with the header of its worm: whether it is the first and the last flit, its VC, PSN, ABT and data words; and, while
routers leave its errors alone (R333), the 64-bit words hit so far, once for each wrong bit. -/
structure Flit where
  hdr  : Hdr
  head : Bool
  tail : Bool
  vc   : Nat
  psn  : Bool
  abt  : Bool
  data : List Word
  hits : List (Fin 4)
  deriving DecidableEq, Repr

/-- A request waiting at a target NI (R321), with the fc its tail arrived in. -/
structure TReq where
  hdr  : Hdr
  data : List Word
  psn  : Bool
  abt  : Bool
  fc   : Nat
  deriving DecidableEq, Repr

/-- The request in service at a target NI that moves words of tile memory or FIFO entries one an fc (R160, R321): how many units it
moves, how many have moved, the units whose parity is found bad, and the words read, with those that cannot be trusted. The hub's register
accesses go one an edge (R512). -/
structure Svc where
  req   : TReq
  units : Nat
  done  : Nat
  upset : List Nat
  got   : List (Bool × Word)
  /-- the first status that is not OK (R345, R512) -/
  st    : Status
  deriving DecidableEq, Repr

/-- An access to the direct window that is held for a wake (R337), with its issuer, what the ECC finds, and whether a core's bus made it. -/
structure HeldDirect where
  party : Party
  acc   : Access
  health : UnitHealth
  bus   : Bool
  deriving DecidableEq, Repr

/-- An outstanding request of a source NI, and the fc its head was injected in (R326, R335, R338). `dead` when its requester no longer
waits. -/
structure Outst where
  txid : BitVec 8
  req  : NocReq
  sent : Option Nat
  sealed : Bool
  dead : Bool
  deriving DecidableEq, Repr

/-- A response that has reached a source NI (R334): its header, data, and the words of poisoned flits. -/
structure NResp where
  hdr  : Hdr
  data : List Word
  psn  : Bool
  fc   : Nat
  deriving DecidableEq, Repr

/-- The network on chip. Keys: source NI by node; the routes in force 128·ni+d; injection levels 2048·(ni-84)+i; router
buffers 4·(8·(64·plane+r)+in)+vc, in 4 the grove NI's and 5 the edge NI's, whose flits carry the fc they are at the router; the flits that
wait at an NI for such a buffer under its key;
outputs 8·(64·plane+r)+out, with held VCs 4·output+vc; flits arrived at an NI 4·(128·plane+node)+vc. -/
structure NocB where
  waiting : Tbl (List NocReq)
  outst   : Tbl (List Outst)
  route   : Tbl (BitVec 42)
  level   : Tbl Int
  /-- fc+1 of an NI's last issue in a reserved position (R251, R331) -/
  sealAt  : Tbl Nat
  /-- flits of worms that wait at their NI, and fc+1 of the last flit that entered its router there (R323) -/
  niq     : Tbl (List Flit)
  niAt    : Tbl Nat
  rbuf    : Tbl (List (Nat × Flit))
  hold    : Tbl (Option Nat)
  /-- the input and VC an output forwarded from last, for the round robin, and fc+1 of its last flit (R325) -/
  rr      : Tbl Nat
  fwd     : Tbl Nat
  ej      : Tbl (List Flit)
  tq      : Tbl (List TReq)
  svc     : Tbl (Option Svc)
  arrived : Tbl (List NResp)
  /-- a worm whose head was discarded: its flits at this buffer go until its tail (R332) -/
  purge   : Tbl Bool
  /-- wake requests of powered-down domains, by domain: fc+1 of the asking, 0 once that wait is over and the domain not ready (R337) -/
  wake    : Tbl (Option Nat)
  directs : List HeldDirect
  alarm   : Bool
  newMode : Option Word
  nextId  : Nat
  /-- fc+1 of the last refill of the injection buckets (R328) -/
  refillAt : Nat
  deriving DecidableEq, Repr

/-! ## Host interface -/

/-- A descriptor's fields (R362). -/
structure Desc where
  haddr : BitVec 64
  len   : Nat
  op    : BitVec 4
  target : BitVec 28
  irq   : Bool
  cookie : BitVec 16
  deriving DecidableEq, Repr

/-- What a queue pair waits for. -/
inductive DmaPhase where
  | idle | fetching | ready | hostData | chunkOut | ended (st : Status)
  deriving DecidableEq, Repr

/-- A queue pair beyond its registers: PHASE of the next completion entry, what it waits for, the descriptor in progress, the bytes
moved by chunks that completed OK, host data read ahead with the words of poisoned completions marked, whether the entry of
the descriptor in progress goes unwritten, and the fc in which its next chunk became ready. -/
structure DmaSt where
  phase : Bool
  st    : DmaPhase
  desc  : Option Desc
  done  : Nat
  hostWords : List (Bool × Word)
  entryOff : Bool
  since : Nat
  deriving DecidableEq, Repr

/-- The PCIe bridge beyond its registers. Keys: VF; 8·VF+q. -/
structure HostB where
  verr  : Tbl (List (BitVec 64))
  /-- what has found no room in its queue in this fc, the records of a report together: a removal of this fc still makes room (R358, R561) -/
  vlate : Tbl (List (List (BitVec 64)))
  vfev  : Tbl (List (BitVec 9))
  dma   : Tbl DmaSt
  /-- the pair that started a chunk last, plus 1, and fc+1 of that start (R368) -/
  dmaRr : Nat
  dmaAt : Nat
  /-- a submission's words, its length as taken at OPEN, and the fc of its last write (R371) -/
  gstage : Tbl (List Word)
  glen  : Tbl Nat
  gtime : Tbl Nat
  bar2  : List Word
  /-- MSI-X messages sent, newest first: function (0 PF0, v+1 VF v) and vector -/
  msix  : List (Nat × Nat)
  /-- writes to host memory by the bridge, newest first: address and words -/
  hostWr : List (BitVec 64 × List Word)
  deriving DecidableEq, Repr

/-! ## Dispatcher and canopy -/

/-- The state of a thread (R381). -/
inductive ThState where
  | free | ready | running | waitSem | waitEg | waitEv | delayed
  deriving DecidableEq, Repr

/-- A thread table entry (R381). `wakeSet` and `dlSet` say that the thread is in the wake or deadline list, `wakeOrd` and
`dlOrd` in which order it was inserted. `all` and `clr` are the flags of an EGWAIT; `since` is the fc it became READY. -/
structure Thread where
  st   : ThState
  prio : BitVec 6
  aff  : BitVec 8
  tag  : BitVec 20
  core : Fin 8
  obj  : BitVec 10
  wake : Word
  wakeSet : Bool
  wakeOrd : Nat
  dl   : Word
  dlSet : Bool
  dlOrd : Nat
  seq  : Word
  wmask : Word
  all  : Bool
  clr  : Bool
  wval : Word
  reason : BitVec 2
  since : Nat
  deriving DecidableEq, Repr

/-- A core as the dispatcher sees it (R386, R388, R400): held in TAKE, its current thread, whether its pre-emption request is
raised, and the load of this interval and the last. -/
structure CoreSt where
  held : Bool
  cur  : Option (Fin 1024)
  preq : Bool
  busyFrom : Nat
  busy : Nat
  takes : Nat
  deriving DecidableEq, Repr

/-- An event binding (R395). -/
inductive Binding where
  | none
  | thread (i : BitVec 10)
  | group (i : BitVec 10) (bit : BitVec 5)
  deriving DecidableEq, Repr

/-- A core's access to a device region that waits, with what the ECC finds in cells it reads (R377). -/
structure BusAcc where
  acc : Access
  health : UnitHealth
  deriving DecidableEq, Repr

/-- The dispatcher, and the canopy's memories. -/
structure DispB where
  thr   : Tbl Thread
  seqc  : Word
  ord   : Nat
  cores : Tbl CoreSt
  bind  : Tbl Binding
  pend  : Tbl Bool
  asserting : List (Nat × Nat)
  miss  : List (BitVec 10)
  trace : List (BitVec 64)
  /-- the core and the source served last, and whether the class served last was the cores' (R384) -/
  lastCore : Nat
  lastSrc  : Nat
  lastCmd  : Bool
  /-- fc of the last and of the next tick boundary, and whether one has passed whose tick operation has not run (R397) -/
  tickFrom : Nat
  nextTick : Nat
  tickDue  : Bool
  audited : Bool
  /-- canopy SRAM and TCM words, keyed by word, with poisoned words (R565) -/
  csram : Tbl Word
  cpoison : Tbl Bool
  tcm   : Tbl Word
  /-- I-cache lines and fetch-buffer words a core holds, by core (R380) -/
  icache : Tbl (List (Nat × Word))
  fbuf   : Tbl (List (Nat × Word))
  coresHeld : Bool
  /-- the cores' own state (R376): CSRs keyed 4096·core and number, cores in U mode, LR reservations as the address of a doubleword, and the
  device accesses of a core that wait for an earlier one (R377) -/
  csr    : Tbl (BitVec 64)
  umode  : Tbl Bool
  resv   : Tbl (Option Nat)
  busq   : Tbl (List BusAcc)
  deriving DecidableEq, Repr

/-! ## Heartwood -/

/-- A fused operator key slot (R415). -/
structure KeySlot where
  hash : BitVec 384
  prog : Bool
  rev  : Bool
  deriving DecidableEq, Repr

/-- What waits in heartwood's queue (R423). -/
inductive CallSrc where
  | chan (n : Fin 9)
  | graft (v : Fin 512)
  | opGraft
  deriving DecidableEq, Repr

/-- What a judged call waits for before its response: the commits of groves (R240); the end of a tenant's freeing, found in fc
`since`, then step 3 of R548 in the groves listed and their stage RUN; or a domain to be off or restored (R539, R541). -/
inductive CallUntil where
  | commits (groves : List Nat)
  | tenantRun (t : Tag) (groves : List Nat) (since : Option Nat)
  | domain (d : Nat) (on : Bool)
  deriving DecidableEq, Repr

/-- A call that has been judged and waits before its response: its channel, what for, the response words, and the tenant whose vector it
changes with that vector as it was (R414). -/
structure CallWait where
  ch : Fin 9
  what : CallUntil
  rsp : List Word
  old : Option (Nat × Option AVec)
  deriving DecidableEq, Repr

/-- A debug token in force (R429). -/
structure DbgTok where
  mask : BitVec 8
  slot : BitVec 2
  expiry : BitVec 48
  deriving DecidableEq, Repr

/-- Whom an error record is addressed to (R558). -/
inductive RecDest where
  | domain (t : Tag)
  | heartwood
  | both (t : Tag)
  deriving DecidableEq, Repr

/-- One of heartwood's two cores (R411): its registers and pc, and whether it runs. -/
structure HtCore where
  x  : Tbl Word
  pc : Word
  runs : Bool
  deriving DecidableEq, Repr

def HtCore.zero : HtCore := ⟨[], 0, false⟩

/-- Heartwood and the persistent bank beyond their registers. -/
structure HeartB where
  keys  : Tbl KeySlot
  tkeys : Tbl (Option (BitVec 768))
  monoNvm : Word
  fwSvn : Word
  /-- the debug tokens in force (R429) -/
  dbg   : List DbgTok
  rtcSec : BitVec 48
  rtcSub : BitVec 15
  /-- queued calls and graft submissions in the order heartwood takes them, each with the 200 MHz cycle it landed in (R423) -/
  callq : List (Nat × CallSrc)
  wait  : Option CallWait
  /-- error records on their way (R557), oldest first -/
  recs  : List (RecDest × BitVec 64)
  log   : List (BitVec 64)
  oerr  : List (BitVec 64)
  /-- records that found the operator queue full in this fc, and enter it if a read makes room in the same fc (R358, R559) -/
  olate : List (BitVec 64)
  fatalTold : Bool
  /-- the lockstep pair, the second two cycles behind the first, and the private SRAM by 32-bit word (R411) -/
  core0 : HtCore
  core1 : HtCore
  sram  : Tbl Word
  /-- the bank lost its contents before this power-up, and heartwood has not yet seen it (R420, R431) -/
  lossNew : Bool
  /-- the fc at which the bank's cell holds 30 days' charge again (R430, R434) -/
  lowUntil : Nat
  deriving DecidableEq, Repr

/-! ## Configuration -/

/-- What kind of session owns a configuration port (R454, R463, R467, R484): an image's, or that of a file whose header has not come;
an operator graft file's with its words so far; a readback; or the rest of a session whose header was refused. -/
inductive SessKind where
  | image
  | graft (got : List Word)
  | readback
  | skip
  deriving DecidableEq, Repr

/-- An open session (R454, R463): its port, its kind and the fc of its last word. -/
structure Session where
  port : CfgPort
  kind : SessKind
  last : Nat
  deriving DecidableEq, Repr

/-- Where the image of a load comes from: a port, or an NVM address and whether it is the seed's (R464). -/
inductive LoadSrc where
  | host (p : CfgPort)
  | nvm (addr : Nat) (seed : Bool)
  deriving DecidableEq, Repr

/-- A load in progress (R440-R444, R457): where its image comes from, whether it was begun from SAFE, whether it has passed the
checks made before its start, whether it has started (R451); its header and key blocks, the content key and IV in use, the
command words as received, the running CRC-32C, whether the last command was a CHECKPOINT, whether SET_DEVICE has come, how far
the order of kind 6 frames has come (0 port tables, 1 vectors, 2 the rest), the previous frame (R443), whether RELEASE_ORDER has
come, the stages' order and gaps, whether END has come, what SET_DEVICE said of PLLs and bank supplies, whether the operator's
vector has come, and for LOCK and RELEASE: the fc at which the wait for PLLs fails, the fc of the next stage and how many
stages are taken. -/
structure Load where
  src  : LoadSrc
  fromSafe : Bool
  /-- the seed image loads in FALLBACK (R464) -/
  fallback : Bool
  ready : Bool
  started : Bool
  hdr  : List Word
  keys : List Word
  ckey : Nat
  cipher : List Word
  crc  : BitVec 32
  checked : Bool
  setDev : Bool
  phase : Nat
  prev : Option (Word × List Word)
  ordered : Bool
  order : List Nat
  gap1 : Nat
  gap2 : Nat
  ended : Bool
  pllen : Nat
  supply : Nat
  opVec : Bool
  lockBy : Nat
  relAt : Nat
  relStep : Nat
  deriving DecidableEq, Repr

/-- The configuration controller beyond its registers. -/
structure CfgB where
  sess : Option Session
  load : Option Load
  /-- the image that runs: where it came from and whether its load was begun from SAFE (R464, R466) -/
  runSrc : Option LoadSrc
  runSafe : Bool
  /-- the fc at which the armed watchdog expires (R466) -/
  wdogAt : Nat
  nvm  : Tbl Byte
  cap  : RingTbls
  capped : Tbl Bool
  /-- readback words ready for BAR2, or sent on SCP or PCP (R468) -/
  reply : List Word
  /-- the release stage OUT of the device, and WEN of each grove, are taken (R458, R494) -/
  outDone : Bool
  wenGrove : Tbl Bool
  deriving DecidableEq, Repr

/-! ## Grafts -/

/-- Which graft a shadow comes from (R489, R490). -/
inductive Origin where
  | file (owner : Tag) (n : Nat)
  | port (owner : Tag) (cg : BitVec 2)
  deriving DecidableEq, Repr

/-- A record awaiting its commit (R490): its kind (R481), tile or grove index, record index and bits. -/
structure GShadow where
  org  : Origin
  kind : BitVec 4
  tile : BitVec 12
  idx  : BitVec 8
  bits : BitVec 192
  /-- the fc of the commit request that takes it in, once there is one (R485, R489) -/
  asked : Option Nat
  deriving DecidableEq, Repr

/-- A commit request (R491): the graft and the fc of the request. -/
structure GCommit where
  org : Origin
  grove : Nat
  fc  : Nat
  deriving DecidableEq, Repr

/-- A staged release (R494) in a grove from its commit fc c: the rings, FIFOs and macrocells it holds. -/
structure Staged where
  grove : Nat
  c     : Nat
  org   : Option Origin
  tenant : Option Tag
  wen   : Bool
  rings : List Nat
  fifos : List Nat
  mcs   : List Nat
  deriving DecidableEq, Repr

/-- A graft file being judged or awaiting its release (R485, R495). -/
structure GFile where
  org : Origin
  vf  : Option (Fin 512)
  groves : List Nat
  fenced : Bool
  deriving DecidableEq, Repr

/-- Grafts beyond their registers. -/
structure GraftB where
  sh   : List GShadow
  req  : List GCommit
  staged : List Staged
  files : List GFile
  nfile : Nat
  opStage : List Word
  /-- the port's command under assembly (R487): the words taken since its SOP; and its complete commands, at most four (R488) -/
  port : List CWord
  cmds : List (List CWord)
  deriving DecidableEq, Repr

/-! ## Pins, power, measurement -/

/-- Pins and serial ports beyond their registers (R512-R523): the pad samples of the last two hub edges, what the pads drive, the
lattice output lines as last sampled, fc+1 of the last edge; whether pads are held at high impedance through a load, the pins
whose settings a load keeps and whether it keeps the selects of class C, and the tables of kind 7 that wait for stage OUT. Serial
keys: 16·kind+n with kinds UART 0, SPI 1, two-wire 2, MDIO 3. -/
structure PinB where
  sync1 : BitVec 64
  sync2 : BitVec 64
  padOut : BitVec 64
  padEn : BitVec 64
  linesSeen : BitVec 32
  edgeAt : Nat
  /-- one more than the fc of the hub's last register access (R512) -/
  accAt : Nat
  /-- pattern units whose condition counted at the last edge and that have yet to assert (R515) -/
  patHit : BitVec 8
  /-- one more than the fc of a timer's last step (R516) -/
  timerAt : Tbl Nat
  held : Bool
  kept : BitVec 64
  keptC : Bool
  pinTab : Option (List Word)
  fnTab : Option (List Word)
  outTab : Option (List Word)
  txq  : Tbl (List (BitVec 16))
  rxq  : Tbl (List (BitVec 16))
  /-- the two-wire port is inside a transfer; it discards commands up to a STOP -/
  inXfer : Tbl Bool
  skipTo : Tbl Bool
  /-- chip selects at 0, and the MDIO command in hand -/
  spiCs : Tbl (BitVec 4)
  mdio : Tbl (Option Word)
  /-- a timer's prescaler count, the PER, CMP and PRESC in force, and its capture input at the last edge -/
  presc : Tbl Nat
  per  : Tbl Word
  cmp  : Tbl Word
  prsc : Tbl Word
  capPrev : Tbl Bool
  deriving DecidableEq, Repr

/-- A warm reset in progress (R543): the fc it started in, the first fc in which it may end and whether the thermal hold lasts
(R549). -/
structure WarmSt where
  start : Nat
  until' : Nat
  thermal : Bool
  deriving DecidableEq, Repr

/-- Power and reset beyond the registers. -/
structure PowerB where
  warm : Option WarmSt
  cold : Bool
  /-- domains a DOMAIN call or a rail fault is switching: fence asked, by domain -/
  fenceAsk : Tbl Bool
  /-- domains whose NI drains: fc+1 of the FENCE_REQ (R336); and the fc from which an acknowledged domain's boundaries are closed (R539) -/
  draining : Tbl Nat
  closeAt : Tbl Nat
  restoring : Tbl Bool
  /-- lane groups that are closed and not yet off: the fc by which they are switched off (R539) -/
  offAt : Tbl Nat
  /-- groves that have taken RUN in this fc and run from the next (R43) -/
  runNext : Tbl Bool
  /-- domains whose rail is out of range and that are not yet switched off (R564) -/
  railBad : Tbl Bool
  test : TapInstr
  deriving DecidableEq, Repr

/-- Meters (R571) and sensor bookkeeping (R568). Meter key 8d+m. -/
structure MeasB where
  meter : Tbl (BitVec 64)
  mmRestart : Bool
  deriving DecidableEq, Repr

/-- Parts of the state as they stood when this fc began: what a rule takes "at the start of the fc", "before the fc" or "from the next fc"
(R31, R94, R152, R170, R187, R188, R208, R213, R218, R220, R230, R306). The model's own field (log entry 127): the registers, tile memory and
its parity, the FIFOs, the cell exchange, the queue engine, the groves past stage WEN, and the live lane counters. -/
structure Start where
  regs : Tbl Word
  mem  : Tbl W24
  bad  : Tbl Bool
  ff   : Tbl FifoSt
  cx   : CellB
  qe   : QueueB
  wen  : Tbl Bool
  live : Tbl Word
  deriving DecidableEq, Repr

/-- The state of the SKV128. -/
structure State where
  /-- commands waiting, first in, first out -/
  pending : List Instr
  answer  : Answer
  /-- what the last command put on an outside line: bytes, frame words or levels (log entry 4) -/
  line    : List Nat
  /-- which free value comes next (log entry 3) -/
  free    : Nat
  /-- fc since cold reset (R534) -/
  fc      : Nat
  regs    : Tbl Word
  act     : Tbl Word
  tl : TileB
  sw : SwitchB
  lt : LatticeB
  ff : FifoB
  cx : CellB
  qe : QueueB
  tn : TenantB
  ln : LaneB
  tb : TimeB
  nc : NocB
  hi : HostB
  dp : DispB
  ht : HeartB
  cf : CfgB
  gr : GraftB
  gp : PinB
  pw : PowerB
  ms : MeasB
  /-- the parts above as this fc began -/
  was : Start
  deriving DecidableEq, Repr

/-! ## Reset -/

def RingTbls.zero : RingTbls := ⟨[], [], [], [], [], [], [], []⟩
def TileB.zero : TileB := ⟨[], RingTbls.zero, [], [], [], [], [], [], [], []⟩
def SwitchB.zero : SwitchB := ⟨[], [], [], [], []⟩
def LatticeB.zero : LatticeB := ⟨[], [], [], [], [], [], [], [], [], [], [], [], [], [], []⟩
def FifoB.zero : FifoB := ⟨[], [], []⟩
def CellB.zero : CellB := ⟨[], [], [], [], [], [], [], [], Config.randomKey 0, [], false, [], [], 0, [], []⟩
def QueueB.zero : QueueB := ⟨[], [], [], [], 0, 0, [], []⟩
def TenantB.zero : TenantB := ⟨[], [], [], [], [], []⟩
def LaneB.zero : LaneB := ⟨[], [], [], [], [], [], [], [], [], [], [], [], [], [], false⟩
def TimeB.zero : TimeB := ⟨0, 0, 0, none, 0, false, false, 0, []⟩
def NocB.zero : NocB := ⟨[], [], [], [], [], [], [], [], [], [], [], [], [], [], [], [], [], [], false, none, 0, 0⟩
def HostB.zero : HostB := ⟨[], [], [], [], 0, 0, [], [], [], [], [], []⟩
def DispB.zero : DispB := ⟨[], 0, 0, [], [], [], [], [], [], 0, 0, false, 0, 1000000, false, false, [], [], [], [], [], true, [], [], [], []⟩
def HeartB.zero : HeartB := ⟨[], [], 0, 0, [], 0, 0, [], none, [], [], [], [], false, .zero, .zero, [], false, 0⟩
def CfgB.zero : CfgB := ⟨none, none, none, false, 0, [], RingTbls.zero, [], [], false, []⟩
def GraftB.zero : GraftB := ⟨[], [], [], [], 0, [], [], []⟩
def PinB.zero : PinB := ⟨0, 0, 0, 0, 0, 0, 0, 0, [], false, 0, false, none, none, none, [], [], [], [], [], [], [], [], [], [], []⟩
def PowerB.zero : PowerB := ⟨none, false, [], [], [], [], [], [], [], .bypass⟩
def MeasB.zero : MeasB := ⟨[], true⟩

def Start.zero : Start := ⟨[(RegName.ckStat.ctorIdx, 0x80000000#32)], [], [], [], CellB.zero, QueueB.zero, [], []⟩

/-- The machine right after cold reset, in fc 0: every register at the Reset column of its table (R9), but that the taproot PLL is
locked from fc 0 on (R534), so that LOCK of CK_STAT reads 1; every queue and
buffer empty, every domain CD0 to CD95 off (R537), the controller in HTBOOT (R544), the canopy cores held (R535). The
placement key is the random source's first (R187, log entry 6). -/
def State.reset : State where
  pending := []
  answer  := ⟨.ok, []⟩
  line    := []
  free    := 1
  fc      := 0
  regs    := [(RegName.ckStat.ctorIdx, 0x80000000#32)]
  act     := []
  tl := TileB.zero
  sw := SwitchB.zero
  lt := LatticeB.zero
  ff := FifoB.zero
  cx := CellB.zero
  qe := QueueB.zero
  tn := TenantB.zero
  ln := LaneB.zero
  tb := TimeB.zero
  nc := NocB.zero
  hi := HostB.zero
  dp := DispB.zero
  ht := HeartB.zero
  cf := CfgB.zero
  gr := GraftB.zero
  gp := PinB.zero
  pw := PowerB.zero
  ms := MeasB.zero
  was := Start.zero

end Sys2Proof.Machine
end

