-- ==== Sys2Proof/Machine/Ops.lean ====
section
/-! DEFINITION. The named operations over tables and bit fields, and the operations every block shares: raising the operator
alarm count (R12, R560), asserting a dispatcher event source (R23), sending an error record (R554, R557), and answering
an access. -/

namespace Sys2Proof

/-- What a table holds at key `k`, `d` for a key it does not list. -/
def Tbl.rd {α : Type} (t : Tbl α) (k : Nat) (d : α) : α :=
  match t with
  | [] => d
  | (k', v) :: r => if k' = k then v else Tbl.rd r k d

/-- Put an entry before the first one of a greater key. -/
def Tbl.ins {α : Type} (t : Tbl α) (k : Nat) (v : α) : Tbl α :=
  match t with
  | [] => [(k, v)]
  | (k', v') :: r => if k < k' then (k, v) :: (k', v') :: r else (k', v') :: Tbl.ins r k v

/-- A table without key `k`. -/
def Tbl.del {α : Type} (t : Tbl α) (k : Nat) : Tbl α :=
  match t with
  | [] => []
  | (k', v) :: r => if k' = k then Tbl.del r k else (k', v) :: Tbl.del r k

/-- Write `v` at key `k`; a value equal to the default `d` leaves no entry, so that equal tables are equal data. -/
def Tbl.wr {α : Type} [DecidableEq α] (t : Tbl α) (k : Nat) (d v : α) : Tbl α :=
  if v = d then t.del k else (t.del k).ins k v

/-- Change what a table holds at key `k`. -/
def Tbl.up {α : Type} [DecidableEq α] (t : Tbl α) (k : Nat) (d : α) (f : α → α) : Tbl α :=
  t.wr k d (f (t.rd k d))

/-- Drop every key from `lo` up to but not including `hi`. -/
def Tbl.clr {α : Type} (t : Tbl α) (lo hi : Nat) : Tbl α :=
  t.filter (fun e => !(decide (lo ≤ e.1) && decide (e.1 < hi)))

/-- Keys strictly rising, each above `lo`. -/
def Tbl.rising {α : Type} (t : Tbl α) (lo : Nat) : Bool :=
  match t with
  | [] => true
  | (k, _) :: r => decide (lo ≤ k) && Tbl.rising r (k + 1)

/-- The canonical form of a table: keys strictly rising and no entry equal to the default. -/
def Tbl.wf {α : Type} [DecidableEq α] (t : Tbl α) (d : α) : Bool :=
  Tbl.rising t 0 && t.all (fun e => decide (e.2 ≠ d))

/-! ## Parties -/

/-- The bark tag a party's accesses carry (R27, R311). -/
def Party.tag : Party → Tag
  | .tenant t => BitVec.ofNat 10 t.val
  | _ => opTag

/-- Whether the party is the operator: the canopy, or the host through PF0 (R11). -/
def Party.isOp : Party → Bool
  | .core _ => true
  | .pf0 => true
  | _ => false

namespace Machine

/-! ## Bits -/

/-- Field [hi:lo] of a number. -/
def bits (n hi lo : Nat) : Nat := n / 2 ^ lo % 2 ^ (hi + 1 - lo)

/-- Bit `i` of a number. -/
def bit (n i : Nat) : Bool := n / 2 ^ i % 2 == 1

/-- A number with field [hi:lo] set to `v`. -/
def setBits (n hi lo v : Nat) : Nat :=
  n - bits n hi lo * 2 ^ lo + v % 2 ^ (hi + 1 - lo) * 2 ^ lo

/-- A Boolean as a bit. -/
def b2n (b : Bool) : Nat := if b then 1 else 0

/-- Addition that stops at the largest value of `w` bits. -/
def satAdd (w a b : Nat) : Nat := min (a + b) (2 ^ w - 1)

/-- The signed value of the low `w` bits of a number. -/
def sgn (w n : Nat) : Int :=
  let m := n % 2 ^ w
  if m < 2 ^ (w - 1) then (m : Int) else (m : Int) - (2 ^ w : Nat)

/-- The low `w` bits of a signed number. -/
def unsgn (w : Nat) (i : Int) : Nat := (i % ((2 ^ w : Nat) : Int)).toNat

/-- Clip a signed number to `w` bits. -/
def clip (w : Nat) (i : Int) : Int :=
  let top : Int := ((2 ^ (w - 1) : Nat) : Int)
  if i > top - 1 then top - 1 else if i < -top then -top else i

/-- The bits of a mask that are set, lowest first, below `w`. -/
def ones (w n : Nat) : List Nat := (List.range w).filter (bit n)

/-- Whether a number has an odd count of ones among its low `w` bits. -/
def oddOnes (w n : Nat) : Bool := (ones w n).length % 2 == 1

/-- The elements of `l` with a function that may skip some; stops at the first that answers. -/
def firstSome {α β : Type} (f : α → Option β) : List α → Option β
  | [] => none
  | a :: r => match f a with
    | some b => some b
    | none => firstSome f r

/-- The list turned so that it starts at element `k`: what a rotation examines in order. -/
def rotate {α : Type} (l : List α) (k : Nat) : List α := l.drop (k % l.length) ++ l.take (k % l.length)

/-- Bytes to a number, most significant first. -/
def bytesBE (l : List Byte) : Nat := l.foldl (fun n b => n * 256 + b.toNat) 0

/-- Bytes to a number, least significant first. -/
def bytesLE : List Byte → Nat
  | [] => 0
  | b :: r => b.toNat + 256 * bytesLE r

/-- `k` bytes of a number, least significant first. -/
def toLE : Nat → Nat → List Byte
  | 0, _ => []
  | k + 1, n => BitVec.ofNat 8 n :: toLE k (n / 256)

/-- `k` bytes of a number, most significant first. -/
def toBE (k n : Nat) : List Byte := (toLE k n).reverse

/-- Words to bytes, each little-endian (R8). -/
def wordsBytes (ws : List Word) : List Byte := ws.flatMap (fun w => toLE 4 w.toNat)

/-- Bytes to little-endian words; a last word short of bytes is filled with zeros. -/
def bytesWords : List Byte → List Word
  | a :: b :: c :: d :: r => BitVec.ofNat 32 (bytesLE [a, b, c, d]) :: bytesWords r
  | [] => []
  | l => [BitVec.ofNat 32 (bytesLE l)]

/-- The status code of R14. -/
def Status.code : Status → Nat
  | .ok => 0 | .fenced => 1 | .nobuf => 2 | .freeDup => 3 | .freeForeign => 4 | .bark => 5
  | .poison => 6 | .unmapped => 7 | .aborted => 8 | .timeout => 9 | .denied => 10 | .drop => 11

/-- Apply a change for each element, first to last. -/
def forEach {α : Type} (l : List α) (s : State) (f : α → State → State) : State :=
  l.foldl (fun s a => f a s) s

/-- The command did what it does. -/
abbrev Res := Host.Outcome State Fault Refusal

/-- Answer an access with a status and data. -/
def State.ans (s : State) (st : Status) (ws : List Word) : State := { s with answer := ⟨st, ws⟩ }

/-! ## The start of the fc (log entry 127) -/

/-- An fc begins: what its decisions are made on is what stands now. -/
def State.beginFc (s : State) : State :=
  { s with
    qe := { s.qe with day := [], sel := [] }
    was := ⟨s.regs, s.tl.mem, s.tl.bad, s.ff.st, s.cx, s.qe, s.cf.wenGrove, s.ln.live⟩ }

/-- The state with those parts as they stood when the fc began. -/
def State.atStart (s : State) : State :=
  { s with
    regs := s.was.regs
    tl := { s.tl with mem := s.was.mem, bad := s.was.bad }
    ff := { s.ff with st := s.was.ff }
    cx := s.was.cx
    qe := s.was.qe
    cf := { s.cf with wenGrove := s.was.wen }
    ln := { s.ln with live := s.was.live } }

/-! ## Events and records -/

/-- An event source asserts: its pending bit is set at the first even fc at or after fc + 3 (R394). -/
def State.assertSrc (s : State) (e : Nat) : State :=
  { s with dp := { s.dp with asserting := s.dp.asserting ++ [(e, (s.fc + 4) / 2 * 2)] } }

/-- An error record (R554). -/
def mkRec (cls : Nat) (tag : Tag) (block code detail : Nat) : BitVec 64 :=
  BitVec.ofNat 64 (cls * 2 ^ 56 + tag.toNat * 2 ^ 46 + block % 64 * 2 ^ 40 + code % 256 * 2 ^ 32 + detail % 2 ^ 32)

/-- Send an error record on its way (R557). -/
def State.sendRec (s : State) (d : RecDest) (r : BitVec 64) : State :=
  { s with ht := { s.ht with recs := s.ht.recs ++ [(d, r)] } }

/-- A record addressed to the domain of its tag. -/
def State.tellOwner (s : State) (cls : Nat) (tag : Tag) (block code detail : Nat) : State :=
  s.sendRec (.domain tag) (mkRec cls tag block code detail)

/-- A record of tag 0x200 addressed to the operator. -/
def State.tellOp (s : State) (cls block code detail : Nat) : State :=
  s.sendRec (.domain opTag) (mkRec cls opTag block code detail)

/-- A record addressed to heartwood alone. -/
def State.tellHeart (s : State) (cls : Nat) (tag : Tag) (block code detail : Nat) : State :=
  s.sendRec .heartwood (mkRec cls tag block code detail)

/-- The next free value (log entry 3), and the state that will give another one after it. -/
def State.freeWord (s : State) : Word × State := (Config.freeWord s.free, { s with free := s.free + 1 })

/-- The next open value that is a status of the shared table (R14). -/
def State.freeCode (s : State) : Nat × State := ((Config.freeWord s.free).toNat % 12, { s with free := s.free + 1 })

end Machine
end Sys2Proof
end

