-- ==== Sys2Proof/Machine/Regs.lean ====
section
/-! DEFINITION. The register tables of the spec (R9): each register's fields with type, reset value and writers; the
register file's operations; and the one engine that judges a write field by field (R10, R12, R13). -/

namespace Sys2Proof

open Machine

/-- A field's type (R10). `wo` is also a W1S field that reads 0; `wa` is a WO field whose meaning says any write acts. -/
inductive FTy where
  | rw | ro | wo | wa | w1c | w1s
  deriving DecidableEq, Repr

/-- One row of a register table: bits, type, reset value, and whether H, O and T are among its writers. -/
structure Field where
  hi : Nat
  lo : Nat
  ty : FTy
  rst : Nat
  h : Bool
  o : Bool
  t : Bool
  deriving DecidableEq, Repr

/-- RW, writer H. -/
def fH (hi lo rst : Nat) : Field := ⟨hi, lo, .rw, rst, true, false, false⟩
/-- RW, writer O. -/
def fO (hi lo rst : Nat) : Field := ⟨hi, lo, .rw, rst, false, true, false⟩
/-- RW, writer T. -/
def fT (hi lo rst : Nat) : Field := ⟨hi, lo, .rw, rst, false, false, true⟩
/-- RW, writers O and T. -/
def fOT (hi lo rst : Nat) : Field := ⟨hi, lo, .rw, rst, false, true, true⟩
/-- RW, writers H and O. -/
def fHO (hi lo rst : Nat) : Field := ⟨hi, lo, .rw, rst, true, true, false⟩
/-- RO. -/
def fR (hi lo rst : Nat) : Field := ⟨hi, lo, .ro, rst, false, false, false⟩
/-- W1C, writer O. -/
def cO (hi lo : Nat) : Field := ⟨hi, lo, .w1c, 0, false, true, false⟩
/-- W1C, writer H. -/
def cH (hi lo : Nat) : Field := ⟨hi, lo, .w1c, 0, true, false, false⟩
/-- W1C, writers O and T. -/
def cOT (hi lo : Nat) : Field := ⟨hi, lo, .w1c, 0, false, true, true⟩
/-- An action bit or field that reads 0, with its writers. -/
def act (hi lo : Nat) (h o t : Bool) : Field := ⟨hi, lo, .wo, 0, h, o, t⟩

/-- The fields of a register (R62-R71, R122-R124, R145-R147, R166-R172, R203-R208, R227-R236, R302-R308, R342-R345,
R374, R375, R408-R410, R432-R435, R475-R477, R500, R501, R526-R528, R552, R553, R575-R577). Reserved fields have no row.
A register whose index names one of several layouts is told apart by `i`. -/
def RegName.fields (n : RegName) (i : Nat) : List Field :=
  match n with
  | .tlGcal => [⟨31, 31, .w1s, 0, true, false, false⟩, fH 6 0 64]
  | .tlGphase => [fR 7 7 0, fR 5 0 0]
  | .tlGcalact => [fR 6 0 64]
  | .tlGfault => [fR 31 0 0]
  | .tlCal => [fH 31 28 15, fH 27 24 15, fH 23 20 15, fH 19 16 15, fH 15 12 15, fH 11 8 15, fH 7 4 15, fH 3 0 15]
  | .tlGrp => [fH 31 22 0x3FF, fH 15 0 0]
  | .tlWin => [fH 27 16 0, fH 10 0 0]
  | .tlRst => [fR 31 31 0, fR 30 30 0, fR 29 20 0x3FF, fR 19 19 0, fR 10 10 0, fR 9 9 0, fR 8 8 0]
  | .tlSidx => [fR 31 0 0]
  | .swGbark => [fR 31 0 0]
  | .swGpar => [fR 31 0 0]
  | .swIn => [fH 31 22 0x3FF, fH 21 12 0x3FF, fH 11 11 0, cH 0 0]
  | .ltMcown => [fH 31 22 0x3FF, fR 0 0 0]
  | .ltIsown => [fH 31 22 0x3FF]
  | .ltOut => [fR 31 0 0]
  | .ffOwn => [fH 31 22 0x3FF]
  | .ffCfg => [fR 31 30 0, fR 29 28 0, fR 27 27 0, fR 26 26 0]
  | .ffThr => [fOT 31 16 0, fOT 15 0 0]
  | .ffCtl => [act 31 31 false true true]
  | .ffFill => [fR 31 31 0, fR 30 30 0, fR 14 0 0]
  | .ffStat => [cOT 2 2, cOT 1 1, cOT 0 0]
  | .ffDrop => [fR 31 0 0]
  | .ffPar => [fR 31 0 0]
  | .cxStat => [fR 31 31 0, cO 30 30, fH 15 0 0xFFFF]
  | .cxFill => [fR 20 0 0]
  | .cxEcc => [fR 31 16 0, fR 15 0 0]
  | .cxLost => [fR 20 0 0]
  | .cxKeygen => [fR 31 0 0]
  | .cxBank => [fR 16 0 0x10000]
  | .cxIndrop => [fR 31 0 0]
  | .cxQuota => [fH 20 0 0]
  | .cxFloor => [fH 20 0 0]
  | .cxUsed => [fR 20 0 0]
  | .cxTerr => [fR 31 0 0]
  | .cxTnobuf => [fR 31 0 0]
  | .qeQcfg => [fT 31 31 0, fT 27 27 0, fT 26 16 0, fT 7 0 1]
  | .qeQrate => [act 31 31 false false true, fT 30 16 0, fT 15 0 0]
  | .qeQburst => [fT 31 31 1, fT 24 0 0x1000000]
  | .qeQlvl => [fR 31 0 0]
  | .qeQpkt => [fR 20 0 0]
  | .qeQcell => [fR 20 0 0]
  | .qeBcfg => [fH 31 22 0x3FF, fH 20 14 0, fH 7 0 1]
  | .qeBcir | .qeBpir => [act 31 31 true false false, fH 30 16 0, fH 15 0 0]
  | .qeBcburst => [fH 24 0 0x1000000]
  | .qeBpburst => [fH 31 31 1, fH 24 0 0x1000000]
  | .qeBclvl | .qeBplvl => [fR 31 0 0]
  | .qePcfg => [fO 31 31 0, fO 7 0 0]
  | .qePrate => [fH 30 16 0x0FA0, fH 15 0 0]
  | .qeHcfg => [fO 31 30 0, fO 29 16 0, fO 15 12 0, act 11 11 false true false]
  | .qeHmax | .qeHbin => [fR 31 0 0]
  | .lnGcfg => [fO 31 31 0, fR 30 30 0]
  | .lnCfg => [fO 31 31 0, fO 30 28 0, fO 27 27 0, fO 26 26 0, fO 25 24 0, fO 23 22 0, fO 21 21 1, fO 20 20 0,
      fO 13 0 9600]
  | .lnStat => [fR 31 31 0, fR 30 30 0, fR 29 29 0, fR 28 27 0, cO 7 7, cO 6 6, cO 5 5, cO 4 4, cO 3 3, cO 2 2, cO 1 1]
  | .lnIen => [fO 7 1 0]
  | .lnTrain => [act 31 31 false true false, fR 30 30 0, fR 29 28 0, fO 15 0 500]
  | .lnTxeq => [fO 31 24 0, fO 23 16 0, fO 15 8 0x40, fO 7 0 0]
  | .lnRxdly | .lnTxdly => [fO 31 0 0]
  | .lnRawfill => [fO 23 0 0]
  | .lnTxtsh => [fR 31 24 0, fR 15 0 0]
  | .lnTxtsl => [fR 31 0 0]
  | .lnTxtsn => [fR 29 0 0]
  | .lnTxtsf => [fR 15 0 0]
  | .lnEyectl => [act 31 31 false true false, fR 30 30 0, fO 7 0 16]
  | .lnEye => [fR 31 16 0, fR 15 0 0]
  | .lnPyl => [fR 31 28 0, fR 27 24 1, fR 15 0 0]
  | .lnPymach => [fO 15 0 0]
  | .lnPymacl => [fO 31 0 0]
  | .lnCntctl => [act 31 31 false true false]
  | .lnCnt => [fR 31 0 0]
  | .lnPys => [fO 31 31 0, fO 30 28 0, fO 27 18 0x3FF, fO 15 0 0]
  | .lnPyg => [fO 31 24 0, fO 23 16 0, fO 15 8 0]
  | .lnPyc => [fR 31 0 0]
  | .lnPyd => [fR 31 16 0, fR 15 0 0]
  | .msTbcmd => [act 31 31 false true false, act 30 30 false true false, act 29 29 false true false, fO 28 28 0, cO 0 0]
  | .msTbincr => [fO 31 0 0xA0000000]
  | .msTbrsh => [fR 15 0 0]
  | .msTbrsl => [fR 31 0 0]
  | .msTbrns => [fR 29 0 0]
  | .msTbrfr => [fR 15 0 0]
  | .msTbwsh => [fO 15 0 0]
  | .msTbwsl => [fO 31 0 0]
  | .msTbwns => [fO 29 0 0]
  | .msTbwfr => [fO 15 0 0]
  | .msPpsish => [fR 15 0 0]
  | .msPpsisl => [fR 31 0 0]
  | .msPpsins => [fR 29 0 0]
  | .msPpsifr => [fR 15 0 0]
  | .msPpscfg => [fO 31 31 0, fO 30 30 0, fO 15 0 100]
  | .msPpsdly => [fO 31 0 0]
  | .msRclk => [fO 31 31 0, fO 30 24 0, fO 11 0 680]
  | .ncMode => [fR 31 31 0, fR 30 29 2, fR 28 28 0, fR 27 27 0, fR 23 16 16]
  | .ncCprio => [fO 15 0 0xAAAA]
  | .ncRteL => [fH 31 0 0]
  | .ncRteH => [fH 31 31 0, fH 30 25 0, fH 9 0 0x3FF]
  | .ncInjA => [fH 31 31 0, fH 30 21 0x3FF, fH 20 14 0, fH 13 12 0]
  | .ncInjB => [fH 31 24 1, fH 23 15 1]
  | .hiPfcfg => [fO 31 25 0, fO 1 0 2]
  | .hiPfstat => [fR 31 16 0, fR 3 0 0]
  | .hiPfevt => [cO 31 31, fO 0 0 0]
  | .hiH2cd | .hiC2hd => [fO 31 0 0]
  | .hiH2cdb | .hiC2hdb => [⟨31, 0, .wa, 0, false, true, false⟩]
  | .hiMbst => [cO 1 1, cO 0 0]
  | .hiOpdb => [fR 31 0 0]
  | .hiVid => [fR 31 31 0, fR 9 0 0x3FF]
  | .hiVstat => [fR 31 16 0, fR 3 0 0]
  | .hiVopdb => [fT 31 0 0]
  | .hiVevcfg => [fT 31 31 0, fT 30 28 0, fT 27 27 0, fT 26 24 0, fT 23 23 0, fT 22 20 0]
  | .hiVerrcnt => [fR 31 24 0, fR 23 16 0, fR 14 8 0, fR 6 0 0]
  | .hiVerrl | .hiVerrh => [fR 31 0 0]
  | .hiVfev => [fR 31 31 0, fR 8 0 0]
  | .hiQsqbl | .hiQcqbl => [fT 31 12 0]
  | .hiQsqbh | .hiQcqbh => [fT 31 0 0]
  | .hiQcfg => [fT 31 31 0, fT 30 29 0, fT 28 25 4, fT 24 21 4, fT 20 18 0, fT 17 17 0]
  | .hiQsqt | .hiQcqh => [fT 11 0 0]
  | .hiQstat => [fR 31 31 0, fR 30 30 0, fR 29 26 0, fR 23 12 0, fR 11 0 0]
  | .hiGctl => [act 31 31 false false true, act 30 30 false false true, act 29 29 false false true, fT 19 0 0]
  | .hiGstat => [fR 31 30 0, fR 23 16 0, fR 15 12 0]
  | .hiGrcv => [fR 19 0 0]
  | .hiVbsel => [fT 10 0 0]
  | .hiVhsel => [fT 5 0 0]
  | .hiMsix => if i % 4 = 3 then [⟨0, 0, .rw, 1, false, true, true⟩] else [fOT 31 0 0]
  | .hiPba => [fR 31 0 0]
  | .dpCtl => [⟨31, 31, .w1s, 0, false, true, false⟩, fR 30 30 0]
  | .dpTicklen => [fO 26 0 1000000]
  | .dpTnow | .dpLosttick => [fR 31 0 0]
  | .dpFstat => [cH 3 3, cH 2 2, cH 1 1, cH 0 0]
  | .dpTrnom => [fH 31 31 0, fH 2 0 0]
  | .dpDlmiss => [fR 31 31 0, fR 9 0 0]
  | .dpTake => [fR 31 22 0, fR 21 20 0, fR 19 0 0]
  | .dpCcmd => [act 31 26 false true false, act 25 25 false true false, act 24 24 false true false,
      act 9 0 false true false]
  | .dpCarg0 | .dpCarg1 => [fO 31 0 0]
  | .dpCres => [fR 31 31 0, fR 3 0 0]
  | .dpCwake => [fR 31 0 0]
  | .dpCbus => [fR 31 16 0, fR 3 0 0]
  | .dpCstat => [fR 31 21 0, fR 20 0 0]
  | .dpCload => [fR 31 16 0, fR 15 0 0]
  | .dpThra => [fR 31 29 0, fR 28 23 0, fR 22 15 0, fR 14 12 0, fR 0 0 0]
  | .dpThrb => [fR 31 24 0, fR 19 0 0]
  | .dpSem => [fR 31 16 0xFFFF, fR 15 0 0]
  | .dpEg => [fR 31 0 0]
  | .dpEvpend => [fR 31 0 0]
  | .dpEvb => [fR 31 30 0, fR 28 24 0, fR 9 0 0]
  | .dpTrstat => [fR 31 16 0, fR 12 0 0]
  | .dpTrl | .dpTrh => [fR 31 0 0]
  | .htReq => [fO 31 0 0]
  | .htRsp => [fR 31 0 0]
  | .htCtl => [act 31 31 false true false]
  | .htSt => [fR 31 30 0]
  | .htStat => [fR 31 31 0, fR 30 30 0, fR 29 29 0]
  | .pb => if i = 0 then [fH 31 31 0] else if i = 1 then [fH 31 0 0x00C00000]
      else if i = 2 then [fH 31 28 0, fH 27 24 0, fH 23 16 0, fH 15 0 0]
      else if i = 3 then [fH 31 24 0, fH 23 16 0, fH 15 14 0, fH 7 0 0]
      else if i = 4 then [fH 31 28 0] else if i = 5 then [fH 31 31 0, fH 30 30 0, fH 29 29 0, fH 28 28 0]
      else if i < 48 then [fH 31 0 0] else [fO 31 0 0]
  | .pbRtcl => [fR 31 0 0]
  | .pbRtch => [fR 15 0 0]
  | .pbRtcsub => [fR 14 0 0]
  | .pbMono => [fR 31 0 0]
  | .pbStat => [cO 31 31, fR 30 30 0, fR 29 29 0, fR 28 28 0]
  | .cfId => [fR 31 16 0x5128, fR 15 8 1, fR 7 0 0]
  | .cfStat => [fR 31 28 0, fR 27 27 0, fR 26 25 0, fR 24 24 0, fR 23 23 0, fR 22 22 0, fR 21 21 0, fR 15 0 0]
  | .cfCtl => [act 31 31 false true false, fO 30 30 0, act 29 29 false true false]
  | .cfWdog => [fR 31 16 0, fR 15 0 0]
  | .cfImgsvn => [fR 31 0 0]
  | .cfLoads => [fR 31 16 0, fR 15 0 0]
  | .cfDisc => [fR 31 0 0]
  | .cfNvmwin => [fO 0 0 0]
  | .cfOgstat => [fR 31 30 0, fR 23 16 0, fR 15 12 0]
  | .cfGpcnt => [fR 31 16 0, fR 15 0 0]
  | .cfGpdisc => [fR 31 0 0]
  | .ckRefcfg => [fO 31 31 0, fO 30 29 2]
  | .ckStat => [fR 31 31 0, fR 30 30 0, fR 29 29 0, fR 28 28 0, fR 27 27 0, cO 2 2, cO 1 1]
  | .ckRefppm => [fR 15 0 0x8000]
  | .pwDompwr | .pwDomfen => [fR 31 0 0]
  | .pwRstctl => [act 31 24 false true false, act 1 1 false true false, act 0 0 false true false]
  | .pwRstsrc => [fR 31 28 1, fR 27 24 0]
  | .gpOut | .gpOe => [fHO 31 0 0]
  | .gpSet | .gpClr | .gpTgl => [act 31 0 true true false]
  | .gpIn => [fR 31 0 0]
  | .gpDeny => [fR 31 0 0]
  | .gpBank => [fR 19 16 0, fR 15 0 0]
  | .gpPcfg => [fH 31 28 15, fH 27 18 0x3FF, fHO 7 6 1, fHO 5 4 1, fHO 3 3 0]
  | .gpFsel => [fHO 31 31 0, fHO 5 0 0]
  | .gpPmskl | .gpPmskh | .gpPvall | .gpPvalh => [fO 31 0 0]
  | .gpPctl => [fO 31 31 0, fO 30 30 0, fO 29 29 0, fR 28 28 0]
  | .gpTcfg => [fO 31 31 0, fO 30 30 0, fO 29 29 0, fO 28 28 0, fO 15 0 0]
  | .gpTper | .gpTcmp => [fO 31 0 0]
  | .gpTcnt | .gpTcap => [fR 31 0 0]
  | .gpTstat => [cO 2 2, cO 1 1, cO 0 0]
  | .spUcfg => [fO 31 31 0, fO 30 29 0, fO 28 28 0, fO 27 27 0, fO 26 20 0, fO 19 0 27778]
  | .spUdata => [fR 31 31 0, fR 30 30 0, fR 29 29 0, ⟨7, 0, .wa, 0, false, true, false⟩]
  | .spUstat => [fR 23 16 0, fR 15 8 0, fR 7 6 0, cO 5 5, cO 4 4, cO 3 3, cO 2 2, cO 1 1]
  | .spScfg => [fO 31 31 0, fO 30 29 0, fO 28 28 0, fO 27 26 0, fO 25 25 0, fO 20 16 0, fO 15 0 3]
  | .spSdata => [fR 31 31 0, ⟨7, 0, .wa, 0, false, true, false⟩]
  | .spSstat => [fR 23 16 0, fR 15 8 0, fR 7 6 0, cO 5 5, cO 4 4, cO 3 3]
  | .spTcfg => [fO 31 31 0, fO 30 29 0, fO 28 23 0, fO 15 0 25000]
  | .spTcmd => [⟨10, 8, .wa, 0, false, true, false⟩, act 7 0 false true false]
  | .spTdata => [fR 31 31 0, fR 7 0 0]
  | .spTstat => [fR 23 16 0, fR 15 8 0, fR 7 6 0, cO 5 5, cO 4 4, cO 3 3, cO 2 2]
  | .spMcfg => [fO 31 31 0, fO 30 30 0, fO 29 26 0, fO 7 0 39]
  | .spMcmd => [act 31 31 false true false, act 30 29 false true false, act 25 21 false true false,
      act 20 16 false true false, ⟨15, 0, .wa, 0, false, true, false⟩]
  | .spMdata => [fR 15 0 0]
  | .spMstat => [fR 23 16 0, fR 15 8 0, fR 7 7 0, cO 6 6, cO 5 5, cO 4 4]
  | .msOerrl | .msOerrh => [fR 31 0 0]
  | .msOerrcnt => [fR 31 16 0, fR 8 0 0]
  | .msAlarm => [fR 31 0 0]
  | .msFatal => [fR 0 0 0]
  | .msSctl => [act 31 31 false true false]
  | .msTalm => [cO 15 0]
  | .msValm => [cO 23 0]
  | .msTemp | .msVolt => [fR 15 0 0]
  | .msTlim | .msVlim => [fO 31 16 0x7FFF, fO 15 0 0x8000]
  | .msTmm | .msVmm => [fR 31 16 0, fR 15 0 0]
  | .meterLo | .meterHi => [fR 31 0 0]

/-- How many instances a register has, in the index of `RegId`: TL_CALk of tile t at 8(64g+t)+k, TL_GRPn, TL_WINr and TL_RSTr
at 16(64g+t)+n, SW_INi at 64(64g+t)+i, LT_MCOWNm 32g+m, LT_ISOWNi 96g+i, FIFO registers 8g+f, QE_HBINh_k 16h+k, lane
registers by lane, LN_EYEj_e 3j+e, LN_CNTj_i 32j+i, LN_PYSs 256g+s, NC_RTEd 128ni+d, NC_INJi 2048(ni-84)+i, HI_H2CDn_k 16n+k,
VF registers by VF, queue pair registers 8v+q, HI_MSIX 64fn+4vector+dword with fn 0 for PF0 and v+1 for VF v, HT_REQn_k 8n+k,
GP_ L and H registers 0 and 1, meters 8d+m. -/
def RegName.count : RegName → Nat
  | .tlGcal | .tlGphase | .tlGcalact | .tlGfault | .swGbark | .swGpar | .ltOut => 64
  | .tlCal => 32768
  | .tlGrp | .tlWin | .tlRst => 65536
  | .tlSidx => 8192
  | .swIn => 262144
  | .ltMcown => 2048
  | .ltIsown => 6144
  | .ffOwn | .ffCfg | .ffThr | .ffCtl | .ffFill | .ffStat | .ffDrop | .ffPar => 512
  | .cxStat | .cxFill | .cxEcc | .cxLost | .cxKeygen => 1
  | .cxBank => 16
  | .cxIndrop => 128
  | .cxQuota | .cxFloor | .cxUsed | .cxTerr | .cxTnobuf => 513
  | .qeQcfg | .qeQrate | .qeQburst | .qeQlvl | .qeQpkt | .qeQcell => 16384
  | .qeBcfg | .qeBcir | .qeBcburst | .qeBpir | .qeBpburst | .qeBclvl | .qeBplvl => 2048
  | .qePcfg | .qePrate => 128
  | .qeHcfg | .qeHmax => 64
  | .qeHbin => 1024
  | .lnGcfg => 16
  | .lnCfg | .lnStat | .lnIen | .lnTrain | .lnTxeq | .lnRxdly | .lnTxdly | .lnRawfill | .lnTxtsh | .lnTxtsl | .lnTxtsn
  | .lnTxtsf | .lnEyectl | .lnPyl | .lnPymach | .lnPymacl | .lnCntctl => 128
  | .lnEye => 384
  | .lnCnt => 4096
  | .lnPys | .lnPyg | .lnPyc | .lnPyd => 4096
  | .msTbcmd | .msTbincr | .msTbrsh | .msTbrsl | .msTbrns | .msTbrfr | .msTbwsh | .msTbwsl | .msTbwns | .msTbwfr
  | .msPpsish | .msPpsisl | .msPpsins | .msPpsifr | .msPpscfg | .msPpsdly => 1
  | .msRclk => 2
  | .ncMode | .ncCprio => 1
  | .ncRteL | .ncRteH => 11776
  | .ncInjA | .ncInjB => 10240
  | .hiPfcfg | .hiPfstat | .hiPfevt => 1
  | .hiH2cd | .hiC2hd => 128
  | .hiH2cdb | .hiC2hdb | .hiMbst => 8
  | .hiOpdb | .hiVid | .hiVstat | .hiVopdb | .hiVevcfg | .hiVerrcnt | .hiVerrl | .hiVerrh | .hiVfev
  | .hiGctl | .hiGstat | .hiGrcv | .hiVbsel | .hiVhsel => 512
  | .hiQsqbl | .hiQsqbh | .hiQcqbl | .hiQcqbh | .hiQcfg | .hiQsqt | .hiQcqh | .hiQstat => 4096
  | .hiMsix => 32832
  | .hiPba => 513
  | .dpCtl | .dpTicklen | .dpTnow | .dpLosttick | .dpFstat | .dpTrnom | .dpDlmiss | .dpTrstat | .dpTrl | .dpTrh => 1
  | .dpTake | .dpCcmd | .dpCarg0 | .dpCarg1 | .dpCres | .dpCwake | .dpCbus | .dpCstat | .dpCload => 8
  | .dpThra | .dpThrb => 1024
  | .dpSem | .dpEg => 256
  | .dpEvpend => 64
  | .dpEvb => 2048
  | .htReq | .htRsp => 72
  | .htCtl | .htSt => 9
  | .htStat => 1
  | .pb => 64
  | .pbRtcl | .pbRtch | .pbRtcsub | .pbMono | .pbStat => 1
  | .cfId | .cfStat | .cfCtl | .cfWdog | .cfImgsvn | .cfLoads | .cfDisc | .cfNvmwin | .cfOgstat | .cfGpcnt
  | .cfGpdisc => 1
  | .ckRefcfg | .ckStat | .ckRefppm | .pwRstctl | .pwRstsrc => 1
  | .pwDompwr | .pwDomfen => 3
  | .gpOut | .gpOe | .gpSet | .gpClr | .gpTgl | .gpIn => 2
  | .gpDeny | .gpBank => 1
  | .gpPcfg => 64
  | .gpFsel => 160
  | .gpPmskl | .gpPmskh | .gpPvall | .gpPvalh | .gpPctl => 8
  | .gpTcfg | .gpTper | .gpTcmp | .gpTcnt | .gpTcap | .gpTstat => 8
  | .spUcfg | .spUdata | .spUstat | .spScfg | .spSdata | .spSstat => 4
  | .spTcfg | .spTcmd | .spTdata | .spTstat => 8
  | .spMcfg | .spMcmd | .spMdata | .spMstat => 2
  | .msOerrl | .msOerrh | .msOerrcnt | .msAlarm | .msFatal | .msSctl | .msTalm | .msValm => 1
  | .msTemp | .msTlim | .msTmm => 16
  | .msVolt | .msVlim | .msVmm => 24
  | .meterLo | .meterHi => 4104

/-- The value a register holds after cold reset (R9): the Reset column of its fields. -/
def RegName.resetVal (n : RegName) (i : Nat) : Nat := (n.fields i).foldl (fun a f => a + f.rst * 2 ^ f.lo) 0

/-- Where a register stands in the register file. -/
def RegName.key (n : RegName) (i : Nat) : Nat := 256 * i + n.ctorIdx

/-! ## The judgement of a write -/

/-- As which of the codes of R11 a party writes; `none` as a party that no field of the register names. -/
inductive Writer where
  | h | o | t | none
  deriving DecidableEq, Repr

/-- A party's writer code; a tenant is T for the instances it owns, and its block refuses it the others (R11, R12). -/
def Party.writer : Party → Writer
  | .heartwood => .h
  | .tenant _ => .t
  | _ => .o

/-- Whether a field's Writer column names the party. -/
def Field.names (f : Field) : Writer → Bool
  | .h => f.h
  | .o => f.o
  | .t => f.t
  | .none => false

/-- Whether a write is judged on this field (R12): `old` and `new` are the field's held and written values. -/
def Field.judged (f : Field) (old new : Nat) : Bool :=
  match f.ty with
  | .rw => old != new
  | .w1c | .w1s | .wo => new != 0
  | .wa => true
  | .ro => false

/-- The value a permitted write leaves in the field (R10). -/
def Field.after (f : Field) (old new : Nat) : Nat :=
  match f.ty with
  | .rw => new
  | .w1c => old - (old &&& new)
  | .w1s => old ||| new
  | .wo | .wa | .ro => old

/-- What a write comes to: the word the register holds after, the bits of its action fields that act, and whether it was
refused for a writer, and whether for a value. -/
structure Judged where
  val : Nat
  acts : Nat
  byWriter : Bool
  byValue : Bool
  deriving DecidableEq, Repr

/-- One field of a write (R12). `okVal` is the field's own rule over its lowest bit and the value written. -/
def judgeField (p : Writer) (okVal : Nat → Nat → Bool) (w : Nat) (j : Judged) (f : Field) : Judged :=
  let old := bits j.val f.hi f.lo
  let new := bits w f.hi f.lo
  if f.judged old new then
    if f.names p then
      if okVal f.lo new then
        { j with
          val := setBits j.val f.hi f.lo (f.after old new)
          acts := match f.ty with
            | .wo | .wa => setBits j.acts f.hi f.lo new
            | .w1s => setBits j.acts f.hi f.lo new
            | _ => j.acts }
      else { j with byValue := true }
    else { j with byWriter := true }
  else j

/-- A whole write, each field on its own (R12). -/
def judge (fs : List Field) (p : Writer) (okVal : Nat → Nat → Bool) (cur w : Nat) : Judged :=
  fs.foldl (judgeField p okVal w) ⟨cur, 0, false, false⟩

/-- The status a write completes with (R12). -/
def Judged.status (j : Judged) : Status := if j.byWriter || j.byValue then .denied else .ok

/-- The rules of single fields that refuse a value (R12, and the Meaning column of each field). `i` is the instance, `lo` the
field's lowest bit and `v` the value written. -/
def RegName.okVal (n : RegName) (i lo v : Nat) : Bool :=
  match n with
  | .tlGcal => lo != 0 || (1 ≤ v && v ≤ 64)
  | .tlWin => lo != 16 || v ≤ 2048
  | .swIn | .ltMcown | .ltIsown | .ffOwn => lo != 22 || v ≤ 0x200 || v == 0x3FF
  | .cxQuota | .cxFloor => v ≤ 1048576
  | .qeQcfg => lo != 0 || v != 0
  | .qeQburst | .qeBcburst | .qeBpburst => lo != 0 || v ≤ 16777216
  | .qeBcfg => (lo != 22 || v ≤ 0x1FF || v == 0x3FF) && (lo != 0 || v != 0)
  | .lnCfg => lo != 0 || 64 ≤ v
  | .lnTrain => lo != 0 || v != 0
  | .lnEyectl => lo != 0 || v != 0
  | .lnPys => lo != 18 || v ≤ 0x200 || v == 0x3FF
  | .msPpscfg => lo != 0 || v != 0
  | .msTbincr => 0x80000000 ≤ v && v ≤ 0xBFFFFFFF
  | .msTbwns => v < 1000000000
  | .ncRteH => lo != 25 || v ≤ 32
  | .ncInjB => (lo != 24 || v != 0) && (lo != 15 || (1 ≤ v && v ≤ 256))
  | .hiQsqt | .hiQcqh => true
  | .dpTicklen => v % 2 == 0 && 100000 ≤ v && v ≤ 100000000
  | .gpPcfg => lo != 6 || v != 3
  | .gpFsel => lo != 31 || v == 0 || i < 89 || 95 < i
  | .spUcfg => (lo != 29 || v != 3) && (lo != 0 || 256 ≤ v)
  | .spScfg => lo != 0 || v != 0
  | .spTcfg => lo != 29 || v != 3
  | .spMcfg => lo != 0 || 7 ≤ v
  | _ => true

namespace Machine

/-! ## The register file -/

/-- The word a register holds. -/
def State.reg (s : State) (n : RegName) (i : Nat) : Word := s.regs.rd (n.key i) (BitVec.ofNat 32 (n.resetVal i))

/-- Put a word into a register. -/
def State.setReg (s : State) (n : RegName) (i : Nat) (w : Word) : State :=
  { s with regs := s.regs.wr (n.key i) (BitVec.ofNat 32 (n.resetVal i)) w }

/-- Field [hi:lo] of a register. -/
def State.fld (s : State) (n : RegName) (i hi lo : Nat) : Nat := bits (s.reg n i).toNat hi lo

/-- Set field [hi:lo] of a register, as the device does. -/
def State.setFld (s : State) (n : RegName) (i hi lo v : Nat) : State :=
  s.setReg n i (BitVec.ofNat 32 (setBits (s.reg n i).toNat hi lo v))

/-- Whether bit `b` of a register is 1. -/
def State.flag (s : State) (n : RegName) (i b : Nat) : Bool := s.fld n i b b == 1

/-- Set one bit of a register. -/
def State.setBit (s : State) (n : RegName) (i b : Nat) (v : Bool) : State := s.setFld n i b b (b2n v)

/-- Count: add to field [hi:lo], stopping at all ones. -/
def State.count (s : State) (n : RegName) (i hi lo k : Nat) : State :=
  s.setFld n i hi lo (satAdd (hi + 1 - lo) (s.fld n i hi lo) k)

/-- Return a register to its reset value. -/
def State.resetReg (s : State) (n : RegName) (i : Nat) : State := { s with regs := s.regs.del (n.key i) }

/-- Return every instance of the registers named to its reset value. -/
def State.resetRegs (s : State) (l : List RegName) : State :=
  { s with regs := s.regs.filter (fun e => !(l.any (fun n => n.ctorIdx == e.1 % 256))) }

/-- The active copy of a shadow register (R57, R145). -/
def State.actv (s : State) (n : RegName) (i : Nat) : Word := s.act.rd (n.key i) (BitVec.ofNat 32 (n.resetVal i))

/-- Put a word into the active copy of a shadow register. -/
def State.setActv (s : State) (n : RegName) (i : Nat) (w : Word) : State :=
  { s with act := s.act.wr (n.key i) (BitVec.ofNat 32 (n.resetVal i)) w }

/-- Field [hi:lo] of an active copy. -/
def State.actFld (s : State) (n : RegName) (i hi lo : Nat) : Nat := bits (s.actv n i).toNat hi lo

/-- The operator alarm count rises by one and saturates (R12, R560). -/
def State.alarm (s : State) : State := s.count .msAlarm 0 31 0 1

/-- A write of a register judged against the word it holds, with a further rule for values that needs the state. -/
def State.judgeW (s : State) (p : Party) (n : RegName) (i : Nat) (extra : Nat → Nat → Bool) (w : Word) : Judged :=
  judge (n.fields i) p.writer (fun lo v => n.okVal i lo v && extra lo v) (s.reg n i).toNat w.toNat

/-- Land a judged write: the register holds the new word, a refusal for a writer raises the alarm once, and the access is
answered (R12). -/
def State.land (s : State) (n : RegName) (i : Nat) (j : Judged) : State :=
  let s := s.setReg n i (BitVec.ofNat 32 j.val)
  let s := if j.byWriter then s.alarm else s
  s.ans j.status []

/-- A write with no effect but its fields' (R12). -/
def State.plainWrite (s : State) (p : Party) (n : RegName) (i : Nat) (w : Word) : State :=
  s.land n i (s.judgeW p n i (fun _ _ => true) w)

/-- An access refused because its party does not own the state it reaches (R27): status BARK, zeros, one alarm. -/
def State.barkAns (s : State) (reads : Nat) : State := (s.alarm).ans .bark (List.replicate reads 0)

/-- A rule refuses the access, and it raises the alarm (R12). -/
def State.deniedAlarm (s : State) (reads : Nat) : State := (s.alarm).ans .denied (List.replicate reads 0)

end Machine
end Sys2Proof
end

