-- ==== Sys2Proof/Machine/Operands.lean ====
section
/-! DEFINITION. Ring records and operands: the fields of a record (R32, R35, R75, R80, R82, R90, R107, R108), the operand
sources (R72) and the private state of rings and tiles (R37, R38). -/

namespace Sys2Proof.Machine

/-- Tile index 64g+t (R5). -/
def tileIx (g t : Nat) : Nat := 64 * g + t

/-- An operand or result word: data and sideband (R72). -/
structure Opd where
  data : Nat
  code : Nat
  m : Bool
  deriving DecidableEq, Repr

def codeDATA : Nat := 0
def codeSOP : Nat := 1
def codeIDLE : Nat := 8
def codeGAP : Nat := 9
def codePOISON : Nat := 10
def codeERR : Nat := 12
def codeMETA : Nat := 13
def codeCTRL : Nat := 14

/-- Whether a code closes a packet normally: EOP or SOP+EOP (R100). -/
def codeEnds (c : Nat) : Bool := 2 ≤ c && c ≤ 7

/-- Whether a code opens a packet: SOP or SOP+EOP (R100). -/
def codeOpens (c : Nat) : Bool := c == 1 || (5 ≤ c && c ≤ 7)

/-- Valid bytes of the last word of a packet (R100). -/
def codeBytes (c : Nat) : Nat := if 2 ≤ c && c ≤ 4 then c - 1 else if 5 ≤ c && c ≤ 7 then c - 4 else 3

/-- An operand that is not delivered: data 0, IDLE (R72). -/
def Opd.idle : Opd := ⟨0, codeIDLE, false⟩

/-- A register or constant operand: sideband DATA. -/
def Opd.val (n : Nat) : Opd := ⟨n, codeDATA, false⟩

/-- The value an operand has in arithmetic: 0 when it carries IDLE (R72). -/
def Opd.num (o : Opd) : Nat := if o.code = codeIDLE then 0 else o.data

def Opd.poison (o : Opd) : Bool := o.code == codePOISON

/-- An operand as a channel word of a tag. -/
def Opd.cword (o : Opd) (tag : Tag) : CWord := ⟨tag, o.m, BitVec.ofNat 4 o.code, BitVec.ofNat 24 o.data⟩

end Sys2Proof.Machine

namespace Sys2Proof

/-- What a channel word delivers as an operand (R72). -/
def CWord.opd (w : CWord) : Machine.Opd := ⟨w.data.toNat, w.code.toNat, w.m⟩

end Sys2Proof

namespace Sys2Proof.Machine

/-! ## Record fields (R32) -/

def rOwner (r : Nat) : Nat := bits r 191 182
def rRipe (r : Nat) : Bool := bit r 181
def rRback (r : Nat) : Bool := bit r 180
def rSteer (r : Nat) : Nat := bits r 179 176
def rWuop (r : Nat) : Nat := bits r 175 156
def rMac0 (r : Nat) : Nat := bits r 155 138
def rMac1 (r : Nat) : Nat := bits r 137 120
def rMemop (r : Nat) : Nat := bits r 119 104
def rInsel (r : Nat) : Nat := bits r 103 88
def rOutsel (r : Nat) : Nat := bits r 87 72
def rImm (r : Nat) : Nat := bits r 71 48
def rLatio (r : Nat) : Nat := bits r 47 32
def rFlagop (r : Nat) : Nat := bits r 31 24

/-- The reset ring record: OWNER 0x3FF, the rest 0 (R39). -/
def recReset : BitVec 192 := BitVec.ofNat 192 (0x3FF * 2 ^ 182)

/-- Input ports a record reads: port and whether the read waits, X then Y (R107). -/
def rReads (r : Nat) : List (Nat × Bool) :=
  let i := rInsel r
  (if bit i 15 then [(bits i 14 13, bit i 12)] else []) ++ (if bit i 11 then [(bits i 10 9, bit i 8)] else [])

/-- The OUTSEL code of output port k (R108). -/
def outCode (outsel k : Nat) : Nat := bits outsel (4 * k + 3) (4 * k)

/-- Output ports a record names (R108). -/
def rOuts (r : Nat) : List Nat := (List.range 4).filter (fun k => outCode (rOutsel r) k != 0)

/-! ## The state of rings -/

/-- The key of ring r of tile T. -/
def ringKey (T r : Nat) : Nat := 16 * T + r

def flagsZero : Flags := ⟨false, false, false, false, false, false, false, false⟩

def State.ringRec (s : State) (T r : Nat) : Nat := (s.tl.recs.rd (ringKey T r) recReset).toNat
def State.dReg (s : State) (T r i : Nat) : Nat := (s.tl.rst.d.rd (8 * ringKey T r + i) 0).toNat
def State.accReg (s : State) (T r i : Nat) : BitVec 56 := s.tl.rst.acc.rd (4 * ringKey T r + i) 0
def State.pReg (s : State) (T r k : Nat) : Nat := (s.tl.rst.p.rd (4 * ringKey T r + k) 0).toNat
def State.baseReg (s : State) (T r k : Nat) : Nat := (s.tl.rst.base.rd (4 * ringKey T r + k) 0).toNat
def State.lenReg (s : State) (T r k : Nat) : Nat := (s.tl.rst.len.rd (4 * ringKey T r + k) 0).toNat
def State.flagsOf (s : State) (T r : Nat) : Flags := s.tl.rst.fl.rd (ringKey T r) flagsZero
def State.sidx (s : State) (T n : Nat) : Nat := (s.tl.rst.sidx.rd (16 * T + n) 0).toNat
def State.tmem (s : State) (T w : Nat) : Nat := (s.tl.mem.rd (2048 * T + w) 0).toNat

def State.setRst (s : State) (f : RingTbls → RingTbls) : State := { s with tl := { s.tl with rst := f s.tl.rst } }
def State.setDReg (s : State) (T r i : Nat) (v : W24) : State :=
  s.setRst fun x => { x with d := x.d.wr (8 * ringKey T r + i) 0 v }
def State.setAcc (s : State) (T r i : Nat) (v : BitVec 56) : State :=
  s.setRst fun x => { x with acc := x.acc.wr (4 * ringKey T r + i) 0 v }
def State.setP (s : State) (T r k : Nat) (v : BitVec 11) : State :=
  s.setRst fun x => { x with p := x.p.wr (4 * ringKey T r + k) 0 v }
def State.setBase (s : State) (T r k : Nat) (v : BitVec 11) : State :=
  s.setRst fun x => { x with base := x.base.wr (4 * ringKey T r + k) 0 v }
def State.setLen (s : State) (T r k : Nat) (v : BitVec 12) : State :=
  s.setRst fun x => { x with len := x.len.wr (4 * ringKey T r + k) 0 v }
def State.setFlags (s : State) (T r : Nat) (v : Flags) : State :=
  s.setRst fun x => { x with fl := x.fl.wr (ringKey T r) flagsZero v }
def State.setSidx (s : State) (T n v : Nat) : State :=
  s.setRst fun x => { x with sidx := x.sidx.wr (16 * T + n) 0 (BitVec.ofNat 4 v) }

/-- A tile-memory word as it stood before this fc (R31, R94). -/
def State.tmemWas (s : State) (T w : Nat) : Nat := (s.was.mem.rd (2048 * T + w) 0).toNat

/-- Whether a tile-memory word shows bad parity to a read of this fc (R96). -/
def State.tileBad (s : State) (T w : Nat) : Bool := s.tl.bad.rd (2048 * T + w) false || s.was.bad.rd (2048 * T + w) false

/-- A write of a tile-memory word; it restores good parity (R96). -/
def State.setTmem (s : State) (T w : Nat) (v : W24) : State :=
  { s with tl := { s.tl with mem := s.tl.mem.wr (2048 * T + w) 0 v, bad := s.tl.bad.wr (2048 * T + w) false false } }

/-- The window of a ring in use: BASE and LEN (R40). -/
def State.window (s : State) (T r : Nat) : Nat × Nat :=
  (s.actFld .tlWin (16 * T + r) 10 0, s.actFld .tlWin (16 * T + r) 27 16)

/-- Whether offset q lies in the ring's window (R91). -/
def State.inWindow (s : State) (T r q : Nat) : Bool :=
  let (b, l) := s.window T r
  q < l && b + q ≤ 2047

/-- A ring that may execute: ripe, owned and not held off (R34, R39). -/
def State.ripe (s : State) (T r : Nat) : Bool :=
  let x := s.ringRec T r
  rRipe x && rOwner x != 0x3FF && !(s.tl.held.rd (ringKey T r) false)

/-- The owner in use of input i of a tile's box (R109). -/
def State.swOwner (s : State) (T i : Nat) : Nat := s.actFld .swIn (64 * T + i) 31 22

/-- The owner in use of macrocell m of grove g (R145). -/
def State.mcOwner (s : State) (g m : Nat) : Nat := s.actFld .ltMcown (32 * g + m) 31 22

/-- The owner in use of selection slot i of grove g (R146). -/
def State.isOwner (s : State) (g i : Nat) : Nat := s.actFld .ltIsown (96 * g + i) 31 22

/-- The owner in use of FIFO g.f (R166). -/
def State.ffOwner (s : State) (g f : Nat) : Nat := s.actFld .ffOwn (8 * g + f) 31 22

end Sys2Proof.Machine
end

