-- ==== Sys2Proof/Machine/Flags.lean ====
section
/-! DEFINITION. Flag computation of the word unit and the flag update of a slot (R76, R80, R81). -/

namespace Sys2Proof.Machine

/-- Whether an exact signed result lies outside 24 bits (R76). -/
def ovf24 (i : Int) : Bool := i < -8388608 || 8388607 < i

/-- Whether a 24-bit word is negative (R76: N is W[23]). -/
def neg24 (w : Nat) : Bool := bit w 23

/-- The flag changes FLAGOP and a slot's word-unit result ask for (R80). `arith` are C, Z, N, V as the operation would store
them, absent for NOP; `cond` the COND of CMP, TST, MIN and MAX. -/
def mkFlagUpd (flagop : Nat) (arith : Option (Bool × Bool × Bool × Bool)) (cond : Option Bool) (sat wf : Bool) : FlagUpd where
  arith := if bit flagop 7 then arith else none
  cond := if bit flagop 6 then cond else none
  condOp := BitVec.ofNat 3 (bits flagop 2 0)
  setSat := sat
  setWf := wf
  clrSat := bit flagop 5
  clrAov := bit flagop 4
  clrWf := bit flagop 3

/-- The flags after a slot's update lands: FUPD, then CUPD, then CONDOP; a sticky flag cleared and set ends set (R80, R81). -/
def Flags.land (f : Flags) (u : FlagUpd) : Flags :=
  let f := match u.arith with
    | some (c, z, n, v) => { f with c := c, z := z, n := n, v := v }
    | none => f
  let f := match u.cond with
    | some b => { f with cond := b }
    | none => f
  let f := match u.condOp.toNat with
    | 1 => { f with cond := true }
    | 2 => { f with cond := false }
    | 3 => { f with cond := !f.cond }
    | 4 => { f with cond := f.c }
    | 5 => { f with cond := f.z }
    | 6 => { f with cond := f.n }
    | 7 => { f with cond := f.v }
    | _ => f
  { f with
    sat := u.setSat || (f.sat && !u.clrSat)
    aov := f.aov && !u.clrAov
    wfault := u.setWf || (f.wfault && !u.clrWf) }

/-- The ring's condition flag in the lattice (R35). -/
def Flags.sel (f : Flags) (cfsel : Nat) : Bool :=
  match cfsel with
  | 0 => f.cond | 1 => f.c | 2 => f.z | 3 => f.n | 4 => f.v | 5 => f.sat | 6 => f.aov | 7 => f.wfault
  | _ => false

/-- Flags as a steering value: bit 3 COND, bit 2 N, bit 1 Z, bit 0 C (R48). -/
def Flags.steer (f : Flags) : Nat := 8 * b2n f.cond + 4 * b2n f.n + 2 * b2n f.z + b2n f.c

end Sys2Proof.Machine
end

