-- ==== Sys2Proof/Machine/Alu.lean ====
section
/-! DEFINITION. The word unit (R75-R79): what each opcode computes on 24-bit words, which operands it reads, and the sideband
of its result. -/

namespace Sys2Proof.Machine

/-- What the word unit computes: W, and the C and V that FUPD stores; the COND that CUPD stores, and whether it saturated. -/
structure WuOut where
  w : Nat
  c : Bool
  v : Bool
  cond : Option Bool
  sat : Bool
  deriving DecidableEq, Repr

/-- A result that leaves C and V at 0. -/
def wuW (w : Nat) : WuOut := ⟨w % 2 ^ 24, false, false, none, false⟩

/-- A saturated signed result (R76: ADDS, SUBS, ABS). -/
def wuSat (i : Int) : WuOut := ⟨unsgn 24 (clip 24 i), false, ovf24 i, none, ovf24 i⟩

/-- One bit step of the MSB-first CRC (R79). -/
def crcStep (poly : Nat) (a : Nat) (b : Bool) : Nat :=
  let fb := bit a 23 != b
  let a := a * 2 % 2 ^ 24
  if fb then Nat.xor a poly else a

/-- One bit step of the LSB-first CRC (R79). -/
def crcrStep (poly : Nat) (a : Nat) (b : Bool) : Nat :=
  let fb := bit a 0 != b
  let a := a / 2
  if fb then Nat.xor a poly else a

/-- Byte k of a word, byte 0 in [23:16] (R6). -/
def byteOf (w k : Nat) : Nat := w / 2 ^ (16 - 8 * k) % 256

/-- The bytes a CRC step consumes (R79). -/
def crcBytes (var bcode : Nat) : Nat :=
  match var with
  | 0 => if 2 ≤ bcode && bcode ≤ 7 then codeBytes bcode else 3
  | v => v

def crcWord (poly a b n : Nat) : Nat :=
  (List.range n).foldl (fun a k => (List.range 8).foldl (fun a i => crcStep poly a (bit (byteOf b k) (7 - i))) a) a

def crcrWord (poly a b n : Nat) : Nat :=
  (List.range n).foldl (fun a k => (List.range 8).foldl (fun a i => crcrStep poly a (bit (byteOf b k) i)) a) a

/-- A field's width: 0 means 24 (R76). -/
def fldWidth (imm : Nat) : Nat := if bits imm 9 5 = 0 then 24 else bits imm 9 5

/-- EXT (R76): the field clipped at bit 23, zero- or sign-extended from its top bit. -/
def extField (a imm : Nat) (signed : Bool) : Nat :=
  let w := fldWidth imm
  let f := a / 2 ^ (bits imm 4 0) % 2 ^ w
  if signed && bit f (w - 1) then (f + (2 ^ 24 - 2 ^ (min w 24))) % 2 ^ 24 else f

/-- INS (R76): nothing is written above bit 23. Only EXT's row says that width 0 means 24; that INS reads it so too is the model's choice
(log entry 140). -/
def insField (a b imm : Nat) : Nat :=
  let p := bits imm 4 0
  let w := min (fldWidth imm) (24 - p)
  if p ≥ 24 then a else a - a / 2 ^ p % 2 ^ w * 2 ^ p + b % 2 ^ w * 2 ^ p

/-- Leading zeros of a 24-bit word. -/
def clz24 (a : Nat) : Nat := ((List.range 24).takeWhile (fun i => !bit a (23 - i))).length

def popc24 (a : Nat) : Nat := ((List.range 24).filter (bit a)).length

/-- What opcode `opc` with variant `var` computes (R76); none for NOP and the reserved opcodes. `cf` and `cond` are C and
COND as they stand in fc s, `bcode` the sideband of B, `pv` the pointer VAR names. -/
def wuCalc (opc var a b imm bcode : Nat) (cf cond : Bool) (pv : Nat) : Option WuOut :=
  let sa := sgn 24 a
  let sb := sgn 24 b
  let n := b % 32
  match opc with
  | 0x01 => some (wuW a)
  | 0x02 => some ⟨(a + b) % 2 ^ 24, 2 ^ 24 ≤ a + b, ovf24 (sa + sb), none, false⟩
  | 0x03 => some ⟨(a + b + b2n cf) % 2 ^ 24, 2 ^ 24 ≤ a + b + b2n cf, ovf24 (sa + sb + b2n cf), none, false⟩
  | 0x04 => some ⟨unsgn 24 (sa - sb), a < b, ovf24 (sa - sb), none, false⟩
  | 0x05 => some ⟨unsgn 24 (sa - sb - b2n cf), a < b + b2n cf, ovf24 (sa - sb - b2n cf), none, false⟩
  | 0x06 => some (wuSat (sa + sb))
  | 0x07 => some (wuSat (sa - sb))
  | 0x08 => some ⟨unsgn 24 (-sa), a != 0, a == 0x800000, none, false⟩
  | 0x09 => some (wuSat (if sa < 0 then -sa else sa))
  | 0x0A => some (wuW (Nat.land a b))
  | 0x0B => some (wuW (Nat.lor a b))
  | 0x0C => some (wuW (Nat.xor a b))
  | 0x0D => some (wuW (Nat.land a (2 ^ 24 - 1 - b)))
  | 0x0E => some (wuW (2 ^ 24 - 1 - a))
  | 0x10 => some ⟨a * 2 ^ n % 2 ^ 24, 1 ≤ n && n ≤ 24 && bit a (24 - n), false, none, false⟩
  | 0x11 => some ⟨a / 2 ^ n, 1 ≤ n && n ≤ 24 && bit a (n - 1), false, none, false⟩
  | 0x12 => some ⟨unsgn 24 (sa / (2 ^ n : Nat)), 1 ≤ n && bit a (min n 24 - 1), false, none, false⟩
  | 0x13 => some (wuW (a * 2 ^ (n % 24) % 2 ^ 24 + a / 2 ^ (24 - n % 24)))
  | 0x18 => some ⟨unsgn 24 (sa - sb), a < b, ovf24 (sa - sb),
      some (match var with
        | 0 => a == b
        | 1 => decide (sa < sb)
        | 2 => decide (a < b)
        | _ => decide (sa ≤ sb)), false⟩
  | 0x19 => some { wuW (Nat.land a b) with cond := some (Nat.land a b != 0) }
  | 0x1A => some { wuW (if sa ≤ sb then a else b) with cond := some (decide (sa ≤ sb)) }
  | 0x1B => some { wuW (if sa ≥ sb then a else b) with cond := some (decide (sa ≥ sb)) }
  | 0x1C => some (wuW (if cond then a else b))
  | 0x20 => some (wuW (extField a imm (bit var 0)))
  | 0x21 => some (wuW (insField a b imm))
  | 0x22 => some (wuW (clz24 a))
  | 0x23 => some (wuW (popc24 a))
  | 0x24 => if var = 3 then none else some (wuW (byteOf a var))
  | 0x25 => if var = 3 then none else some (wuW (setBits a (23 - 8 * var) (16 - 8 * var) b))
  | 0x26 => some (wuW (byteOf a 2 * 65536 + byteOf a 1 * 256 + byteOf a 0))
  | 0x28 => some (wuW (crcWord imm a b (crcBytes var bcode)))
  | 0x29 => some (wuW (crcrWord imm a b (crcBytes var bcode)))
  | 0x30 | 0x31 | 0x32 => some (wuW a)
  | 0x33 => some (wuW pv)
  | 0x38 => some (wuW a)
  | _ => none

/-- Whether an operation reads A (R77). -/
def wuReadsA (opc : Nat) (cond : Bool) : Bool :=
  match opc with
  | 0x00 | 0x33 => false
  | 0x1C => cond
  | _ => true

/-- Whether an operation reads B (R77). -/
def wuReadsB (opc : Nat) (cond : Bool) : Bool :=
  match opc with
  | 0x00 | 0x01 | 0x08 | 0x09 | 0x0E | 0x20 | 0x22 | 0x23 | 0x24 | 0x26 | 0x30 | 0x31 | 0x32 | 0x33 => false
  | 0x1C => !cond
  | _ => true

/-- The sideband W carries (R77). `aIsInput`: A is X or Y. -/
def wuSide (opc : Nat) (cond aIsInput : Bool) (a b : Opd) : Nat × Bool :=
  if (wuReadsA opc cond && a.poison) || (wuReadsB opc cond && b.poison) then (codePOISON, false)
  else if opc = 0x38 then (b.num % 16, false)
  else if aIsInput && (match opc with
    | 0x01 | 0x20 | 0x21 | 0x25 | 0x26 => true
    | 0x1C => cond
    | _ => false) then (a.code, a.m)
  else (codeDATA, false)

/-- W with its sideband, and the flags it computes: C, Z, N, V, COND and whether it saturated (R76, R77). -/
structure WuRes where
  w : Opd
  arith : Bool × Bool × Bool × Bool
  cond : Option Bool
  sat : Bool
  deriving DecidableEq, Repr

/-- The word unit on operands as delivered. -/
def wordUnit (wuop imm : Nat) (a b : Opd) (f : Flags) (pv : Nat) : Option WuRes :=
  let opc := bits wuop 19 14
  let srca := bits wuop 13 10
  match wuCalc opc (bits wuop 1 0) a.num b.num imm b.code f.c f.cond pv with
  | none => none
  | some o =>
    let (code, m) := wuSide opc f.cond (srca == 9 || srca == 10) a b
    some ⟨⟨o.w, code, m⟩, (o.c, o.w == 0, neg24 o.w, o.v), o.cond, o.sat⟩

end Sys2Proof.Machine
end

