-- ==== Sys2Proof/Machine/Mac.lean ====
section
/-! DEFINITION. The multipliers (R82-R89): what each opcode does to an accumulator, complex mode, and the store with its
rounding. -/

namespace Sys2Proof.Machine

/-- A product, exact; doubled when FRAC is 1 (R83). -/
def macProd (frac : Bool) (a b : Nat) : Int := (if frac then 2 else 1) * (sgn 24 a * sgn 24 b)

/-- The word value E (R83). -/
def macWord (frac : Bool) (a : Nat) : Int := if frac then sgn 24 a * (2 ^ 24 : Nat) else sgn 24 a

/-- v divided by 2^shift, rounded to the nearest integer, a tie to the even one (R85). -/
def roundEven (v : Int) (shift : Nat) : Int :=
  let d : Int := ((2 ^ shift : Nat) : Int)
  let q := v / d
  let r := v % d
  if 2 * r < d then q else if 2 * r > d then q + 1 else if q % 2 = 0 then q else q + 1

/-- A store of accumulator value v (R85): the word, and whether it saturated. -/
def macStore (v : BitVec 56) (shift : Nat) : Nat × Bool :=
  let q := roundEven v.toInt shift
  (unsgn 24 (clip 24 q), ovf24 q)

/-- One change of an accumulator, modulo 2^56, and whether the exact result lay outside 56 bits (R84). -/
def accAct (v : BitVec 56) (a : AccAct) : BitVec 56 × Bool :=
  match a with
  | .set n => (BitVec.ofInt 56 n, false)
  | .add n => let r := v.toInt + n; (BitVec.ofInt 56 r, r < -(2 ^ 55 : Nat) || (2 ^ 55 : Nat) - 1 < r)

/-- The change one MAC of a slot makes (R83): opcode, operand values, FRAC and ACC; a store and NOP change nothing. -/
def macActs (opc : Nat) (a b : Nat) (frac : Bool) (acc : Fin 4) : List (Fin 4 × AccAct) :=
  match opc with
  | 1 => [(acc, .set (macProd frac a b))]
  | 2 => [(acc, .add (macProd frac a b))]
  | 3 => [(acc, .add (-(macProd frac a b)))]
  | 4 => [(acc, .set (macWord frac a))]
  | 5 => [(acc, .set 0)]
  | 10 => [(acc, .add (macWord frac a))]
  | _ => []

/-- The accumulator field ACC. -/
def accField (op : Nat) : Fin 4 := ⟨bits op 5 4 % 4, Nat.mod_lt _ (by decide)⟩

/-- The store a MAC opcode asks for (R82, R83): ST 0x6, STC 0x7. -/
def macStoreOf (op : Nat) : Option StoreAct :=
  if bits op 17 14 = 6 || bits op 17 14 = 7 then
    some ⟨accField op, bits op 13 9, ⟨bits op 8 6 % 8, Nat.mod_lt _ (by decide)⟩, bit op 3, bits op 17 14 == 7⟩
  else none

/-- Whether a MAC opcode reads SRCA, and SRCB (R82, R87). -/
def macReads (opc : Nat) : Bool × Bool :=
  match opc with
  | 1 | 2 | 3 | 8 => (true, true)
  | 4 | 10 => (true, false)
  | 9 => (false, true)
  | _ => (false, false)

/-- The s.23 word of a 12-bit packed coefficient part (R88). -/
def packed (p : Nat) : Nat := p % 4096 * 4096

/-- The changes of a CMAC slot (R88): `half` its effective half, a the factor part, br and bi those of the second factor; a
dump slot sets in place of adding (R89). -/
def cmacActs (half : Nat) (conj frac dump : Bool) (a br bi : Nat) : List (Fin 4 × AccAct) :=
  let pr := macProd frac a br
  let pi := macProd frac a bi
  let mk (v : Int) : AccAct := if dump then .set v else .add v
  if half = 0 then [(0, mk pr), (2, mk (if conj then -pi else pi))]
  else [(0, .add (if conj then pi else -pi)), (2, .add pr)]

/-- The dump stores of R89: acc0 as S0, acc2 as S1. -/
def dumpStore (acc : Fin 4) (imm : Nat) : StoreAct := ⟨acc, imm % 32, 0, false, false⟩

end Sys2Proof.Machine
end

