-- ==== Sys2Proof/Machine/Lattice.lean ====
section
/-! DEFINITION. The grove control lattice (R125-R147): selection slots, product terms, macrocells, wide multiplexers, and the
evaluation of one fc. -/

namespace Sys2Proof.Machine

/-- Whether grove g has passed its release stage RUN (R63). -/
def State.running (s : State) (g : Nat) : Bool := s.flag .tlGphase g 7

/-- Whether domain d is powered (R553). -/
def State.powered (s : State) (d : Nat) : Bool := s.flag .pwDompwr (d / 32) (d % 32)

/-- Whether the boundaries of domain d are closed: it gave FENCE_ACK before this fc and is not restored (R539). -/
def State.closed (s : State) (d : Nat) : Bool := s.flag .pwDomfen (d / 32) (d % 32) && decide (s.pw.closeAt.rd d 0 ≤ s.fc)

/-! ## Records (R141) -/

def State.mcRec (s : State) (g m : Nat) : Nat := (s.lt.mc.rd (32 * g + m) 0).toNat
def State.quadRec (s : State) (g q : Nat) : Nat := (s.lt.quad.rd (8 * g + q) 0).toNat
def State.sdRec (s : State) (g k : Nat) : Nat := (s.lt.sd.rd (16 * g + k) 0).toNat
/-- Event lines 0-7, then pin output lines at 8-15. -/
def State.lineRec (s : State) (g k : Nat) : Nat := (s.lt.line.rd (16 * g + k) 0).toNat
def State.mcQ (s : State) (g m : Nat) : Bool := s.tl.rst.mcq.rd (32 * g + m) false

/-- Whether macrocell m is consumed by a wide multiplexer (R134). -/
def State.mcConsumed (s : State) (g m : Nat) : Bool := bit (s.quadRec g (m / 4)) 63 && m % 4 != 3

/-- The mark of a term, macrocell or quad record that an uncorrectable error has taken (R566). -/
def deadTerm (g n : Nat) : Nat := 512 * g + n
def deadMc (g m : Nat) : Nat := 512 * g + 160 + m
def deadQuad (g q : Nat) : Nat := 512 * g + 192 + q

/-- Whether macrocell m outputs 0 because its record, one of its terms' or its quad's has been replaced (R566). -/
def State.mcDead (s : State) (g m : Nat) : Bool :=
  !s.lt.dead.isEmpty && (deadMc g m :: deadQuad g (m / 4) :: (List.range 5).map (fun j => deadTerm g (5 * m + j))).any (fun k => s.lt.dead.rd k false)

/-! ## Selection slots (R125-R128) -/

/-- The owner of a source and the level of its signal (R125). -/
def State.latSource (s : State) (g code : Nat) : Nat × Bool :=
  if code < 0x400 then
    let r := s.ringRec (tileIx g (code / 16)) (code % 16)
    (rOwner r, (s.flagsOf (tileIx g (code / 16)) (code % 16)).sel (bits (rLatio r) 15 12))
  else if code < 0x420 then
    (s.mcOwner g (code - 0x400), s.mcQ g (code - 0x400) && !s.mcConsumed g (code - 0x400))
  else if code < 0x430 then
    let d := s.sdRec g (code - 0x420)
    (s.swOwner (tileIx g (bits d 15 10)) (bits d 9 4), bit (s.lt.sdNow.rd g 0).toNat (code - 0x420))
  else if code < 0x438 && g < 4 then (0x200, s.lt.pinIn.rd (8 * g + (code - 0x430)) false)
  else (0x3FF, false)

/-- What slot i delivers (R126). -/
def State.latSlot (s : State) (g i : Nat) : Bool :=
  let (o, v) := s.latSource g (s.lt.isel.rd (96 * g + i) 0).toNat
  o == s.isOwner g i && o != 0x3FF && v

/-- The value slot i has for a macrocell of owner `own` (R128); `vals` are the delivered values. -/
def State.slotFor (s : State) (g own : Nat) (vals : List Bool) (i : Nat) : Bool :=
  s.isOwner g i == own && vals.getD i false

/-! ## Product terms (R129-R131) -/

/-- Product term n, evaluated under the masking of owner `own` (R129); one whose record has been replaced gives nothing (R566). -/
def State.term (s : State) (g own : Nat) (vals : List Bool) (n : Nat) : Bool :=
  let mask := (s.lt.pt.rd (160 * g + n) 0).toNat
  !s.lt.dead.rd (deadTerm g n) false && (mask == 0 || (List.range 96).all (fun i =>
    (!bit mask (2 * i) || s.slotFor g own vals i) && (!bit mask (2 * i + 1) || !s.slotFor g own vals i)))

/-- The role of dedicated term j in a macrocell record (R130, R141). -/
def mcRole (r j : Nat) : Nat := bits r (15 + 3 * j) (13 + 3 * j)

/-- The OR of macrocell `from'`'s terms of a role, under the masking of `own` (R130). -/
def State.roleOr (s : State) (g own : Nat) (vals : List Bool) (from' role : Nat) : Bool :=
  (List.range 5).any (fun j => mcRole (s.mcRec g from') j == role && s.term g own vals (5 * from' + j))

/-- The multiplexer of quad q (R134). -/
def State.wmux (s : State) (g q : Nat) (vals : List Bool) : Bool :=
  let r := s.quadRec g q
  let own := s.mcOwner g (4 * q + 3)
  let ix := (List.range (bits r 62 60)).foldl
    (fun a j => a + b2n (s.slotFor g own vals (bits r (24 + 7 * j) (18 + 7 * j))) * 2 ^ j) 0
  (List.range 4).all (fun k => s.mcOwner g (4 * q + k) == own) && s.slotFor g own vals (bits r 59 53 + ix)

/-- The sum S of macrocell m (R130, R131, R134). -/
def State.mcSum (s : State) (g m : Nat) (vals : List Bool) : Bool :=
  let own := s.mcOwner g m
  if m % 4 = 3 && bit (s.quadRec g (m / 4)) 63 then s.wmux g (m / 4) vals
  else s.roleOr g own vals m 1
    || (m < 31 && s.mcOwner g (m + 1) == own && s.roleOr g own vals (m + 1) 6)
    || (0 < m && s.mcOwner g (m - 1) == own && s.roleOr g own vals (m - 1) 7)

/-! ## The macrocell (R132) -/

/-- Lm during this fc and Q at its end (R132, R133, R566). -/
def State.mcEval (s : State) (g m : Nat) (vals : List Bool) : Bool × Bool :=
  let r := s.mcRec g m
  let own := s.mcOwner g m
  let q := s.mcQ g m
  let pol := bit r 28
  if s.mcConsumed g m then (false, q)
  else if s.lt.held.rd (32 * g + m) false || s.mcDead g m then (false, q)
  else if !s.running g then (q != pol, q)
  else
    let d := s.mcSum g m vals != s.roleOr g own vals m 2
    let set := s.roleOr g own vals m 3
    let rst := s.roleOr g own vals m 4
    let ce := (List.range 5).all (fun j => mcRole r j != 5) || s.roleOr g own vals m 5
    let regd (v : Bool) : Bool := if rst then false else if set then true else v
    match bits r 31 30 with
    | 0 => (d != pol, d)
    | 1 => (q != pol, regd (if ce then d else q))
    | 2 => (q != pol, regd (if ce && d then !q else q))
    | _ => ((if ce then d else q) != pol, regd (if ce then d else q))

/-- The values the 96 slots of a grove deliver in this fc. -/
def State.latVals (s : State) (g : Nat) : List Bool := (List.range 96).map (s.latSlot g)

/-- Lm of grove g in this fc: as evaluated, or as it would be evaluated now. -/
def State.latL (s : State) (g m : Nat) : Bool :=
  if s.lt.evalAt.rd g 0 = s.fc + 1 then bit (s.lt.out.rd g 0).toNat m else (s.mcEval g m (s.latVals g)).1

/-- Steering bundle b as a ring of an owner reads it (R36). -/
def State.bundle (s : State) (g b own : Nat) : Nat :=
  (List.range 4).foldl (fun a j => a + b2n (s.mcOwner g (4 * b + j) == own && s.latL g (4 * b + j)) * 2 ^ j) 0

/-- Whether an event line asserts: level or edges of L(MC) (R135). -/
def lineAsserts (edge : Nat) (now prev : Bool) : Bool :=
  match edge with
  | 0 => now
  | 1 => now && !prev
  | 2 => !now && prev
  | _ => now != prev

/-- An event line of a grove in this fc (R135). An output that a graft or tenant reset holds at 0 counts as 0 in R135's comparison, so that
a line of EDGE 0b10 or 0b11 asserts in the fc in which the hold drops it: the model's choice (log entry 129). -/
def State.latEvent (g : Nat) (out prev : Nat) (e : Nat) (s : State) : State :=
  let l := s.lineRec g e
  let m := bits l 4 0
  if bit l 7 && s.mcOwner g m == 0x200 && s.running g && lineAsserts (bits l 6 5) (bit out m) (bit prev m)
  then s.assertSrc (1536 + 8 * g + e) else s

/-- A pin output line of grove g in this fc (R136). -/
def State.latPin (g : Nat) (out : Nat) (k : Nat) (s : State) : State :=
  let l := s.lineRec g (8 + k)
  let m := bits l 4 0
  { s with lt := { s.lt with
      pinOut := s.lt.pinOut.wr (8 * g + k) false (bit l 7 && s.mcOwner g m == 0x200 && bit out m) } }

/-- A list of Booleans as a mask, first at bit 0. -/
def maskOf (l : List Bool) : Nat := l.foldr (fun b a => b2n b + 2 * a) 0

/-- One fc of a grove's lattice (R132): every output and every register of a powered grove from the state at the start of
the fc; then the event lines and, in groves 0-3, the pin output lines. A grove is evaluated once in an fc. -/
def State.latEval (s : State) (g : Nat) : State :=
  if !s.powered g || s.lt.evalAt.rd g 0 = s.fc + 1 then s
  else
    let vals := s.latVals g
    let res := (List.range 32).map (fun m => s.mcEval g m vals)
    let out := maskOf (res.map (·.1))
    let prev := (s.lt.out.rd g 0).toNat
    let q := (List.range 32).foldl (fun t m => t.wr (32 * g + m) false ((res.getD m (false, false)).2)) s.tl.rst.mcq
    let s' := { s with
      tl := { s.tl with rst := { s.tl.rst with mcq := q } }
      lt := { s.lt with
        out := s.lt.out.wr g 0 (BitVec.ofNat 32 out)
        prev := s.lt.prev.wr g 0 (BitVec.ofNat 32 prev)
        evalAt := s.lt.evalAt.wr g 0 (s.fc + 1) } }
    let s' := forEach (List.range 8) s' (State.latEvent g out prev)
    if g < 4 then forEach (List.range 8) s' (State.latPin g out) else s'

/-- LATTICE_EVALUATE (R132). -/
def execLatticeEvaluate (g : Fin 64) (s : State) : Res := .next (s.latEval g.val)

end Sys2Proof.Machine
end

