-- ==== Sys2Proof/Machine/Switch.lean ====
section
/-! DEFINITION. The stream switch (R99-R124): the mesh of boxes, register stages, bark gates and the bark check. -/

namespace Sys2Proof.Machine

/-! ## Stages (R116) -/

def stageZero : Stage := ⟨[], 0, 0⟩

/-- The words a stage held at the start of fc. -/
def Stage.startLen (st : Stage) (fc : Nat) : Nat :=
  st.q.length + (if st.rel = fc + 1 then 1 else 0) - (if st.acc = fc + 1 then 1 else 0)

/-- Whether a stage accepts a word in fc: at most one word at its start, and one word an fc (R116). -/
def Stage.room (st : Stage) (fc : Nat) : Bool := st.startLen fc ≤ 1 && st.acc != fc + 1

/-- The word a stage presents in fc, at most one an fc. -/
def Stage.head (st : Stage) (fc : Nat) : Option CWord :=
  if st.rel = fc + 1 then none
  else match st.q with
    | (r, w) :: _ => if r ≤ fc then some w else none
    | [] => none

def Stage.push (st : Stage) (fc ready : Nat) (w : CWord) : Stage := ⟨st.q ++ [(ready, w)], fc + 1, st.rel⟩

def Stage.pop (st : Stage) (fc : Nat) : Stage := ⟨st.q.drop 1, st.acc, fc + 1⟩

/-- Put another word in place of the oldest. -/
def Stage.swap (st : Stage) (w : CWord) : Stage :=
  match st.q with
  | (r, _) :: l => ⟨(r, w) :: l, st.acc, st.rel⟩
  | [] => st

/-- Where the words of a box input come from: a box output's stage, a tile's output port, or a lane's edge stage. -/
inductive Src where
  | stage (k : Nat)
  | outp (k : Nat)
  | edge (k : Nat)
  deriving DecidableEq, Repr

def State.stageAt (s : State) (k : Nat) : Stage := s.sw.stage.rd k stageZero

def State.srcStage (s : State) (x : Src) : Stage :=
  match x with
  | .stage k => s.sw.stage.rd k stageZero
  | .outp k => s.sw.outp.rd k stageZero
  | .edge k => s.sw.edgeIn.rd k stageZero

/-- An emptied stage keeps the fc of its last moves only while they matter: it is put back as it stands. -/
def State.setSrc (s : State) (x : Src) (st : Stage) : State :=
  { s with sw := match x with
    | .stage k => { s.sw with stage := s.sw.stage.wr k stageZero st }
    | .outp k => { s.sw with outp := s.sw.outp.wr k stageZero st }
    | .edge k => { s.sw with edgeIn := s.sw.edgeIn.wr k stageZero st } }

/-! ## The mesh (R102, R103, R120) -/

def meshRow (T : Nat) : Nat := 8 * (T / 64 / 8) + T % 64 / 8
def meshCol (T : Nat) : Nat := 8 * (T / 64 % 8) + T % 64 % 8
def tileAt (row col : Nat) : Nat := 64 * (8 * (row / 8) + col / 8) + 8 * (row % 8) + col % 8

/-- The index at the other end of a channel: Nk and Sk, Ek and Wk, and the same of the express channels. -/
def opposite (i : Nat) : Nat :=
  if i < 12 then i + 12 else if i < 24 then i - 12 else if i < 28 then i + 4 else i - 4

/-- The tile that input or output i (0-31) of tile T faces: one or four rows or columns away, none beyond the mesh. -/
def facing (T i : Nat) : Option Nat :=
  let r := meshRow T
  let c := meshCol T
  let north (d : Nat) := if d ≤ r then some (tileAt (r - d) c) else none
  let south (d : Nat) := if r + d < 64 then some (tileAt (r + d) c) else none
  let east (d : Nat) := if c + d < 64 then some (tileAt r (c + d)) else none
  let west (d : Nat) := if d ≤ c then some (tileAt r (c - d)) else none
  if i < 6 then north 1 else if i < 12 then east 1 else if i < 18 then south 1 else if i < 24 then west 1
  else if i < 26 then north 4 else if i < 28 then east 4 else if i < 30 then south 4 else west 4

/-- The grove of each lane group (R120). -/
def laneGroves : List Nat := [2, 3, 4, 5, 23, 31, 39, 47, 58, 59, 60, 61, 16, 24, 32, 40]

/-- The edge tile of a lane and the index of its channel 0 (R120). -/
def laneEdge (lane : Nat) : Nat × Nat :=
  let g := laneGroves.getD (lane / 8) 0
  let j := lane % 8
  match lane / 32 with
  | 0 => (tileIx g j, 0)
  | 1 => (tileIx g (8 * j + 7), 6)
  | 2 => (tileIx g (56 + j), 12)
  | _ => (tileIx g (8 * j), 18)

/-- The lane whose received words enter input i of tile T, and the channel (R120). -/
def edgeLane (T i : Nat) : Option (Nat × Nat) :=
  firstSome (fun l => if (laneEdge l).1 = T && (laneEdge l).2 ≤ i && i < (laneEdge l).2 + 6
    then some (l, i - (laneEdge l).2) else none) (List.range 128)

/-- Where the words of box input i of tile T come from (R102, R103); taps are served by their blocks. -/
def srcOf (T i : Nat) : Option Src :=
  if i < 32 then
    match facing T i with
    | some T' => some (.stage (64 * T' + opposite i))
    | none => match edgeLane T i with
      | some (l, k) => some (.edge (8 * l + k))
      | none => none
  else if i < 36 then some (.outp (4 * T + (i - 32)))
  else if 42 ≤ i && i < 46 then some (.stage (64 * T + (32 + (i - 42))))
  else none

/-- The grove whose boundary a word crosses to reach input i of tile T, when it is another. -/
def srcGrove (T i : Nat) : Nat :=
  if i < 32 then match facing T i with
    | some T' => T' / 64
    | none => T / 64
  else T / 64

/-- The outputs of tile T that select source i (R104). -/
def State.selects (s : State) (T i : Nat) : List Nat :=
  (List.range 42).filter (fun o => (s.sw.sel.rd (64 * T + o) 63).toNat == i)

/-! ## The bark check (R110-R115) -/

/-- A word after the gate of an owner entry (R110, R111). -/
def gated (entry : Nat) (w : CWord) : CWord :=
  if bit entry 11 && (bits entry 21 12 == 0x3FF || bits entry 21 12 == w.tag.toNat)
  then { w with tag := BitVec.ofNat 10 (bits entry 31 22) } else w

/-- Whether a word passes the check against a segment owner (R112). -/
def barkOk (owner : Nat) (w : CWord) : Bool := w.tag.toNat == owner && owner != 0x3FF

/-- A word after the gate of input i of tile T. -/
def State.gateWord (s : State) (T i : Nat) (w : CWord) : CWord := gated (s.actv .swIn (64 * T + i)).toNat w

/-- A drop at input i of tile T (R112, R113): the count, and a record to heartwood at the first since DROPSEEN was clear. -/
def State.barkDrop (s : State) (T i : Nat) (w : CWord) : State :=
  let s := s.count .swGbark (T / 64) 31 0 1
  if s.flag .swIn (64 * T + i) 0 then s
  else (s.tellHeart 2 (BitVec.ofNat 10 (s.swOwner T i)) 1 5 (T * 2 ^ 20 + i * 2 ^ 14 + w.tag.toNat)).setBit
    .swIn (64 * T + i) 0 true

/-- The replacement for a word that fails parity at an input (R115). -/
def parityWord (owner : Nat) : CWord := ⟨BitVec.ofNat 10 owner, false, 10, 0⟩

/-- A parity replacement at an input of grove g is counted and told to the input's owner (R115); `loc` is the place of the input as the
detail of R113 gives it. -/
def State.parityNote (s : State) (g owner loc : Nat) : State :=
  (s.count .swGpar g 31 0 1).tellOwner 1 (BitVec.ofNat 10 owner) 1 6 loc

/-- A parity replacement at input i of tile T. -/
def State.parityTold (s : State) (T i : Nat) : State := s.parityNote (T / 64) (s.swOwner T i) (T * 2 ^ 20 + i * 2 ^ 14)

/-- The sideband decodes of the grove that watch input i of tile T see an accepted word (R127). -/
def State.decodes (s : State) (T i : Nat) (w : CWord) : State :=
  let g := T / 64
  let hit := (List.range 16).filter (fun k =>
    let d := s.sdRec g k
    bit d 0 && bits d 15 10 == T % 64 && bits d 9 4 == i && bit d (16 + w.code.toNat) && (!bit d 3 || w.m))
  if hit.isEmpty then s
  else { s with lt := { s.lt with sdNext := s.lt.sdNext.up g 0 (fun v => hit.foldl (fun v k => v ||| BitVec.ofNat 16 (2 ^ k)) v) } }

/-- Whether every output selecting input i of tile T accepts a word in this fc, and there is one (R116). -/
def State.canTake (s : State) (T i : Nat) : Bool :=
  let os := s.selects T i
  !os.isEmpty && os.all (fun o => (s.stageAt (64 * T + o)).room s.fc)

/-- Put a word into every output that selects input i (R116): in effect one fc later, two through an express stage (R119). -/
def State.intoStages (s : State) (T i : Nat) (w : CWord) : State :=
  forEach (s.selects T i) s (fun o s =>
    s.setSrc (.stage (64 * T + o))
      ((s.stageAt (64 * T + o)).push s.fc (s.fc + (if 24 ≤ o && o < 32 then 2 else 1)) w))

/-- A word arrives at box input i of tile T from a hard block or a stage: whether it is taken, and the state after. An input that
no output selects releases no word (R116, log entry 26). A dropped word is taken as if delivered (R112); one that passes is
taken when every selecting output accepts. -/
def State.arrive (s : State) (T i : Nat) (w : CWord) : Bool × State :=
  let w := s.gateWord T i w
  if (s.selects T i).isEmpty then (false, s)
  else if !barkOk (s.swOwner T i) w then (true, s.barkDrop T i w)
  else if s.canTake T i then (true, (s.intoStages T i w).decodes T i w)
  else (false, s)

/-- A word as it is judged at an input of an owner: one that fails parity gives way to its replacement (R115). -/
def parityIn (owner : Nat) (upset : Bool) (w : CWord) : CWord := if upset then parityWord owner else w

/-- A word of a hard block at tap input i of tile T, which takes it: a parity failure is counted and told first (R115). -/
def State.arriveTap (s : State) (T i : Nat) (upset : Bool) (w : CWord) : State :=
  ((if upset then s.parityTold T i else s).arrive T i (parityIn (s.swOwner T i) upset w)).2

/-- What `arrive` would decide, without its effect. -/
def State.wouldTake (s : State) (T i : Nat) (w : CWord) : Bool :=
  !(s.selects T i).isEmpty && (!barkOk (s.swOwner T i) (s.gateWord T i w) || s.canTake T i)

/-- The word tile input port k presents to a ring: the head of its feed, when the port's check passes it (R112, R117). -/
def State.portWord (s : State) (T k : Nat) : Option CWord :=
  match (s.stageAt (64 * T + 32 + k)).head s.fc with
  | some w => if barkOk (s.swOwner T (42 + k)) (s.gateWord T (42 + k) w) then some w else none
  | none => none

/-- One fc of input i of tile T (R112, R115, R116): the source's oldest word is judged and moves on, stays, or is dropped.
A parity failure replaces the word where it stands before it is judged. A word bound into a closed grove is accepted
and discarded, and a closed grove sends nothing (R539). At a tile input port, 42-45, a word that passes stays in the feed
for the ring (R117). -/
def State.inputStep (s : State) (T i : Nat) (upset : Bool) : State :=
  match srcOf T i with
  | none => s
  | some x =>
    match (s.srcStage x).head s.fc with
    | none => s
    | some w =>
      let g := T / 64
      let g' := srcGrove T i
      if g != g' && s.closed g' then s
      else if g != g' && s.closed g then s.setSrc x ((s.srcStage x).pop s.fc)
      else if !s.powered g then s
      else
        let (w, s) := if upset then
            (parityWord (s.swOwner T i), (s.parityTold T i).setSrc x ((s.srcStage x).swap (parityWord (s.swOwner T i))))
          else (w, s)
        if 42 ≤ i then
          if barkOk (s.swOwner T i) (s.gateWord T i w) then s
          else (s.barkDrop T i (s.gateWord T i w)).setSrc x ((s.srcStage x).pop s.fc)
        else
          let (took, s') := s.arrive T i w
          if took then s'.setSrc x ((s'.srcStage x).pop s.fc) else s

/-- The input that output o of tile T presents its words to: the facing box's input, or the tile's own port for a feed. -/
def sinkOf (T o : Nat) : Option (Nat × Nat) :=
  if o < 32 then (facing T o).map (fun T' => (T', opposite o))
  else if o < 36 then some (T, 42 + (o - 32))
  else none

/-- BARK_CHECK (R112). -/
def execBarkCheck (g t : Fin 64) (i : Fin 46) (upset : Bool) (s : State) : Res :=
  .next (s.inputStep (tileIx g.val t.val) i.val upset)

/-- STAGE_TRANSFER (R116): the stage of output o presents its oldest word to the input it faces. -/
def execStageTransfer (g t : Fin 64) (o : Fin 42) (s : State) : Res :=
  .next (match sinkOf (tileIx g.val t.val) o.val with
    | some (T, i) => s.inputStep T i false
    | none => s)

end Sys2Proof.Machine
end

