-- ==== Sys2Proof/Machine/Tile.lean ====
section
/-! DEFINITION. Tiles: tile addressing (R90-R97), slots, stalls and steering (R46-R54), and the landing of results (R74). -/

namespace Sys2Proof.Machine

/-! ## Tile addressing (R91-R93) -/

/-- The order of the low b bits reversed. -/
def revBits (b n : Nat) : Nat := (List.range b).foldl (fun a i => a + b2n (bit n i) * 2 ^ (b - 1 - i)) 0

/-- The effective circular length (R91). -/
def circLen (len : Nat) : Nat := if len = 0 || len > 2048 then 2048 else len

/-- Post-modify of a pointer (R92): modes linear, circular, bit-reversed; 0b11 is reserved and keeps the pointer. -/
def postMod (amode p base len : Nat) (m : Int) : Nat :=
  let l := circLen len
  let off := (p + 2048 - base) % 2048
  match amode with
  | 0 => unsgn 11 ((p : Int) + m)
  | 1 => (base + ((off : Int) + m) % (l : Int) |>.toNat) % 2048
  | 2 =>
    let b := Nat.log2 l
    let n := 2 ^ b
    (base + revBits b ((((revBits b (off % n) : Nat) : Int) + m) % (n : Int)).toNat) % 2048
  | _ => p

/-- The detail field of ring records (R97). -/
def ringDetail (T r : Nat) (write second : Bool) (q : Nat) : Nat :=
  T * 2 ^ 20 + r * 2 ^ 16 + b2n write * 2 ^ 15 + b2n second * 2 ^ 14 + q % 2048

/-! ## Landing (R74) -/

/-- Put an effect into a tile's list. -/
def State.sched (s : State) (T : Nat) (l : List Landing) : State :=
  if l.isEmpty then s else { s with tl := { s.tl with land := s.tl.land.up T [] (· ++ l) } }

/-- A result enters an output port; it may leave from the next fc (R53, R119). -/
def State.toPort (s : State) (T k : Nat) (w : CWord) : State :=
  let st := s.srcStage (.outp (4 * T + k))
  s.setSrc (.outp (4 * T + k)) ⟨st.q ++ [(s.fc + 1, w)], st.acc, st.rel⟩

/-- What a store produces in fc s+3 and what it will land in fc s+5 (R74, R85): the port words, the register write and the
sticky SAT; and the memory write, seen from the fc after. A poisoned result is written nowhere but the ports (R78). `code` is
2 for S0 and 3 for S1. -/
def State.landStore (s : State) (T : Nat) (x : Landing) (outsel : Nat) (code : Nat) (mem : Option Nat)
    (st : StoreAct) (v : BitVec 56) (bad : Bool) : State :=
  let (w, sat) := macStore v st.shift
  let o : Opd := ⟨w, if bad then codePOISON else codeDATA, false⟩
  let mk (due : Nat) (e : Effect) : Landing := ⟨due, x.ring, x.tag, e⟩
  let ports := ((List.range 4).filter (fun k => outCode outsel k == code)).map
    (fun k => mk (s.fc + 2) (.port ⟨k % 4, Nat.mod_lt _ (by decide)⟩ (o.cword x.tag)))
  let s := s.sched T (ports ++ (if sat then [mk (s.fc + 2) .setSat] else []))
  let s := if st.dwr then
      if bad then s.tellOwner 1 x.tag 0 6 (ringDetail T x.ring.val true false 0)
      else s.sched T [mk (s.fc + 2) (.dreg st.dst (BitVec.ofNat 24 w))]
    else s
  match mem with
  | none => s
  | some a =>
    if bad then s.tellOwner 1 x.tag 0 6 (ringDetail T x.ring.val true false (a / 2048))
    else s.sched T [mk (s.fc + 3) (.mem (a % 2048) (BitVec.ofNat 24 w))]

/-- Apply the changes of one MAC in order; whether one wrapped (R84, R86). -/
def State.accActs (s : State) (T r : Nat) (l : List (Fin 4 × AccAct)) : State × Bool :=
  l.foldl (fun (s, o) (a, x) =>
    let (v, w) := accAct (s.accReg T r a.val) x
    (s.setAcc T r a.val v, o || w)) (s, false)

/-- The MAC work of a slot in fc s+3 (R83-R89). -/
def State.landMac (s : State) (T : Nat) (x : Landing) (j : MacJob) : State :=
  let r := x.ring.val
  let aov (s : State) (b : Bool) : State :=
    let f := s.flagsOf T r
    s.setFlags T r { f with aov := f.aov || b }
  let store (code : Nat) (mem : Option Nat) (st : Option StoreAct) (val : Nat → BitVec 56) (bad : Bool) (s : State) : State :=
    match st with
    | none => s
    | some a => s.landStore T x j.outsel.toNat code mem a (val a.acc.val) bad
  let clear (st : Option StoreAct) (s : State) : State :=
    match st with
    | some a => if a.clear then s.setAcc T r a.acc.val 0 else s
    | none => s
  if j.dump then
    let before := s.accReg T r
    let bad := (s.flagsOf T r).aov
    let (s, o) := s.accActs T r j.acts0
    let s := aov s (o || j.poison)
    store 3 j.memS1 j.st1 before bad (store 2 j.memS0 j.st0 before bad s)
  else
    let (s, o0) := s.accActs T r j.acts0
    let (s, o1) := s.accActs T r j.acts1
    let s := aov s (o0 || o1 || j.poison)
    let val := s.accReg T r
    let bad := (s.flagsOf T r).aov
    clear j.st1 (clear j.st0 (store 3 j.memS1 j.st1 val bad (store 2 j.memS0 j.st0 val bad s)))

/-- One effect lands (R74). -/
def State.landOne (T : Nat) (x : Landing) (s : State) : State :=
  let r := x.ring.val
  match x.eff with
  | .dreg i v => s.setDReg T r i.val v
  | .ptr k v => s.setP T r k.val v
  | .base k v => s.setBase T r k.val v
  | .len k v => s.setLen T r k.val v
  | .port k w => s.toPort T k.val w
  | .flags u => s.setFlags T r ((s.flagsOf T r).land u)
  | .setSat => let f := s.flagsOf T r; s.setFlags T r { f with sat := true }
  | .mac j => s.landMac T x j
  | .mem a v => s.setTmem T a v

/-- A steering update takes effect (R48-R50). -/
def State.landSteer (T : Nat) (u : Steer) (s : State) : State :=
  s.setSidx T u.group (if u.value < 16 then u.value else (s.flagsOf T (u.value - 16)).steer)

/-- Everything of a tile due by this fc lands, flag updates before what sets a sticky flag (R81), the rest in issue order; then
the steering updates, in issue order so that a later slot's stands (R50). -/
def State.landTile (T : Nat) (s : State) : State :=
  let l := s.tl.land.rd T []
  let now := l.filter (fun x => x.due ≤ s.fc)
  let isF (x : Landing) : Bool := match x.eff with
    | .flags _ => true
    | _ => false
  let s := { s with tl := { s.tl with land := s.tl.land.wr T [] (l.filter (fun x => !(decide (x.due ≤ s.fc)))) } }
  let s := forEach (now.filter isF) s (State.landOne T)
  let s := forEach (now.filter (fun x => !isF x)) s (State.landOne T)
  let u := s.tl.steer.rd T []
  let s := { s with tl := { s.tl with steer := s.tl.steer.wr T [] (u.filter (fun x => !(decide (x.due ≤ s.fc)))) } }
  forEach (u.filter (fun x => x.due ≤ s.fc)) s (State.landSteer T)

/-- What lands in this fc, in every tile that has anything in flight. -/
def State.landAll (s : State) : State :=
  forEach (s.tl.land.map (·.1) ++ (s.tl.steer.map (·.1)).filter (fun T => !(s.tl.land.any (fun e => e.1 == T)))) s
    State.landTile

/-! ## Issue (R46, R52) -/

/-- Results in flight to output port k: those that wait to land and the store results still to come (R52). -/
def State.inFlight (s : State) (T k : Nat) : Nat :=
  ((s.tl.land.rd T []).map (fun x => match x.eff with
    | .port k' _ => b2n (k'.val == k)
    | .mac j => b2n ((outCode j.outsel.toNat k == 2 && j.st0.isSome) || (outCode j.outsel.toNat k == 3 && j.st1.isSome))
    | _ => 0)).sum

/-- Whether a record may issue: waiting reads find a word, named outputs keep a free entry (R52). -/
def State.canIssue (s : State) (T : Nat) (rcd : Nat) : Bool :=
  (rReads rcd).all (fun (k, wait) => !wait || (s.portWord T k).isSome)
  && (rOuts rcd).all (fun k =>
    let st := s.srcStage (.outp (4 * T + k))
    st.q.length + b2n (st.rel == s.fc + 1) + s.inFlight T k < 4)

/-- Whether every port a record names belongs to an owner (R46, R108). -/
def State.portsOwned (s : State) (T rcd own : Nat) : Bool :=
  (rReads rcd).all (fun (k, _) => s.swOwner T (42 + k) == own) && (rOuts rcd).all (fun k => s.swOwner T (32 + k) == own)

/-- Queue a steering update. -/
def State.steerTo (s : State) (T group due value : Nat) : State :=
  { s with tl := { s.tl with steer := s.tl.steer.up T [] (· ++ [⟨due, group, value⟩]) } }

/-- WFAULT of a ring as it will stand once the updates in flight have landed (R95). -/
def State.wfaultSoon (s : State) (T r : Nat) : Bool :=
  (s.tl.land.rd T []).foldl (fun b x => match x.eff with
    | .flags u => if x.ring.val = r then u.setWf || (b && !u.clrWf) else b
    | _ => b) (s.flagsOf T r).wfault

/-- A ring's read of window offset q (R91, R95, R96): the operand and the error record it calls for (cause 0 none, 6 parity,
7 outside the window). -/
def State.winRead (s : State) (T r q : Nat) : Opd × Nat :=
  if s.inWindow T r q then
    let a := (s.window T r).1 + q
    if s.tileBad T a then (⟨s.tmemWas T a, codePOISON, false⟩, 6) else (Opd.val (s.tmemWas T a), 0)
  else (⟨0, codePOISON, false⟩, 7)

/-- Everything a slot samples in its issue fc (R72): the executing ring, its record, the words X and Y it takes, and the words
M and M1 it reads. -/
structure Slot where
  T : Nat
  r : Nat
  rcd : Nat
  x : Opd
  y : Opd
  m : Opd
  m1 : Opd

/-- The operand of a source code (R72). -/
def Slot.src (z : Slot) (s : State) (c : Nat) : Opd :=
  if c < 8 then Opd.val (s.dReg z.T z.r c)
  else match c with
    | 8 => Opd.val (rImm z.rcd)
    | 9 => z.x
    | 10 => z.y
    | 11 => z.m
    | 12 => z.m1
    | _ => Opd.val 0

/-- The MAC work of a slot (R82-R89), nothing when both opcodes are NOP. `w0` and `w1` are where a memory write waits for S0
and S1. -/
def Slot.macJob (z : Slot) (s : State) (w0 w1 : Option Nat) : Option MacJob :=
  let op0 := rMac0 z.rcd
  let op1 := rMac1 z.rcd
  let c0 := bits op0 17 14
  let c1 := bits op1 17 14
  let src (op : Nat) := (z.src s (bits op 13 10), z.src s (bits op 9 6))
  let (a0, b0) := src op0
  let (a1, b1) := src op1
  let pz (c : Nat) (a b : Opd) : Bool := ((macReads c).1 && a.poison) || ((macReads c).2 && b.poison)
  let poison := pz c0 a0 b0 || pz c1 a1 b1
  if c0 = 0 && c1 = 0 then none
  else if c0 = 8 then
    let off := (s.pReg z.T z.r 3 + 2048 - s.baseReg z.T z.r 3) % 2048
    let half := match bits op0 5 4 with
      | 0 => 0
      | 1 => 1
      | _ => off % 2
    let pk := bit op0 1
    let br := if pk then packed (b0.num / 4096) else b0.num
    let bi := if pk then packed b0.num else b1.num
    let dump := bit op0 0 && half == 0 && off == 0
    some { acts0 := cmacActs half (bit op0 2) (bit op0 3) dump a0.num br bi, acts1 := [],
           st0 := if dump then some (dumpStore 0 (rImm z.rcd)) else none,
           st1 := if dump then some (dumpStore 2 (rImm z.rcd)) else none,
           dump := dump, poison := poison, outsel := BitVec.ofNat 16 (rOutsel z.rcd),
           memS0 := w0, memS1 := w1 }
  else
    some { acts0 := macActs c0 a0.num b0.num (bit op0 3) (accField op0),
           acts1 := macActs c1 a1.num b1.num (bit op1 3) (accField op1),
           st0 := macStoreOf op0, st1 := macStoreOf op1, dump := false, poison := poison,
           outsel := BitVec.ofNat 16 (rOutsel z.rcd), memS0 := w0, memS1 := w1 }

/-- The new steering index of an executing ring and the fc it takes effect in, when it has one (R48, R49). `i` is the index, n
the member count, `wu` the word-unit result. A group of one member is not steered. -/
def Slot.steering (z : Slot) (s : State) (i n : Nat) (wu : Option WuRes) : Option (Nat × Nat) :=
  let m := i % n
  let own := rOwner z.rcd
  let b := s.bundle (z.T / 64) (bits (rLatio z.rcd) 11 9) own
  let wuBits (hi lo : Nat) : Option (Nat × Nat) := wu.map (fun w => (s.fc + 2, bits w.w.data hi lo))
  let took (k : Nat) : Option (Nat × Nat) :=
    let i := rInsel z.rcd
    let hit (en : Nat) (port : Nat) (wd : Opd) : Bool :=
      bit i en && port == k && (s.portWord z.T k).isSome && wd == ((s.portWord z.T k).map CWord.opd).getD Opd.idle
    if hit 15 (bits i 14 13) z.x then some (s.fc + 1, z.x.code)
    else if hit 11 (bits i 10 9) z.y then some (s.fc + 1, z.y.code) else none
  if n ≤ 1 then none
  else match rSteer z.rcd with
    | 0 => some (s.fc + 1, (m + 1) % n)
    | 1 => some (s.fc + 1, i)
    | 2 => some (s.fc + 1, 0)
    | 3 => some (s.fc + 1, if m < n - 1 then m + 1 else m)
    | 4 => wuBits 3 0
    | 5 => wuBits 7 4
    | 6 => wuBits 23 20
    | 7 => wu.map (fun _ => (s.fc + 2, 16 + z.r))
    | 8 => some (s.fc + 1, b)
    | 9 => some (s.fc + 1, (m + b) % n)
    | 12 => took 0
    | 13 => took 1
    | 14 => took 2
    | 15 => took 3
    | _ => none

/-- The writes of W outside the ports (R76, R78): d[DST], or the pointer, base or length register a SETP, SETB or SETL names. -/
def Slot.wWrites (z : Slot) (w : Nat) : List Effect :=
  let op := rWuop z.rcd
  let k : Fin 4 := ⟨bits op 1 0 % 4, Nat.mod_lt _ (by decide)⟩
  (if bit op 2 then [.dreg ⟨bits op 5 3 % 8, Nat.mod_lt _ (by decide)⟩ (BitVec.ofNat 24 w)] else [])
  ++ (match bits op 19 14 with
    | 0x30 => [.ptr k (BitVec.ofNat 11 w)]
    | 0x31 => [.base k (BitVec.ofNat 11 w)]
    | 0x32 => [.len k (BitVec.ofNat 12 w)]
    | _ => [])

/-- The data a MEMOP write takes in fc s (R94): none for an absent W and for S0 and S1, which come later. An operand that carries IDLE
writes 0; W is a result and writes its data whatever its code. -/
def Slot.memData (z : Slot) (s : State) (wu : Option WuRes) : Option (Nat × Bool) :=
  let c := bits (rMemop z.rcd) 4 1
  if c < 11 then some ((z.src s c).num, (z.src s c).poison)
  else if c = 11 then wu.map (fun w => (w.w.data, w.w.poison)) else none

/-- Execute a ring that issues (R72-R97): the words it reads, what it puts in flight, and the records it calls for. A poisoned W calls for
one record for all the registers it is kept from, DST's and that of SETP, SETB or SETL together: the model's choice (log entry 19). -/
def State.execRing (s0 : State) (T r group i n : Nat) : State :=
  let rcd := s0.ringRec T r
  let own := BitVec.ofNat 10 (rOwner rcd)
  let mo := rMemop rcd
  let act := bits mo 15 14
  let k := bits mo 13 12
  let dual := bit mo 0
  let q := s0.pReg T r k
  let q3 := s0.pReg T r 3
  let word (en : Nat) (port : Nat) : Opd :=
    if bit (rInsel rcd) en then ((s0.portWord T port).map CWord.opd).getD Opd.idle else Opd.idle
  let (m, e1) := if act = 1 || act = 3 then s0.winRead T r q else (Opd.idle, 0)
  let (m1, e2) := if dual then s0.winRead T r q3 else (Opd.idle, 0)
  let z : Slot := ⟨T, r, rcd, word 15 (bits (rInsel rcd) 14 13), word 11 (bits (rInsel rcd) 10 9), m, m1⟩
  let op := rWuop rcd
  let wu := wordUnit op (rImm rcd) (z.src s0 (bits op 13 10)) (z.src s0 (bits op 9 6)) (s0.flagsOf T r)
    (s0.pReg T r (bits op 1 0))
  -- before the grove's stage WEN its memory writes are suppressed without a fault (R458)
  let writes := (act = 2 || act = 3) && s0.cf.wenGrove.rd (T / 64) false
  let inW := s0.inWindow T r q
  let ring : Fin 16 := ⟨r % 16, Nat.mod_lt _ (by decide)⟩
  let mk (due : Nat) (e : Effect) : Landing := ⟨due, ring, own, e⟩
  let fault := e1 == 7 || (writes && !inW) || e2 == 7
  let tell (b : Bool) (cls code detail : Nat) (s : State) : State := if b then s.tellOwner cls own 0 code detail else s
  -- words consumed from the feeds
  let s := forEach (rReads rcd) s0 (fun (k, _) s =>
    if (s0.portWord T k).isSome then s.setSrc (.stage (64 * T + 32 + k)) ((s0.stageAt (64 * T + 32 + k)).pop s0.fc) else s)
  -- pointers, from s+1
  let md := if bit mo 5 then sgn 24 (s0.dReg T r 7) else sgn 4 (bits mo 9 6)
  let ptr (k : Nat) (amode : Nat) (md : Int) : Landing :=
    mk (s0.fc + 1) (.ptr ⟨k % 4, Nat.mod_lt _ (by decide)⟩
      (BitVec.ofNat 11 (postMod amode (s0.pReg T r k) (s0.baseReg T r k) (s0.lenReg T r k) md)))
  let s := s.sched T ((if md != 0 then [ptr k (bits mo 11 10) md] else []) ++ (if dual then [ptr 3 1 1] else []))
  -- W and flags, in s+2
  let s := match wu with
    | none => s
    | some w =>
      let s := s.sched T (((List.range 4).filter (fun k => outCode (rOutsel rcd) k == 1)).map
        (fun k => mk (s0.fc + 2) (.port ⟨k % 4, Nat.mod_lt _ (by decide)⟩ (w.w.cword own))))
      let l := z.wWrites w.w.data
      if w.w.poison then tell (!l.isEmpty) 1 6 (ringDetail T r true false 0) s
      else s.sched T (l.map (mk (s0.fc + 2)))
  let u := mkFlagUpd (rFlagop rcd) (wu.map (·.arith)) (wu.bind (·.cond)) ((wu.map (·.sat)).getD false) fault
  let s := if rFlagop rcd = 0 && !u.setSat && !u.setWf then s else s.sched T [mk (s0.fc + 2) (.flags u)]
  -- the tile-memory write, performed in s+5 and seen from the fc after
  let a := (s0.window T r).1 + q
  let s := if writes && inW then
      match z.memData s0 wu with
      | none => s
      | some d =>
        if d.2 then tell true 1 6 (ringDetail T r true false q) s
        else s.sched T [mk (s0.fc + 6) (.mem (a % 2048) (BitVec.ofNat 24 d.1))]
    else s
  -- the multipliers, in s+3
  let slot (c : Nat) : Option Nat := if writes && inW && bits mo 4 1 == c then some (2048 * q + a % 2048) else none
  let s := match z.macJob s0 (slot 12) (slot 13) with
    | none => s
    | some j => s.sched T [mk (s0.fc + 3) (.mac j)]
  -- the records of R95 and R96
  let s := tell (e1 == 6) 1 6 (ringDetail T r false false q) s
  let s := tell (e2 == 6) 1 6 (ringDetail T r false true q3) s
  let s := tell (fault && !s0.wfaultSoon T r) 2 7
    (if e1 == 7 then ringDetail T r false false q
     else if writes && !inW then ringDetail T r true false q
     else ringDetail T r false true q3) s
  -- steering
  match z.steering s0 i n wu with
  | none => s
  | some (due, v) => s.steerTo T group due v

/-- An owner fault (R47, R65): counted and told to heartwood. The spec gives its record no CODE and no detail: free values (log
entry 3). -/
def State.ownerFault (s : State) (T r : Nat) : State :=
  let s := s.count .tlGfault (T / 64) 31 0 1
  let (c, s) := s.freeCode
  let (w, s) := s.freeWord
  s.tellHeart 2 (BitVec.ofNat 10 (rOwner (s.ringRec T r))) 0 c w.toNat

/-- The calendar entry of tile T at a phase (R44). -/
def State.calEntry (s : State) (T phase : Nat) : Nat :=
  s.actFld .tlCal (8 * T + phase / 8) (4 * (phase % 8) + 3) (4 * (phase % 8))

/-- One slot of tile T (R46). A tile takes one slot an fc. -/
def State.slot (s : State) (T : Nat) : State :=
  if !s.running (T / 64) || !s.powered (T / 64) || s.tl.slotAt.rd T 0 = s.fc + 1 then s
  else
    let s := { s with tl := { s.tl with slotAt := s.tl.slotAt.wr T 0 (s.fc + 1) } }
    let g := s.calEntry T (s.fld .tlGphase (T / 64) 5 0)
    let members := ones 16 (s.actFld .tlGrp (16 * T + g) 15 0)
    let n := members.length
    if g = 15 || n = 0 then s
    else
      let i := s.sidx T g
      let r := members.getD (i % n) 0
      let rcd := s.ringRec T r
      if !s.ripe T r then s.steerTo T g (s.fc + 1) ((i % n + 1) % n)
      else if rOwner rcd != s.actFld .tlGrp (16 * T + g) 31 22 || !s.portsOwned T rcd (rOwner rcd) then
        (s.ownerFault T r).steerTo T g (s.fc + 1) ((i % n + 1) % n)
      else if !s.canIssue T rcd then s
      else s.execRing T r g i n

/-- TILE_SLOT (R46). `upset` names tile-memory words whose parity goes bad in this fc (R96). -/
def execTileSlot (g t : Fin 64) (upset : List (Fin 2048)) (s : State) : Res :=
  let T := tileIx g.val t.val
  let s := { s with tl := { s.tl with
    bad := upset.foldl (fun (b : Tbl Bool) (w : Fin 2048) => b.wr (2048 * T + w.val) false true) s.tl.bad } }
  .next (s.slot T)

/-- A write of TL_GCAL (R61, R62): a tenant meets BARK, the rest R12; COMMIT notes the fc of the request. -/
def State.writeGcal (s : State) (p : Party) (g : Nat) (w : Word) : State :=
  match p with
  | .tenant _ => s.barkAns 0
  | _ =>
    let j := s.judgeW p .tlGcal g (fun _ _ => true) w
    let fresh := bit j.acts 31 && !s.flag .tlGcal g 31
    let s := s.land .tlGcal g j
    if fresh then { s with tl := { s.tl with commitAt := s.tl.commitAt.wr g 0 (s.fc + 1) } } else s

/-- TL_GCAL_COMMIT (R62). -/
def execTlGcalCommit (p : Party) (g : Fin 64) (w : Word) (s : State) : Res := .next (s.writeGcal p g.val w)

end Sys2Proof.Machine
end

