-- ==== Sys2Proof/Machine/Fifo.lean ====
section
/-! DEFINITION. The stream FIFOs (R148-R172): entries, gap markers, cut-through, flush, and both kinds of end. -/

namespace Sys2Proof.Machine

def fifoZero : FifoSt := ⟨[], 0, 0, 0, false⟩

def State.fifo (s : State) (F : Nat) : FifoSt := s.ff.st.rd F fifoZero
def State.setFifo (s : State) (F : Nat) (x : FifoSt) : State :=
  { s with ff := { s.ff with st := s.ff.st.wr F fifoZero x } }

/-- The configuration record of a FIFO (R162). -/
def State.fifoRec (s : State) (F : Nat) : Nat := (s.ff.recd.rd F 0).toNat

/-- Words per entry (R149, R162). -/
def fifoW (r : Nat) : Nat := match bits r 29 28 with
  | 0 => 1
  | 1 => 2
  | 2 => 3
  | _ => 6

/-- Whether a FIFO is consumed by a lower-numbered one (R148). -/
def fifoConsumed (r : Nat) : Bool := bits r 31 30 == 3

/-- Capacity in entries (R148, R149). -/
def fifoCap (r : Nat) : Nat := 2 ^ (bits r 31 30) * 6144 / fifoW r

/-- Whether an empty read end presents nothing, as a quad does (R153). -/
def fifoQuad (r : Nat) : Bool := bits r 31 30 == 2

/-- A FIFO as this fc began: what fill, space and hold are judged on (R152, R157). -/
def State.fifoWas (s : State) (F : Nat) : FifoSt := s.was.ff.rd F fifoZero

/-- Whether a write end accepts (R152): the grove has taken WEN and the FIFO is not held off. -/
def State.fifoOpen (s : State) (F : Nat) : Bool :=
  s.powered (F / 8) && s.cf.wenGrove.rd (F / 8) false && !(s.ff.held.rd F false)

/-- The words of a gap marker (R155). -/
def gapWords (w cnt : Nat) (m : Bool) : List CWord :=
  ⟨0, m, BitVec.ofNat 4 codeGAP, BitVec.ofNat 24 cnt⟩ :: List.replicate (w - 1) ⟨0, m, BitVec.ofNat 4 codeIDLE, 0⟩

/-- An item at the write end, judged by the fill as the fc began (R152, R154): stored, or dropped into a gap marker. In the fc of a flush
what would be stored is discarded (R159); an item that finds the FIFO full is counted as dropped in that fc too (log entry 130). -/
def State.fifoStore (s : State) (F : Nat) (ws : List CWord) : State :=
  let r := s.fifoRec F
  let x := s.fifo F
  let full : Bool := decide (fifoCap r - 1 ≤ (s.fifoWas F).q.length)
  let s := if full then (s.count .ffDrop F 31 0 1).setBit .ffStat F 0 true else s
  let put (e : FEntry) : State := s.setFifo F { x with q := x.q ++ [e], acc := s.fc + 1, markM := false }
  if x.flushAt = s.fc + 1 then s.setFifo F { x with acc := s.fc + 1 }
  else if !full then put ⟨ws.map (fun w => { w with tag := 0, m := w.m || x.markM }), false, 0, s.fc⟩
  else
    let marker (c : Nat) (m : Bool) (fc : Nat) : FEntry := ⟨gapWords (fifoW r) c m, true, c, fc⟩
    match x.q.getLast? with
    | some e =>
      if e.gap then s.setFifo F { x with
        q := x.q.dropLast ++ [marker (min (e.cnt + 1) 0xFFFFFF) ((e.ws.head?.map CWord.m).getD false) e.fc], acc := s.fc + 1 }
      else put (marker 1 x.markM s.fc)
    | none => put (marker 1 x.markM s.fc)

/-- A word dropped at the write end of FIFO F, at tap k (R112, R113). -/
def State.fifoBark (s : State) (F k : Nat) (w : CWord) : State :=
  let T := tileIx (F / 8) (24 + F % 8)
  let s := s.count .swGbark (F / 8) 31 0 1
  if s.sw.dropSeen.rd (16 + F) false then s
  else
    let s := s.tellHeart 2 (BitVec.ofNat 10 (s.ffOwner (F / 8) (F % 8))) 1 5
      (T * 2 ^ 20 + (36 + k) * 2 ^ 14 + w.tag.toNat)
    { s with sw := { s.sw with dropSeen := s.sw.dropSeen.wr (16 + F) false true } }

/-- The tap write end in one fc (R112, R115, R150, R154): a word that fails parity gives way to its replacement where it stands; words of
another tag are dropped; when every tap then presents a word, all are taken as one item. -/
def State.fifoTapWrite (s : State) (F : Nat) (upset : List Nat) : State :=
  let r := s.fifoRec F
  let T := tileIx (F / 8) (24 + F % 8)
  let own := s.ffOwner (F / 8) (F % 8)
  let key (k : Nat) : Nat := 64 * T + (36 + k)
  let taps := List.range (fifoW r)
  if fifoConsumed r || bit r 27 || !s.fifoOpen F || !s.cf.outDone then s
  else
    let word (s : State) (k : Nat) : Option CWord := (s.stageAt (key k)).head s.fc
    let s := forEach (taps.filter (fun k => upset.contains k && (word s k).isSome)) s (fun k s =>
      (s.parityNote (F / 8) own (T * 2 ^ 20 + (36 + k) * 2 ^ 14)).setSrc (.stage (key k)) ((s.stageAt (key k)).swap (parityWord own)))
    let here := taps.map (fun k => (k, word s k))
    let s' := forEach here s (fun (k, w) s => match w with
      | some w => if barkOk own w then s else (s.fifoBark F k w).setSrc (.stage (key k)) ((s.stageAt (key k)).pop s.fc)
      | none => s)
    let good := here.filterMap (fun (_, w) => w.bind (fun w => if barkOk own w then some w else none))
    if good.length = fifoW r && (s.fifo F).acc != s.fc + 1 then
      (forEach taps s' (fun k s => s.setSrc (.stage (key k)) ((s.stageAt (key k)).pop s.fc))).fifoStore F good
    else s'

/-- FIFO_WRITE (R154): the tap write end of FIFO g.f. `upset` are the taps whose word fails parity at the write end (R115). The NoC write
end takes its items in NOC_SERVE. -/
def execFifoWrite (g : Fin 64) (f : Fin 8) (upset : List (Fin 6)) (s : State) : Res :=
  .next (s.fifoTapWrite (8 * g.val + f.val) (upset.map (·.val)))

/-! ## Delivery (R152, R153, R157, R158) -/

def FEntry.opens (e : FEntry) : Bool := e.ws.any (fun w => codeOpens w.code.toNat)

def FEntry.closes (e : FEntry) : Bool := e.ws.any (fun w => codeEnds w.code.toNat || w.code.toNat == codeERR)

/-- Whether cut-through holds the first of stored entries, these being it and those behind it (R157). -/
def State.fifoHolds (s : State) (F : Nat) (l : List FEntry) : Bool :=
  let ctt := s.fld .ffThr F 31 16
  ctt != 0 && ((l.head?.map FEntry.opens).getD false)
    && !(l.any (fun e => e.closes || e.gap) || decide (min ctt (fifoCap (s.fifoRec F) - 1) ≤ l.length))

/-- Whether cut-through holds the head (R157). -/
def State.fifoHeld (s : State) (F : Nat) : Bool := s.fifoHolds F (s.fifoWas F).q

/-- Whether the first of stored entries may be delivered in this fc (R152, R157). -/
def State.fifoMay (s : State) (F : Nat) (l : List FEntry) : Bool :=
  ((l.head?.map (fun e => decide (e.fc + 2 ≤ s.fc))).getD false) && !s.fifoHolds F l

/-- The entry the read end may deliver in this fc (R152, R157), one an fc: the head as the fc began, which a flush of this fc does not keep
from leaving (R159). -/
def State.fifoHead (s : State) (F : Nat) : Option FEntry :=
  let x := s.fifo F
  let l := (s.fifoWas F).q
  if s.fifoMay F l && x.rel != s.fc + 1 && (x.flushAt == s.fc + 1 || x.q.head? == l.head?) then l.head? else none

/-- A word as the read end delivers it, with parity judged (R151, R158). -/
def fifoOut (own : Nat) (bad : Bool) (w : CWord) : CWord :=
  if bad then ⟨BitVec.ofNat 10 own, false, BitVec.ofNat 4 codePOISON, w.data⟩ else { w with tag := BitVec.ofNat 10 own }

/-- The words of an entry as delivered; `upset` are the positions whose parity fails. -/
def fifoOuts (own : Nat) (upset : List Nat) (ws : List CWord) : List CWord :=
  ws.zipIdx.map (fun (w, k) => fifoOut own (upset.contains k) w)

/-- The head entry leaves; parity failures are counted and told to the owner (R158). -/
def State.fifoLeave (s : State) (F : Nat) (upset : List Nat) (n : Nat) : State :=
  let x := s.fifo F
  let s := s.setFifo F { x with q := if x.flushAt = s.fc + 1 then x.q else x.q.drop 1, rel := s.fc + 1 }
  forEach ((List.range n).filter upset.contains) s (fun k s =>
    ((s.count .ffPar F 31 0 1).setBit .ffStat F 1 true).tellOwner 1 (BitVec.ofNat 10 (s.ffOwner (F / 8) (F % 8))) 3 6
      (tileIx (F / 8) (24 + F % 8) * 2 ^ 20 + k * 2 ^ 17))

/-- What an empty read end presents on its taps: IDLE words, or nothing in quad (R153). -/
def idleWords (own w : Nat) : List CWord :=
  List.replicate w ⟨BitVec.ofNat 10 own, false, BitVec.ofNat 4 codeIDLE, 0⟩

/-- The tap read end in one fc (R150, R153): the item presented leaves only when every tap accepts it together. `line` are the taps at
whose switch input the word fails parity on its way (R115). -/
def State.fifoTapRead (s : State) (F : Nat) (upset line : List Nat) : State :=
  let r := s.fifoRec F
  let T := tileIx (F / 8) (24 + F % 8)
  let own := s.ffOwner (F / 8) (F % 8)
  if fifoConsumed r || bit r 26 || !s.powered (F / 8) || (s.fifo F).rel = s.fc + 1 then s
  else
    let send (ws : List CWord) (s : State) : Option State :=
      if ws.zipIdx.all (fun (w, k) => s.wouldTake T (36 + k) (parityIn (s.swOwner T (36 + k)) (line.contains k) w))
      then some (forEach ws.zipIdx s (fun (w, k) s => s.arriveTap T (36 + k) (line.contains k) w)) else none
    match s.fifoHead F with
    | some e =>
      match send (fifoOuts own upset e.ws) s with
      | some s' => s'.fifoLeave F upset e.ws.length
      | none => s
    | none => if fifoQuad r then s else (send (idleWords own (fifoW r)) s).getD s

/-- FIFO_READ (R153): the tap read end of FIFO g.f. `upset` are the words of the entry whose stored parity is bad (R158), `line` those whose
register parity is bad at the tap inputs (R115). -/
def execFifoRead (g : Fin 64) (f : Fin 8) (upset line : List (Fin 6)) (s : State) : Res :=
  .next (s.fifoTapRead (8 * g.val + f.val) (upset.map (·.val)) (line.map (·.val)))

/-! ## The NoC interface end (R160) -/

/-- A FIFO word as the NoC moves it. -/
def nocOfWord (w : CWord) : Word := BitVec.ofNat 32 (b2n w.m * 2 ^ 28 + w.code.toNat * 2 ^ 24 + w.data.toNat)

/-- A NoC value as a FIFO word; [31:29] are ignored. -/
def wordOfNoc (w : Word) : CWord :=
  ⟨0, bit w.toNat 28, BitVec.ofNat 4 (bits w.toNat 27 24), BitVec.ofNat 24 (bits w.toNat 23 0)⟩

/-- One entry taken at the NoC write end in this fc (R160), when the write end accepts (R152). -/
def State.fifoNocPut (s : State) (F : Nat) (ws : List Word) : Option State :=
  if s.fifoOpen F && (s.fifo F).acc != s.fc + 1 then some (s.fifoStore F (ws.map wordOfNoc)) else none

/-- Whether a NoC read of n entries may begin: always in single and double; in quad when all may be delivered (R160). -/
def State.fifoNocReady (s : State) (F n : Nat) : Bool :=
  !fifoQuad (s.fifoRec F) || (List.range n).all (fun i => s.fifoMay F ((s.fifoWas F).q.drop i))

/-- One entry given to a NoC read in this fc (R160): the head, or an IDLE item in single and double. `upset` are the positions whose parity
fails. -/
def State.fifoNocGive (s : State) (F : Nat) (upset : List Nat) : Option (List Word × State) :=
  let own := s.ffOwner (F / 8) (F % 8)
  match s.fifoHead F with
  | some e => some ((fifoOuts own upset e.ws).map nocOfWord, s.fifoLeave F upset e.ws.length)
  | none =>
    if fifoQuad (s.fifoRec F) then none else some ((idleWords own (fifoW (s.fifoRec F))).map nocOfWord, s)

/-! ## Flush and registers (R159, R164-R172) -/

/-- Flush a FIFO (R159): its entries go, what the write end takes in this fc goes, and the next entry stored carries M 1. -/
def State.fifoFlush (s : State) (F : Nat) : State :=
  let x := s.fifo F
  s.setFifo F ⟨[], x.acc, x.rel, s.fc + 1, true⟩

/-- As which writer a party meets a FIFO register (R165): the operator only for FIFOs of 0x200. None where the party may not
read the register. -/
def State.ffWriter (s : State) (p : Party) (F : Nat) : Option Writer :=
  let own := s.ffOwner (F / 8) (F % 8)
  match p with
  | .heartwood => some .h
  | .tenant t => if own = t.val then some .t else none
  | _ => if own = 0x200 then some .o else some .none

/-- A write of a FIFO register (R148, R165-R169): BARK where the party may not read it; a consumed FIFO's registers but
FF_OWNf are judged as if they held zero, and nothing changes. -/
def State.writeFf (s : State) (p : Party) (n : RegName) (F : Nat) (w : Word) : State :=
  match s.ffWriter p F with
  | none => s.barkAns 0
  | some wr =>
    -- for FF_OWNf a party that is not heartwood names no writer
    if fifoConsumed (s.fifoRec F) && n != .ffOwn then
      let j := judge (n.fields F) wr (n.okVal F) 0 w.toNat
      (if j.byWriter then s.alarm else s).ans j.status []
    else
      let j := judge (n.fields F) wr (n.okVal F) (s.reg n F).toNat w.toNat
      let s := if n = .ffCtl && bit j.acts 31 then s.fifoFlush F else s
      s.land n F j

/-- FLUSH (R159): a write of 1 to FLUSH in FF_CTLf. -/
def execFlush (p : Party) (g : Fin 64) (f : Fin 8) (s : State) : Res :=
  .next (s.writeFf p .ffCtl (8 * g.val + f.val) 0x80000000)

/-- FF_FILLf (R170): what is stored as the read is sampled, in which an entry accepted or leaving in this fc does not count yet (R152). -/
def State.fillReg (s : State) (F : Nat) : Word :=
  let x := s.fifoWas F
  BitVec.ofNat 32 (b2n ((x.q.getLast?.map FEntry.gap).getD false) * 2 ^ 31 + b2n (s.fifoHeld F) * 2 ^ 30 + x.q.length)

/-- FF_CFGf (R167). -/
def State.ffCfgReg (s : State) (F : Nat) : Word := BitVec.ofNat 32 (bits (s.fifoRec F) 31 26 * 2 ^ 26)

/-- A read of a FIFO register (R148, R165, R167, R170). -/
def State.readFf (s : State) (n : RegName) (F : Nat) : Word :=
  if fifoConsumed (s.fifoRec F) && n != .ffOwn then 0
  else match n with
    | .ffFill => s.fillReg F
    | .ffCfg => s.ffCfgReg F
    | .ffCtl => 0
    | _ => s.reg n F

end Sys2Proof.Machine
end

