-- ==== Sys2Proof/Machine/Shadow.lean ====
section
/-! DEFINITION. The commit of a grove's shadows (R57-R59, R114, R139, R161, R600). -/

namespace Sys2Proof.Machine

/-- The shadow registers (R599) and how many of each a grove has; CALLEN apart. -/
def shadowKinds : List (RegName × Nat) :=
  [(.tlCal, 512), (.tlGrp, 1024), (.tlWin, 1024), (.swIn, 4096), (.ltMcown, 32), (.ltIsown, 96), (.ffOwn, 8)]

/-- Whether a register-file key is a shadow register of grove g. -/
def shadowKey (g k : Nat) : Bool :=
  shadowKinds.any (fun (n, c) => n.ctorIdx == k % 256 && k / 256 / c == g)

/-- The active copies after a commit: those of the grove become what the shadows hold (R57). -/
def commitActive (regs act : Tbl Word) (g : Nat) : Tbl Word :=
  (regs.filter (fun e => shadowKey g e.1)).foldl (fun t e => t.ins e.1 e.2)
    (act.filter (fun e => !shadowKey g e.1))

/-- Groups of a grove whose MEMBERS or GOWNER change at a commit, as tile and group (R58). -/
def State.changedGroups (s : State) (g : Nat) : List (Nat × Nat) :=
  (List.range 64).flatMap (fun t => ((List.range 15).filter (fun n =>
    s.reg .tlGrp (16 * tileIx g t + n) != s.actv .tlGrp (16 * tileIx g t + n))).map (fun n => (tileIx g t, n)))

/-- A group's index becomes 0 and its pending updates are discarded (R58). The same is done to a group whose member a graft or tenant
reset puts back to its start (R39), though MEMBERS and GOWNER stay: the spec leaves such a group's pending update open, and discarding it
is the model's choice (log entry 128). -/
def State.zeroGroup (x : Nat × Nat) (s : State) : State :=
  let s := s.setSidx x.1 x.2 0
  { s with tl := { s.tl with steer := s.tl.steer.up x.1 [] (fun l => l.filter (fun u => u.group != x.2)) } }

/-- A macrocell's register is set to 0 (R139). -/
def State.zeroMc (k : Nat) (s : State) : State := s.setRst fun x => { x with mcq := x.mcq.wr k false false }

/-- The OWNER and RIPE that heartwood wrote for the rings of a grove become those of their records (R57). -/
def State.commitOwners (s : State) (g : Nat) : State :=
  let mine := s.tl.shOwn.filter (fun e => e.1 / 1024 == g)
  let s := forEach mine s (fun e s => match e.2 with
    | some (own, ripe) =>
      let r := (s.tl.recs.rd e.1 recReset).toNat
      let r := setBits (setBits r 191 182 own.toNat) 181 181 (b2n ripe)
      { s with tl := { s.tl with recs := s.tl.recs.wr e.1 recReset (BitVec.ofNat 192 r) } }
    | none => s)
  { s with tl := { s.tl with shOwn := s.tl.shOwn.filter (fun e => e.1 / 1024 != g) } }

/-- All shadow copies of grove g become active together: calendars, CALLEN, groups, windows, ring OWNER and RIPE, owner entries and
gates, macrocell, slot and FIFO owners. A full load does this and no more (R452). -/
def State.activateShadows (s : State) (g : Nat) : State :=
  let s := { s with act := commitActive s.regs s.act g }
  let s := s.commitOwners g
  s.setFld .tlGcalact g 6 0 (s.fld .tlGcal g 6 0)

/-- A commit (R57): the shadow copies of grove g become active, with what a change of owner or group resets (R58, R139, R161). -/
def State.commitShadows (s : State) (g : Nat) : State :=
  let groups := s.changedGroups g
  let mcs := ((List.range 32).map (32 * g + ·)).filter (fun k =>
    bits (s.reg .ltMcown k).toNat 31 22 != bits (s.actv .ltMcown k).toNat 31 22)
  let ffs := ((List.range 8).map (8 * g + ·)).filter (fun k =>
    bits (s.reg .ffOwn k).toNat 31 22 != bits (s.actv .ffOwn k).toNat 31 22)
  let s := s.activateShadows g
  let s := s.setBit .tlGcal g 31 false
  let s := { s with tl := { s.tl with commitAt := s.tl.commitAt.wr g 0 0 } }
  forEach ffs (forEach mcs (forEach groups s State.zeroGroup) State.zeroMc) (fun F s => s.fifoFlush F)

/-- Whether grove g makes a commit in this fc (R57, R600): one was requested in an earlier fc, and this is the first fc of a
pass, or the grove is powered and has not passed RUN. -/
def State.commitDue (s : State) (g : Nat) : Bool :=
  s.powered g && s.flag .tlGcal g 31 && decide (s.tl.commitAt.rd g 0 ≤ s.fc)
    && (!s.running g || s.fld .tlGphase g 5 0 == 0)

/-- SHADOW_COMMIT (R57). -/
def execShadowCommit (g : Fin 64) (s : State) : Res :=
  .next (if s.commitDue g.val then s.commitShadows g.val else s)

/-- OWNER and RIPE that heartwood writes into a ring's shadow (R57). -/
def State.writeRingOwner (s : State) (k : Nat) (own : Tag) (ripe : Bool) : State :=
  { s with tl := { s.tl with shOwn := s.tl.shOwn.wr k none (some (own, ripe)) } }

/-- TL_RSTr (R70), of ring key k. -/
def State.rstReg (s : State) (k : Nat) : Word :=
  let r := (s.tl.recs.rd k recReset).toNat
  let f := s.flagsOf (k / 16) (k % 16)
  BitVec.ofNat 32 (b2n (rRipe r) * 2 ^ 31 + b2n ((s.tl.shOwn.rd k none).isSome
      || s.gr.sh.any (fun h => h.kind == 0 && 16 * h.tile.toNat + h.idx.toNat == k)) * 2 ^ 30
    + rOwner r * 2 ^ 20 + b2n (s.tl.held.rd k false) * 2 ^ 19
    + b2n f.wfault * 2 ^ 10 + b2n f.aov * 2 ^ 9 + b2n f.sat * 2 ^ 8)

/-- TL_SIDX0 and TL_SIDX1 of tile T (R71). -/
def State.sidxReg (s : State) (T j : Nat) : Word :=
  BitVec.ofNat 32 ((List.range (if j = 0 then 8 else 7)).foldl (fun a i => a + s.sidx T (8 * j + i) * 2 ^ (4 * i)) 0)

/-- LT_OUT as a party reads it (R147). -/
def State.ltOutReg (s : State) (p : Party) (g : Nat) : Word :=
  BitVec.ofNat 32 (maskOf ((List.range 32).map (fun m => s.latL g m && (p == .heartwood || s.mcOwner g m == 0x200))))

/-- LT_MCOWNm with its HELD bit (R145). -/
def State.mcownReg (s : State) (k : Nat) : Word :=
  BitVec.ofNat 32 (setBits (s.reg .ltMcown k).toNat 0 0 (b2n (s.lt.held.rd k false)))

end Sys2Proof.Machine
end

