-- ==== Sys2Proof/Machine/Shared.lean ====
section
/-! DEFINITION. What several blocks share: domains and meters (R571), MSI-X signalling (R346, R360), a tenant's VF (R356) and
its FIFO events (R359), and injection entries (R328). -/

namespace Sys2Proof.Machine

/-- The number of a tag's domain: the tenant, 512 for the operator (R208, R571). -/
def domOf (tag : Tag) : Nat := if tag = opTag then 512 else tag.toNat

/-- Add to meter m of domain d: 0 INPKT, 1 INBYTE, 2 OUTPKT, 3 OUTBYTE, 4 DROPPKT, 5 DROPBYTE (R571). -/
def State.meterAdd (s : State) (d m k : Nat) : State :=
  { s with ms := { s.ms with meter := s.ms.meter.up (8 * d + m) 0 (· + BitVec.ofNat 64 k) } }

/-- Signal MSI-X vector v of function fn (0 PF0, n+1 VF n): sent, or pending while masked (R360). -/
def State.signalVec (s : State) (fn v : Nat) : State :=
  if s.flag .hiMsix (64 * fn + 4 * v + 3) 0 then s.setBit .hiPba fn v true
  else { s with hi := { s.hi with msix := (fn, v) :: s.hi.msix } }

/-- Whether a full load is in progress (R456, R459): LOAD, LOCK, RELEASE or FALLBACK. -/
def State.loading (s : State) : Bool := [2, 3, 4, 6].contains (s.fld .cfStat 0 31 28)

/-- Whether a full load is in progress and its stage OUT not taken (R458): kind 5 entries and VF bindings have no effect. -/
def State.preOut (s : State) : Bool := s.loading && !s.cf.outDone

/-- The device states in which a request to a powered-down domain wakes it: boot, test and recovery (R337, R456). -/
def State.wakes (s : State) : Bool := s.fld .cfStat 0 31 28 != 5

/-- Whether calls and graft submissions are held (R459): while a full load is in progress, until its stage OUT. -/
def State.callsHeld (s : State) : Bool := [2, 3, 6].contains (s.fld .cfStat 0 31 28) || (s.fld .cfStat 0 31 28 == 4 && !s.cf.outDone)

/-- Where a call stands among those that land in the same heartwood cycle: channels ascending, then submissions (R423). -/
def CallSrc.rank : CallSrc → Nat
  | .chan n => n.val
  | _ => 9

/-- Put a call that lands in heartwood cycle `t` into the queue (R423). -/
def callInsert (t : Nat) (c : CallSrc) : List (Nat × CallSrc) → List (Nat × CallSrc)
  | [] => [(t, c)]
  | (t', c') :: r => if t' == t && decide (c.rank < c'.rank) then (t, c) :: (t', c') :: r else (t', c') :: callInsert t c r

/-- A call or submission joins heartwood's queue (R241, R423). -/
def State.queueCall (s : State) (c : CallSrc) : State :=
  { s with ht := { s.ht with callq := callInsert (s.fc / 8) c s.ht.callq } }

/-- The VF bound to a tenant (R356, R458). -/
def State.vfOf (s : State) (tag : Tag) : Option Nat :=
  if s.preOut then none else firstSome (fun e => if e.2 = some tag then some e.1 else none) s.tn.bind

/-- The tenant a VF is bound to (R356, R458). -/
def State.boundTag (s : State) (v : Nat) : Option Tag := if s.preOut then none else s.tn.bind.rd v none

/-- A threshold crossing of a tenant's FIFO reaches its VF (R156, R359, R360). -/
def State.vfFifoEvent (s : State) (tag : Tag) (F : Nat) : State :=
  match s.vfOf tag with
  | none => s
  | some v =>
    let q := s.hi.vfev.rd v []
    if 64 ≤ q.length then s.count .hiVerrcnt v 31 24 1
    else
      let s := { s with hi := { s.hi with vfev := s.hi.vfev.wr v [] (q ++ [BitVec.ofNat 9 F]) } }
      if q.isEmpty && s.flag .hiVevcfg v 27 then s.signalVec (v + 1) (s.fld .hiVevcfg v 26 24) else s

/-- Whether tag `t` is admitted; the operator domain is once its vector is (R237). -/
def State.admitted (s : State) (t : Tag) : Bool := (s.tn.adm.rd t.toNat none).isSome

/-- The valid injection entry in force at an NI for a tag, destination and priority (R328, R345). -/
def State.injEntry (s : State) (ni : Nat) (tag : Tag) (dst prio : Nat) : Option Nat :=
  firstSome (fun (e : Nat × Word) =>
    let i := e.1 / 256
    let w := e.2.toNat
    if e.1 % 256 == RegName.ncInjA.ctorIdx && i / 2048 + 84 == ni && bit w 31 && bits w 30 21 == tag.toNat
      && bits w 20 14 == dst && bits w 13 12 == prio then some i else none) s.act

/-- Banks online (R203, R246). -/
def State.online (s : State) (b : Nat) : Bool := s.flag .cxStat 0 b

def State.banksOnline (s : State) : Nat := ((List.range 16).filter s.online).length

/-- The fill limit with the banks that are online (R246). -/
def State.fillLimit (s : State) : Nat := 589824 * s.banksOnline / 10

/-- The refill counter's position on a wheel of W positions (R247). -/
def State.wheelPos (s : State) (W : Nat) : Nat := s.qe.refill % W

/-- The port to which the position of a bank wheel in this fc belongs (R247, R253). -/
def State.wheelPort (s : State) (wheel : Tbl (Option (Nat × Tag))) : Option Nat := (wheel.rd (s.wheelPos 64) none).map (·.1)

end Sys2Proof.Machine
end

