-- ==== Sys2Proof/Machine/SipHash.lean ====
section
/-! DEFINITION. SipHash-2-4 of a 64-bit input under a 128-bit key (R186). The key and the input become bytes in little-endian
order, as SipHash's own definition has them (log entry 12). -/

namespace Sys2Proof.Machine

/-- The four words of SipHash's state. -/
structure Sip where
  v0 : BitVec 64
  v1 : BitVec 64
  v2 : BitVec 64
  v3 : BitVec 64
  deriving DecidableEq, Repr

def sipRound (x : Sip) : Sip :=
  let a := x.v0 + x.v1
  let b := x.v1.rotateLeft 13 ^^^ a
  let a := a.rotateLeft 32
  let c := x.v2 + x.v3
  let d := x.v3.rotateLeft 16 ^^^ c
  let a := a + d
  let d := d.rotateLeft 21 ^^^ a
  let c := c + b
  let b := b.rotateLeft 17 ^^^ c
  ⟨a, b, c.rotateLeft 32, d⟩

/-- One block with its two rounds. -/
def sipBlock (x : Sip) (m : BitVec 64) : Sip :=
  let x := sipRound (sipRound { x with v3 := x.v3 ^^^ m })
  { x with v0 := x.v0 ^^^ m }

/-- SipHash-2-4 of the eight bytes of `m`. -/
def sipHash24 (key : BitVec 128) (m : BitVec 64) : BitVec 64 :=
  let k0 := key.extractLsb' 0 64
  let k1 := key.extractLsb' 64 64
  let x : Sip := ⟨k0 ^^^ 0x736F6D6570736575#64, k1 ^^^ 0x646F72616E646F6D#64, k0 ^^^ 0x6C7967656E657261#64,
    k1 ^^^ 0x7465646279746573#64⟩
  let x := sipBlock (sipBlock x m) 0x0800000000000000#64
  let x := sipRound (sipRound (sipRound (sipRound { x with v2 := x.v2 ^^^ 0xFF#64 })))
  x.v0 ^^^ x.v1 ^^^ x.v2 ^^^ x.v3

end Sys2Proof.Machine
end

