-- ==== Sys2Proof/Machine/CellIn.lean ====
section
/-! DEFINITION. The cell exchange's bookkeeping (R173-R175, R188, R195) and the cell-in ports: beats, drops, commands, grants,
completion and cell writes (R176-R191). -/

namespace Sys2Proof

open Machine

/-- The data of a META word or of a command's word 1 (R177, R184). -/
def metaHmode (m : Nat) : Bool := bit m 23
def metaSten (m : Nat) : Bool := bit m 22
def metaStf (m : Nat) : Nat := bits m 21 19
def metaRes (m : Nat) : Nat := bits m 18 14
def metaQueue (m : Nat) : Nat := bits m 13 0

namespace Machine

def linkZero : Link := ⟨.free, noTag, none, 0, 0⟩
def cellInZero : CellInSt := ⟨none, [], 0, [], [], 0, []⟩
def cellOutZero : CellOutSt := ⟨none, 0, none, []⟩

def State.link (s : State) (h : Handle) : Link := s.cx.link.rd h.toNat linkZero
def State.setLink (s : State) (h : Handle) (l : Link) : State :=
  { s with cx := { s.cx with link := s.cx.link.wr h.toNat linkZero l } }
def State.cin (s : State) (p : Nat) : CellInSt := s.cx.inp.rd p cellInZero
def State.setCin (s : State) (p : Nat) (c : CellInSt) : State :=
  { s with cx := { s.cx with inp := s.cx.inp.wr p cellInZero c } }
def State.cout (s : State) (p : Nat) : CellOutSt := s.cx.outp.rd p cellOutZero
def State.setCout (s : State) (p : Nat) (c : CellOutSt) : State :=
  { s with cx := { s.cx with outp := s.cx.outp.wr p cellOutZero c } }

/-- The bank of a cell (R173). -/
def bankOf (h : Handle) : Nat := h.toNat / 65536

/-! ## Counts (R188, R191, R195) -/

/-- Whether a cell is in use for allocation: one freed in this fc counts as free from the next (R191). -/
def Link.taken (l : Link) (fc : Nat) : Bool := l.st != .free || l.freed == fc + 1

/-- Cells of a link RAM that a domain has in use, as allocation counts them in an fc (R188, R191). -/
def usedIn (link : Tbl Link) (fc : Nat) (tag : Tag) : Nat := (link.filter (fun e => e.2.owner == tag && e.2.taken fc)).length

/-- Cells a domain has in use. -/
def State.usedBy (s : State) (tag : Tag) : Nat := usedIn s.cx.link s.fc tag

/-- Cells a domain had in use at the start of the fc (R188). -/
def State.usedWas (s : State) (tag : Tag) : Nat := usedIn s.was.cx.link s.fc tag

/-- Indexes in use in a bank, rising. -/
def State.bankUsed (s : State) (b : Nat) : List Nat :=
  (s.cx.link.filter (fun e => e.1 / 65536 == b && e.2.taken s.fc)).map (fun e => e.1 % 65536)

def State.bankFree (s : State) (b : Nat) : Nat := 65536 - (s.bankUsed b).length

/-- Cells not FREE (R204). -/
def State.allocated (s : State) : Nat := (s.cx.link.filter (fun e => e.2.st != .free)).length

def State.quota (s : State) (tag : Tag) : Nat := s.fld .cxQuota (domOf tag) 20 0

/-- A domain's floor in use: a change counts from the next fc (R208). -/
def State.floorOf (s : State) (tag : Tag) : Nat := s.atStart.fld .cxFloor (domOf tag) 20 0

/-- The most cells a domain may hold (R188). -/
def State.cellLimit (s : State) (tag : Tag) : Nat := max (s.quota tag) (s.floorOf tag)

/-- The domains that hold a floor in use, with it. -/
def State.floors (s : State) : List (Nat × Nat) :=
  (s.was.regs.filter (fun e => e.1 % 256 == RegName.cxFloor.ctorIdx)).map (fun e => (e.1 / 256, bits e.2.toNat 20 0))

/-- The shared free count (R188). -/
def State.sharedFree (s : State) : Int :=
  (((((List.range 16).filter s.online).map s.bankFree).sum : Nat) : Int)
    - ((s.floors.map (fun (d, f) => f - s.usedBy (BitVec.ofNat 10 d))).sum : Nat)

/-- Whether the allocated count stands above the fill limit, as last judged, with no event: after the limit itself has moved (R246). -/
def State.judgeFill (s : State) : State := { s with cx := { s.cx with above := decide (s.fillLimit < s.allocated) } }

/-- The fill event after the count has moved (R195, R246): at the crossing above the fill limit FILL90SEEN is set, source 720 asserts and
the host is told (R354). -/
def State.noteFill (s : State) : State :=
  let t := s.judgeFill
  if t.cx.above && !s.cx.above then
    let t := (t.setBit .cxStat 0 30 true).assertSrc 720
    if t.flag .hiPfevt 0 31 then t
    else
      let t := t.setBit .hiPfevt 0 31 true
      if t.flag .hiPfevt 0 0 then t.signalVec 0 8 else t
  else t

/-- A cell becomes FREE and keeps its last owner (R175, R191). -/
def State.freeCell (s : State) (h : Handle) : State :=
  let l := s.link h
  (s.setLink h ⟨.free, l.owner, none, 0, s.fc + 1⟩).noteFill

/-- The handles of a chain from a head, at most `fuel` (R173: 342). -/
def State.chain (s : State) (fuel : Nat) (h : Handle) : List Handle :=
  match fuel with
  | 0 => []
  | fuel + 1 => match (s.link h).next with
    | some n => h :: s.chain fuel n
    | none => [h]

/-- A chain put up to be freed, one cell an fc from the next fc (R180, R185, R193); chains do not wait for one another. -/
def queueFree (fc : Nat) (old : List (List Handle × Nat)) (chain : List Handle) : List (List Handle × Nat) :=
  if chain.isEmpty then old else old ++ [(chain, fc + 1)]

/-- The cells that are freed in an fc, one of each chain that is due, and what is left of the chains. -/
def freeNow (fc : Nat) (l : List (List Handle × Nat)) : List Handle × List (List Handle × Nat) :=
  (l.filterMap (fun c => if c.2 ≤ fc then c.1.head? else none),
    (l.map (fun c => if c.2 ≤ fc then (c.1.drop 1, fc + 1) else c)).filter (fun c => !c.1.isEmpty))

/-! ## Status records (R182, R183) -/

/-- A status record on its way to NI 88; discarded where its tag has no entry or its queue is full (R183). -/
def State.statusRec (s : State) (p : Nat) (tag : Tag) (mdat : Nat) (st handle kind cause len : Nat) : State :=
  if !metaSten mdat then s
  else
    let q := s.cx.recs.rd tag.toNat []
    if 16 ≤ q.length || (s.injEntry 88 tag (p / 2) 1).isNone then s.count .cxTerr (domOf tag) 31 0 1
    else
      let r : StatusRec := ⟨p, metaStf mdat, BitVec.ofNat 24 (st * 2 ^ 20 + handle),
        BitVec.ofNat 24 (kind * 2 ^ 22 + cause * 2 ^ 18 + len % 65536), false⟩
      { s with cx := { s.cx with recs := s.cx.recs.wr tag.toNat [] (q ++ [r]) } }

/-! ## Drops (R180) -/

/-- Whether a code ends a packet that is being discarded (R180). -/
def endsDiscard (code : Nat) : Bool := codeEnds code || code == codeERR

/-- What every drop counts and sends (R180, R571): DROPS, the domain's counter and drop meters, and the status record.
`words` is the number of words of the packet placed in granted cells. -/
def State.dropCounts (s : State) (p : Nat) (tag : Tag) (mdat : Nat) (cause : Status) (head words : Nat) : State :=
  let d := domOf tag
  let s := s.count .cxIndrop p 31 0 1
  let s := if cause = .nobuf then s.count .cxTnobuf d 31 0 1 else s.count .cxTerr d 31 0 1
  let s := (s.meterAdd d 4 1).meterAdd d 5 (3 * words)
  s.statusRec p tag mdat Status.drop.code head 0 cause.code (3 * words)

/-- A tag added to those whose dropped packet is being discarded. -/
def addTag (t : Tag) (l : List Tag) : List Tag := if l.contains t then l else l ++ [t]

/-- Drop a packet of port p (R180): its granted cells are freed one per fc, its staged words go, and the words of its tag
that are still to come are discarded unless the packet is closed. -/
def State.dropPkt (s : State) (p : Nat) (k : OpenPkt) (cause : Status) (more : Bool) : State :=
  let c := s.cin p
  let cells := k.cells.filterMap (·.1)
  let words := ((k.cells.filter (fun x => x.1.isSome)).map (·.2)).sum
  let s := s.setCin p { c with
    pkts := c.pkts.filter (fun q => q.id != k.id)
    staging := c.staging.filter (fun x => x.pkt != k.id)
    skip := if more then addTag k.tag c.skip else c.skip
    freeing := queueFree s.fc c.freeing cells }
  s.dropCounts p k.tag k.mdat.toNat cause ((k.cells.head?.bind (·.1)).map (·.toNat) |>.getD 0) words

/-! ## Beats (R176-R181) -/

/-- The two candidate banks of a request (R186). -/
def candidates (key : BitVec 128) (p cnt : Nat) : Nat × Nat :=
  let h := (sipHash24 key (BitVec.ofNat 64 (p * 2 ^ 32 + cnt))).toNat
  let b1 := bits h 3 0
  (b1, (b1 + 1 + bits h 7 4 % 15) % 16)

/-- The open packet of a port. -/
def CellInSt.cur (c : CellInSt) : Option OpenPkt := firstSome (fun k => if k.closed.isNone then some k else none) c.pkts

def CellInSt.setPkt (c : CellInSt) (k : OpenPkt) : CellInSt :=
  { c with pkts := c.pkts.map (fun q => if q.id = k.id then k else q) }

/-- The staged cell a packet's next word goes to, when there is room in it. -/
def CellInSt.filling (c : CellInSt) (k : OpenPkt) : Option StCell :=
  firstSome (fun x => if x.pkt = k.id && !x.closed && x.ws.length < 64 then some x else none) c.staging

/-- One word more in the last cell of a packet. -/
def countWord : List (Option Handle × Nat) → List (Option Handle × Nat)
  | [] => []
  | [(h, n)] => [(h, n + 1)]
  | x :: r => x :: countWord r

/-- Store a word of the open packet `k` (R176, R186): in the cell being filled, or in a new cell with its request. None where
a fourth staged cell would be needed. The key is that of the fc's start (R187). A request refused in the fc it is formed drops the packet
(R188). -/
def State.storeWord (s : State) (p : Nat) (k : OpenPkt) (w : CWord) (closing : Option Nat) : Option State :=
  let c := s.cin p
  if 21845 ≤ k.words then
    some (s.dropPkt p k .denied closing.isNone)
  else
    let k' := { k with words := k.words + 1, closed := closing }
    match c.filling k with
    | some x =>
      let ws := x.ws ++ [w.data]
      let x' := { x with ws := ws, closed := closing.isSome || ws.length == 64 }
      let c := { c with staging := c.staging.map (fun (y : StCell) => if y.pkt = x.pkt && y.idx = x.idx then x' else y) }
      some (s.setCin p (c.setPkt { k' with cells := countWord k.cells }))
    | none =>
      if 3 ≤ c.staging.length then none
      else
        let (b1, b2) := candidates s.was.cx.key p c.cnt.toNat
        let x : StCell := ⟨k.id, k.cells.length, k.tag, [w.data], b1, b2, none, closing.isSome⟩
        let k' := { k' with cells := k.cells ++ [(none, 1)] }
        let c := { c with cnt := c.cnt + 1, staging := c.staging ++ [x] }
        let s := s.setCin p (c.setPkt k')
        if s.cellLimit k.tag ≤ s.usedWas k.tag || !(s.cx.tfree.rd k.tag.toNat []).isEmpty
        then some (s.dropPkt p k' .nobuf closing.isNone)
        else some s

/-- Open a packet (R178, R179): refused with its cause, or its first word is stored. -/
def State.openPkt (s : State) (p : Nat) (w : CWord) (closing : Option Nat) : Option State :=
  let c := s.cin p
  let refuse (s : State) (mdat : Nat) (cause : Status) : State :=
    let s := if closing.isNone then s.setCin p { s.cin p with skip := addTag w.tag (s.cin p).skip } else s
    s.dropCounts p w.tag mdat cause 0 0
  match c.mpend with
  | some (mt, md) =>
    if mt != w.tag then some (refuse s 0 .denied)
    else
      let m := md.toNat
      let s := s.setCin p { c with mpend := none }
      if metaRes m != 0 then some (refuse s m .denied)
      else if metaHmode m && !metaSten m then some (refuse s m .denied)
      else if !metaHmode m && metaQueue m / 32 != w.tag.toNat then some (refuse s m .bark)
      else
        let c := s.cin p
        let k : OpenPkt := ⟨c.nextId, w.tag, md, [], 0, none⟩
        (s.setCin p { c with pkts := c.pkts ++ [k], nextId := c.nextId + 1 }).storeWord p k w closing
  | none => some (refuse s 0 .denied)

/-- One word of a beat (R178). None where the beat cannot be accepted in this fc. -/
def State.takeWord (s : State) (p : Nat) (w : CWord) : Option State :=
  let c := s.cin p
  let code := w.code.toNat
  let discard (s : State) : Option State := some (s.count .cxIndrop p 31 0 1)
  if code == codeIDLE then some s
  else match c.cur with
    | some k =>
      if w.tag != k.tag then some (s.dropPkt p k .aborted true)
      else if code == codeDATA then s.storeWord p k w none
      else if codeEnds code && !codeOpens code then s.storeWord p k w (some (codeBytes code))
      else some (s.dropPkt p k .aborted (!endsDiscard code))
    | none =>
      if c.skip.contains w.tag then
        some (if endsDiscard code then s.setCin p { c with skip := c.skip.filter (· != w.tag) } else s)
      else if code == codeMETA then
        match c.mpend with
        | some (mt, _) => if mt = w.tag then some (s.setCin p { c with mpend := some (w.tag, w.data) }) else discard s
        | none => some (s.setCin p { c with mpend := some (w.tag, w.data) })
      else if codeOpens code then s.openPkt p w (if codeEnds code then some (codeBytes code) else none)
      else discard s

/-! ## Commands (R184, R185) -/

/-- A packet joins its queue (R210): in the order of fc, then of cell-in port. -/
def State.enqueue (s : State) (q : Nat) (x : Pkt) : State :=
  { s with qe := { s.qe with pkts := s.qe.pkts.up q [] (fun l =>
      l.filter (fun y => y.enq < x.enq || y.port ≤ x.port) ++ [x] ++ l.filter (fun y => !(y.enq < x.enq || y.port ≤ x.port))) } }

/-- Heartwood is told of a FREE of another domain's cell (R260); the detail the spec leaves open is a free value (log entry 16). -/
def State.tellForeign (s : State) (tag : Tag) : State :=
  let (w, s) := s.freeWord
  s.tellHeart 2 tag 4 Status.freeForeign.code w.toNat

/-- A refused command (R185): TERR, INDROP, the alarm for BARK, FREE_FOREIGN and FREE_DUP, and the record under STEN. -/
def State.refuseCmd (s : State) (p : Nat) (tag : Tag) (m handle kind : Nat) (st : Status) : State :=
  let s := (s.count .cxTerr (domOf tag) 31 0 1).count .cxIndrop p 31 0 1
  let s := if st = .denied then s else s.alarm
  let s := if st = .freeForeign then s.tellForeign tag else s
  s.statusRec p tag m st.code handle kind 0 0

/-- A command beat (R184, R185). -/
def State.cellCmd (s : State) (p : Nat) (w0 w1 : CWord) : State :=
  let a := w0.data.toNat
  let m := w1.data.toNat
  let op := bits a 23 20
  let tag := w0.tag
  let h : Handle := BitVec.ofNat 20 (bits a 19 0)
  let l := s.link h
  if w1.code.toNat != codeCTRL || w1.tag != tag || !(op == 1 || op == 2) then
    s.refuseCmd p tag 0 h.toNat 0 .denied
  else if bit m 23 || metaRes m != 0 then s.refuseCmd p tag m h.toNat op .denied
  else if op == 1 then
    if l.owner != tag then s.refuseCmd p tag m h.toNat op .bark
    else if l.st != .held then s.refuseCmd p tag m h.toNat op .denied
    else if metaQueue m / 32 != tag.toNat then s.refuseCmd p tag m h.toNat op .bark
    else
      let s := s.setLink h { l with st := .queued }
      let s := s.enqueue (metaQueue m) ⟨h, l.len, (s.chain 342 h).length, s.fc, p⟩
      s.statusRec p tag m 0 h.toNat op 0 0
  else
    if l.owner != tag then s.refuseCmd p tag m h.toNat op .freeForeign
    else if l.st == .free then s.refuseCmd p tag m h.toNat op .freeDup
    else if l.st != .held then s.refuseCmd p tag m h.toNat op .denied
    else
      let rest := (s.chain 342 h).drop 1
      let s := s.freeCell h
      let c := s.cin p
      (s.setCin p { c with freeing := queueFree s.fc c.freeing rest }).statusRec p tag m 0 h.toNat op 0 0

/-- The stages a cell-in port is fed from: T0 to T5 of tile g.32 or g.33 (R106). -/
def cinStages (p : Nat) : List Nat := (List.range 6).map (fun k => 64 * tileIx (p / 2) (32 + p % 2) + (36 + k))

/-- The six words a cell-in port may take in this fc (R176). -/
def State.cinBeat (s : State) (p : Nat) : List CWord := (cinStages p).filterMap (fun k => (s.stageAt k).head s.fc)

/-- A beat at cell-in port p (R176, R178, R184): all six words together, or none. -/
def State.cellIn (s : State) (p : Nat) : State :=
  let ws := s.cinBeat p
  if ws.length != 6 || !s.powered (p / 2) || s.closed (p / 2) || !s.cf.wenGrove.rd (p / 2) false || !s.cf.outDone then s
  else
    let w0 := ws.headD ⟨0, false, 0, 0⟩
    let c := s.cin p
    let after : Option State :=
      if w0.code.toNat == codeCTRL && c.cur.isNone && !c.skip.contains w0.tag
      then some (s.cellCmd p w0 (ws.getD 1 w0))
      else ws.foldl (fun o w => o.bind (fun s => s.takeWord p w)) (some s)
    match after with
    | some s' => forEach (cinStages p) s' (fun k s => s.setSrc (.stage k) ((s.stageAt k).pop s.fc))
    | none => s

/-- CELL_IN_BEAT (R176). -/
def execCellInBeat (p : Fin 128) (s : State) : Res := .next (s.cellIn p.val)

/-! ## Grants (R186-R190) -/

/-- A standing request: its port, packet and place, the owner, the bank it is presented to, and whether it is a floor request. -/
structure Req where
  port : Nat
  pkt  : Nat
  idx  : Nat
  tag  : Tag
  bank : Nat
  low  : Bool
  deriving DecidableEq, Repr

/-- The bank with the most free cells, the lowest on a tie. -/
def mostFree (l : List (Nat × Nat)) : Option Nat :=
  (l.foldl (fun (a : Option (Nat × Nat)) x => match a with
    | some y => if y.2 < x.2 then some x else a
    | none => some x) none).map (·.1)

/-- The bank a request is presented to (R186); none when no bank is online. -/
def State.present (s : State) (b1 b2 : Nat) : Option Nat :=
  let ok (b : Nat) : Bool := s.online b && decide (0 < s.bankFree b)
  if ok b1 && ok b2 then some (if s.bankFree b1 < s.bankFree b2 then b2 else b1)
  else if ok b1 then some b1
  else if ok b2 then some b2
  else mostFree (((List.range 16).filter s.online).map (fun b => (b, s.bankFree b)))

/-- The standing requests, by port and oldest first (R186, R188); one that no bank online can take names no bank, 16. -/
def State.requests (s : State) : List Req :=
  s.cx.inp.flatMap (fun (p, c) => c.staging.filterMap (fun x =>
    if x.grant.isSome then none
    else some ⟨p, x.pkt, x.idx, x.tag, (s.present x.b1 x.b2).getD 16, decide (s.usedBy x.tag < s.floorOf x.tag)⟩))

/-- The first request at or after the pointer, in port order with wrap (R189). -/
def firstFrom (ptr : Nat) (l : List Req) : Option Req :=
  match l.filter (fun r => ptr ≤ r.port) with
  | r :: _ => some r
  | [] => l.head?

/-- The winner of a bank (R189, R249): the reserved port's request, then floor requests, then the others. -/
def State.winner (s : State) (b : Nat) (rs : List Req) : Option Req :=
  let mine := rs.filter (fun r => r.bank == b)
  let ptr := s.cx.ptrGrant.rd b 0
  let sealedReq := match s.wheelPort s.tn.wheelIn with
    | some p => (mine.filter (fun r => r.port == p)).head?
    | none => none
  match sealedReq with
  | some r => some r
  | none => match firstFrom ptr (mine.filter (·.low)) with
    | some r => some r
    | none => firstFrom ptr (mine.filter (fun r => !r.low))

/-- The n-th index that a rising list does not hold, counting from `lo`. -/
def nthMissing (used : List Nat) (lo n : Nat) : Nat :=
  match used with
  | [] => lo + n
  | u :: r => if u - lo ≤ n then nthMissing r (u + 1) (n - (u - lo)) else lo + n

/-- Whether a request of this owner must be answered NOBUF on the counts as they stand (R189, R190). -/
def State.over (s : State) (tag : Tag) (low : Bool) : Bool :=
  decide (s.cellLimit tag ≤ s.usedBy tag) || (!low && decide (s.sharedFree ≤ 0))

/-- A request takes a free cell of its bank (R189). Which of the free cells, the spec leaves open (log entry 7). -/
def State.grant (s : State) (r : Req) : State :=
  let used := s.bankUsed r.bank
  let h : Handle := BitVec.ofNat 20 (r.bank * 65536 + nthMissing used 0 (Config.freeCell s.free % (65536 - used.length)))
  let s := { s with free := s.free + 1 }
  let s := s.setLink h ⟨if r.idx = 0 then .assembling else .body, r.tag, none, 0, 0⟩
  let c := s.cin r.port
  let s := s.setCin r.port { c with
    staging := c.staging.map (fun x => if x.pkt = r.pkt && x.idx = r.idx then { x with grant := some h } else x)
    pkts := c.pkts.map (fun k => if k.id = r.pkt
      then { k with cells := k.cells.zipIdx.map (fun (x, i) => if i = r.idx then (some h, x.2) else x) } else k) }
  { s with cx := { s.cx with ptrGrant := s.cx.ptrGrant.wr r.bank 0 ((r.port + 1) % 128) } }

/-- Drop the packet of a request answered NOBUF (R190). -/
def State.nobuf (r : Req) (s : State) : State :=
  match firstSome (fun k => if k.id = r.pkt then some k else none) (s.cin r.port).pkts with
  | some k => s.dropPkt r.port k .nobuf k.closed.isNone
  | none => s

/-- The grants of one fc (R189, R190). -/
def State.bankGrants (s : State) : State :=
  if s.cx.grantAt = s.fc + 1 then s
  else
    let rs := s.requests
    let wins := ((List.range 16).filter s.online).filterMap (fun b => s.winner b rs)
    let s := { s with cx := { s.cx with grantAt := s.fc + 1 } }
    let (s, lost, won) := wins.foldl (fun (s, lost, won) r =>
      if s.over r.tag r.low then (s, lost ++ [r], won)
      else if s.bankFree r.bank = 0 then (s, lost, won)
      else (s.grant r, lost, won ++ [r])) (s, ([] : List Req), ([] : List Req))
    let full := !((List.range 16).any (fun b => s.online b && decide (0 < s.bankFree b)))
    let late := rs.filter (fun r => !won.contains r && !lost.contains r &&
      (full || s.over r.tag (decide (s.usedBy r.tag < s.floorOf r.tag))))
    (forEach (lost ++ late) s State.nobuf).noteFill

/-- BANK_GRANT (R189). -/
def execBankGrant (s : State) : Res := .next s.bankGrants

/-! ## Completion (R181) -/

/-- Link the cells of a chain: head state and length, and each cell's next. -/
def State.linkChain (s : State) (head : CellState) (len : Nat) (hs : List Handle) : State :=
  forEach hs.zipIdx s (fun (h, i) s =>
    let l := s.link h
    s.setLink h { l with st := if i = 0 then head else .body, next := hs[i + 1]?, len := if i = 0 then len else 0 })

/-- A packet whose closing word has come and whose cells are all granted is completed (R181, R571): handed to its queue, or held with a
status record. -/
def State.complete (s : State) (p : Nat) (k : OpenPkt) (last : Nat) : State :=
  let hs := k.cells.filterMap (·.1)
  let len := 3 * (k.words - 1) + last
  let c := s.cin p
  let s := s.setCin p { c with pkts := c.pkts.filter (fun q => q.id != k.id) }
  let m := k.mdat.toNat
  let d := domOf k.tag
  let s := (s.meterAdd d 0 1).meterAdd d 1 len
  let h := hs.headD 0
  if metaHmode m then (s.linkChain .held len hs).statusRec p k.tag m 0 h.toNat 0 0 len
  else (s.linkChain .queued len hs).enqueue (metaQueue m) ⟨h, len, hs.length, s.fc, p⟩

/-- PACKET_COMPLETE (R181). -/
def execPacketComplete (p : Fin 128) (s : State) : Res :=
  .next (match firstSome (fun k => match k.closed with
      | some b => if k.cells.all (fun x => x.1.isSome) then some (k, b) else none
      | none => none) (s.cin p.val).pkts with
    | some (k, b) => s.complete p.val k b
    | none => s)

/-! ## Cell writes and freeing (R180, R191) -/

/-- The words of a cell as its port writes it; what the cell holds beyond them the spec does not say (log entry 3). -/
def State.writeCell (s : State) (h : Handle) (ws : List W24) : State :=
  let base := 64 * h.toNat
  let t := ws.zipIdx.foldl (fun t (w, i) => t.wr (base + i) 0 w) s.cx.words
  let t := ((List.range 64).drop ws.length).foldl
    (fun t i => t.wr (base + i) 0 ((Config.freeWord (s.free + i)).setWidth 24)) t
  { s with free := s.free + 64, cx := { s.cx with words := t, badUnit := s.cx.badUnit.clr (24 * h.toNat) (24 * h.toNat + 24) } }

/-- The first port from a bank's rotating pointer, after the port whose wheel position it is (R191, R192, R249, R250). -/
def pickPort (wheel : Option Nat) (ptr : Nat) (ps : List Nat) : Option Nat :=
  match wheel with
  | some p => if ps.contains p then some p else
    match ps.filter (ptr ≤ ·) with
    | q :: _ => some q
    | [] => ps.head?
  | none => match ps.filter (ptr ≤ ·) with
    | q :: _ => some q
    | [] => ps.head?

/-- Whether a staged cell is closed and granted in bank b. -/
def StCell.readyFor (x : StCell) (b : Nat) : Bool := x.closed && (match x.grant with | some h => bankOf h == b | none => false)

/-- The write of one bank in one fc (R191). -/
def State.bankWrite (s : State) (b : Nat) : State :=
  if s.cx.wrAt.rd b 0 = s.fc + 1 then s
  else
    let ps := (s.cx.inp.filter (fun e => e.2.staging.any (fun x => x.readyFor b))).map (·.1)
    match pickPort (s.wheelPort s.tn.wheelIn) (s.cx.ptrWrite.rd b 0) ps with
    | none => s
    | some p =>
      let c := s.cin p
      match firstSome (fun x => if x.readyFor b then x.grant.map (fun h => (x, h)) else none) c.staging with
      | none => s
      | some (x, h) =>
        let s := s.setCin p { c with staging := c.staging.filter (fun y => !(y.pkt == x.pkt && y.idx == x.idx)) }
        let s := s.writeCell h x.ws
        { s with cx := { s.cx with wrAt := s.cx.wrAt.wr b 0 (s.fc + 1), ptrWrite := s.cx.ptrWrite.wr b 0 ((p + 1) % 128) } }

/-- CELL_WRITE (R191). -/
def execCellWrite (b : Fin 16) (s : State) : Res := .next (s.bankWrite b.val)

/-- CHAIN_FREE (R180, R185, R193, R548): one cell of each chain of a port in one fc; of a tenant under reset, one per bank. -/
def execChainFree (src : FreeSource) (s : State) : Res :=
  .next (match src with
  | .cellIn p =>
    let (now, rest) := freeNow s.fc (s.cin p.val).freeing
    forEach now (s.setCin p.val { s.cin p.val with freeing := rest }) (fun h s => s.freeCell h)
  | .cellOut p =>
    let (now, rest) := freeNow s.fc (s.cout p.val).freeing
    forEach now (s.setCout p.val { s.cout p.val with freeing := rest }) (fun h s => s.freeCell h)
  | .tenant t =>
    let l := s.cx.tfree.rd t.val []
    let done (b : Nat) : Bool := s.cx.link.any (fun e => e.1 / 65536 == b && e.2.owner.toNat == t.val && e.2.freed == s.fc + 1)
    let now := ((List.range 16).filter (fun b => !done b)).filterMap (fun b => (l.filter (fun h => bankOf h == b)).head?)
    let s := { s with cx := { s.cx with tfree := s.cx.tfree.wr t.val [] (l.filter (fun h => !now.contains h)) } }
    forEach now s (fun h s => s.freeCell h))

end Machine
end Sys2Proof
end

