-- ==== Sys2Proof/Machine/Capacity.lean ====
section
/-! DEFINITION. The items of a resource vector (R238, R239), the device's limits (R246), and how heartwood sheds load when a
bank goes offline (R254, R255, R257, R561). -/

namespace Sys2Proof.Machine

/-! ## Items (R239) -/

def itKind (w : Nat) : Nat := bits w 63 58
def itTile (w : Nat) : Nat := bits w 57 46
def itBough (w : Nat) : Nat := bits w 57 47
def itWhich (w : Nat) : Nat := bits w 46 46
def itRate (w : Nat) : Nat := bits w 30 0
def itQuota (w : Nat) : Nat := bits w 41 21
def itFloor (w : Nat) : Nat := bits w 20 0
def itPort (w : Nat) : Nat := bits w 46 40
def itWeight (w : Nat) : Nat := bits w 39 32
def itSrc (w : Nat) : Nat := bits w 57 51
def itDst (w : Nat) : Nat := bits w 50 44
def itPrio (w : Nat) : Nat := bits w 43 42
def itNocRate (w : Nat) : Nat := bits w 41 32
def itNocBurst (w : Nat) : Nat := bits w 31 24
def itRes (w : Nat) : Nat := bits w 57 56
def itSealPort (w : Nat) : Nat := bits w 55 49
def itCount (w : Nat) : Nat := bits w 7 0
def itGrove (w : Nat) : Nat := bits w 57 52

/-- Every item of every admitted domain: tag number, class and item. -/
def State.granted (s : State) : List (Nat × Nat × Nat) :=
  s.tn.adm.flatMap (fun (t, v) => match v with
    | some v => v.items.map (fun i => (t, v.cls.toNat, i.toNat))
    | none => [])

/-- The device committed limit with the banks that are online, in 1/65,536 byte per refill: 1.6 Tbit/s a bank (R215, R246). -/
def State.deviceLimit (s : State) : Nat := 125 * 2 ^ 24 * s.banksOnline

/-- What a reserved bank-read position counts for: 38.4 Gb/s (R242, R253). -/
def positionRate : Nat := 3 * 2 ^ 24

/-- The bank-read positions reserved. -/
def State.readPositions (s : State) : Nat := (s.tn.wheelOut.filter (fun e => e.2.isSome)).length

/-! ## Shedding (R255) -/

/-- The new values for the values under one limit: each entry is its class and value. `none` is the operator domain's, which is
never reduced. -/
def shedClass (c : Nat) (excess : Int) (gs : List (Option Nat × Nat)) : Int × List (Option Nat × Nat) :=
  let total : Int := ((gs.map (fun g => if g.1 = some c then g.2 else 0)).sum : Nat)
  if excess ≤ 0 then (excess, gs)
  else if total ≤ excess then (excess - total, gs.map (fun g => if g.1 = some c then (g.1, 0) else g))
  else (0, gs.map (fun g => if g.1 = some c then (g.1, (((g.2 : Int) * (total - excess)) / total).toNat) else g))

/-- Classes 3 to 0 in turn (R254, R255). -/
def shedAll (excess : Int) (gs : List (Option Nat × Nat)) : Int × List (Option Nat × Nat) :=
  [3, 2, 1, 0].foldl (fun (e, gs) c => shedClass c e gs) (excess, gs)

/-- The three records of a reduction to the tenant and the first of them to the operator (R561). -/
def State.tellReduced (s : State) (tag : Tag) (block item index old new : Nat) : State :=
  let r1 := mkRec 4 tag block 1 (item * 2 ^ 29 + index)
  let s := s.sendRec (.domain tag) r1
  let s := s.sendRec (.domain tag) (mkRec 4 tag block 2 old)
  let s := s.sendRec (.domain tag) (mkRec 4 tag block 3 new)
  s.sendRec (.domain opTag) r1

/-- Which items lie under a limit: 0 floors, 1 committed rates. -/
def itUnder (lim w : Nat) : Bool := if lim = 0 then itKind w == 8 else itKind w == 10 && itWhich w == 0

def itValue (lim w : Nat) : Nat := if lim = 0 then itFloor w else itRate w

/-- Put a reduced value into force: in the vector, so that later admissions are judged against it (R257), and in the register. -/
def State.reduceTo (s : State) (lim t w new : Nat) : State :=
  let old := itValue lim w
  if new = old then s
  else
    let w' := if lim = 0 then setBits w 20 0 new else setBits w 30 0 new
    let adm := s.tn.adm.up t none (fun v => v.map (fun v =>
      { v with items := v.items.map (fun i => if i.toNat = w then BitVec.ofNat 64 w' else i) }))
    let s := { s with tn := { s.tn with adm := adm } }
    if lim = 0 then (s.setFld .cxFloor t 20 0 new).tellReduced (BitVec.ofNat 10 t) 4 0 0 old new
    else (s.setFld .qeBcir (itBough w) 30 0 new).tellReduced (BitVec.ofNat 10 t) 5 1 (itBough w) old new

/-- Whether a bough lies on a cell-out port of a grove that is fenced or off: it is lost with the grove, not reducible (R256). -/
def State.boughLost (s : State) (b : Nat) : Bool :=
  let g := s.fld .qeBcfg b 20 14 / 2
  !s.powered g || s.closed g

/-- Reduce what exceeds one limit. What is still above it after class 0 is told to the operator in a record whose form the spec
does not give (log entry 3). -/
def State.shedLimit (s : State) (lim : Nat) (granted limit : Int) : State :=
  let its := s.granted.filter (fun x => itUnder lim x.2.2 && !(lim = 1 && s.boughLost (itBough x.2.2)))
  let gs := its.map (fun (t, c, w) => (if t = 0x200 then none else some c, itValue lim w))
  let (left, gs') := shedAll (granted - limit) gs
  let s := forEach (its.zip gs') s (fun (x, g) s => s.reduceTo lim x.1 x.2.2 g.2)
  if left ≤ 0 then s
  else
    let (c, s) := s.freeCode
    let (w, s) := s.freeWord
    s.sendRec (.domain opTag) (mkRec 4 opTag (4 + lim) c w.toNat)

/-- Heartwood sheds load after capacity has fallen: the floors against the fill limit, then the committed rates against the
device committed limit (R246, R255). Injection rates have a limit that no loss of a bank changes (R242). -/
def State.shed (s : State) : State :=
  let floors : Nat := ((s.granted.filter (fun x => itUnder 0 x.2.2)).map (fun x => itValue 0 x.2.2)).sum
  let s := s.shedLimit 0 floors s.fillLimit
  let rates : Nat := ((s.granted.filter (fun x => itUnder 1 x.2.2)).map (fun x => itValue 1 x.2.2)).sum
  (s.shedLimit 1 (rates + positionRate * s.readPositions : Nat) s.deviceLimit).judgeFill

/-- Heartwood takes a bank offline (R196, R254). -/
def State.bankOffline (s : State) (b : Nat) : State := (s.setBit .cxStat 0 b false).shed

/-- A unit of a cell is found uncorrectable (R196, R198, R564): counted, source 721, records to the owner and heartwood; the
eighth of one bank within 1 s takes the bank offline and is told to the operator and heartwood, but by no halted one (R414). -/
def State.badUnitFound (s : State) (h : Handle) (port : Nat) (read direct : Bool) : State :=
  let b := bankOf h
  let s := (s.count .cxEcc 0 15 0 1).assertSrc 721
  let own := (s.link h).owner
  let s := s.sendRec (.both own) (mkRec 1 own 4 6 (h.toNat * 2 ^ 12 + port * 2 ^ 5 + b2n read * 2 ^ 4 + b2n direct * 2 ^ 3))
  let recent := (s.cx.badAt.rd b []).filter (fun t => s.fc < t + 1600000000) ++ [s.fc]
  let s := { s with cx := { s.cx with badAt := s.cx.badAt.wr b [] recent } }
  if 8 ≤ recent.length && s.online b && !s.flag .htStat 0 31 then
    (s.bankOffline b).sendRec (.both opTag) (mkRec 5 opTag 4 6 b)
  else s

end Sys2Proof.Machine
end

