-- ==== Sys2Proof/Machine/Cells.lean ====
section
/-! DEFINITION. The cell-out ports, the banks' reads (R192-R198), the direct window (R200), and the cell exchange's registers
(R201-R208). -/

namespace Sys2Proof.Machine

/-- Words of a packet of `len` bytes (R100, R174). -/
def wordsOf (len : Nat) : Nat := (len + 2) / 3

/-- Whether word w of a cell has a byte in one of the units (R174, R196). -/
def wordBad (units : List Nat) (w : Nat) : Bool := units.contains (3 * w / 8) || units.contains ((3 * w + 2) / 8)

/-- The units of a cell that cannot be corrected: those found now and those already bad; all of a bank whose rail has failed
(R564). -/
def State.badUnits (s : State) (h : Handle) (found : List Nat) : List Nat :=
  (List.range 24).filter (fun j => found.contains j || s.cx.badUnit.rd (24 * h.toNat + j) false
    || s.pw.railBad.rd (80 + bankOf h) false)

/-- Units found bad stay bad until they are written. -/
def State.markBad (s : State) (h : Handle) (units : List Nat) : State :=
  { s with cx := { s.cx with badUnit := units.foldl (fun t j => t.wr (24 * h.toNat + j) false true) s.cx.badUnit } }

/-! ## Bank reads (R192, R196, R197, R250) -/

/-- The packet of a port whose next cell may be read, and whether it is the one in delivery: at most four cells ahead. -/
def CellOutSt.reading (c : CellOutSt) (fc : Nat) : Option (Bool × OutPkt) :=
  let may (o : OutPkt) : Bool := o.next.isSome && decide (o.ready.length ≤ 256)
  match c.cur with
  | some o => if may o then some (true, o) else match c.slot with
    | some (f, x) => if may x && f < fc then some (false, x) else none
    | none => none
  | none => match c.slot with
    | some (f, x) => if may x && f < fc then some (false, x) else none
    | none => none

/-- Whether a cell's write is still pending at some port (R192). -/
def State.writePending (s : State) (h : Handle) : Bool :=
  s.cx.inp.any (fun e => e.2.staging.any (fun x => x.grant == some h))

def State.wantsCell (s : State) (b : Nat) (c : CellOutSt) : Option (Bool × OutPkt × Handle) :=
  match c.reading s.fc with
  | some (cur, o) => match o.next with
    | some h => if bankOf h == b && !s.writePending h then some (cur, o, h) else none
    | none => none
  | none => none

/-- The cell is read for a packet: its words, poison, and the link's next handle. -/
def State.readCell (s : State) (p : Nat) (o : OutPkt) (h : Handle) (health : CellHealth) : OutPkt × State :=
  let left := wordsOf o.len - (o.sent + o.ready.length)
  let n := min 64 left
  let bad := s.badUnits h (health.bad.map (·.val))
  let ws := (List.range n).map (fun w => if wordBad bad w then none else some (s.cx.words.rd (64 * h.toNat + w) 0))
  let s := s.count .cxEcc 0 31 16 (health.corrected.length + b2n health.linkFixed)
  let s := forEach bad (s.markBad h bad) (fun _ s => s.badUnitFound h p true false)
  let lost := health.linkBad && 64 < left
  let s := if lost then
      let own := (s.link h).owner
      (((s.count .cxEcc 0 15 0 1).assertSrc 721).sendRec (.both own)
        (mkRec 1 own 4 6 (h.toNat * 2 ^ 12 + p * 2 ^ 5 + 2 ^ 4))).setFld .cxLost 0 20 0
          (s.fld .cxLost 0 20 0 + ((left + 63) / 64 - 1))
    else s
  ({ o with ready := o.ready ++ ws, cellsRead := o.cellsRead ++ [h], broken := o.broken || lost,
            next := if lost || left ≤ 64 then none else (s.link h).next }, s)

/-- The read of one bank in one fc (R192). -/
def State.bankRead (s : State) (b : Nat) (health : CellHealth) : State :=
  if s.cx.rdAt.rd b 0 = s.fc + 1 then s
  else
    let ps := (s.cx.outp.filter (fun e => (s.wantsCell b e.2).isSome)).map (·.1)
    match pickPort (s.wheelPort s.tn.wheelOut) (s.cx.ptrRead.rd b 0) ps with
    | none => s
    | some p => match s.wantsCell b (s.cout p) with
      | none => s
      | some (cur, o, h) =>
        let (o', s) := s.readCell p o h health
        let c := s.cout p
        let s := s.setCout p (if cur then { c with cur := some o' } else { c with slot := c.slot.map (fun x => (x.1, o')) })
        { s with cx := { s.cx with rdAt := s.cx.rdAt.wr b 0 (s.fc + 1), ptrRead := s.cx.ptrRead.wr b 0 ((p + 1) % 128) } }

/-- CELL_READ (R192). -/
def execCellRead (b : Fin 16) (health : CellHealth) (s : State) : Res := .next (s.bankRead b.val health)

/-! ## Delivery (R192, R193) -/

/-- A word of the delivered packet: SOP at its start, the EOP code of its valid bytes at its end, POISON in a bad unit. -/
def outWord (tag : Tag) (len i : Nat) (free : W24) (w : Option W24) : CWord :=
  let last := i + 1 = wordsOf len
  let valid := len - 3 * i
  let code := if last then (if i = 0 then 4 + valid else 1 + valid) else if i = 0 then codeSOP else codeDATA
  match w with
  | some d => ⟨tag, false, BitVec.ofNat 4 code, d⟩
  | none => ⟨tag, false, BitVec.ofNat 4 codePOISON, free⟩

def idleWord (tag : Tag) : CWord := ⟨tag, false, BitVec.ofNat 4 codeIDLE, 0⟩

/-- A beat: six words, IDLE beyond those given. -/
def beatOf (tag : Tag) (ws : List CWord) : List CWord := ws ++ List.replicate (6 - ws.length) (idleWord tag)

/-- Deliver a beat at cell-out port p when all six taps accept it (R192). `line` are the taps at whose switch input the word fails parity
(R115). -/
def State.deliver (s : State) (p : Nat) (line : List Nat) (ws : List CWord) : Option State :=
  let T := tileIx (p / 2) (34 + p % 2)
  if s.powered (p / 2) && !s.closed (p / 2)
    && ws.zipIdx.all (fun (w, k) => s.wouldTake T (36 + k) (parityIn (s.swOwner T (36 + k)) (line.contains k) w))
  then some (forEach ws.zipIdx s (fun (w, k) s => s.arriveTap T (36 + k) (line.contains k) w)) else none

/-- The cells whose last word has left, of those read: `sent` words are delivered, and the rest when the packet is at its end. -/
def leftCells (o : OutPkt) (gone total : Nat) (ended : Bool) : List Handle × List Handle :=
  let n := if ended then o.cellsRead.length else gone / 64 - total
  (o.cellsRead.take n, o.cellsRead.drop n)

/-- The META beat (R192). -/
def State.metaBeat (s : State) (p : Nat) (o : OutPkt) (line : List Nat) : State :=
  match s.deliver p line (beatOf o.tag [⟨o.tag, false, BitVec.ofNat 4 codeMETA, BitVec.ofNat 24 o.queue⟩,
      ⟨o.tag, false, BitVec.ofNat 4 codeMETA, BitVec.ofNat 24 o.len⟩]) with
  | some s =>
    let c := s.cout p
    s.setCout p { c with slot := none, cur := some o, slotFree := s.fc + 1 }
  | none => s

/-- A data beat (R192, R196, R197, R571): six words, the last beat padded; an ERR word in place of what a broken chain lost. -/
def State.dataBeat (s : State) (p : Nat) (o : OutPkt) (line : List Nat) : State :=
  let total := wordsOf o.len
  let n := min 6 (total - o.sent)
  let short := o.ready.length < n
  if short && !o.broken then s
  else
    let now := o.ready.take n
    let ws := now.zipIdx.map (fun (w, i) => outWord o.tag o.len (o.sent + i) ((Config.freeWord (s.free + i)).setWidth 24) w)
    let ws := if short then ws ++ [⟨o.tag, false, BitVec.ofNat 4 codeERR, 0⟩] else ws
    match s.deliver p line (beatOf o.tag ws) with
    | none => s
    | some s =>
      let s := { s with free := s.free + 6 }
      let sent := o.sent + now.length
      let ended := short || sent = total
      let (gone, stay) := leftCells o sent (o.sent / 64) ended
      let c := s.cout p
      let s := s.setCout p { c with
        cur := if ended then none else some { o with ready := o.ready.drop n, sent := sent, cellsRead := stay }
        freeing := gone.foldl (fun l h => queueFree s.fc l [h]) c.freeing }
      if sent = total then (s.meterAdd o.tag.toNat 2 1).meterAdd o.tag.toNat 3 o.len else s

/-- CELL_OUT_BEAT (R192). `line` are the taps at whose switch input the word fails parity (R115). -/
def execCellOutBeat (p : Fin 128) (line : List (Fin 6)) (s : State) : Res :=
  .next (match (s.cout p.val).cur with
  | some o => s.dataBeat p.val o (line.map (·.val))
  | none => match (s.cout p.val).slot with
    | some (f, o) => if f < s.fc then s.metaBeat p.val o (line.map (·.val)) else s
    | none => s)

/-! ## The direct window (R200) -/

/-- Byte k of a cell (R6, R174). -/
def State.cellByte (s : State) (c k : Nat) : Byte :=
  BitVec.ofNat 8 (bits (s.cx.words.rd (64 * c + k / 3) 0).toNat (23 - 8 * (k % 3)) (16 - 8 * (k % 3)))

def State.setCellByte (s : State) (c k : Nat) (v : Byte) : State :=
  { s with cx := { s.cx with words := s.cx.words.up (64 * c + k / 3) 0 (fun w =>
      BitVec.ofNat 24 (setBits w.toNat (23 - 8 * (k % 3)) (16 - 8 * (k % 3)) v.toNat)) } }

/-- Whether a tag reaches a cell through the direct window (R200). -/
def State.reaches (s : State) (tag : Tag) (c : Nat) : Bool :=
  let l := s.link (BitVec.ofNat 20 c)
  l.st != .free && l.owner == tag

/-- Whether a domain's target NI answers FENCED for it: it drains, is fenced or is off (R336, R337). -/
def State.fencedOff (s : State) (d : Nat) : Bool :=
  s.pw.draining.rd d 0 != 0 || s.flag .pwDomfen (d / 32) (d % 32) || !s.powered d

/-- Whether the bank of a cell answers FENCED (R336, R337). -/
def State.bankShut (s : State) (c : Nat) : Bool := s.fencedOff (80 + c / 65536)

/-- The units, as cell and unit, that bytes lo to hi of the window cover. -/
def unitsOf (lo hi : Nat) : List (Nat × Nat) :=
  (List.range (hi / 8 + 1 - lo / 8)).map (fun i => ((lo / 8 + i) / 24, (lo / 8 + i) % 24))

/-- An access of `tag` at byte offset `a` of the window. `x` is what the ECC finds in the units that it reads: those corrected are counted
(R196). A whole-unit write needs no read, and mends a bad unit. -/
def State.direct (s : State) (tag : Tag) (write : Bool) (a len : Nat) (data : List Word) (x : UnitHealth) : State :=
  let hi := a + len - 1
  let c0 := a / 192
  let c1 := hi / 192
  if len = 0 || 192 * 1048576 ≤ hi then s.ans .unmapped (List.replicate (if write then 0 else (len + 3) / 4) 0)
  else if s.bankShut c0 || s.bankShut c1 then s.ans .fenced (List.replicate (if write then 0 else (len + 3) / 4) 0)
  else if !s.reaches tag c0 || !s.reaches tag c1 then s.barkAns (if write then 0 else (len + 3) / 4)
  else
    let whole (u : Nat × Nat) : Bool := decide (a ≤ 192 * u.1 + 8 * u.2) && decide (192 * u.1 + 8 * u.2 + 7 ≤ hi)
    let units := (unitsOf a hi).filter (fun u => !write || !whole u)
    let among (l : List (Fin 48)) (u : Nat × Nat) : Bool := l.any (fun j => j.val == u.2 + (if u.1 = c0 then 0 else 24))
    let bad := units.filter (fun u => among x.bad u || (s.badUnits (BitVec.ofNat 20 u.1) []).contains u.2)
    let s := s.count .cxEcc 0 31 16 (units.filter (fun u => among x.corrected u && !bad.contains u)).length
    let s := forEach bad s (fun u s =>
      (s.markBad (BitVec.ofNat 20 u.1) [u.2]).badUnitFound (BitVec.ofNat 20 u.1) 0 false true)
    if write then
      if !bad.isEmpty then s.ans .poison []
      else
        let s := forEach ((wordsBytes data).take len).zipIdx s (fun (v, i) s => s.setCellByte ((a + i) / 192) ((a + i) % 192) v)
        let s := forEach ((unitsOf a hi).filter whole) s (fun u s =>
          { s with cx := { s.cx with badUnit := s.cx.badUnit.wr (24 * u.1 + u.2) false false } })
        s.ans .ok []
    else
      let bytes := (List.range len).map (fun i =>
        if bad.contains ((a + i) / 192, (a + i) % 192 / 8) then 0 else s.cellByte ((a + i) / 192) ((a + i) % 192))
      s.ans (if bad.isEmpty then .ok else .poison) (bytesWords bytes)

/-- The powered-down bank's domain for which an access is held in boot, test and recovery (R337). -/
def State.directHeld (s : State) (a len : Nat) : Option Nat :=
  if !s.wakes || len = 0 || 192 * 1048576 ≤ a + len - 1 then none
  else firstSome (fun c => let d := 80 + c / 65536; if s.powered d then none else some d) [a / 192, (a + len - 1) / 192]

/-- An access to the direct window (R200), or its hold at its issuer's NI while its bank is off and may wake (R337). `bus` says that a core's
bus made it. -/
def State.directBy (s : State) (p : Party) (a : Access) (x : UnitHealth) (bus : Bool) : State :=
  if (s.directHeld a.addr a.len).isSome then { s with nc := { s.nc with directs := s.nc.directs ++ [⟨p, a, x, bus⟩] } }
  else s.direct p.tag a.write a.addr a.len a.data x

/-- DIRECT_WINDOW_ACCESS (R200): `a.addr` is the offset in the direct window (R25). -/
def execDirectWindowAccess (p : Party) (a : Access) (x : UnitHealth) (s : State) : Res :=
  .next (s.directBy p a x false)

/-! ## Registers (R202-R208) -/

/-- Whether a party reads a cell exchange register (R202). -/
def cxReads (p : Party) (n : RegName) (i : Nat) : Bool :=
  match p with
  | .tenant t => i == t.val && [RegName.cxQuota, .cxFloor, .cxUsed, .cxTerr, .cxTnobuf].contains n
  | _ => true

/-- A cell exchange register as read (R203-R208). -/
def State.readCx (s : State) (n : RegName) (i : Nat) : Word :=
  match n with
  | .cxStat => BitVec.ofNat 32 (setBits (s.reg .cxStat 0).toNat 31 31 (b2n (decide (943718 < s.allocated))))
  | .cxFill => BitVec.ofNat 32 s.allocated
  | .cxBank => BitVec.ofNat 32 (s.bankFree i)
  | .cxUsed => BitVec.ofNat 32 (s.cx.link.filter (fun e => e.2.owner.toNat == i && e.2.st != .free)).length
  | _ => s.reg n i

/-- A write of a cell exchange register (R202, R203, R208). Heartwood alone writes ONLINE. -/
def State.writeCx (s : State) (p : Party) (n : RegName) (i : Nat) (w : Word) : State :=
  if !cxReads p n i then s.barkAns 0
  else
    let was := s.banksOnline
    let s := s.plainWrite p n i w
    (if s.banksOnline < was then s.shed else s).judgeFill

end Sys2Proof.Machine
end

