-- ==== Sys2Proof/Machine/Noc.lean ====
section
/-! DEFINITION. The network on chip (R309-R345): routes, issue, credits and injection buckets, routers, arrival, and its tables.
What a target does with a request stands in Access and NocEnd. -/

namespace Sys2Proof

open Machine

namespace Machine

/-! ## Places and routes (R309, R315-R317) -/

/-- The router a node attaches to (R309). -/
def routerOf (n : Nat) : Nat :=
  if n < 64 then n
  else if n < 80 then [2, 3, 4, 5, 23, 31, 39, 47, 58, 59, 60, 61, 16, 24, 32, 40].getD (n - 64) 0
  else [0, 1, 6, 7, 8, 15, 48, 55, 56, 57, 62, 63].getD (n - 80) 0

/-- The neighbour a link code names: 0 N, 1 E, 2 S, 3 W (R316). -/
def linkTo (r code : Nat) : Option Nat :=
  match code with
  | 0 => if 8 ≤ r then some (r - 8) else none
  | 1 => if r % 8 < 7 then some (r + 1) else none
  | 2 => if r < 56 then some (r + 8) else none
  | 3 => if 0 < r % 8 then some (r - 1) else none
  | _ => none

/-- The input a neighbour's word arrives at: from the south over N, and so on. -/
def entryOf (code : Nat) : Nat := (code + 2) % 4

/-- Code i of a route string (R316). -/
def routeCode (route i : Nat) : Nat := bits route (3 * i + 2) (3 * i)

/-- A route string of codes, END beyond them. -/
def routeOf (codes : List Nat) : BitVec 42 :=
  BitVec.ofNat 42 ((codes ++ List.replicate (14 - codes.length) 7).zipIdx.foldl (fun a (c, i) => a + c * 2 ^ (3 * i)) 0)

/-- The dimension-ordered minimal route (R317). -/
def dimRoute (a b : Nat) : BitVec 42 :=
  let ra := routerOf a
  let rb := routerOf b
  routeOf ((if ra % 8 ≤ rb % 8 then List.replicate (rb % 8 - ra % 8) 1 else List.replicate (ra % 8 - rb % 8) 3)
    ++ (if ra / 8 ≤ rb / 8 then List.replicate (rb / 8 - ra / 8) 2 else List.replicate (ra / 8 - rb / 8) 0))

/-- Whether an entry's route is accepted (R317): dimension-ordered, minimal, within the mesh, ending at the destination's router.
Between two routers there is exactly one such route. -/
def routeOk (ni d route : Nat) : Bool := d < 92 && route == (dimRoute ni d).toNat

/-! ## Tables (R344, R345) -/

def rteKey (ni d : Nat) : Nat := 128 * ni + d
def State.rteValid (s : State) (ni d : Nat) : Bool := s.flag .ncRteH (rteKey ni d) 31
/-- Whether an entry is valid and in force: one that an image writes is so from stage OUT (R458). -/
def State.rteLive (s : State) (ni d : Nat) : Bool := s.rteValid ni d && s.nc.route.rd (rteKey ni d) 0 != 0

def State.rteCred (s : State) (ni d : Nat) : Nat := s.fld .ncRteH (rteKey ni d) 30 25

/-- A write of NC_RTEd_H (R12, R317, R344): a CRED above 32 keeps that field, and the entry is checked whole when it leaves VALID 1. No
access but heartwood's reaches it. -/
def State.writeRteH (s : State) (p : Party) (ni d : Nat) (w : Word) : State :=
  if p != .heartwood then s.ans .unmapped []
  else
    let k := rteKey ni d
    let j := s.judgeW p .ncRteH k (fun _ _ => true) w
    let route := (s.reg .ncRteL k).toNat + bits j.val 9 0 * 2 ^ 32
    if bit j.val 31 && !routeOk ni d route then s.ans .denied []
    else
      let s := s.land .ncRteH k j
      if s.preOut then s else { s with nc := { s.nc with route := s.nc.route.wr k 0 (BitVec.ofNat 42 route) } }

/-- Heartwood puts a route table entry in force. -/
def State.putRoute (s : State) (ni d cred : Nat) : State :=
  let r := (dimRoute ni d).toNat
  let s := s.setReg .ncRteL (rteKey ni d) (BitVec.ofNat 32 (r % 2 ^ 32))
  s.writeRteH .heartwood ni d (BitVec.ofNat 32 (2 ^ 31 + cred * 2 ^ 25 + r / 2 ^ 32))

def injKey (ni i : Nat) : Nat := 2048 * (ni - 84) + i

/-- Whether another valid entry of the NI is for the same tag, destination and priority (R345). -/
def State.injTwin (s : State) (ni i a : Nat) : Bool :=
  bit a 31 && s.act.any (fun e => e.1 % 256 == RegName.ncInjA.ctorIdx && e.1 / 256 / 2048 + 84 == ni && e.1 / 256 != injKey ni i
    && bits e.2.toNat 31 12 == bits a 31 12)

/-- An injection entry's pair takes effect with its level at BURST (R328). -/
def State.injInForce (s : State) (k : Nat) : State :=
  let s := (s.setActv .ncInjA k (s.reg .ncInjA k)).setActv .ncInjB k (s.reg .ncInjB k)
  { s with nc := { s.nc with level := s.nc.level.wr k 0 ((s.fld .ncInjB k 31 24 : Nat) : Int) } }

/-- A write of NC_INJi_B (R345): the pair takes effect with its level at BURST; before stage OUT of a load, at that stage. -/
def State.writeInjB (s : State) (p : Party) (ni i : Nat) (w : Word) : State :=
  let k := injKey ni i
  if p != .heartwood then s.ans .unmapped []
  else if s.injTwin ni i (s.reg .ncInjA k).toNat then s.ans .denied []
  else
    let j := s.judgeW p .ncInjB k (fun _ _ => true) w
    let s := s.land .ncInjB k j
    if s.preOut then s else s.injInForce k

/-- Heartwood writes an injection entry whole. -/
def State.putInj (s : State) (ni i : Nat) (valid : Bool) (tag : Tag) (dst prio rate burst : Nat) : State :=
  let s := s.setReg .ncInjA (injKey ni i)
    (BitVec.ofNat 32 (b2n valid * 2 ^ 31 + tag.toNat * 2 ^ 21 + dst * 2 ^ 14 + prio * 2 ^ 12))
  s.writeInjB .heartwood ni i (BitVec.ofNat 32 (burst * 2 ^ 24 + rate * 2 ^ 15))

/-- The first unused injection entry of an NI. -/
def State.injFree (s : State) (ni : Nat) : Option Nat :=
  firstSome (fun i => if s.flag .ncInjA (injKey ni i) 31 then none else some i) (List.range 2048)

/-- Release an injection entry. -/
def State.dropInj (s : State) (ni : Nat) (tag : Tag) (dst prio : Nat) : State :=
  match s.injEntry ni tag dst prio with
  | some k => s.putInj ni (k % 2048) false noTag 0 0 1 1
  | none => s

/-- ROUTE_ENTRY_WRITE (R317). -/
def execRouteEntryWrite (p : Party) (ni : Fin 92) (d : Fin 128) (w : Word) (s : State) : Res :=
  .next (s.writeRteH p ni.val d.val w)

/-- INJECTION_ENTRY_WRITE (R345). -/
def execInjectionEntryWrite (p : Party) (ni : Fin 5) (i : Fin 2048) (w : Word) (s : State) : Res :=
  .next (s.writeInjB p (84 + ni.val) i.val w)

/-- NOC_BUCKET_REFILL (R328): in an fc whose refill counter stands at 255, once. -/
def execNocBucketRefill (s : State) : Res :=
  .next (if s.qe.refill = 255 && s.nc.refillAt != s.fc + 1 then
      let keys := (s.act.filter (fun e => e.1 % 256 == RegName.ncInjA.ctorIdx && bit e.2.toNat 31)).map (fun e => e.1 / 256)
      let level := keys.foldl (fun (t : Tbl Int) k =>
        t.wr k 0 (min (t.rd k 0 + (s.actFld .ncInjB k 23 15 : Nat)) ((s.actFld .ncInjB k 31 24 : Nat) : Int))) s.nc.level
      { s with nc := { s.nc with level := level, refillAt := s.fc + 1 } }
    else s)

/-! ## Worms (R312-R314, R324) -/

def Hdr.isWrite (h : Hdr) : Bool := h.op.toNat == 1 || h.op.toNat == 3
def Hdr.isResp (h : Hdr) : Bool := 2 ≤ h.op.toNat
def Hdr.words (h : Hdr) : Nat := h.len.toNat + 1

/-- Bits [127:1] of a header (R313). -/
def Hdr.fields (h : Hdr) : Nat :=
  h.prio.toNat * 2 ^ 126 + h.src.toNat * 2 ^ 119 + h.dst.toNat * 2 ^ 112 + h.route.toNat * 2 ^ 70 + h.tag.toNat * 2 ^ 60
    + b2n h.htw * 2 ^ 59 + b2n h.sealed * 2 ^ 58 + h.op.toNat * 2 ^ 56 + h.txid.toNat * 2 ^ 48 + h.len.toNat * 2 ^ 42
    + h.addr.toNat * 2 ^ 16 + h.status.code * 2 ^ 12

/-- The header as a flit carries it, with HPAR making its parity even (R313): a router that changes ROUTE recomputes it (R316). -/
def Hdr.word (h : Hdr) : BitVec 128 := BitVec.ofNat 128 (h.fields + b2n (oddOnes 128 h.fields))

/-- Data flits that move n words (R314). -/
def dataFlits (n : Nat) : Nat := (4 * n + 31) / 32

/-- Flits of the response to a request (R314, R326). -/
def respFlits (q : NocReq) : Nat := if q.write then 1 else 1 + dataFlits q.words

/-- The VC of a priority (R324). -/
def State.vcOf (s : State) (prio : Nat) (sealed : Bool) : Nat :=
  if sealed then 3
  else match s.fld .ncMode 0 30 29 with
    | 0 => prio / 2
    | 1 => if prio < 2 then 0 else prio - 1
    | _ => if s.flag .ncMode 0 27 then min prio 2 else prio

/-- Latency per router (R323). -/
def State.hop (s : State) : Nat := if s.flag .ncMode 0 31 then 3 else 2

/-- The flits of a worm. -/
def wormOf (vc : Nat) (h : Hdr) (ds : List (List Word)) (psn : Bool) : List Flit :=
  ⟨h, true, ds.isEmpty, vc, false, false, [], []⟩ ::
    ds.zipIdx.map (fun (d, i) => ⟨h, false, i + 1 = ds.length, vc, psn, false, d, []⟩)

/-- Pieces of eight words. -/
def flitData (ws : List Word) : List (List Word) :=
  (List.range ((ws.length + 7) / 8)).map (fun i => (ws.drop (8 * i)).take 8)

/-- A flit's control field: TYPE, VC, PSN and ABT (R312). -/
def Flit.ctl (f : Flit) : Nat :=
  16 * (if f.head then (if f.tail then 3 else 1) else if f.tail then 2 else 0) + 4 * f.vc + 2 * b2n f.psn + b2n f.abt

/-- A flit's 256 data bits: the header in [127:0] of the first, and bytes little-endian in the others (R313, R314). -/
def Flit.bits (f : Flit) : Nat := if f.head then f.hdr.word.toNat else bytesLE (wordsBytes f.data)

/-- A flit as a link carries it (R312): its control field, its eight check bits for each 64-bit word, and its data bits. -/
def Flit.wire (f : Flit) : List Nat :=
  f.ctl :: (List.range 4).map (fun i => (Config.flitEcc (BitVec.ofNat 64 (f.bits / 2 ^ (64 * i)))).toNat) ++ [f.bits]

def bufKey (resp : Bool) (r i vc : Nat) : Nat := 4 * (8 * (64 * b2n resp + r) + i) + vc

/-- The buffer of the router at a node's NI that a worm of a VC enters. -/
def niKey (resp : Bool) (node vc : Nat) : Nat := bufKey resp (routerOf node) (if node < 64 then 4 else 5) vc

/-- Flits of the worm a header opens. -/
def Hdr.wormLen (h : Hdr) : Nat :=
  if h.op.toNat = 1 || (h.op.toNat = 2 && (h.status == .ok || h.status == .poison)) then 1 + dataFlits h.words else 1

/-- Whether a buffer has room for a flit (R323): 4 flits in mode W; 16 in mode Q, where a head needs room for its whole worm. -/
def State.bufRoom (s : State) (k : Nat) (f : Flit) : Bool :=
  let n := (s.nc.rbuf.rd k []).length
  if s.flag .ncMode 0 31 then (if f.head then decide (n + f.hdr.wormLen ≤ 16) else decide (n < 16)) else decide (n < 4)

/-- A flit enters a router's buffer, where it stands from fc `t` on; the rest of a worm whose head was discarded goes with it (R332). -/
def State.enterBuf (s : State) (k t : Nat) (f : Flit) : State :=
  if s.nc.purge.rd k false then
    if f.tail then { s with nc := { s.nc with purge := s.nc.purge.wr k false false } } else s
  else { s with nc := { s.nc with rbuf := s.nc.rbuf.up k [] (· ++ [(t, f)]) } }

def State.nocOut (s : State) (ni : Nat) : List Outst := s.nc.outst.rd ni []
def State.setOut (s : State) (ni : Nat) (l : List Outst) : State :=
  { s with nc := { s.nc with outst := s.nc.outst.wr ni [] l } }

/-- The head of a request is injected in this fc: its 1,048,576 fc begin (R335). -/
def State.noteSent (s : State) (f : Flit) : State :=
  if f.head && !f.hdr.isResp then
    let ni := f.hdr.src.toNat
    s.setOut ni ((s.nocOut ni).map (fun o => if o.txid == f.hdr.txid then { o with sent := some s.fc } else o))
  else s

/-- The next flit that waits at an NI for buffer k of its router enters it, one an fc, once the buffer has room (R323, log entry 54). -/
def State.niMove (k : Nat) (s : State) : State :=
  match s.nc.niq.rd k [] with
  | [] => s
  | f :: r =>
    if s.nc.niAt.rd k 0 = s.fc + 1 || !s.bufRoom k f then s
    else
      let s := { s with nc := { s.nc with niq := s.nc.niq.wr k [] r, niAt := s.nc.niAt.wr k 0 (s.fc + 1) } }
      (s.enterBuf k s.fc f).noteSent f

/-- A worm is given to the router at its NI behind those that wait there (R326). -/
def State.inject (s : State) (resp : Bool) (node : Nat) (fs : List Flit) : State :=
  match fs with
  | [] => s
  | f :: _ =>
    let k := niKey resp node f.vc
    State.niMove k { s with nc := { s.nc with niq := s.nc.niq.up k [] (· ++ fs) } }

/-! ## Issue (R319, R326-R331) -/

def State.nocWait (s : State) (ni : Nat) : List NocReq := s.nc.waiting.rd ni []
def State.setWait (s : State) (ni : Nat) (l : List NocReq) : State :=
  { s with nc := { s.nc with waiting := s.nc.waiting.wr ni [] l } }

/-- Which NI a requester's requests go out at, and what that NI stamps them with (R311): their tag, HTW and PRIO. A function's tag is
its tenant's, and its PRIO is given by the host interface; heartwood and the controller act on what they reach without a worm (log entry 54). -/
def State.stamp (s : State) (who : Requester) (tag : Tag) (prio : Nat) : Nat × Tag × Bool × BitVec 2 :=
  match who with
  | .core n => (84, opTag, false, BitVec.ofNat 2 (s.fld .ncCprio 0 (2 * n.val + 1) (2 * n.val)))
  | .heartwood => (85, opTag, true, 3)
  | .config => (86, opTag, true, 2)
  | .pf0 => (87, opTag, false, BitVec.ofNat 2 prio)
  | .vf _ | .dma _ _ => (87, tag, false, BitVec.ofNat 2 prio)
  | .cells => (88, tag, false, 1)

/-- A request of a requester, stamped by its NI. -/
def State.reqOf (s : State) (who : Requester) (tag : Tag) (prio dst : Nat) (write : Bool) (addr words : Nat) (data : List Word) (psn woken : Bool) :
    NocReq :=
  let (_, t, h, p) := s.stamp who tag prio
  ⟨who, t, h, p, dst, write, addr, words, data, psn, woken⟩

/-- A requester gives its source NI a request. -/
def State.nocSubmit (s : State) (ni : Nat) (q : NocReq) : State := s.setWait ni (s.nocWait ni ++ [q])

/-- The status with which a source NI refuses a request itself (R319). -/
def State.localRefusal (s : State) (ni : Nat) (q : NocReq) : Option Status :=
  if 92 ≤ q.dst || !s.rteLive ni q.dst then some .unmapped
  else if q.addr % 4 != 0 || q.words == 0 || 64 < q.words || q.addr / 256 != (q.addr + 4 * q.words - 1) / 256 then some .denied
  else if !q.htw && (s.injEntry ni q.tag q.dst q.prio.toNat).isNone then some .denied
  else none

/-- Credit and response space (R326). -/
def State.creditOk (s : State) (ni : Nat) (q : NocReq) : Bool :=
  let out := s.nocOut ni
  decide ((out.filter (fun o => o.req.dst == q.dst && o.req.prio == q.prio)).length < s.rteCred ni q.dst)
    && decide (((out.filter (fun o => o.req.prio == q.prio && !o.dead)).map (fun o => respFlits o.req)).sum + respFlits q ≤ 288)
    && decide (out.length < 256)

/-- The flits of a request's worm. -/
def reqFlits (q : NocReq) : Nat := if q.write then 1 + dataFlits q.words else 1

/-- Whether a request's injection bucket lets it start (R328). -/
def State.bucketOk (s : State) (ni : Nat) (q : NocReq) : Bool :=
  q.htw || match s.injEntry ni q.tag q.dst q.prio.toNat with
    | some k => decide (((reqFlits q : Nat) : Int) ≤ s.nc.level.rd k 0)
        || s.nc.level.rd k 0 == ((s.actFld .ncInjB k 31 24 : Nat) : Int)
    | none => false

/-- The domain of a target node among those that can be off: a grove or a lane group (R336). -/
def domainOfNode (n : Nat) : Option Nat := if n < 80 then some n else none

/-- Whether a request is held for a wake (R337). -/
def State.heldForWake (s : State) (q : NocReq) : Bool :=
  match domainOfNode q.dst with
  | some d => s.wakes && !s.flag .pwDompwr (d / 32) (d % 32) && !q.woken
  | none => false

/-- The first free transaction identifier from a counter. -/
def freeTxid (used : List (BitVec 8)) (n : Nat) : BitVec 8 :=
  (firstSome (fun i => let x := BitVec.ofNat 8 (n + i); if used.contains x then none else some x) (List.range 256)).getD 0

/-- Send a request into the mesh (R311, R313, R326, R328, R331). -/
def State.nocSend (s : State) (ni : Nat) (q : NocReq) (sealed : Bool) : State :=
  let id := freeTxid ((s.nocOut ni).map (·.txid)) s.nc.nextId
  let h : Hdr := ⟨q.prio, BitVec.ofNat 7 ni, BitVec.ofNat 7 q.dst, s.nc.route.rd (rteKey ni q.dst) 0, q.tag, q.htw, sealed,
    if q.write then 1 else 0, id, BitVec.ofNat 6 (q.words - 1), BitVec.ofNat 24 q.addr, .ok⟩
  let s := if sealed then { s with nc := { s.nc with sealAt := s.nc.sealAt.wr ni 0 (s.fc + 1) } }
    else if q.htw then s
    else match s.injEntry ni q.tag q.dst q.prio.toNat with
      | some k => { s with nc := { s.nc with level := s.nc.level.wr k 0 (s.nc.level.rd k 0 - (reqFlits q : Nat)) } }
      | none => s
  let s := s.setOut ni (s.nocOut ni ++ [⟨id, q, none, sealed, false⟩])
  let s := { s with nc := { s.nc with nextId := (id.toNat + 1) % 256 } }
  s.inject false ni (wormOf (s.vcOf q.prio.toNat sealed) h (if q.write then flitData q.data else []) q.psn)

/-- Whether a requester's requests issue in the order it made them: a core's to device regions (R377) and a function's (R348). -/
def Requester.inOrder : Requester → Bool
  | .core _ | .pf0 | .vf _ => true
  | _ => false

/-- A function holds at most 16 requests outstanding (R348). -/
def State.underShare (s : State) (ni : Nat) (q : NocReq) : Bool :=
  match q.who with
  | .pf0 | .vf _ => decide (((s.nocOut ni).filter (fun o => o.req.who == q.who && !o.dead)).length < 16)
  | _ => true

/-- The sealed domain whose position this fc is at an NI, unless the position has had its worm (R251, R331). -/
def State.sealTurn (s : State) (ni : Nat) : Option Tag :=
  if s.nc.sealAt.rd ni 0 = s.fc + 1 then none else s.tn.wheelNi.rd (256 * ni + s.wheelPos 256) none

/-- Which waiting request may go now, as its place (R322, R327, R328, R331): in order within a target and priority, those of
heartwood's authority before the others, the sealed domain's of a reserved position before all. -/
def State.nextIssue (s : State) (ni : Nat) : Option (Nat × Bool) :=
  let w : List (NocReq × Nat) := (s.nocWait ni).zipIdx
  let first (q : NocReq) (i : Nat) : Bool :=
    !(w.any (fun (x, j) => decide (j < i) && ((x.dst == q.dst && x.prio == q.prio && x.htw == q.htw)
      || (x.who == q.who && q.who.inOrder))))
  let may (sealed : Bool) (x : NocReq × Nat) : Option (Nat × Bool) :=
    if !s.heldForWake x.1 && s.underShare ni x.1 && s.creditOk ni x.1 && (sealed || s.bucketOk ni x.1) then some (x.2, sealed) else none
  let reserved := match s.sealTurn ni with
    | some t => match w.filter (fun (x : NocReq × Nat) => x.1.tag == t && !x.1.htw) with
      | x :: _ => may true x
      | [] => none
    | none => none
  match reserved with
  | some r => some r
  | none => firstSome (may false) ((w.filter (fun (x : NocReq × Nat) => x.1.htw) ++ w.filter (fun (x : NocReq × Nat) => !x.1.htw)).filter
      (fun (x : NocReq × Nat) => first x.1 x.2))

/-! ## Routers (R316, R323-R325, R332, R333) -/

/-- Which output a head at router r takes: a link, the grove NI (4) or the edge NI (5) (R316). -/
def headOut (h : Hdr) : Nat := let c := routeCode h.route.toNat 0; if c < 4 then c else if h.dst.toNat < 64 then 4 else 5

/-- The head as a router sends it on: its route moved up by one code. -/
def Hdr.shifted (h : Hdr) : Hdr := { h with route := BitVec.ofNat 42 (h.route.toNat / 8 + 7 * 2 ^ 39) }

/-- Whether the buffer a flit moves to has room (R323). The NI always has: every request has its slot and every response its space (R326). -/
def State.roomFor (s : State) (resp : Bool) (r out : Nat) (f : Flit) : Bool :=
  if 4 ≤ out then true
  else match linkTo r out with
    | none => false
    | some r' => s.bufRoom (bufKey resp r' (entryOf out) f.vc) f

/-- The flits that ask for an output in this fc: input, VC, the flit, and how long it has waited. -/
def State.asking (s : State) (resp : Bool) (r out : Nat) : List (Nat × Nat × Flit × Nat) :=
  (List.range 6).flatMap (fun i => (List.range 4).filterMap (fun vc =>
    match s.nc.rbuf.rd (bufKey resp r i vc) [] with
    | [] => none
    | (t, f) :: _ =>
      let held := s.nc.hold.rd (4 * (8 * (64 * b2n resp + r) + out) + vc) none
      let mine := if f.head then headOut f.hdr == out && held.isNone else held == some i
      if t + (s.hop - 1) ≤ s.fc && mine && s.roomFor resp r out f then some (i, vc, f, s.fc - (t + (s.hop - 1))) else none))

/-- The rank of a flit at an output: SEAL on VC 3 above all, then its priority with aging (R325). -/
def State.flitRank (s : State) (f : Flit) (waited : Nat) : Nat :=
  let age := s.fld .ncMode 0 23 16
  if f.hdr.sealed && f.vc == 3 then 4 else if age != 0 && age * 16 ≤ waited then 3 else f.hdr.prio.toNat

/-- The flit an output forwards: the highest rank, then the round robin over inputs and VCs. -/
def State.chooseFlit (s : State) (resp : Bool) (r out : Nat) : Option (Nat × Nat × Flit) :=
  let c := s.asking resp r out
  let top := c.foldl (fun m x => max m (s.flitRank x.2.2.1 x.2.2.2)) 0
  let best := c.filter (fun x => s.flitRank x.2.2.1 x.2.2.2 == top)
  let last := s.nc.rr.rd (8 * (64 * b2n resp + r) + out) 0
  match best.filter (fun x => last < 4 * x.1 + x.2.1 + 1) ++ best with
  | (i, vc, f, _) :: _ => some (i, vc, f)
  | [] => none

/-- The node at a router's grove or edge port. -/
def nodeAt (r out : Nat) : Nat :=
  if out = 4 then r
  else (firstSome (fun n => if routerOf n = r then some n else none) ((List.range 28).map (· + 64))).getD 0

/-- Whether a flit's data is not to be trusted at its destination (R333): a router marked it, or a word has more than one wrong bit. -/
def Flit.spoiled (f : Flit) : Bool := f.psn || (List.range 4).any (fun i => decide (1 < (f.hits.filter (·.val == i)).length))

/-- A whole worm has arrived at an NI (R320, R333, R334). -/
def State.wormIn (s : State) (resp : Bool) (node : Nat) (fs : List Flit) : State :=
  match fs with
  | [] => s
  | f :: _ =>
    let data := fs.flatMap (fun x => if resp && x.spoiled then List.replicate 8 0 else x.data)
    let psn := fs.any Flit.spoiled
    if resp then
      { s with nc := { s.nc with arrived := s.nc.arrived.up node [] (· ++ [⟨f.hdr, data, psn, s.fc + 1⟩]) } }
    else
      { s with nc := { s.nc with tq := s.nc.tq.up node [] (· ++ [⟨f.hdr, data, psn, fs.any (·.abt), s.fc + 1⟩]) } }

/-- A flit leaves a router: to the next router's buffer, or to the NI, where a tail completes its worm. -/
def State.passFlit (s : State) (resp : Bool) (r out : Nat) (f : Flit) : State :=
  if 4 ≤ out then
    let node := nodeAt r out
    let k := 4 * (128 * b2n resp + node) + f.vc
    let fs := s.nc.ej.rd k [] ++ [f]
    if f.tail then ({ s with nc := { s.nc with ej := s.nc.ej.wr k [] [] } }).wormIn resp node fs
    else { s with nc := { s.nc with ej := s.nc.ej.wr k [] fs } }
  else match linkTo r out with
    | none => s
    | some r' => s.enterBuf (bufKey resp r' (entryOf out) f.vc) (s.fc + 1) f

/-- Drop the flits of a buffer up to its first tail; whether the tail was there. -/
def cutWorm : List (Nat × Flit) → List (Nat × Flit) × Bool
  | [] => ([], false)
  | (_, f) :: r => if f.tail then (r, true) else cutWorm r

/-- A data flit as a router sends it on (R333): a word it cannot correct marks the flit, or, end to end, errors go on as they are. -/
def State.struck (s : State) (f : Flit) (u : FlitUpset) : Flit :=
  if s.flag .ncMode 0 28 then { f with hits := f.hits ++ u.single ++ u.double ++ u.double }
  else { f with psn := f.psn || !u.double.isEmpty }

/-- One output of a router in one fc (R325, R332, R333). -/
def State.forward (s : State) (resp : Bool) (r out : Nat) (u : FlitUpset) : State :=
  let o := 8 * (64 * b2n resp + r) + out
  if s.nc.fwd.rd o 0 = s.fc + 1 then s
  else match s.chooseFlit resp r out with
    | none => s
    | some (i, vc, f) =>
      let k := bufKey resp r i vc
      let buf := s.nc.rbuf.rd k []
      let s := { s with nc := { s.nc with fwd := s.nc.fwd.wr o 0 (s.fc + 1), rr := s.nc.rr.wr o 0 (4 * i + vc + 1) } }
      if f.head && (!u.double.isEmpty || u.hpar) then
        let (rest, whole) := cutWorm buf
        { s with nc := { s.nc with rbuf := s.nc.rbuf.wr k [] rest, purge := s.nc.purge.wr k false (!whole), alarm := true } }
      else
        let s := { s with nc := { s.nc with
          rbuf := s.nc.rbuf.wr k [] (buf.drop 1)
          hold := s.nc.hold.wr (4 * o + vc) none (if f.tail then none else some i) } }
        let f := if f.head then { f with hdr := f.hdr.shifted } else s.struck f u
        { s.passFlit resp r out f with line := f.wire }

/-- FLIT_FORWARD (R325). -/
def execFlitForward (resp : Bool) (r : Fin 64) (out : Fin 6) (upset : FlitUpset) (s : State) : Res :=
  .next (s.forward resp r.val out.val upset)

/-! ## Responses (R313-R315) -/

/-- A target answers a request with one response (R313, R320); with no valid entry for the requester there is none (R315). -/
def State.respond (s : State) (node : Nat) (q : TReq) (st : Status) (data : List Word) : State :=
  let dest := q.hdr.src.toNat
  let rd := q.hdr.op.toNat == 0
  let h : Hdr := { q.hdr with
    src := BitVec.ofNat 7 node
    dst := q.hdr.src
    route := s.nc.route.rd (rteKey node dest) 0
    op := if rd then 2 else 3
    addr := 0
    status := st }
  let ds := if rd && (st == .ok || st == .poison) then flitData data else []
  s.inject true node (wormOf (s.vcOf q.hdr.prio.toNat q.hdr.sealed) h ds false)

/-! ## Requesters reset (R338) -/

/-- What is left at an NI of a request that is cut (R338): nothing of one whose head still waits there; of a WRITE whose head is injected,
a TAIL with ABT 1 in place of the rest. Also whether the head still waited. -/
def cutInjection (id : BitVec 8) (b : List Flit) : List Flit × Bool :=
  let mine (f : Flit) : Bool := f.hdr.txid == id
  let waited := b.any (fun f => mine f && f.head)
  let r := b.foldl (fun (x : List Flit × Bool) f =>
    if !mine f then (x.1 ++ [f], x.2)
    else if waited || x.2 then x
    else (x.1 ++ [{ f with tail := true, abt := true, data := [], hits := [] }], true)) ([], false)
  (r.1, waited)

/-- A requester is reset (R338): its waiting requests go unsent, those whose heads are not injected among them; its outstanding ones
release their space and their responses will be absorbed, and a worm being injected is aborted. -/
def State.resetRequester (s : State) (ni : Nat) (who : NocReq → Bool) : State :=
  let s := s.setWait ni ((s.nocWait ni).filter (fun q => !who q))
  forEach ((s.nocOut ni).filter (fun o => who o.req && !o.dead)) s (fun o s =>
    let k := niKey false ni (s.vcOf o.req.prio.toNat o.sealed)
    let (b, waited) := cutInjection o.txid (s.nc.niq.rd k [])
    let s := { s with nc := { s.nc with niq := s.nc.niq.wr k [] b } }
    s.setOut ni (if waited then (s.nocOut ni).filter (fun x => x.txid != o.txid)
      else (s.nocOut ni).map (fun x => if x.txid == o.txid then { x with dead := true } else x)))

/-- NOC_MODE_SWITCH (R442): with no transaction in flight the new mode stands in every router. -/
def execNocModeSwitch (s : State) : Res :=
  .next (match s.nc.newMode with
  | none => s
  | some w =>
    if s.nc.rbuf.isEmpty && s.nc.ej.isEmpty && s.nc.tq.isEmpty && s.nc.svc.isEmpty && s.nc.niq.isEmpty
        && s.nc.arrived.isEmpty
        && s.nc.outst.all (fun e => e.2.all (·.dead)) then
      { s.setReg .ncMode 0 w with nc := { s.nc with newMode := none } }
    else s)

end Machine
end Sys2Proof
end

