-- ==== Sys2Proof/Machine/Host.lean ====
section
/-! DEFINITION. The host interface but its DMA (R346-R360, R370-R375): the registers of PF0 and the virtual functions, mailboxes,
doorbells, event queues, graft submission, and the resets of functions. -/

namespace Sys2Proof.Machine

/-! ## The endpoint's identity (R346) -/

/-- The words of a function's configuration space that R346 fixes: vendor and device, then class code and revision. -/
def pciIdentity (f : HostFn) : Word × Word :=
  (match f with
    | .pf0 => 0x5128B3A0
    | .vf _ => 0x5129B3A0, 0x02800000)

/-- SR-IOV's TotalVFs, InitialVFs, First VF Offset and VF Stride (R346). -/
def sriovCounts : List Nat := [512, 512, 1, 1]

/-- Bytes of PF0's BAR0 and BAR2 and of a VF's BAR0 (R346), and non-posted requests that may be outstanding. -/
def barBytes : List Nat := [64 * 2 ^ 20, 2 ^ 20, 16 * 2 ^ 10]
def nonPostedMax : Nat := 256

/-! ## Status of a function's accesses (R347) -/

/-- An access of a function has completed: a status other than OK is counted and kept. -/
def State.hostDone (s : State) (f : HostFn) (st : Status) : State :=
  if st = .ok then s
  else match f with
    | .pf0 => (s.count .hiPfstat 0 31 16 1).setFld .hiPfstat 0 3 0 st.code
    | .vf v => (s.count .hiVstat v.val 31 16 1).setFld .hiVstat v.val 3 0 st.code

/-! ## Queue pairs -/

def dmaZero : DmaSt := ⟨true, .idle, none, 0, [], false, 0⟩
def State.dma (s : State) (k : Nat) : DmaSt := s.hi.dma.rd k dmaZero
def State.setDma (s : State) (k : Nat) (d : DmaSt) : State := { s with hi := { s.hi with dma := s.hi.dma.wr k dmaZero d } }

/-- Whether a queue pair has a descriptor in progress. -/
def State.dmaBusy (s : State) (k : Nat) : Bool := (s.dma k).st != .idle

/-! ## Event queues (R358-R360) -/

/-- A record arrives at a VF's error queue. At a full one it is discarded when the fc ends, unless a removal of this fc makes room for it. -/
def State.vfErr (s : State) (v : Nat) (r : BitVec 64) : State :=
  let q := s.hi.verr.rd v []
  if 64 ≤ q.length then { s with hi := { s.hi with vlate := s.hi.vlate.up v [] (· ++ [[r]]) } }
  else
    let s := { s with hi := { s.hi with verr := s.hi.verr.wr v [] (q ++ [r]) } }
    if q.isEmpty && s.flag .hiVevcfg v 31 then s.signalVec (v + 1) (s.fld .hiVevcfg v 30 28) else s

/-- A queue of 64 after what came late is tried in order, and what still finds no room; the records of one report enter together (R561). -/
def admitLate (q : List (BitVec 64)) : List (List (BitVec 64)) → List (BitVec 64) × List (List (BitVec 64))
  | [] => (q, [])
  | x :: rest =>
    if q.length + x.length ≤ 64 then admitLate (q ++ x) rest
    else ((admitLate q rest).1, x :: (admitLate q rest).2)

/-- A removal makes room for what found none in this fc (R358, R561). -/
def State.vfErrTake (s : State) (v : Nat) : State :=
  let a := admitLate ((s.hi.verr.rd v []).drop 1) (s.hi.vlate.rd v [])
  { s with hi := { s.hi with verr := s.hi.verr.wr v [] a.1, vlate := s.hi.vlate.wr v [] a.2 } }

/-- The fc ends: records that found no room are discarded and counted (R358). -/
def State.vfErrDrop (s : State) : State :=
  let s' := forEach s.hi.vlate s (fun e s => s.count .hiVerrcnt e.1 23 16 (e.2.map List.length).sum)
  { s' with hi := { s'.hi with vlate := [] } }

/-- A VF's own registers as read (R356, R375). -/
def State.readVf (s : State) (n : RegName) (i : Nat) : Word :=
  match n with
  | .hiVid => match s.boundTag i with
    | some t => BitVec.ofNat 32 (2 ^ 31 + t.toNat)
    | none => 0x3FF
  | .hiVerrcnt => BitVec.ofNat 32 (s.fld .hiVerrcnt i 31 24 * 2 ^ 24
      + min 255 (s.fld .hiVerrcnt i 23 16 + ((s.hi.vlate.rd i []).map List.length).sum) * 65536 + (s.hi.vfev.rd i []).length * 256 + (s.hi.verr.rd i []).length)
  | .hiVerrl => match s.hi.verr.rd i [] with
    | r :: _ => r.setWidth 32
    | [] => 0
  | .hiVerrh => match s.hi.verr.rd i [] with
    | r :: _ => (r >>> 32).setWidth 32
    | [] => 0
  | .hiVfev => match s.hi.vfev.rd i [] with
    | e :: _ => BitVec.ofNat 32 (2 ^ 31 + e.toNat)
    | [] => 0
  | .hiQstat => BitVec.ofNat 32 (b2n (s.dmaBusy i || s.flag .hiQcfg i 31) * 2 ^ 31 + s.fld .hiQstat i 30 0)
  | _ => s.reg n i

/-- What reading a register of the host interface removes (R358, R359). -/
def State.readTakes (s : State) (n : RegName) (i : Nat) : State :=
  match n with
  | .hiVerrh => if (s.hi.verr.rd i []).isEmpty then s else s.vfErrTake i
  | .hiVfev => { s with hi := { s.hi with vfev := s.hi.vfev.up i [] (·.drop 1) } }
  | _ => s

/-- VF_ERROR_READ (R358): VF v's host reads HI_VERRH. An unbound VF reads zero (R356). -/
def execVfErrorRead (v : Fin 512) (s : State) : Res :=
  .next (if (s.boundTag v.val).isNone then s.ans .ok [0]
    else ((s.readTakes .hiVerrh v.val)).ans .ok [s.readVf .hiVerrh v.val])

/-- VF_FIFO_EVENT_READ (R359): VF v's host reads HI_VFEV. -/
def execVfFifoEventRead (v : Fin 512) (s : State) : Res :=
  .next (if (s.boundTag v.val).isNone then s.ans .ok [0]
    else ((s.readTakes .hiVfev v.val)).ans .ok [s.readVf .hiVfev v.val])

/-! ## MSI-X (R346, R360) -/

/-- A write of an MSI-X table dword; unmasking a vector sends what is pending. -/
def State.writeMsix (s : State) (p : Party) (i : Nat) (w : Word) : State :=
  let fn := i / 64
  let v := i % 64 / 4
  let s := s.plainWrite p .hiMsix i w
  if i % 4 = 3 && !s.flag .hiMsix i 0 && s.flag .hiPba fn v then (s.setBit .hiPba fn v false).signalVec fn v else s

/-! ## Mailboxes and doorbells (R353, R355) -/

/-- Whether a mailbox write comes from the side that may make it and finds the direction's FULL bit 0. -/
def State.mailOk (s : State) (p : Party) (n : Nat) (h2c : Bool) : Bool :=
  !s.flag .hiMbst n (b2n h2c) && match p with
    | .pf0 => h2c
    | .core _ => !h2c
    | _ => false

/-- A write of a mailbox word or doorbell. -/
def State.writeMail (s : State) (p : Party) (n : RegName) (i : Nat) (w : Word) : State :=
  let j := s.judgeW p n i (fun _ _ => true) w
  if j.byWriter then s.deniedAlarm 0
  else match n with
    | .hiH2cd => if s.mailOk p (i / 16) true then s.land n i j else s.ans .denied []
    | .hiC2hd => if s.mailOk p (i / 16) false then s.land n i j else s.ans .denied []
    | .hiH2cdb => if s.mailOk p i true then (((s.setBit .hiMbst i 1 true).assertSrc (736 + i))).ans .ok [] else s.ans .denied []
    | .hiC2hdb => if s.mailOk p i false then (((s.setBit .hiMbst i 0 true).signalVec 0 i)).ans .ok [] else s.ans .denied []
    | _ => s

/-- A write that the host makes through PF0 has its refusal kept (R347). -/
def State.pfDone (s : State) (p : Party) : State := if p = .pf0 then s.hostDone .pf0 s.answer.status else s

/-- H2C_DOORBELL (R353): any value rings. -/
def execH2cDoorbell (p : Party) (n : Fin 8) (s : State) : Res := .next ((s.writeMail p .hiH2cdb n.val 1).pfDone p)

/-- C2H_DOORBELL (R353). -/
def execC2hDoorbell (p : Party) (n : Fin 8) (s : State) : Res := .next ((s.writeMail p .hiC2hdb n.val 1).pfDone p)

/-! ## Graft submission (R370, R371) -/

def State.gState (s : State) (v : Nat) : Nat := s.fld .hiGstat v 31 30

/-- A submission reaches STATE done (R360, R371): its space is released and GVEC signalled. -/
def State.graftDone (s : State) (v st reason : Nat) : State :=
  let s := s.setReg .hiGstat v (BitVec.ofNat 32 (3 * 2 ^ 30 + reason % 256 * 2 ^ 16 + st * 2 ^ 12))
  let s := { s with hi := { s.hi with gstage := s.hi.gstage.wr v [] [], glen := s.hi.glen.wr v 0 0 } }
  if s.flag .hiVevcfg v 23 && (s.boundTag v).isSome then s.signalVec (v + 1) (s.fld .hiVevcfg v 22 20) else s

/-- A submission's space is released, and the VF stands at idle (R371). -/
def State.graftIdle (s : State) (v : Nat) : State :=
  { s.setReg .hiGstat v 0 with hi := { s.hi with gstage := s.hi.gstage.wr v [] [], glen := s.hi.glen.wr v 0 0 } }

/-- Words of the staging buffer that submissions hold, of 524,288. -/
def State.gHeld (s : State) : Nat := (s.hi.glen.map (·.2)).sum

/-- A write of HI_GCTL (R371): one action, or LENW alone. -/
def State.writeGctl (s : State) (p : Party) (v : Nat) (w : Word) : State :=
  let j := s.judgeW p .hiGctl v (fun _ _ => true) w
  let len := bits w.toNat 19 0
  let st := s.gState v
  match bits w.toNat 31 29 with
  | 0 => s.land .hiGctl v j
  | 4 => -- OPEN
    if !(st == 0 || st == 3) || len == 0 || 262144 < len then s.ans .denied []
    else
      let s := s.land .hiGctl v j
      if 524288 < s.gHeld + len then s.graftDone v Status.nobuf.code 0
      else
        let s := (s.setReg .hiGstat v (BitVec.ofNat 32 (2 ^ 30))).setReg .hiGrcv v 0
        { s with hi := { s.hi with gstage := s.hi.gstage.wr v [] [], glen := s.hi.glen.wr v 0 len, gtime := s.hi.gtime.wr v 0 s.fc } }
  | 2 => -- COMMIT
    if st != 1 || s.fld .hiGrcv v 19 0 != s.hi.glen.rd v 0 then s.ans .denied []
    else
      let s := (s.land .hiGctl v j).setReg .hiGstat v (BitVec.ofNat 32 (2 * 2 ^ 30))
      -- a halted heartwood completes it at once (R414)
      if s.flag .htStat 0 31 then s.graftDone v Status.fenced.code 0
      else s.queueCall (.graft ⟨v % 512, Nat.mod_lt _ (by decide)⟩)
  | 1 => if st != 1 then s.ans .denied [] else (s.land .hiGctl v j).graftIdle v
  | _ => s.ans .denied []

/-- A write to the graft data port (R371). -/
def State.writeGdata (s : State) (v : Nat) (ws : List Word) : State :=
  let n := s.fld .hiGrcv v 19 0 + ws.length
  if s.gState v != 1 || s.hi.glen.rd v 0 < n then s.ans .denied []
  else
    let s := (s.setReg .hiGrcv v (BitVec.ofNat 32 n)).ans .ok []
    { s with hi := { s.hi with gstage := s.hi.gstage.up v [] (· ++ ws), gtime := s.hi.gtime.wr v 0 s.fc } }

/-! ## Writes of VF registers (R355, R356, R361, R367, R375) -/

/-- A write of HI_QCFGq (R367). -/
def State.writeQcfgDma (s : State) (p : Party) (k : Nat) (w : Word) : State :=
  let on := s.flag .hiQcfg k 31
  let logOk (x : Nat) : Bool := decide (4 ≤ x) && decide (x ≤ 12)
  if (on && bits w.toNat 30 17 != s.fld .hiQcfg k 30 17)
      || (bit w.toNat 31 && !(logOk (bits w.toNat 28 25) && logOk (bits w.toNat 24 21))) then s.ans .denied []
  else
    let s := s.plainWrite p .hiQcfg k w
    if !on && s.flag .hiQcfg k 31 then
      let s := (((s.setReg .hiQstat k 0).setReg .hiQsqt k 0).setReg .hiQcqh k 0)
      s.setDma k { s.dma k with phase := true, entryOff := s.dmaBusy k }
    else s

/-- A write of a submission tail or completion head (R375). -/
def State.writeRingPtr (s : State) (p : Party) (n : RegName) (k : Nat) (w : Word) : State :=
  let log := if n = .hiQsqt then s.fld .hiQcfg k 28 25 else s.fld .hiQcfg k 24 21
  s.land n k (s.judgeW p n k (fun _ x => decide (x < 2 ^ log)) w)

/-- A write of a register of VF v by the tenant it is bound to. -/
def State.writeVf (s : State) (p : Party) (n : RegName) (i : Nat) (w : Word) : State :=
  match n with
  | .hiVopdb =>
    let s := s.plainWrite p .hiVopdb i w
    match s.boundTag i with
    | some t => (s.setReg .hiOpdb t.toNat w).assertSrc (1024 + t.toNat)
    | none => s
  | .hiQcfg => s.writeQcfgDma p i w
  | .hiQsqt | .hiQcqh => s.writeRingPtr p n i w
  | .hiGctl => s.writeGctl p i w
  | .hiMsix => s.writeMsix p i w
  | _ => s.plainWrite p n i w

/-- VF v's host has made an access: a refusal is kept in HI_VSTAT (R347). -/
def State.vfDone (s : State) (v : Fin 512) : State := s.hostDone (.vf v) s.answer.status

/-- What VF v's host writes: judged as its tenant, discarded while the VF is unbound (R356); a refusal is kept (R347). -/
def State.vfWrite (s : State) (v : Fin 512) (n : RegName) (i : Nat) (w : Word) : State :=
  match s.boundTag v.val with
  | none => s.ans .ok []
  | some t => (s.writeVf (.tenant ⟨t.toNat % 512, Nat.mod_lt _ (by decide)⟩) n i w).vfDone v

/-- VOPDB_DOORBELL (R355). -/
def execVopdbDoorbell (v : Fin 512) (w : Word) (s : State) : Res := .next (s.vfWrite v .hiVopdb v.val w)

/-- SUBMISSION_TAIL (R361). -/
def execSubmissionTail (v : Fin 512) (q : Fin 8) (w : Word) (s : State) : Res :=
  .next (s.vfWrite v .hiQsqt (8 * v.val + q.val) w)

/-- QUEUE_PAIR_ENABLE (R367): the write with EN 1. -/
def execQueuePairEnable (v : Fin 512) (q : Fin 8) (w : Word) (s : State) : Res :=
  .next (s.vfWrite v .hiQcfg (8 * v.val + q.val) (w ||| 0x80000000))

/-- QUEUE_PAIR_DISABLE (R367): the write with EN 0. -/
def execQueuePairDisable (v : Fin 512) (q : Fin 8) (w : Word) (s : State) : Res :=
  .next (s.vfWrite v .hiQcfg (8 * v.val + q.val) (w &&& 0x7FFFFFFF))

/-- OPEN (R371): a write of HI_GCTL with OPEN; `w` gives LENW. -/
def execGraftOpen (v : Fin 512) (w : Word) (s : State) : Res :=
  .next (s.vfWrite v .hiGctl v.val (0x80000000 ||| (w &&& 0xFFFFF)))

/-- GRAFT_DATA_WRITE (R371). -/
def execGraftDataWrite (v : Fin 512) (ws : List Word) (s : State) : Res :=
  .next (if (s.boundTag v.val).isNone then s.ans .ok [] else (s.writeGdata v.val ws).vfDone v)

/-- COMMIT (R371). -/
def execGraftCommitWrite (v : Fin 512) (w : Word) (s : State) : Res :=
  .next (s.vfWrite v .hiGctl v.val (0x40000000 ||| (w &&& 0xFFFFF)))

/-- CANCEL (R371). -/
def execGraftCancel (v : Fin 512) (w : Word) (s : State) : Res :=
  .next (s.vfWrite v .hiGctl v.val (0x20000000 ||| (w &&& 0xFFFFF)))

/-- GRAFT_SUBMISSION_TIMEOUT (R371): 100 ms are 160,000,000 fc. -/
def execGraftSubmissionTimeout (v : Fin 512) (s : State) : Res :=
  .next (if s.gState v.val = 1 && decide (s.hi.gtime.rd v.val 0 + 160000000 ≤ s.fc) then s.graftDone v.val Status.timeout.code 0 else s)

/-- Whether another configuration port's session is open (R454). -/
def State.bar2Shut (s : State) : Bool :=
  match s.cf.sess with
  | some x => x.port != .bar2
  | none => false

/-- CONFIG_STREAM_WRITE (R352, R454). -/
def State.bar2Write (s : State) (len : Nat) (ws : List Word) : State :=
  if len % 4 != 0 || len != 4 * ws.length || s.bar2Shut then (s.hostDone .pf0 .denied).ans .denied []
  else ({ s with hi := { s.hi with bar2 := s.hi.bar2 ++ ws } }).ans .ok []

def execConfigStreamWrite (len : Nat) (ws : List Word) (s : State) : Res := .next (s.bar2Write len ws)

/-! ## The local registers (R350, R357) -/

/-- Whether a party reaches a register of the host interface: PF0's for heartwood and the operator (R374), a VF's for the tenant it
is bound to (R375). -/
def State.hiReach (s : State) (p : Party) (n : RegName) (i : Nat) : Bool :=
  let vf (v : Nat) : Bool := match p with
    | .tenant t => s.boundTag v == some (BitVec.ofNat 10 t.val)
    | _ => false
  let pf : Bool := match p with
    | .tenant _ => false
    | _ => true
  match n with
  | .hiPfcfg | .hiPfstat | .hiPfevt | .hiH2cd | .hiC2hd | .hiH2cdb | .hiC2hdb | .hiMbst | .hiOpdb => pf
  | .hiMsix => if i < 64 then pf else vf (i / 64 - 1)
  | .hiPba => if i = 0 then pf else vf (i - 1)
  | .hiQsqbl | .hiQsqbh | .hiQcqbl | .hiQcqbh | .hiQcfg | .hiQsqt | .hiQcqh | .hiQstat => vf (i / 8)
  | _ => vf i

/-- A write of a register of the host interface. -/
def State.writeHi (s : State) (p : Party) (n : RegName) (i : Nat) (w : Word) : State :=
  if !s.hiReach p n i then s.ans .unmapped []
  else match n with
    | .hiH2cd | .hiC2hd | .hiH2cdb | .hiC2hdb => s.writeMail p n i w
    | .hiPfcfg | .hiPfstat | .hiPfevt | .hiMbst | .hiOpdb => s.plainWrite p n i w
    | _ => s.writeVf p n i w

/-- Where PF0 BAR0's local regions, and node 87's window, keep a register (R350, R374). -/
def pfReg (off : Nat) : Option RegId :=
  if off = 0 then some ⟨.hiPfcfg, 0⟩
  else if off = 4 then some ⟨.hiPfstat, 0⟩
  else if off = 8 then some ⟨.hiPfevt, 0⟩
  else if 0x1000 ≤ off && off < 0x1100 then some ⟨.hiMsix, (off - 0x1000) / 4⟩
  else if off = 0x1800 then some ⟨.hiPba, 0⟩
  else if 0x20000 ≤ off && off < 0x20800 then
    let n := (off - 0x20000) / 256
    let r := off % 256
    if r < 0x40 then some ⟨.hiH2cd, 16 * n + r / 4⟩
    else if r = 0x40 then some ⟨.hiH2cdb, n⟩
    else if 0x80 ≤ r && r < 0xC0 then some ⟨.hiC2hd, 16 * n + (r - 0x80) / 4⟩
    else if r = 0xC0 then some ⟨.hiC2hdb, n⟩
    else if r = 0xC4 then some ⟨.hiMbst, n⟩
    else none
  else if 0x40000 ≤ off && off < 0x40800 then some ⟨.hiOpdb, (off - 0x40000) / 4⟩
  else none

/-- Where VF v's BAR0 keeps its local registers (R357, R375). -/
def vfReg (v off : Nat) : Option RegId :=
  if off < 0x20 then some ⟨[RegName.hiVid, .hiVstat, .hiVopdb, .hiVevcfg, .hiVerrcnt, .hiVerrl, .hiVerrh, .hiVfev].getD (off / 4) .hiVid, v⟩
  else if 0x100 ≤ off && off < 0x200 then
    some ⟨[RegName.hiQsqbl, .hiQsqbh, .hiQcqbl, .hiQcqbh, .hiQcfg, .hiQsqt, .hiQcqh, .hiQstat].getD (off % 32 / 4) .hiQsqbl,
      8 * v + (off - 0x100) / 32⟩
  else if 0x400 ≤ off && off < 0x40C then some ⟨[RegName.hiGctl, .hiGstat, .hiGrcv].getD ((off - 0x400) / 4) .hiGctl, v⟩
  else if 0x1000 ≤ off && off < 0x1080 then some ⟨.hiMsix, 64 * (v + 1) + (off - 0x1000) / 4⟩
  else if off = 0x1800 then some ⟨.hiPba, v + 1⟩
  else if off = 0x2500 then some ⟨.hiVbsel, v⟩
  else if off = 0x2600 then some ⟨.hiVhsel, v⟩
  else none

/-- Where VF v's BAR0 forwards an offset: node and offset there (R357, R572). -/
def State.vfForward (s : State) (v : Nat) (t : Tag) (off : Nat) : Option (Nat × Nat) :=
  let r := off % 32
  if 0x2000 ≤ off && off < 0x2400 && r < 0x18 then some (89, 0x100000 + (32 * t.toNat + (off - 0x2000) / 32) * 32 + r)
  else if 0x2400 ≤ off && off < 0x2414 then some (88, 0x10000 + t.toNat * 32 + (off - 0x2400))
  else if 0x2520 ≤ off && off < 0x253C then some (89, 0x200000 + s.fld .hiVbsel v 10 0 * 32 + (off - 0x2520))
  else if 0x2680 ≤ off && off < 0x2700 then some (89, 0x400000 + s.fld .hiVhsel v 5 0 * 128 + (off - 0x2680))
  else if 0x3000 ≤ off && off < 0x3030 then some (84, 0x880000 + t.toNat * 256 + (off - 0x3000))
  else none

/-- The words of an access one by one: each answers for itself, and the access completes with the first status that is not OK. -/
def State.eachWord (s : State) (f : Nat → Word → State → State) (addr : Nat) (ws : List Word) : State :=
  let r := ws.zipIdx.foldl (fun (x : Status × List Word × State) (w, k) =>
    let s := f (addr + 4 * k) w x.2.2
    (if x.1 = .ok then s.answer.status else x.1, x.2.1 ++ s.answer.data, s)) (Status.ok, [], s)
  r.2.2.ans r.1 r.2.1

/-- One word of an access to a local register of the host interface, given where it lies. -/
def State.hiWord (s : State) (p : Party) (write : Bool) (r : Option RegId) (w : Word) : State :=
  match r with
  | none => s.ans .unmapped (if write then [] else [0])
  | some r =>
    if write then s.writeHi p r.name r.idx w
    else if !s.hiReach p r.name r.idx then s.ans .unmapped [0]
    else
      let v := if r.name = .hiH2cdb || r.name = .hiC2hdb || r.name = .hiGctl then
          (if r.name = .hiGctl then s.reg .hiGctl r.idx &&& 0xFFFFF else 0) else s.readVf r.name r.idx
      (s.readTakes r.name r.idx).ans .ok [v]

/-- The words an access moves: those written, or a zero for each read. -/
def accWords (a : Access) : List Word := if a.write then a.data.take (a.len / 4) else List.replicate (a.len / 4) 0

/-- Whether an access to registers is a whole number of aligned words. -/
def accWhole (a : Access) : Bool := a.len % 4 == 0 && a.addr % 4 == 0 && a.len != 0 && (!a.write || a.data.length == a.len / 4)

/-- A request that an access becomes (R348). -/
def State.accReq (s : State) (a : Access) (who : Requester) (tag : Tag) (prio dst addr : Nat) : NocReq :=
  s.reqOf who tag prio dst a.write addr (if a.len % 4 = 0 then a.len / 4 else 0) a.data false false

/-- Where PF0 BAR0 forwards an offset: node and offset there (R350, R351, R574). -/
def State.pfForward (s : State) (off : Nat) : Option (Nat × Nat) :=
  if 0x1000000 ≤ off && off < 0x1100000 then some (85, off - 0x1000000)
  else if 0x2000000 ≤ off && off < 0x2100000 then some (84, 0x800000 + (off - 0x2000000))
  else if 0x3000000 ≤ off && off < 0x4000000 then some (s.fld .hiPfcfg 0 31 25, off - 0x3000000)
  else none

/-- HOST_BAR_ACCESS (R347-R351, R356, R357, R468). For PF0, offsets below 64 MB lie in BAR0 and the 1 MB above them is BAR2 (R352). -/
def State.hostAccess (s : State) (f : HostFn) (a : Access) : State :=
  let local' (p : Party) (place : Nat → Option RegId) (s : State) : State :=
    if !accWhole a then
      s.ans (if (place (a.addr / 4 * 4)).isNone then .unmapped else .denied) (List.replicate (if a.write then 0 else (a.len + 3) / 4) 0)
    else s.eachWord (fun off w s => s.hiWord p a.write (place off) w) a.addr (accWords a)
  match f with
  | .pf0 =>
    if 0x4000000 ≤ a.addr then
      if a.write then s.bar2Write a.len a.data
      else
        let n := a.len / 4
        let st : Status := if n ≤ s.cf.reply.length then .ok else .denied
        let s' := { s with cf := { s.cf with reply := s.cf.reply.drop n } }
        (s'.hostDone .pf0 st).ans st (s.cf.reply.take n ++ List.replicate (n - s.cf.reply.length) 0)
    else match s.pfForward a.addr with
      | some (dst, off) => s.nocSubmit 87 (s.accReq a .pf0 opTag (s.fld .hiPfcfg 0 1 0) dst off)
      | none =>
        let s := local' .pf0 pfReg s
        s.hostDone .pf0 s.answer.status
  | .vf v =>
    match s.boundTag v.val with
    | none => s.ans .ok (if a.write then [] else
        (List.range (a.len / 4)).map (fun i => if a.addr + 4 * i = 0 then s.readVf .hiVid v.val else 0))
    | some t =>
      if 0x800 ≤ a.addr && a.addr < 0x1000 && a.write then
        let s := if accWhole a then s.writeGdata v.val a.data else s.ans .denied []
        s.hostDone (.vf v) s.answer.status
      else match s.vfForward v.val t a.addr with
        | some (dst, off) => s.nocSubmit 87 (s.accReq a (.vf v) t 0 dst off)
        | none =>
          let s := local' (.tenant ⟨t.toNat % 512, Nat.mod_lt _ (by decide)⟩) (vfReg v.val) s
          s.hostDone (.vf v) s.answer.status

def execHostBarAccess (f : HostFn) (a : Access) (s : State) : Res := .next (s.hostAccess f a)

/-! ## Resets of functions (R372, R373) -/

/-- The registers a VF has one of, and those it has eight of. -/
def vfRegs : List RegName := [.hiVstat, .hiVopdb, .hiVevcfg, .hiVerrcnt, .hiGctl, .hiGrcv, .hiVbsel, .hiVhsel]
def vfQregs : List RegName := [.hiQsqbl, .hiQsqbh, .hiQcqbl, .hiQcqbh, .hiQcfg, .hiQsqt, .hiQcqh, .hiQstat]

/-- Whether a request belongs to VF v. -/
def ofVf (v : Nat) (q : NocReq) : Bool :=
  match q.who with
  | .vf x => x.val == v
  | .dma x _ => x.val == v
  | _ => false

/-- A Function Level Reset of VF v (R372). -/
def State.vfReset (v : Nat) (s : State) : State :=
  let s := s.resetRequester 87 (ofVf v)
  let s := { s with hi := { s.hi with
    dma := s.hi.dma.clr (8 * v) (8 * v + 8), verr := s.hi.verr.wr v [] [], vfev := s.hi.vfev.wr v [] [] } }
  let s := if s.gState v = 1 then s.graftIdle v else if s.gState v = 3 then s.setReg .hiGstat v 0 else s
  let s := forEach vfRegs s (fun n s => s.resetReg n v)
  let s := forEach vfQregs s (fun n s => forEach (List.range 8) s (fun q s => s.resetReg n (8 * v + q)))
  let s := forEach (List.range 32) s (fun k s => s.resetReg .hiMsix (64 * (v + 1) + k))
  s.resetReg .hiPba (v + 1)

/-- VF_FUNCTION_LEVEL_RESET (R372). -/
def execVfFunctionLevelReset (v : Fin 512) (s : State) : Res := .next (s.vfReset v.val)

/-- PF0 and every VF reset (R373). -/
def State.pf0Reset (s : State) : State :=
  let s := forEach (List.range 512) s State.vfReset
  let s := s.resetRequester 87 (fun q => q.who == .pf0)
  let s := s.resetRegs [.hiPfcfg, .hiPfstat, .hiPfevt, .hiH2cd, .hiC2hd, .hiMbst, .hiOpdb]
  let s := forEach (List.range 64) s (fun k s => s.resetReg .hiMsix k)
  let s := s.resetReg .hiPba 0
  { s with hi := { s.hi with bar2 := [] } }

/-- PF0_RESET (R373): a Function Level Reset of PF0, a hot reset or a link-down reset. -/
def execPf0Reset (s : State) : Res := .next s.pf0Reset

end Sys2Proof.Machine
end

