-- ==== Sys2Proof/Machine/Dispatcher.lean ====
section
/-! DEFINITION. The hardware dispatcher (R381-R405, R408-R410): threads and their order, the passes, commands, semaphores, event
groups, event sources, the tick, and its faults. -/

namespace Sys2Proof.Machine

/-! ## Threads (R381, R382) -/

def thrZero : Thread := ⟨.free, 0, 0, 0, 0, 0, 0, false, 0, 0, false, 0, 0, 0, false, false, 0, 0, 0⟩
def coreZero : CoreSt := ⟨false, none, false, 0, 0, 0⟩

def State.thr (s : State) (i : Nat) : Thread := s.dp.thr.rd i thrZero
def State.setThr (s : State) (i : Nat) (t : Thread) : State := { s with dp := { s.dp with thr := s.dp.thr.wr i thrZero t } }
def State.coreSt (s : State) (n : Nat) : CoreSt := s.dp.cores.rd n coreZero
def State.setCore (s : State) (n : Nat) (c : CoreSt) : State :=
  { s with dp := { s.dp with cores := s.dp.cores.wr n coreZero c } }
def State.frozen (s : State) : Bool := s.flag .dpCtl 0 30
def State.tnow (s : State) : Word := s.reg .dpTnow 0

/-- A trace record (R401); the oldest of 4,096 is overwritten and counted. -/
def State.traceRec (s : State) (kind core thread detail : Nat) : State :=
  let r : BitVec 64 := BitVec.ofNat 64 (s.fc % 2 ^ 32 * 2 ^ 32 + kind * 2 ^ 29 + core * 2 ^ 26 + thread * 2 ^ 16 + detail % 65536)
  if 4096 ≤ s.dp.trace.length then
    { s.count .dpTrstat 0 31 16 1 with dp := { (s.count .dpTrstat 0 31 16 1).dp with trace := s.dp.trace.drop 1 ++ [r] } }
  else { s with dp := { s.dp with trace := s.dp.trace ++ [r] } }

/-- How long ago a thread entered its list, by the sequence counter (R382): the greater, the older. -/
def State.age (s : State) (t : Thread) : Nat := (s.dp.seqc - t.seq).toNat

/-- Put an element into a list ordered by a test. -/
def putBy {α : Type} (before : α → α → Bool) (x : α) : List α → List α
  | [] => [x]
  | y :: r => if before y x then y :: putBy before x r else x :: y :: r

/-- Threads by PRIO and then SEQ (R382, R387, R392). -/
def State.byPrio (s : State) (l : List (Nat × Thread)) : List (Nat × Thread) :=
  l.foldr (putBy (fun a b => a.2.prio.toNat < b.2.prio.toNat || (a.2.prio == b.2.prio && s.age b.2 < s.age a.2))) []

/-- The READY threads in order of PRIO and SEQ. -/
def State.readyList (s : State) : List (Nat × Thread) := s.byPrio (s.dp.thr.filter (fun e => e.2.st == .ready))

/-- The waiters of a semaphore or group in queue order (R392, R393). -/
def State.waiters (s : State) (st : ThState) (obj : Nat) : List (Nat × Thread) :=
  s.byPrio (s.dp.thr.filter (fun e => e.2.st == st && e.2.obj.toNat == obj))

/-- The next sequence number (R382). -/
def State.nextSeq (s : State) : Word × State :=
  (s.dp.seqc + 1, { s with dp := { s.dp with seqc := s.dp.seqc + 1 } })

/-- A thread becomes READY at the tail of its level, out of every other list but the deadline list (R381, R382). -/
def State.makeReady (s : State) (i reason : Nat) (val : Word) (detail : Nat) : State :=
  let (q, s) := s.nextSeq
  let t := s.thr i
  (s.setThr i { t with st := .ready, seq := q, wakeSet := false, reason := BitVec.ofNat 2 reason, wval := val,
                       since := s.fc }).traceRec 3 0 i detail

/-- A thread goes back to the head of its level (R382, R386). -/
def State.readyAtHead (s : State) (i : Nat) : State :=
  let t := s.thr i
  let q := match s.readyList.filter (fun e => e.2.prio == t.prio) with
    | e :: _ => e.2.seq - 1
    | [] => s.dp.seqc
  (s.setThr i { t with st := .ready, seq := q, wakeSet := false, reason := 0, wval := 0, since := s.fc }).traceRec 3 0 i 0xFFFF

/-! ## Passes (R387, R388) -/

/-- One assignment: the first READY thread that has a held core in AFF, to the lowest such core (R387). -/
def State.assignOne (s : State) : Option State :=
  let held (t : Thread) : Option Nat :=
    firstSome (fun n => if (s.coreSt n).held && (s.coreSt n).cur.isNone && t.aff.getLsbD n then some n else none) (List.range 8)
  match firstSome (fun (e : Nat × Thread) => (held e.2).map (fun n => (e.1, e.2, n))) s.readyList with
  | none => none
  | some (i, t, n) =>
    let s := s.setThr i { t with st := .running, core := ⟨n % 8, Nat.mod_lt _ (by decide)⟩ }
    let c := s.coreSt n
    let s := s.setCore n { c with held := false, cur := some ⟨i % 1024, Nat.mod_lt _ (by decide)⟩, busyFrom := s.fc,
                                  takes := c.takes + 1 }
    let s := s.setReg .dpTake n (BitVec.ofNat 32 (i * 2 ^ 22 + t.reason.toNat * 2 ^ 20 + t.tag.toNat))
    some ((s.setReg .dpCwake n t.wval).traceRec 0 n i 0)

/-- The assignment pass (R387). -/
def State.assignPass (fuel : Nat) (s : State) : State :=
  match fuel with
  | 0 => s
  | fuel + 1 => match s.assignOne with
    | some s' => State.assignPass fuel s'
    | none => s

/-- The core a READY thread pre-empts (R388). -/
def State.preemptCore (s : State) (t : Thread) : Option Nat :=
  let cand := (List.range 8).filterMap (fun n =>
    let c := s.coreSt n
    match c.cur with
    | some i => if t.aff.getLsbD n && !c.preq && t.prio.toNat < (s.thr i.val).prio.toNat then some (n, (s.thr i.val).prio.toNat) else none
    | none => none)
  (cand.foldl (fun (best : Option (Nat × Nat)) x => match best with
    | some b => if b.2 < x.2 then some x else best
    | none => some x) none).map (·.1)

/-- The pre-emption pass (R388). -/
def State.preemptPass (s : State) : State :=
  forEach s.readyList s (fun e s => match s.preemptCore e.2 with
    | some n => (s.setCore n { s.coreSt n with preq := true }).traceRec 1 n e.1 0
    | none => s)

/-- Both passes, at the end of every operation (R385). -/
def State.passes2 (s : State) : State := (State.assignPass 8 s).preemptPass

/-! ## Ending a run -/

/-- Time a core has held a thread goes into its load (R400). -/
def State.stopClock (s : State) (n : Nat) : State :=
  let c := s.coreSt n
  if c.cur.isSome then s.setCore n { c with busy := c.busy + (s.fc - max c.busyFrom s.dp.tickFrom) } else s

/-- The current thread of a core ends its run (R388, R389, R401). -/
def State.endRun (s : State) (n i op : Nat) : State :=
  let s := s.stopClock n
  (s.setCore n { s.coreSt n with cur := none, preq := false }).traceRec 2 n i op

/-- A thread becomes FREE and leaves every list (R391, R398). -/
def State.freeThr (s : State) (i : Nat) : State := s.setThr i thrZero

/-! ## Stamps (R390, R398) -/

/-- Whether a stamp is due (R398). -/
def State.due (s : State) (stamp : Word) : Bool := decide ((s.tnow - stamp).toNat < 2 ^ 31)

def State.setWake (s : State) (i : Nat) (stamp : Word) : State :=
  let t := s.thr i
  { s.setThr i { t with wake := stamp, wakeSet := true, wakeOrd := s.dp.ord } with
    dp := { (s.setThr i { t with wake := stamp, wakeSet := true, wakeOrd := s.dp.ord }).dp with ord := s.dp.ord + 1 } }

def State.setDl (s : State) (i : Nat) (stamp : Word) : State :=
  let t := s.thr i
  let s' := s.setThr i { t with dl := stamp, dlSet := true, dlOrd := s.dp.ord }
  { s' with dp := { s'.dp with ord := s.dp.ord + 1 } }

/-- The wake list in its order (R398). -/
def State.wakeList (s : State) : List (Nat × Thread) :=
  (s.dp.thr.filter (fun e => e.2.wakeSet)).foldr
    (putBy (fun a b =>
      let x := (a.2.wake - s.tnow).toInt
      let y := (b.2.wake - s.tnow).toInt
      decide (x < y) || (decide (x = y) && decide (a.2.wakeOrd < b.2.wakeOrd)))) []

/-- The deadline list in its order. -/
def State.dlList (s : State) : List (Nat × Thread) :=
  (s.dp.thr.filter (fun e => e.2.dlSet)).foldr
    (putBy (fun a b =>
      let x := (a.2.dl - s.tnow).toInt
      let y := (b.2.dl - s.tnow).toInt
      decide (x < y) || (decide (x = y) && decide (a.2.dlOrd < b.2.dlOrd)))) []

/-- A due wake entry (R398). -/
def State.wakeNow (e : Nat × Thread) (s : State) : State :=
  s.makeReady e.1 (if e.2.st == .delayed then 0 else 2) 0 0xFFFF

/-- A due deadline entry (R398). -/
def State.missNow (e : Nat × Thread) (s : State) : State :=
  let s := if s.dp.miss.length < 16 then { s with dp := { s.dp with miss := s.dp.miss ++ [BitVec.ofNat 10 e.1] } } else s
  let s := s.assertSrc 716
  s.setThr e.1 { s.thr e.1 with dlSet := false }

/-! ## Faults (R402, R403) -/

/-- Whether a check found anything. -/
def dispAny (u : DispCheck) : Bool := u.comp || u.parity || u.table || u.audit

/-- A dispatch fault freezes the dispatcher (R403). -/
def State.dispFault (s : State) (u : DispCheck) : State :=
  let f := (s.reg .dpFstat 0).toNat ||| (b2n u.audit * 8 + b2n u.table * 4 + b2n u.parity * 2 + b2n u.comp)
  ((s.setReg .dpFstat 0 (BitVec.ofNat 32 f)).setBit .dpCtl 0 30 true).traceRec 5 0 0 f

/-- The tick operation (R397, R398, R402): the comparator self-test, then what is due in both lists. -/
def State.tickOp (s : State) (u : DispCheck) : State :=
  let s := { s with dp := { s.dp with tickDue := false } }
  if dispAny u then s.dispFault u
  else
    let s := s.traceRec 4 0 0 s.tnow.toNat
    let s := forEach (s.wakeList.filter (fun (e : Nat × Thread) => s.due e.2.wake)) s State.wakeNow
    let s := forEach (s.dlList.filter (fun (e : Nat × Thread) => s.due e.2.dl)) s State.missNow
    s.passes2

def noUpset : DispCheck := ⟨false, false, false, false⟩

/-- Before any other operation the sequencer runs a tick that is due (R384). -/
def State.tickFirst (s : State) : State := if s.dp.tickDue then s.tickOp noUpset else s

/-! ## Event sources and their turn (R384, R393-R396) -/

/-- Whether a source number is reserved (R394). -/
def srcReserved (e : Nat) : Bool :=
  (690 ≤ e && e ≤ 703) || (717 ≤ e && e ≤ 719) || e == 722 || e == 723 || (725 ≤ e && e ≤ 735) || (744 ≤ e && e ≤ 751)
  || (792 ≤ e && e ≤ 1023) || 2048 ≤ e

def State.pending? (s : State) (e : Nat) : Bool := s.dp.pend.rd e false
def State.setPend (s : State) (e : Nat) (v : Bool) : State := { s with dp := { s.dp with pend := s.dp.pend.wr e false v } }
def State.binding (s : State) (e : Nat) : Binding := s.dp.bind.rd e .none

/-- Whether a group wait is satisfied (R393). -/
def egMet (all : Bool) (mask v : Word) : Bool := if all then v &&& mask == mask else v &&& mask != 0

/-- Bits are set in a group (R393): the satisfied waiters become READY, and their CLR masks are cleared together. -/
def State.egSet (s : State) (g : Nat) (v : Word) (detail : Nat) : State :=
  let now := s.reg .dpEg g ||| v
  let hit := (s.waiters .waitEg g).filter (fun e => egMet e.2.all e.2.wmask now)
  let clr := hit.foldl (fun m e => if e.2.clr then m ||| e.2.wmask else m) (0 : Word)
  let s := s.setReg .dpEg g (now &&& ~~~clr)
  forEach hit s (fun e s => s.makeReady e.1 1 now detail)

/-- Whether a source may be delivered (R396). -/
def State.deliverable (s : State) (e : Nat) : Bool :=
  s.pending? e && match s.binding e with
    | .group _ _ => true
    | .thread i => (s.thr i.toNat).st == .waitEv
    | .none => false

/-- The source whose turn it is (R384): rotating from the one after the last served. -/
def State.nextSource (s : State) : Option Nat :=
  let l := (s.dp.pend.map (·.1)).filter s.deliverable
  match l.filter (fun e => s.dp.lastSrc < e) with
  | e :: _ => some e
  | [] => l.head?

/-- Source e is delivered (R396): its pending bit is cleared, and its group's bit set or its thread made ready. -/
def State.deliverSrc (s : State) (e : Nat) : State :=
  let s := { s.setPend e false with dp := { (s.setPend e false).dp with lastSrc := e, lastCmd := false } }
  (match s.binding e with
  | .group g b => s.egSet g.toNat (BitVec.ofNat 32 (2 ^ b.toNat)) e
  | .thread i => s.makeReady i.toNat 1 (BitVec.ofNat 32 e) e
  | .none => s).passes2

/-- What the sequencer does before a command (R384): a tick that is due, and, when it served commands last, the source whose turn it is. -/
def State.turnFirst (s : State) : State :=
  let s := s.tickFirst
  if s.dp.lastCmd then match s.nextSource with
    | some e => s.deliverSrc e
    | none => s
  else s

/-! ## Commands (R389-R391) -/

/-- What a command comes to: refused with a status and no change, or done, with ENDED and a value. -/
inductive CmdOut where
  | refused (st : Status)
  | done (s : State) (ended : Bool) (val : Word)

/-- The result registers of a core (R389). -/
def State.cmdResult (s : State) (n : Nat) (st : Status) (ended : Bool) (val : Word) : State :=
  ((s.setReg .dpCres n (BitVec.ofNat 32 (b2n ended * 2 ^ 31 + st.code))).setReg .dpCwake n val).ans st [val]

/-- The sequencer takes an operation of the command class from core n (R384). -/
def State.serveCore (s : State) (n : Nat) : State :=
  { s.turnFirst with dp := { s.turnFirst.dp with lastCore := n, lastCmd := true } }

/-- A core issues a command (R389, R403): while the dispatcher is frozen it completes FENCED; a core that waits in TAKE, or is held
in reset, issues none. `u` is what the checks find in what the operation reads (R402): a failure freezes the dispatcher, and the command
completes FENCED (log entry 73). -/
def State.command (s : State) (n : Nat) (u : DispCheck) (f : State → Option Nat → CmdOut) : State :=
  if s.dp.coresHeld || (s.coreSt n).held then s
  else if s.frozen then s.cmdResult n .fenced false 0
  else
    let s := s.serveCore n
    if dispAny u then (s.dispFault u).cmdResult n .fenced false 0
    else match f s ((s.coreSt n).cur.map (·.val)) with
    | .refused st => (s.cmdResult n st false 0).passes2
    | .done s ended val => (s.cmdResult n .ok ended val).passes2

def State.arg0 (s : State) (n : Nat) : Nat := (s.reg .dpCarg0 n).toNat
def State.arg1 (s : State) (n : Nat) : Nat := (s.reg .dpCarg1 n).toNat

/-- Whether LOCKSVC keeps a command from this thread (R383). -/
def State.svcLocked (s : State) (i : Nat) : Bool := s.flag .dpCtl 0 31 && decide (i < 16)

/-- A timeout argument (R390): refused, none to wait, a number of ticks, or without limit. -/
inductive Tmo where
  | bad
  | noWait
  | ticks (d : Nat)
  | forever
  deriving DecidableEq, Repr

def tmoOf (a : Nat) : Tmo :=
  if a = 0 then .noWait else if a ≤ 0x7FFFFFFF then .ticks a else if a = 0xFFFFFFFF then .forever else .bad

/-- The current thread begins to wait (R392): at the tail of a waiter queue, but that WAITEV has none (R381, R382). -/
def State.beginWait (s : State) (n i op : Nat) (st : ThState) (obj : Nat) (d : Tmo) : State :=
  let (q, s) := if st == .waitEv then ((s.thr i).seq, s) else s.nextSeq
  let s := s.setThr i { s.thr i with st := st, obj := BitVec.ofNat 10 obj, seq := q }
  let s := match d with
    | .ticks k => s.setWake i (s.tnow + BitVec.ofNat 32 k)
    | _ => s
  s.endRun n i op

/-- A wait that is not satisfied at once. -/
def State.waitOr (s : State) (n i op : Nat) (st : ThState) (obj : Nat) (d : Tmo) : CmdOut :=
  match d with
  | .noWait => .refused .timeout
  | .bad => .refused .denied
  | _ => .done (s.beginWait n i op st obj d) true 0

/-- A binding's KIND, BIT and OBJ (R410). -/
def bindWord : Binding → Nat
  | .none => 0
  | .thread i => 1 * 2 ^ 30 + i.toNat
  | .group i b => 2 * 2 ^ 30 + b.toNat * 2 ^ 24 + i.toNat

/-- Bindings to a thread revert to none (R391). -/
def State.unbind (s : State) (i : Nat) : State :=
  { s with dp := { s.dp with bind := s.dp.bind.filter (fun e => e.2 != .thread (BitVec.ofNat 10 i)) } }

/-- The current thread becomes FREE (R391, EXIT). -/
def State.exitCur (s : State) (n i : Nat) : CmdOut := .done ((s.endRun n i 0x09).freeThr i) true 0

/-- CREATE (R391). -/
def execCreate (n : Fin 8) (obj : BitVec 10) (u : DispCheck) (s : State) : Res :=
  .next (s.command n.val u (fun s _ =>
    let i := obj.toNat
    let a := s.arg0 n.val
    let b := s.arg1 n.val
    if s.svcLocked i || bits a 25 20 != 0 || bits b 31 8 != 0 || (s.thr i).st != .free || bits b 7 0 == 0 then .refused .denied
    else
      let s := s.setThr i { thrZero with prio := BitVec.ofNat 6 (bits a 31 26), tag := BitVec.ofNat 20 (bits a 19 0),
                                         aff := BitVec.ofNat 8 (bits b 7 0) }
      .done (s.makeReady i 0 0 0xFFFF) false 0))

/-- DESTROY (R391). -/
def execDestroy (n : Fin 8) (obj : BitVec 10) (u : DispCheck) (s : State) : Res :=
  .next (s.command n.val u (fun s cur =>
    let i := obj.toNat
    if s.svcLocked i || (s.thr i).st == .free then .refused .denied
    else if cur == some i then s.exitCur n.val i
    else if (s.thr i).st == .running then .refused .denied
    else .done ((s.freeThr i).unbind i) false 0))

/-- SETPRIO (R391). -/
def execSetprio (n : Fin 8) (obj : BitVec 10) (u : DispCheck) (s : State) : Res :=
  .next (s.command n.val u (fun s _ =>
    let i := obj.toNat
    let a := s.arg0 n.val
    let t := s.thr i
    if s.svcLocked i || t.st == .free || bits a 31 6 != 0 then .refused .denied
    else if t.st == .ready then
      let (q, s) := s.nextSeq
      .done (s.setThr i { t with prio := BitVec.ofNat 6 a, seq := q }) false 0
    else .done (s.setThr i { t with prio := BitVec.ofNat 6 a }) false 0))

/-- SETAFF (R391). -/
def execSetaff (n : Fin 8) (obj : BitVec 10) (u : DispCheck) (s : State) : Res :=
  .next (s.command n.val u (fun s _ =>
    let i := obj.toNat
    let b := s.arg1 n.val
    if s.svcLocked i || (s.thr i).st == .free || bits b 31 8 != 0 || bits b 7 0 == 0 then .refused .denied
    else .done (s.setThr i { s.thr i with aff := BitVec.ofNat 8 b }) false 0))

/-- Whether a thread waits or is DELAYED. -/
def ThState.waits : ThState → Bool
  | .waitSem | .waitEg | .waitEv | .delayed => true
  | _ => false

/-- WAKE (R391). -/
def execWakeThread (n : Fin 8) (obj : BitVec 10) (u : DispCheck) (s : State) : Res :=
  .next (s.command n.val u (fun s _ =>
    if (s.thr obj.toNat).st.waits then .done (s.makeReady obj.toNat 3 0 0xFFFF) false 0 else .refused .denied))

/-- The current thread goes to the tail of its level (R391, YIELD). -/
def State.yieldCur (s : State) (n i op : Nat) : CmdOut := .done ((s.endRun n i op).makeReady i 0 0 0xFFFF) true 0

/-- YIELD (R391). -/
def execYieldThread (n : Fin 8) (obj : BitVec 10) (u : DispCheck) (s : State) : Res :=
  .next (s.command n.val u (fun s cur => match cur, obj with
    | some i, _ => s.yieldCur n.val i 0x08
    | none, _ => .refused .denied))

/-- EXIT (R391). -/
def execExitThread (n : Fin 8) (obj : BitVec 10) (u : DispCheck) (s : State) : Res :=
  .next (s.command n.val u (fun s cur => match cur, obj with
    | some i, _ => s.exitCur n.val i
    | none, _ => .refused .denied))

/-- The current thread becomes DELAYED up to a stamp. -/
def State.delayCur (s : State) (n i op : Nat) (stamp : Word) : CmdOut :=
  let s := s.setThr i { s.thr i with st := .delayed }
  .done ((s.setWake i stamp).endRun n i op) true 0

/-- DELAY (R391). -/
def execDelay (n : Fin 8) (obj : BitVec 10) (u : DispCheck) (s : State) : Res :=
  .next (s.command n.val u (fun s cur => match cur, obj with
    | some i, _ =>
      let a := s.arg1 n.val
      if a = 0 || 0x7FFFFFFF < a then .refused .denied else s.delayCur n.val i 0x0A (s.tnow + BitVec.ofNat 32 a)
    | none, _ => .refused .denied))

/-- DELAYTO (R391): a stamp already due acts as YIELD. -/
def execDelayto (n : Fin 8) (obj : BitVec 10) (u : DispCheck) (s : State) : Res :=
  .next (s.command n.val u (fun s cur => match cur, obj with
    | some i, _ =>
      let st := BitVec.ofNat 32 (s.arg1 n.val)
      if s.due st then s.yieldCur n.val i 0x0B else s.delayCur n.val i 0x0B st
    | none, _ => .refused .denied))

/-- SETDL (R391). -/
def execSetdl (n : Fin 8) (obj : BitVec 10) (u : DispCheck) (s : State) : Res :=
  .next (s.command n.val u (fun s cur => match cur, obj with
    | some i, _ =>
      let a := s.arg1 n.val
      if a = 0 || 0x7FFFFFFF < a then .refused .denied else .done (s.setDl i (s.tnow + BitVec.ofNat 32 a)) false 0
    | none, _ => .refused .denied))

/-- CLRDL (R391). -/
def execClrdl (n : Fin 8) (obj : BitVec 10) (u : DispCheck) (s : State) : Res :=
  .next (s.command n.val u (fun s cur => match cur, obj with
    | some i, _ => .done (s.setThr i { s.thr i with dlSet := false }) false 0
    | none, _ => .refused .denied))

/-! ## Semaphores and groups (R392, R393) -/

/-- SEMTAKE (R392). -/
def execSemtake (n : Fin 8) (obj : BitVec 10) (u : DispCheck) (s : State) : Res :=
  .next (s.command n.val u (fun s cur => match cur with
    | some i =>
      let k := obj.toNat
      let d := tmoOf (s.arg1 n.val)
      let c := s.fld .dpSem k 15 0
      if 256 ≤ k || d == .bad then .refused .denied
      else if 0 < c then .done (s.setFld .dpSem k 15 0 (c - 1)) false (BitVec.ofNat 32 (c - 1))
      else s.waitOr n.val i 0x10 .waitSem k d
    | none => .refused .denied))

/-- SEMGIVE (R392). -/
def execSemgive (n : Fin 8) (obj : BitVec 10) (u : DispCheck) (s : State) : Res :=
  .next (s.command n.val u (fun s _ =>
    let k := obj.toNat
    let c := s.fld .dpSem k 15 0
    if 256 ≤ k then .refused .denied
    else match s.waiters .waitSem k with
      | e :: _ => .done (s.makeReady e.1 1 0 0xFFFF) false 0
      | [] => if s.fld .dpSem k 31 16 ≤ c then .refused .denied else .done (s.setFld .dpSem k 15 0 (c + 1)) false 0))

/-- SEMINIT (R391). -/
def execSeminit (n : Fin 8) (obj : BitVec 10) (u : DispCheck) (s : State) : Res :=
  .next (s.command n.val u (fun s _ =>
    let k := obj.toNat
    let a := s.arg0 n.val
    if 256 ≤ k || !(s.waiters .waitSem k).isEmpty || bits a 31 16 == 0 || bits a 31 16 < bits a 15 0 then .refused .denied
    else .done (s.setReg .dpSem k (BitVec.ofNat 32 a)) false 0))

/-- EGSET (R393). -/
def execEgset (n : Fin 8) (obj : BitVec 10) (u : DispCheck) (s : State) : Res :=
  .next (s.command n.val u (fun s _ =>
    if 256 ≤ obj.toNat then .refused .denied
    else .done (s.egSet obj.toNat (BitVec.ofNat 32 (s.arg0 n.val)) 0xFFFF) false 0))

/-- EGCLR (R391). -/
def execEgclr (n : Fin 8) (obj : BitVec 10) (u : DispCheck) (s : State) : Res :=
  .next (s.command n.val u (fun s _ =>
    if 256 ≤ obj.toNat then .refused .denied
    else .done (s.setReg .dpEg obj.toNat (s.reg .dpEg obj.toNat &&& ~~~(BitVec.ofNat 32 (s.arg0 n.val)))) false 0))

/-- EGWAIT (R393). -/
def execEgwait (n : Fin 8) (obj : BitVec 10) (all clr : Bool) (u : DispCheck) (s : State) : Res :=
  .next (s.command n.val u (fun s cur => match cur with
    | some i =>
      let g := obj.toNat
      let m := BitVec.ofNat 32 (s.arg0 n.val)
      let d := tmoOf (s.arg1 n.val)
      let v := s.reg .dpEg g
      if 256 ≤ g || d == .bad || m == 0 then .refused .denied
      else if egMet all m v then .done (if clr then s.setReg .dpEg g (v &&& ~~~m) else s) false v
      else s.waitOr n.val i 0x1A .waitEg g d |> fun o => match o with
        | .done s e x => .done (s.setThr i { s.thr i with wmask := m, all := all, clr := clr }) e x
        | o => o
    | none => .refused .denied))

/-! ## Event sources (R394-R396) -/

/-- EVBIND (R395). -/
def execEvbind (n : Fin 8) (obj : BitVec 10) (u : DispCheck) (s : State) : Res :=
  .next (s.command n.val u (fun s _ =>
    let a := s.arg0 n.val
    let e := bits a 10 0
    if bit a 29 || bits a 23 11 != 0 || srcReserved e then .refused .denied
    else match bits a 31 30 with
      | 0 => .done { s with dp := { s.dp with bind := s.dp.bind.del e } } false 0
      | 1 => if (s.thr obj.toNat).st == .free then .refused .denied
          else .done { s with dp := { s.dp with bind := s.dp.bind.wr e .none (.thread obj) } } false 0
      | 2 => if 256 ≤ obj.toNat then .refused .denied
          else .done { s with dp := { s.dp with bind := s.dp.bind.wr e .none (.group obj (BitVec.ofNat 5 (bits a 28 24))) } } false 0
      | _ => .refused .denied))

/-- EVCLR (R391). -/
def execEvclr (n : Fin 8) (obj : BitVec 10) (u : DispCheck) (s : State) : Res :=
  .next (s.command n.val u (fun s _ => match obj with
    | _ =>
      let a := s.arg0 n.val
      if bits a 31 11 != 0 then .refused .denied else .done (s.setPend (bits a 10 0) false) false 0))

/-- EVWAIT (R396). -/
def execEvwait (n : Fin 8) (obj : BitVec 10) (u : DispCheck) (s : State) : Res :=
  .next (s.command n.val u (fun s cur => match cur, obj with
    | some i, _ =>
      let d := tmoOf (s.arg1 n.val)
      if d == .bad then .refused .denied
      else match firstSome (fun (e : Nat × Bool) =>
          if e.2 && s.binding e.1 == .thread (BitVec.ofNat 10 i) then some e.1 else none) s.dp.pend with
        | some e => .done (s.setPend e false) false (BitVec.ofNat 32 e)
        | none => s.waitOr n.val i 0x20 .waitEv 0 d
    | none, _ => .refused .denied))

/-- EVENT_DELIVERY (R396): of source e, when it is its turn (R384), after a tick that is due. -/
def execEventDelivery (e : Fin 2048) (u : DispCheck) (s : State) : Res :=
  .next (if s.frozen then s
    else if s.tickFirst.nextSource != some e.val then s.tickFirst
    else if dispAny u then s.tickFirst.dispFault u
    else s.tickFirst.deliverSrc e.val)

/-! ## TAKE, tick and audit (R386, R397, R398, R402) -/

/-- TAKE (R386): the read returns the current thread to the head of its level and is held until the assignment pass gives the core
a thread. While the dispatcher is frozen it is held. -/
def execTake (n : Fin 8) (u : DispCheck) (s : State) : Res :=
  .next (if s.dp.coresHeld || (s.coreSt n.val).held then s
    else if s.frozen then s.setCore n.val { s.coreSt n.val with held := true }
    else
      let s := s.serveCore n.val
      if dispAny u then (s.dispFault u).setCore n.val { s.coreSt n.val with held := true } else
      let s := match (s.coreSt n.val).cur with
        | some i => (s.endRun n.val i.val 0).readyAtHead i.val
        | none => s
      (s.setCore n.val { s.coreSt n.val with held := true, preq := false }).passes2)

/-- TICK (R397): the tick operation, when a boundary has passed and the dispatcher is not frozen. -/
def execTick (upset : DispCheck) (s : State) : Res :=
  .next (if s.dp.tickDue && !s.frozen then s.tickOp upset else s)

/-- WAKE_EXPIRY (R398): the first due entry of the wake list. -/
def execWakeExpiry (s : State) : Res :=
  .next (if s.frozen then s else match s.wakeList.filter (fun (e : Nat × Thread) => s.due e.2.wake) with
    | e :: _ => (s.wakeNow e).passes2
    | [] => s)

/-- DEADLINE_MISS (R398): the first due entry of the deadline list. -/
def execDeadlineMiss (s : State) : Res :=
  .next (if s.frozen then s else match s.dlList.filter (fun (e : Nat × Thread) => s.due e.2.dl) with
    | e :: _ => s.missNow e
    | [] => s)

/-- AUDIT (R402): once per tick interval. -/
def execAudit (upset : DispCheck) (s : State) : Res :=
  .next (if s.dp.audited || s.frozen then s
    else
      let s := { s with dp := { s.dp with audited := true } }
      if dispAny upset then s.dispFault { upset with audit := true } else s)

/-- A core's load over the interval that ends (R400). -/
def State.closeLoad (n : Nat) (s : State) : State :=
  let c := s.coreSt n
  let len := s.fc - s.dp.tickFrom
  let busy := c.busy + (if c.cur.isSome then s.fc - max c.busyFrom s.dp.tickFrom else 0)
  let load := if len = 0 then 0 else min (busy * 65536 / len) 0xFFFF
  (s.setReg .dpCload n (BitVec.ofNat 32 (load * 65536 + min c.takes 0xFFFF))).setCore n { c with busy := 0, takes := 0 }

/-- A tick boundary (R397, R403): TNOW rises; while frozen the boundary is lost. -/
def State.tickBoundary (s : State) : State :=
  let s := forEach (List.range 8) s State.closeLoad
  let s := s.setReg .dpTnow 0 (s.tnow + 1)
  let s := if s.frozen then s.count .dpLosttick 0 31 0 1 else s
  { s with dp := { s.dp with
    tickFrom := s.fc, nextTick := s.fc + s.fld .dpTicklen 0 26 0, tickDue := s.dp.tickDue || !s.frozen, audited := false } }

/-- The threads whose wake stamp is due, in order of stamp and then thread number (R404). -/
def State.dueByNumber (s : State) : List (Nat × Thread) :=
  (s.dp.thr.filter (fun e => e.2.wakeSet && s.due e.2.wake)).foldr
    (putBy (fun a b => decide ((a.2.wake - s.tnow).toInt < (b.2.wake - s.tnow).toInt))) []

/-- The dispatcher rebuilt by heartwood (R404, steps 2 to 4) and resumed. -/
def State.rebuilt (s : State) : State :=
  let s := forEach s.dueByNumber s State.wakeNow
  let s := forEach (s.dlList.filter (fun (e : Nat × Thread) => s.due e.2.dl)) s State.missNow
  let s := (s.setReg .dpFstat 0 0).setBit .dpCtl 0 30 false
  -- a core that read TAKE while frozen with a thread in hand returns it now
  let s := forEach (List.range 8) s (fun n s => match (s.coreSt n).cur with
    | some i => if (s.coreSt n).held then (s.endRun n i.val 0).readyAtHead i.val else s
    | none => s)
  (((s.traceRec 6 0 0 0).passes2)).assertSrc 715

/-- The dispatcher after a reset (R405); `from'` is the fc it leaves reset in. -/
def State.dispReset (s : State) (from' : Nat) : State :=
  let s := s.resetRegs [.dpCtl, .dpTicklen, .dpTnow, .dpLosttick, .dpFstat, .dpTrnom, .dpTake, .dpCcmd, .dpCarg0, .dpCarg1,
    .dpCres, .dpCwake, .dpCbus, .dpCload, .dpSem, .dpEg, .dpTrstat]
  { s with dp := { s.dp with
    thr := [], seqc := 0, ord := 0, cores := [], bind := [], pend := [], asserting := [], miss := [], trace := []
    lastCore := 0, lastSrc := 0, lastCmd := false, tickFrom := from', nextTick := from' + 1000000, tickDue := false, audited := false } }

/-! ## Registers (R400, R401, R407-R410) -/

/-- How many READY threads allow a core, and how long the oldest has waited (R400). -/
def State.cstat (s : State) (n : Nat) : Word :=
  let l := s.dp.thr.filter (fun e => e.2.st == .ready && e.2.aff.getLsbD n)
  BitVec.ofNat 32 (l.length * 2 ^ 21 + min ((l.map (fun e => (s.fc - e.2.since) / 256)).foldl max 0) 0x1FFFFF)

def thCode : ThState → Nat
  | .free => 0 | .ready => 1 | .running => 2 | .waitSem => 3 | .waitEg => 4 | .waitEv => 5 | .delayed => 6

/-- A dispatcher register as read, apart from what a read does (R408-R410). -/
def State.readDp (s : State) (n : RegName) (i : Nat) : Word :=
  match n with
  | .dpCstat => s.cstat i
  | .dpThra =>
    let t := s.thr i
    BitVec.ofNat 32 (thCode t.st * 2 ^ 29 + t.prio.toNat * 2 ^ 23 + t.aff.toNat * 2 ^ 15
      + (if t.st == .running then t.core.val * 2 ^ 12 else 0) + b2n t.dlSet)
  | .dpThrb =>
    let t := s.thr i
    BitVec.ofNat 32 ((if t.st == .waitSem || t.st == .waitEg then t.obj.toNat % 256 * 2 ^ 24 else 0) + t.tag.toNat)
  | .dpEvpend => BitVec.ofNat 32 ((List.range 32).foldl (fun a j => a + b2n (s.pending? (32 * i + j)) * 2 ^ j) 0)
  | .dpEvb => BitVec.ofNat 32 (bindWord (s.binding i))
  | .dpTrstat => BitVec.ofNat 32 (s.fld .dpTrstat 0 31 16 * 65536 + s.dp.trace.length)
  | .dpTrl => match s.dp.trace with
    | r :: _ => r.setWidth 32
    | [] => 0
  | .dpTrh => match s.dp.trace with
    | r :: _ => (r >>> 32).setWidth 32
    | [] => 0
  | .dpDlmiss => match s.dp.miss with
    | i :: _ => BitVec.ofNat 32 (2 ^ 31 + i.toNat)
    | [] => 0
  | .dpCcmd => 0
  | _ => s.reg n i

/-- Whether a party may read the trace (R401). -/
def State.traceReader (s : State) (p : Party) : Bool :=
  match p with
  | .heartwood => true
  | .core n => s.flag .dpTrnom 0 31 && s.fld .dpTrnom 0 2 0 == n.val
  | _ => false

/-- DLMISS_READ (R408): no PCIe function reaches the dispatcher (R406). -/
def execDlmissRead (p : Party) (s : State) : Res :=
  .next (match p with
  | .heartwood | .core _ =>
    let w := s.readDp .dpDlmiss 0
    ({ s with dp := { s.dp with miss := s.dp.miss.drop 1 } }).ans .ok [w]
  | _ => s.ans .unmapped [0])

/-- TRACE_READ (R401): of DP_TRH. -/
def execTraceRead (p : Party) (s : State) : Res :=
  .next (match p with
  | .heartwood | .core _ =>
    if s.traceReader p then
      let w := s.readDp .dpTrh 0
      ({ s with dp := { s.dp with trace := s.dp.trace.drop 1 } }).ans .ok [w]
    else s.deniedAlarm 1
  | _ => s.ans .unmapped [0])

end Sys2Proof.Machine
end

