-- ==== Sys2Proof/Machine/Cores.lean ====
section
/-! DEFINITION. The canopy cores' own state as far as the commands show it (R376-R378): control and status registers, physical memory
protection, exceptions and MEIP, reservations and atomic operations. Numbers, layouts and masks are those of the RISC-V privileged
architecture, which R376 names (PRESUMED, log entry 69). -/

namespace Sys2Proof.Machine

/-! ## Control and status registers (R376) -/

def csrKey (n c : Nat) : Nat := 4096 * n + c
def State.csrRaw (s : State) (n c : Nat) : Nat := (s.dp.csr.rd (csrKey n c) 0).toNat
def State.setCsr (s : State) (n c v : Nat) : State :=
  { s with dp := { s.dp with csr := s.dp.csr.wr (csrKey n c) 0 (BitVec.ofNat 64 v) } }

/-- 800 MHz cycles since cold reset, which the time CSR of every core reads (R376). -/
def State.coreTime (s : State) : Nat := s.fc / 2

/-- MISA of RV64IMAC with U mode. -/
def misa : Nat := 2 * 2 ^ 62 + 2 ^ 20 + 2 ^ 12 + 2 ^ 8 + 2 ^ 2 + 2 ^ 0

/-- A CSR as read; one that is absent reads as zero (R376). mcycle stands as its distance from the time. -/
def State.csrRead (s : State) (n c : Nat) : Nat :=
  match c with
  | 0x300 => s.csrRaw n 0x300 + 2 * 2 ^ 32
  | 0x301 => misa
  | 0x304 | 0x305 | 0x306 | 0x340 | 0x341 | 0x342 | 0x343 | 0x3A0 | 0x3A2 | 0xB02 => s.csrRaw n c
  | 0x344 => b2n (s.coreSt n).preq * 2 ^ 11
  | 0xB00 | 0xC00 => (s.csrRaw n 0xB00 + s.coreTime) % 2 ^ 64
  | 0xC01 => s.coreTime % 2 ^ 64
  | 0xC02 => s.csrRaw n 0xB02
  | 0xF14 => n
  | c => if 0x3B0 ≤ c && c < 0x3C0 then s.csrRaw n c else 0

/-- The configuration byte and the address of PMP region i. -/
def State.pmpCfg (s : State) (n i : Nat) : Nat := bits (s.csrRaw n (if i < 8 then 0x3A0 else 0x3A2)) (8 * (i % 8) + 7) (8 * (i % 8))
def State.pmpAddr (s : State) (n i : Nat) : Nat := s.csrRaw n (0x3B0 + i)

/-- Whether a PMP region's configuration is locked, and whether its address is. -/
def State.pmpLocked (s : State) (n i : Nat) : Bool := bit (s.pmpCfg n i) 7
def State.pmpAddrLocked (s : State) (n i : Nat) : Bool :=
  s.pmpLocked n i || (i < 15 && s.pmpLocked n (i + 1) && bits (s.pmpCfg n (i + 1)) 4 3 == 1)

/-- What a write of a CSR leaves in it; an absent one ignores it (R376). -/
def State.csrWrite (s : State) (n c v : Nat) : State :=
  match c with
  | 0x300 => s.setCsr n c (bits v 3 3 * 2 ^ 3 + bits v 7 7 * 2 ^ 7 + (if bits v 12 11 = 3 then 3 else if bits v 12 11 = 0 then 0
      else bits (s.csrRaw n c) 12 11) * 2 ^ 11 + bits v 17 17 * 2 ^ 17)
  | 0x304 => s.setCsr n c (bits v 11 11 * 2 ^ 11)
  | 0x305 => s.setCsr n c (setBits v 1 1 0)
  | 0x306 => s.setCsr n c (bits v 2 0)
  | 0x340 | 0x342 | 0x343 | 0xB02 => s.setCsr n c v
  | 0x341 => s.setCsr n c (setBits v 0 0 0)
  | 0xB00 => s.setCsr n c ((v + 2 ^ 64 - s.coreTime % 2 ^ 64) % 2 ^ 64)
  | 0x3A0 | 0x3A2 =>
    let k := if c = 0x3A0 then 0 else 8
    s.setCsr n c ((List.range 8).foldl (fun a i =>
      a + (if s.pmpLocked n (k + i) then s.pmpCfg n (k + i) else setBits (bits v (8 * i + 7) (8 * i)) 6 5 0) * 2 ^ (8 * i)) 0)
  | c => if 0x3B0 ≤ c && c < 0x3C0 && !s.pmpAddrLocked n (c - 0x3B0) then s.setCsr n c (bits v 53 0) else s

/-! ## Modes and exceptions -/

def State.inU (s : State) (n : Nat) : Bool := s.dp.umode.rd n false
def State.setMode (s : State) (n : Nat) (u : Bool) : State := { s with dp := { s.dp with umode := s.dp.umode.wr n false u } }

/-- A core takes an exception or its interrupt: what it saves, the mode it goes to, and on the line where it goes on. -/
def State.coreTrap (s : State) (n cause tval pc : Nat) : State :=
  let m := s.csrRaw n 0x300
  let m := setBits (setBits (setBits m 7 7 (bits m 3 3)) 3 3 0) 12 11 (if s.inU n then 0 else 3)
  let s := (((s.setCsr n 0x300 m).csrWrite n 0x341 pc).setCsr n 0x342 cause).setCsr n 0x343 tval
  let v := s.csrRaw n 0x305
  let dest := v / 4 * 4 + (if bits v 1 0 = 1 && 2 ^ 63 ≤ cause then 4 * (cause - 2 ^ 63) else 0)
  { s.setMode n false with line := [dest] }

/-- The return from an exception. -/
def State.coreRet (s : State) (n : Nat) : State :=
  let m := s.csrRaw n 0x300
  let u := bits m 12 11 == 0
  let m := setBits (setBits (setBits m 3 3 (bits m 7 7)) 7 7 1) 12 11 0
  let m := if u then setBits m 17 17 0 else m
  { (s.setCsr n 0x300 m).setMode n u with line := [s.csrRaw n 0x341] }

/-- Whether a core's mode reaches a CSR. -/
def State.csrReach (s : State) (n c : Nat) (write : Bool) : Bool :=
  let c := c % 4096
  (!s.inU n || (bits c 9 8 == 0 && (c < 0xC00 || 0xC02 < c || bit (s.csrRaw n 0x306) (c - 0xC00))))
    && !(write && [0xF14, 0xC00, 0xC01, 0xC02].contains c)

/-- Whether a core's interrupt is taken: MEIP, which is the dispatcher's pre-emption request (R376, R388). -/
def State.irqTaken (s : State) (n : Nat) : Bool :=
  (s.coreSt n).preq && bit (s.csrRaw n 0x304) 11 && (s.inU n || bit (s.csrRaw n 0x300) 3)

/-! ## Physical memory protection (R376) -/

/-- The addresses of a PMP region, from the first up to the one after the last. -/
def State.pmpRange (s : State) (n i : Nat) : Option (Nat × Nat) :=
  let a := s.pmpAddr n i
  match bits (s.pmpCfg n i) 4 3 with
  | 0 => none
  | 1 => some (if i = 0 then 0 else 4 * s.pmpAddr n (i - 1), 4 * a)
  | 2 => some (4 * a, 4 * a + 4)
  | _ =>
    let k := (firstSome (fun j => if bit a j then none else some j) (List.range 54)).getD 54
    some (4 * (a / 2 ^ (k + 1) * 2 ^ (k + 1)), 4 * (a / 2 ^ (k + 1) * 2 ^ (k + 1)) + 2 ^ (k + 3))

/-- Whether a core may make an access: the first region that holds a byte of it decides. -/
def State.pmpOk (s : State) (n x len : Nat) (write : Bool) : Bool :=
  let u := if !s.inU n && bit (s.csrRaw n 0x300) 17 then bits (s.csrRaw n 0x300) 12 11 == 0 else s.inU n
  let hit := firstSome (fun i => match s.pmpRange n i with
    | some (lo, hi) => if lo < x + len && x < hi then some (i, decide (lo ≤ x) && decide (x + len ≤ hi)) else none
    | none => none) (List.range 16)
  match hit with
  | none => !u
  | some (i, whole) => whole && ((!u && !s.pmpLocked n i) || bit (s.pmpCfg n i) (b2n write))

/-! ## Reservations and atomic operations (R378) -/

/-- A write of bytes breaks the reservations on the doublewords it touches. -/
def State.breakResv (s : State) (lo len : Nat) : State :=
  { s with dp := { s.dp with resv := s.dp.resv.filter (fun e => match e.2 with
    | some d => !(decide (lo < 8 * d + 8) && decide (8 * d < lo + len))
    | none => false) } }

def State.setResv (s : State) (n : Nat) (d : Option Nat) : State := { s with dp := { s.dp with resv := s.dp.resv.wr n none d } }

/-- What an AMO writes: of `w` bits, from the value read and the operand. -/
def amoVal (f : AmoFn) (w old v : Nat) : Nat :=
  let o := old % 2 ^ w
  let v := v % 2 ^ w
  match f with
  | .swap => v
  | .add => (o + v) % 2 ^ w
  | .xor => o ^^^ v
  | .and => o &&& v
  | .or => o ||| v
  | .min => if sgn w o ≤ sgn w v then o else v
  | .max => if sgn w v ≤ sgn w o then o else v
  | .minu => min o v
  | .maxu => max o v

end Sys2Proof.Machine
end

