-- ==== Sys2Proof/Machine/TimeBase.lean ====
section
/-! DEFINITION. The taproot time base (R286-R289, R308). -/

namespace Sys2Proof.Machine

/-- A second, in 2^-32 ns and in 2^-16 ns. -/
def sec32 : Nat := 1000000000 * 2 ^ 32
def sec16 : Nat := 1000000000 * 2 ^ 16

/-- The time base as one number of 2^-32 ns. -/
def State.now32 (s : State) : Nat := (s.tb.sec.toNat * 1000000000 + s.tb.ns) * 2 ^ 32 + s.tb.frac.toNat

/-- The time base in 1/65,536 ns, as timestamps have it. -/
def State.now16 (s : State) : Nat := s.now32 / 2 ^ 16

/-- Put a number of 2^-32 ns into the time base. -/
def State.setNow (s : State) (t : Nat) : State :=
  let t := t % (2 ^ 48 * sec32)
  { s with tb := { s.tb with sec := BitVec.ofNat 48 (t / sec32), ns := t % sec32 / 2 ^ 32, frac := BitVec.ofNat 32 (t % 2 ^ 32) } }

/-- How the time base has run of late: at first from zero at its nominal increment (R286). -/
def State.timeRuns (s : State) : List (Nat × Nat × Nat) := s.tb.hist ++ [(0, 0, 0xA0000000)]

/-- The time base at a point so many 1/65,536 fc before the start of this fc, in 1/65,536 ns: with every step and change of increment in
effect that had landed before that point, and none since (R283). -/
def State.timeAgo (s : State) (ago : Nat) : Nat :=
  let p := s.fc * 65536 - ago
  match s.timeRuns.find? (fun r => r.1 * 65536 ≤ p) with
  | some (f, v, incr) => (v + incr * (p - f * 65536) / 65536) / 2 ^ 16
  | none => 0

/-- The time base is noted where it runs on otherwise than it did: after a step, at another increment, or standing still. -/
def State.noteTime (s : State) (incr : Nat) : State :=
  match s.timeRuns.head? with
  | some (f, v, i) =>
    if i = incr && (v + i * (s.fc - f)) % (2 ^ 48 * sec32) = s.now32 then s
    else { s with tb := { s.tb with hist := (s.fc, s.now32, incr) :: s.tb.hist } }
  | none => s

/-- The time base over one fc (R286, R287): the increment, and the step that takes effect. -/
def State.tickTime (s : State) : State :=
  let t : Int := match s.tb.setTo with
    | some v => v
    | none => (s.now32 + (s.reg .msTbincr 0).toNat : Nat)
  let stepped := s.tb.setTo.isSome || s.tb.adj != 0
  let s := s.setNow ((t + s.tb.adj) % ((2 ^ 48 * sec32 : Nat) : Int)).toNat
  { s with tb := { s.tb with setTo := none, adj := 0, stepped := stepped } }

/-- The four registers of a time value (R308) from 1/65,536 ns. -/
def State.putTime (s : State) (h l n f : RegName) (t : Nat) : State :=
  let sec := t / sec16
  ((((s.setFld h 0 15 0 (sec / 2 ^ 32)).setReg l 0 (BitVec.ofNat 32 sec)).setReg n 0 (BitVec.ofNat 32 (t % sec16 / 65536))).setReg
    f 0 (BitVec.ofNat 32 (t % 65536)))

/-- The staged value of SET and ADJ, in 2^-32 ns. -/
def State.staged (s : State) : Nat :=
  ((s.fld .msTbwsh 0 15 0 * 2 ^ 32 + (s.reg .msTbwsl 0).toNat) * 1000000000 + s.fld .msTbwns 0 29 0) * 2 ^ 32
    + s.fld .msTbwfr 0 15 0 * 2 ^ 16

/-- A write of MS_TBCMD (R287, R308): SNAP takes the value before the step; SET and ADJ act from the next fc. Of several in one fc a SET
takes the place of what came before it, and every ADJ after it is added. -/
def State.writeTbcmd (s : State) (p : Party) (w : Word) : State :=
  let j := s.judgeW p .msTbcmd 0 (fun _ _ => true) w
  let s := s.land .msTbcmd 0 j
  let s := if bit j.acts 31 then s.putTime .msTbrsh .msTbrsl .msTbrns .msTbrfr s.now16 else s
  let s := if bit j.acts 30 then { s with tb := { s.tb with setTo := some s.staged, adj := 0 } } else s
  if bit j.acts 29 then
    { s with tb := { s.tb with adj := s.tb.adj + (if bit j.val 28 then -(s.staged : Int) else s.staged) } }
  else s

/-- A write of a time base register (R308). -/
def State.writeTb (s : State) (p : Party) (n : RegName) (i : Nat) (w : Word) : State :=
  match p with
  | .tenant _ => s.barkAns 0
  | _ => match n with
    | .msTbcmd => s.writeTbcmd p w
    | _ => s.plainWrite p n i w

/-- TIME_BASE_SET (R287). -/
def execTimeBaseSet (p : Party) (w : Word) (s : State) : Res := .next (s.writeTb p .msTbcmd 0 w)

/-- TIME_BASE_ADJ (R287). -/
def execTimeBaseAdj (p : Party) (w : Word) (s : State) : Res := .next (s.writeTb p .msTbcmd 0 w)

/-- TIME_BASE_SNAP (R287). -/
def execTimeBaseSnap (p : Party) (w : Word) (s : State) : Res := .next (s.writeTb p .msTbcmd 0 w)

/-- Whether the time base has reached a whole second plus OFFSET in this fc by counting (R288). -/
def State.atSecond (s : State) : Bool :=
  let off := (s.reg .msPpsdly 0).toInt * 65536
  !s.tb.stepped && decide (((s.now32 : Int) - off) % ((sec32 : Nat) : Int) < ((s.reg .msTbincr 0).toNat : Nat))

/-- PPS_OUT_PULSE (R288): PPS_OUT rises at the second and falls WIDTH µs later. -/
def execPpsOutPulse (rise : Bool) (s : State) : Res :=
  .next (if rise then
      if s.flag .msPpscfg 0 31 && s.atSecond then { s with tb := { s.tb with ppsOut := true, ppsAt := s.fc } } else s
    else if s.tb.ppsOut && decide (s.tb.ppsAt + 1600 * s.fld .msPpscfg 0 15 0 ≤ s.fc) then
      { s with tb := { s.tb with ppsOut := false } } else s)

/-- PPS_IN_CAPTURE (R289): the time base as it stands, before a step of this fc. -/
def execPpsInCapture (s : State) : Res :=
  .next (if s.flag .msPpscfg 0 30 && !s.flag .msTbcmd 0 0 then
      ((s.putTime .msPpsish .msPpsisl .msPpsins .msPpsifr s.now16).setBit .msTbcmd 0 0 true).assertSrc 724
    else s)

end Sys2Proof.Machine
end

