-- ==== Sys2Proof/Machine/Pins.lean ====
section
/-! DEFINITION. The GPIO crossbar, banks, pattern units and timers (R502-R516, R522-R527). -/

namespace Sys2Proof.Machine

/-! ## Owners and banks (R502-R507) -/

/-- OWNER of a pin. -/
def State.pinOwner (s : State) (n : Nat) : Nat := s.fld .gpPcfg n 31 28

/-- Whether a bank is powered within range (R502). -/
def State.bankOn (s : State) (n : Nat) : Bool := s.flag .gpBank 0 (16 + n / 16)

/-- Whether a pin's input is visible to a party other than heartwood (R506). -/
def State.pinVisible (s : State) (n : Nat) : Bool := s.pinOwner n != 0 && s.pinOwner n != 0xA

/-- Whether a party may write a pin's OUT and OE bits (R506, R514). -/
def State.pinWriter (s : State) (p : Party) (n : Nat) : Bool :=
  match p with
  | .heartwood => s.pinOwner n == 0
  | .core c => s.pinOwner n == c.val + 1
  | _ => false

/-- The synchronised value of a pin, 0 in an unpowered bank (R503, R512). -/
def State.pinLevel (s : State) (n : Nat) : Bool := s.bankOn n && s.flag .gpIn (n / 32) (n % 32)

/-- The 64 inputs as the hub's functions and pattern units see them (R506). -/
def State.pinsSeen (s : State) : Nat := maskOf ((List.range 64).map (fun n => s.pinVisible n && s.pinLevel n))

/-! ## The crossbar (R509-R511) -/

/-- The pin a function is connected to. -/
def State.fnPin (s : State) (f : Nat) : Option Nat := if s.flag .gpFsel f 31 then some (s.fld .gpFsel f 5 0) else none

/-- What an input function reads, with its idle input (R510). -/
def State.fnIn (s : State) (f : Nat) (idle : Bool) : Bool :=
  match s.fnPin f with
  | some n => if s.pinVisible n then s.pinLevel n else idle
  | none => idle

/-- Whether an input function is connected to a pin it can see. -/
def State.fnSees (s : State) (f : Nat) : Bool :=
  match s.fnPin f with
  | some n => s.pinVisible n
  | none => false

/-- Whether such a pin's bank is powered too, so that the function reads the line. -/
def State.fnLive (s : State) (f : Nat) : Bool :=
  match s.fnPin f with
  | some n => s.pinVisible n && s.bankOn n
  | none => false

/-- What an input function reads of a level that a command puts on its line: the level in a powered bank, 0 in an unpowered one, and
the idle input where the function sees no pin (R503, R510). -/
def State.fnTakes (s : State) (f : Nat) (idle level : Bool) : Bool :=
  if s.fnSees f then s.fnLive f && level else idle

/-- The same of the bits of a value, one after another. -/
def State.fnTakesBits {k : Nat} (s : State) (f : Nat) (idle : Bool) (v : BitVec k) : BitVec k :=
  if s.fnSees f then (if s.fnLive f then v else 0) else if idle then BitVec.allOnes k else 0

/-- Whether a function is of class L (R509). -/
def fnLattice (f : Nat) : Bool := 96 ≤ f

def pwmOf (s : State) (n : Nat) : Bool := s.flag .gpTcfg n 31 && decide (s.reg .gpTcnt n < s.gp.cmp.rd n 0)

/-- What an output function presents at an edge: whether it enables, and its value (R511, R515-R520). Between bytes a serial port
presents its idle levels; a level the spec does not give is free (log entry 3). -/
def State.fnOut (s : State) (f : Nat) : Bool × Bool :=
  let free := (Config.freeWord s.free).getLsbD 0
  if f < 4 then (s.flag .spUcfg f 31, true)
  else if f < 8 then (s.flag .spUcfg (f - 4) 31, decide (48 < (s.gp.rxq.rd (f - 4) []).length))
  else if f < 16 then (false, false)
  else if f < 20 then (s.flag .spScfg (f - 16) 31, s.flag .spScfg (f - 16) 30)
  else if f < 24 then (s.flag .spScfg (f - 20) 31, free)
  else if f < 28 then (false, false)
  else if f < 44 then (s.flag .spScfg ((f - 28) / 4) 31, !((s.gp.spiCs.rd ((f - 28) / 4) 0).getLsbD ((f - 28) % 4)))
  else if f < 52 then (s.gp.inXfer.rd (f - 44) false, false)
  else if f < 60 then (s.gp.inXfer.rd (f - 52) false && free, false)
  else if f < 62 then (s.flag .spMcfg (f - 60) 31, false)
  else if f < 64 then (false, false)
  else if f < 72 then (true, pwmOf s (f - 64))
  else if f < 80 then (false, false)
  else if f = 80 then (true, s.tb.ppsOut)
  else if f < 89 then (true, s.flag .gpPctl (f - 81) 31 && s.flag .gpPctl (f - 81) 28)
  else if f < 96 then (false, false)
  else if f < 128 then (true, s.gp.linesSeen.getLsbD (f - 96))
  else (false, false)

/-- The contributions to a pin: those of functions its owner allows, and its own OUT and OE bits (R506, R511). -/
def State.contribs (s : State) (n : Nat) : List (Bool × Bool) :=
  let o := s.pinOwner n
  let fns := (List.range 160).filter (fun f => s.fnPin f == some n
    && (if fnLattice f then o == 9 else decide (1 ≤ o) && decide (o ≤ 8)))
  let own := if o ≤ 8 then [(s.flag .gpOe (n / 32) (n % 32), s.flag .gpOut (n / 32) (n % 32))] else []
  fns.map s.fnOut ++ own

/-- Whether the pads are kept at high impedance: through a load, in a warm reset, and while the TAP holds HIGHZ (R459, R546). -/
def State.padsOff (s : State) : Bool := s.gp.held || s.pw.warm.isSome || s.pw.test == .highz

/-- Whether a pin drives, and its level (R503, R511). -/
def State.pinDrive (s : State) (n : Nat) : Bool × Bool :=
  let c := s.contribs n
  let en := s.bankOn n && !s.padsOff && c.any (·.1)
  (en, en && c.any (fun x => x.1 && x.2))

/-! ## The hub edge (R512, R513, R515, R516) -/

/-- The settings written take effect. -/
def State.timerLoad (s : State) (n : Nat) : State :=
  { s with gp := { s.gp with
    per := s.gp.per.wr n 0 (s.reg .gpTper n)
    cmp := s.gp.cmp.wr n 0 (s.reg .gpTcmp n)
    prsc := s.gp.prsc.wr n 0 (BitVec.ofNat 32 (s.fld .gpTcfg n 15 0)) } }

/-- Whether timer n returns to 0 at its next step (R516). -/
def State.wrapDue (s : State) (n : Nat) : Bool :=
  s.flag .gpTcfg n 31 && s.gp.presc.rd n 0 == (s.gp.prsc.rd n 0).toNat && s.reg .gpTcnt n == s.gp.per.rd n 0

/-- The step of timer n at an edge, once (R516). -/
def State.timerStep (n : Nat) (s : State) : State :=
  if !s.flag .gpTcfg n 31 || s.gp.timerAt.rd n 0 == s.fc + 1 then s
  else
    let k := s.gp.presc.rd n 0
    let to0 := s.wrapDue n
    let go := decide (k < (s.gp.prsc.rd n 0).toNat)
    let s := { s with gp := { s.gp with presc := s.gp.presc.wr n 0 (if go then k + 1 else 0), timerAt := s.gp.timerAt.wr n 0 (s.fc + 1) } }
    if to0 then ((s.setReg .gpTcnt n 0).setBit .gpTstat n 0 true).timerLoad n
    else if go then s else s.setReg .gpTcnt n (s.reg .gpTcnt n + 1)

/-- An edge of a timer's capture input (R516). -/
def State.timerCapture (s : State) (n : Nat) : State :=
  let now := s.fnIn (72 + n) false
  let was := s.gp.capPrev.rd n false
  let s := { s with gp := { s.gp with capPrev := s.gp.capPrev.wr n false now } }
  if now != was && now != s.flag .gpTcfg n 30 then
    if s.flag .gpTstat n 1 then s.setBit .gpTstat n 2 true
    else (s.setReg .gpTcap n (s.reg .gpTcnt n)).setBit .gpTstat n 1 true
  else s

/-- The condition of pattern unit u (R515). -/
def State.patCond (s : State) (u : Nat) : Bool :=
  let v := (s.reg .gpPvall u).toNat + (s.reg .gpPvalh u).toNat * 2 ^ 32
  let m := (s.reg .gpPmskl u).toNat + (s.reg .gpPmskh u).toNat * 2 ^ 32
  ((s.pinsSeen ^^^ v) &&& m == 0) != s.flag .gpPctl u 29

/-- One evaluation of pattern unit u at an edge (R515). -/
def State.patEval (u : Nat) (s : State) : State :=
  let c := s.patCond u
  let hit := s.flag .gpPctl u 31 && c && (!s.flag .gpPctl u 30 || !s.flag .gpPctl u 28)
  let s := s.setBit .gpPctl u 28 c
  if hit then { s with gp := { s.gp with patHit := s.gp.patHit ||| BitVec.ofNat 8 (2 ^ u) } } else s

/-- A pattern unit whose condition has counted asserts its source (R515). -/
def State.patAssert (u : Nat) (s : State) : State :=
  if s.gp.patHit.getLsbD u then
    { s with gp := { s.gp with patHit := s.gp.patHit &&& ~~~BitVec.ofNat 8 (2 ^ u) } }.assertSrc (656 + u)
  else s

/-- One edge of the 200 MHz clock: the pads take their drive from what stood before it, the samples move on by one flip-flop, the
lattice input lines take the synchronised values, the output lines are sampled, and pattern units and timers take their step. A pad that
drives has the level it drives; the others have the levels that come with the edge (log entry 137). What no command has brought about
of the edge before comes first. -/
def State.hubStep (s : State) (pads : BitVec 64) : State :=
  let s := forEach (List.range 8) s (fun n s => (s.timerCapture n).patAssert n)
  let drive := (List.range 64).map s.pinDrive
  let caps := (List.range 8).map (fun n => s.fnIn (72 + n) false)
  let lines := maskOf ((List.range 32).map (fun k => s.lt.pinOut.rd k false))
  let en := BitVec.ofNat 64 (maskOf (drive.map (fun (x : Bool × Bool) => x.1)))
  let out := BitVec.ofNat 64 (maskOf (drive.map (fun (x : Bool × Bool) => x.2)))
  let s := (s.setReg .gpIn 0 (s.gp.sync2.setWidth 32)).setReg .gpIn 1 ((s.gp.sync2 >>> 32).setWidth 32)
  let s := { s with gp := { s.gp with
    sync2 := s.gp.sync1
    sync1 := (pads &&& ~~~en) ||| out
    padEn := en
    padOut := out
    linesSeen := BitVec.ofNat 32 lines
    edgeAt := s.fc + 1
    capPrev := caps.zipIdx.foldl (fun t (v, n) => t.wr n false v) s.gp.capPrev } }
  let s := { s with lt := { s.lt with
    pinIn := (List.range 32).foldl (fun t k => t.wr k false (s.fnIn (128 + k) false)) s.lt.pinIn } }
  forEach (List.range 8) s (fun n s => State.timerStep n (s.patEval n))

/-- HUB_EDGE (R512): in an fc that holds an edge, once. The levels the pads drive go on the line. -/
def execHubEdge (pads : BitVec 64) (s : State) : Res :=
  .next (if s.fc % 8 != 0 || s.gp.edgeAt == s.fc + 1 then s
    else
      let s := s.hubStep pads
      { s with line := [s.gp.padEn.toNat, s.gp.padOut.toNat] })

/-- PATTERN_MATCH (R515): unit u, whose condition counted at the last edge, asserts. -/
def execPatternMatch (u : Fin 8) (s : State) : Res := .next (s.patAssert u.val)

/-- TIMER_WRAP (R516): at an edge, timer n takes the step that returns it to 0. -/
def execTimerWrap (n : Fin 8) (s : State) : Res := .next (if s.fc % 8 = 0 && s.wrapDue n.val then s.timerStep n.val else s)

/-- TIMER_CAPTURE (R516). -/
def execTimerCapture (n : Fin 8) (s : State) : Res := .next (s.timerCapture n.val)

/-! ## Output registers (R514) -/

/-- A write of pin bits: `bitsOf` are the bits it would change, `apply` what it makes of the register. Bits the issuer may not write
keep their value, and the write completes DENIED. -/
def State.pinBits (s : State) (p : Party) (n : RegName) (i mask : Nat) (apply : Nat → Nat → Nat) : State :=
  let may := maskOf ((List.range 32).map (fun b => s.pinWriter p (32 * i + b)))
  let cur := (s.reg n i).toNat
  let s := s.setReg n i (BitVec.ofNat 32 (apply cur (mask &&& may)))
  if mask &&& may != mask then ((s.count .gpDeny 0 31 0 1).alarm).ans .denied [] else s.ans .ok []

/-- A write of GP_OUT, GP_OE, GP_SET, GP_CLR or GP_TGL. -/
def State.writePin (s : State) (p : Party) (n : RegName) (i : Nat) (w : Word) : State :=
  match n with
  | .gpOut | .gpOe => s.pinBits p n i ((s.reg n i).toNat ^^^ w.toNat) (fun cur m => cur ^^^ m)
  | .gpSet => s.pinBits p .gpOut i w.toNat (fun cur m => cur ||| m)
  | .gpClr => s.pinBits p .gpOut i w.toNat (fun cur m => cur - (cur &&& m))
  | _ => s.pinBits p .gpOut i w.toNat (fun cur m => cur ^^^ m)

/-- A write of GP_PCFGn (R525): the operator's only for pins of a core, the fabric or none. A change of owner clears OUT and OE (R508). -/
def State.writePcfg (s : State) (p : Party) (n : Nat) (w : Word) : State :=
  let o := s.pinOwner n
  let mine := p == .heartwood || (o != 0 && o != 0xA)
  let j := judge (RegName.gpPcfg.fields n) (if mine then p.writer else .none) (fun lo v => RegName.gpPcfg.okVal n lo v) (s.reg .gpPcfg n).toNat w.toNat
  let s := s.land .gpPcfg n j
  if s.pinOwner n = o then s else (s.setBit .gpOut (n / 32) (n % 32) false).setBit .gpOe (n / 32) (n % 32) false

/-- A write of a register of a pattern unit: its previous condition becomes the current one. -/
def State.writePat (s : State) (p : Party) (n : RegName) (u : Nat) (w : Word) : State :=
  let s := s.plainWrite p n u w
  s.setBit .gpPctl u 28 (s.patCond u)

/-- A write of a timer register. Settings wait for the next return to 0 while the timer runs. -/
def State.writeTimer (s : State) (p : Party) (n : RegName) (i : Nat) (w : Word) : State :=
  let was := s.flag .gpTcfg i 31
  let s := s.plainWrite p n i w
  if was then s
  else
    let s := s.timerLoad i
    if s.flag .gpTcfg i 31 then ({ s with gp := { s.gp with presc := s.gp.presc.wr i 0 0 } }).setReg .gpTcnt i 0 else s

/-- A write of a register of the crossbar, the pattern units or the timers (R525-R527). -/
def State.writeGp (s : State) (p : Party) (n : RegName) (i : Nat) (w : Word) : State :=
  match p with
  | .tenant _ => s.barkAns 0
  | _ => match n with
    | .gpOut | .gpOe | .gpSet | .gpClr | .gpTgl => s.writePin p n i w
    | .gpPcfg => s.writePcfg p i w
    | .gpPmskl | .gpPmskh | .gpPvall | .gpPvalh | .gpPctl => s.writePat p n i w
    | .gpTcfg | .gpTper | .gpTcmp | .gpTstat => s.writeTimer p n i w
    | _ => s.plainWrite p n i w

/-- A register of the crossbar, the pattern units or the timers as a party reads it. -/
def State.readGp (s : State) (p : Party) (n : RegName) (i : Nat) : Word :=
  match n with
  | .gpIn => BitVec.ofNat 32 (maskOf ((List.range 32).map (fun b =>
      (p == .heartwood || s.pinVisible (32 * i + b)) && s.pinLevel (32 * i + b))))
  | .gpSet | .gpClr | .gpTgl => 0
  | _ => s.reg n i

/-- GPIO_SET (R514). -/
def execGpioSet (p : Party) (hi : Fin 2) (w : Word) (s : State) : Res := .next (s.writeGp p .gpSet hi.val w)

/-- GPIO_CLEAR (R514). -/
def execGpioClear (p : Party) (hi : Fin 2) (w : Word) (s : State) : Res := .next (s.writeGp p .gpClr hi.val w)

/-- GPIO_TOGGLE (R514). -/
def execGpioToggle (p : Party) (hi : Fin 2) (w : Word) (s : State) : Res := .next (s.writeGp p .gpTgl hi.val w)

/-- PGOOD_CHANGE (R502): the external supply of a bank that runs from VIO_x enters or leaves its range. -/
def execPgoodChange (b : Fin 4) (good : Bool) (s : State) : Res :=
  .next (if s.fld .gpBank 0 (4 * b.val + 3) (4 * b.val) = 6 then s.setBit .gpBank 0 (16 + b.val) good else s)

/-! ## Loads (R522-R524) -/

/-- Whether a pin belongs to heartwood or a core. -/
def State.pinKept (s : State) (n : Nat) : Bool := s.pinOwner n ≤ 8

/-- What the start of a full load makes of the pins (R459, R522). -/
def State.pinsAtLoad (s : State) (service : Bool) : State :=
  let kept := maskOf ((List.range 64).map s.pinKept)
  let s := forEach ((List.range 64).filter (fun n => !bit kept n)) s (fun n s =>
    ((s.resetReg .gpPcfg n).setBit .gpOut (n / 32) (n % 32) false).setBit .gpOe (n / 32) (n % 32) false)
  let s := forEach ((List.range 160).filter (fun f => fnLattice f || !service)) s (fun f s => s.resetReg .gpFsel f)
  { s with gp := { s.gp with held := s.gp.held || !service, kept := BitVec.ofNat 64 kept, keptC := service,
                             pinTab := none, fnTab := none, outTab := none } }

/-- Whether the output table gives a bit of a pin that the pin table does not give to a canopy core (R524); pins that the load keeps are
left out. -/
def State.outTabBad (s : State) (pins outs : Option (List Word)) : Bool :=
  let core (n : Nat) : Bool := match pins with
    | some t => let o := bits (t.getD n 0).toNat 31 28; decide (1 ≤ o) && decide (o ≤ 8)
    | none => false
  match outs with
  | some ws => (List.range 128).any (fun k => bit (ws.getD (k / 32) 0).toNat (k % 32) && !core (k % 64) && !s.gp.kept.getLsbD (k % 64))
  | none => false

/-- The checks of a frame of kind 7 (R524), as the reason of a refusal: FORMAT or OVERLAP. Entries that the load ignores are not judged; an
output table is judged against the pin table when both have come, and at END. -/
def State.pinFrameBad (s : State) (sub : Nat) (ws : List Word) : Option Nat :=
  match sub with
  | 0 => match firstSome (fun (x : Word × Nat) =>
      let w := x.1.toNat
      let o := bits w 31 28
      if s.gp.kept.getLsbD x.2 then none
      else if (0xA ≤ o && o ≤ 0xE) || bits w 27 18 != 0 || bits w 17 8 != 0 || bits w 2 0 != 0 then some 1
      else if o != 0xF && s.pinOwner x.2 == 0xA then some 3 else none) ws.zipIdx with
    | some r => some r
    | none => if s.outTabBad (some ws) s.gp.outTab then some 1 else none
  | 1 => if ws.zipIdx.any (fun (x : Word × Nat) => !(s.gp.keptC && !fnLattice x.2)
      && (bits x.1.toNat 30 6 != 0 || (bit x.1.toNat 31 && 89 ≤ x.2 && x.2 ≤ 95))) then some 1 else none
  | _ => if s.gp.pinTab.isSome && s.outTabBad s.gp.pinTab (some ws) then some 1 else none

/-- A checked frame of kind 7 waits for stage OUT (R458). -/
def State.putPinFrame (s : State) (sub : Nat) (ws : List Word) : State :=
  { s with gp := match sub with
    | 0 => { s.gp with pinTab := some ws }
    | 1 => { s.gp with fnTab := some ws }
    | _ => { s.gp with outTab := some ws } }

/-- Stage OUT for the pins (R458, R502, R522): the image's supplies and tables take effect, but for what the load keeps. -/
def State.pinsAtOut (s : State) (supply : Nat) : State :=
  let s := forEach (List.range 4) s (fun b s =>
    let code := bits supply (4 * b + 3) (4 * b)
    let stays := code == 6 && s.fld .gpBank 0 (4 * b + 3) (4 * b) == 6 && s.flag .gpBank 0 (16 + b)
    (s.setFld .gpBank 0 (4 * b + 3) (4 * b) code).setBit .gpBank 0 (16 + b) (if code = 6 then stays else code != 0))
  let free := (List.range 64).filter (fun n => !s.gp.kept.getLsbD n)
  let s := match s.gp.pinTab with
    | some t => forEach free s (fun n s =>
        let w := (t.getD n 0).toNat
        let s := if s.pinOwner n = 0xA then s else (s.setFld .gpPcfg n 31 28 (bits w 31 28)).setFld .gpPcfg n 27 18 0
        let s := if bits w 7 6 = 3 then s else s.setFld .gpPcfg n 7 6 (bits w 7 6)
        s.setFld .gpPcfg n 5 3 (bits w 5 3))
    | none => s
  let s := match s.gp.fnTab with
    | some t => forEach ((List.range 160).filter (fun f => fnLattice f || !s.gp.keptC)) s (fun f s =>
        s.setReg .gpFsel f (BitVec.ofNat 32 (bits (t.getD f 0).toNat 31 31 * 2 ^ 31 + bits (t.getD f 0).toNat 5 0)))
    | none => s
  let s := match s.gp.outTab with
    | some t => forEach free s (fun n s =>
        (s.setBit .gpOut (n / 32) (n % 32) (bit (t.getD (n / 32) 0).toNat (n % 32))).setBit .gpOe (n / 32) (n % 32)
          (bit (t.getD (2 + n / 32) 0).toNat (n % 32)))
    | none => s
  { s with gp := { s.gp with held := false, pinTab := none, fnTab := none, outTab := none } }

end Sys2Proof.Machine
end

