-- ==== Sys2Proof/Machine/Crc.lean ====
section
/-! DEFINITION. The reflected 32-bit CRCs: the FCS of IEEE 802.3 (R271, R276) and CRC-32C (R444, R467, R481). -/

namespace Sys2Proof.Machine

/-- One bit of a reflected CRC with polynomial `poly`. -/
def crcBit (poly c : BitVec 32) : BitVec 32 :=
  if c.getLsbD 0 then (c >>> 1) ^^^ poly else c >>> 1

/-- One byte. -/
def crcByte (poly c : BitVec 32) (b : Byte) : BitVec 32 :=
  (List.range 8).foldl (fun c _ => crcBit poly c) (c ^^^ b.setWidth 32)

/-- A CRC state carried over bytes; it starts at all ones and its value is the complement. -/
def crcRun (poly c : BitVec 32) (l : List Byte) : BitVec 32 := l.foldl (crcByte poly) c

def polyFcs : BitVec 32 := 0xEDB88320#32
def polyC : BitVec 32 := 0x82F63B78#32

/-- CRC-32C of bytes. -/
def crc32c (l : List Byte) : BitVec 32 := ~~~(crcRun polyC 0xFFFFFFFF#32 l)

/-- The FCS of a frame's bytes, as its four bytes in the order they are sent. -/
def fcsOf (l : List Byte) : List Byte := toLE 4 (~~~(crcRun polyFcs 0xFFFFFFFF#32 l)).toNat

end Sys2Proof.Machine
end

