-- ==== Sys2Proof/Machine/Crypto.lean ====
section
/-! DEFINITION. The cryptographic standards that heartwood's engines implement (R411): SHA-384 (FIPS 180-4), ECDSA P-384
verification (FIPS 186-4, SEC 1) and AES-256-GCM (FIPS 197, SP 800-38D). Their constants are the standards' own; bytes
are BitVec 8, everything else is Nat. -/

namespace Sys2Proof.Machine

/-! ## SHA-384 -/

def m64 : Nat := 2 ^ 64

def rotr64 (x n : Nat) : Nat := x >>> n ||| x <<< (64 - n) % m64

def shaK : List Nat :=
  [0x428A2F98D728AE22, 0x7137449123EF65CD, 0xB5C0FBCFEC4D3B2F, 0xE9B5DBA58189DBBC,
  0x3956C25BF348B538, 0x59F111F1B605D019, 0x923F82A4AF194F9B, 0xAB1C5ED5DA6D8118,
  0xD807AA98A3030242, 0x12835B0145706FBE, 0x243185BE4EE4B28C, 0x550C7DC3D5FFB4E2,
  0x72BE5D74F27B896F, 0x80DEB1FE3B1696B1, 0x9BDC06A725C71235, 0xC19BF174CF692694]
  ++ [0xE49B69C19EF14AD2, 0xEFBE4786384F25E3, 0x0FC19DC68B8CD5B5, 0x240CA1CC77AC9C65,
  0x2DE92C6F592B0275, 0x4A7484AA6EA6E483, 0x5CB0A9DCBD41FBD4, 0x76F988DA831153B5,
  0x983E5152EE66DFAB, 0xA831C66D2DB43210, 0xB00327C898FB213F, 0xBF597FC7BEEF0EE4,
  0xC6E00BF33DA88FC2, 0xD5A79147930AA725, 0x06CA6351E003826F, 0x142929670A0E6E70]
  ++ [0x27B70A8546D22FFC, 0x2E1B21385C26C926, 0x4D2C6DFC5AC42AED, 0x53380D139D95B3DF,
  0x650A73548BAF63DE, 0x766A0ABB3C77B2A8, 0x81C2C92E47EDAEE6, 0x92722C851482353B,
  0xA2BFE8A14CF10364, 0xA81A664BBC423001, 0xC24B8B70D0F89791, 0xC76C51A30654BE30,
  0xD192E819D6EF5218, 0xD69906245565A910, 0xF40E35855771202A, 0x106AA07032BBD1B8]
  ++ [0x19A4C116B8D2D0C8, 0x1E376C085141AB53, 0x2748774CDF8EEB99, 0x34B0BCB5E19B48A8,
  0x391C0CB3C5C95A63, 0x4ED8AA4AE3418ACB, 0x5B9CCA4F7763E373, 0x682E6FF3D6B2B8A3,
  0x748F82EE5DEFB2FC, 0x78A5636F43172F60, 0x84C87814A1F0AB72, 0x8CC702081A6439EC,
  0x90BEFFFA23631E28, 0xA4506CEBDE82BDE9, 0xBEF9A3F7B2C67915, 0xC67178F2E372532B]
  ++ [0xCA273ECEEA26619C, 0xD186B8C721C0C207, 0xEADA7DD6CDE0EB1E, 0xF57D4F7FEE6ED178,
  0x06F067AA72176FBA, 0x0A637DC5A2C898A6, 0x113F9804BEF90DAE, 0x1B710B35131C471B,
  0x28DB77F523047D84, 0x32CAAB7B40C72493, 0x3C9EBE0A15C9BEBC, 0x431D67C49C100D4C,
  0x4CC5D4BECB3E42B6, 0x597F299CFC657E2A, 0x5FCB6FAB3AD6FAEC, 0x6C44198C4A475817]

def shaInit : List Nat := [0xCBBB9D5DC1059ED8, 0x629A292A367CD507, 0x9159015A3070DD17, 0x152FECD8F70E5939,
  0x67332667FFC00B31, 0x8EB44A8768581511, 0xDB0C2E0D64F98FA7, 0x47B5481DBEFA4FA4]

/-- The eight working variables and the window of sixteen schedule words. -/
structure Sha where
  a : Nat
  b : Nat
  c : Nat
  d : Nat
  e : Nat
  f : Nat
  g : Nat
  h : Nat
  w : List Nat

/-- One round. -/
def shaRound (x : Sha) (k : Nat) : Sha :=
  let w (i : Nat) : Nat := x.w.getD i 0
  let s1 := rotr64 x.e 14 ^^^ rotr64 x.e 18 ^^^ rotr64 x.e 41
  let ch := (x.e &&& x.f) ^^^ ((m64 - 1 - x.e) &&& x.g)
  let t1 := (x.h + s1 + ch + k + w 0) % m64
  let s0 := rotr64 x.a 28 ^^^ rotr64 x.a 34 ^^^ rotr64 x.a 39
  let maj := (x.a &&& x.b) ^^^ (x.a &&& x.c) ^^^ (x.b &&& x.c)
  let e0 := rotr64 (w 1) 1 ^^^ rotr64 (w 1) 8 ^^^ (w 1) >>> 7
  let e1 := rotr64 (w 14) 19 ^^^ rotr64 (w 14) 61 ^^^ (w 14) >>> 6
  ⟨(t1 + s0 + maj) % m64, x.a, x.b, x.c, (x.d + t1) % m64, x.e, x.f, x.g, x.w.drop 1 ++ [(e1 + w 9 + e0 + w 0) % m64]⟩

/-- One block of sixteen words. -/
def shaBlock (hs ws : List Nat) : List Nat :=
  let v (i : Nat) : Nat := hs.getD i 0
  let x := shaK.foldl shaRound ⟨v 0, v 1, v 2, v 3, v 4, v 5, v 6, v 7, ws⟩
  [(v 0 + x.a) % m64, (v 1 + x.b) % m64, (v 2 + x.c) % m64, (v 3 + x.d) % m64,
   (v 4 + x.e) % m64, (v 5 + x.f) % m64, (v 6 + x.g) % m64, (v 7 + x.h) % m64]

/-- Bytes of the padded message for n bytes. -/
def shaPad (n : Nat) : List Byte := 0x80 :: (List.replicate ((239 - n % 128) % 128) 0 ++ toBE 16 (8 * n))

/-- Pieces of `w` elements, at most `fuel` of them. -/
def pieces {α : Type} (w : Nat) : Nat → List α → List (List α)
  | 0, _ => []
  | fuel + 1, l => if l.isEmpty then [] else l.take w :: pieces w fuel (l.drop w)

/-- SHA-384 of a byte string, as a 384-bit number read most significant byte first. -/
def sha384 (l : List Byte) : Nat :=
  let m := l ++ shaPad l.length
  let hs := (pieces 128 m.length m).foldl (fun hs b => shaBlock hs ((pieces 8 16 b).map bytesBE)) shaInit
  (hs.take 6).foldl (fun a x => a * m64 + x) 0

/-! ## P-384 -/

def p384p : Nat := 2 ^ 384 - 2 ^ 128 - 2 ^ 96 + 2 ^ 32 - 1
def p384b : Nat := 0xB3312FA7E23EE7E4988E056BE3F82D19181D9C6EFE8141120314088F5013875AC656398D8A2ED19D2A85C8EDD3EC2AEF
def p384n : Nat := 0xFFFFFFFFFFFFFFFFFFFFFFFFFFFFFFFFFFFFFFFFFFFFFFFFC7634D81F4372DDF581A0DB248B0A77AECEC196ACCC52973
def p384gx : Nat := 0xAA87CA22BE8B05378EB1C71EF320AD746E1D3B628BA79B9859F741E082542A385502F25DBF55296C3A545E3872760AB7
def p384gy : Nat := 0x3617DE4A96262C6F5D9E98BF9292DC29F8F41DBD289A147CE9DA3113B5F0B8C00A60B1CE1D7E819D7A431D7C90EA0E5F

/-- Bits of a number below 2^w, most significant first. -/
def bitsDown (w n : Nat) : List Bool := (List.range w).map (fun i => n.testBit (w - 1 - i))

/-- b to the e modulo m, for e below 2^384. -/
def powMod (b e m : Nat) : Nat := (bitsDown 384 e).foldl (fun a d => if d then a * a % m * b % m else a * a % m) 1

/-- A point in Jacobian coordinates; infinity has z = 0. -/
structure JPoint where
  x : Nat
  y : Nat
  z : Nat

/-- x − y modulo p. -/
def subP (x y : Nat) : Nat := (x + p384p - y % p384p) % p384p

def jDouble (q : JPoint) : JPoint :=
  if q.z = 0 then q
  else
    let zz := q.z * q.z % p384p
    let m := 3 * (subP q.x zz * ((q.x + zz) % p384p)) % p384p
    let yy := q.y * q.y % p384p
    let s := 4 * q.x * yy % p384p
    let x := subP (m * m) (2 * s)
    ⟨x, subP (m * subP s x) (8 * yy * yy), 2 * q.y * q.z % p384p⟩

def jAdd (q r : JPoint) : JPoint :=
  if q.z = 0 then r
  else if r.z = 0 then q
  else
    let z1 := q.z * q.z % p384p
    let z2 := r.z * r.z % p384p
    let u1 := q.x * z2 % p384p
    let u2 := r.x * z1 % p384p
    let s1 := q.y * z2 % p384p * r.z % p384p
    let s2 := r.y * z1 % p384p * q.z % p384p
    if u1 = u2 then (if s1 = s2 then jDouble q else ⟨1, 1, 0⟩)
    else
      let h := subP u2 u1
      let rr := subP s2 s1
      let hh := h * h % p384p
      let hhh := h * hh % p384p
      let v := u1 * hh % p384p
      let x := subP (rr * rr) (hhh + 2 * v)
      ⟨x, subP (rr * subP v x) (s1 * hhh), q.z * r.z % p384p * h % p384p⟩

/-- u1·P + u2·Q, bit by bit from the top. -/
def jMul2 (u1 : Nat) (P : JPoint) (u2 : Nat) (Q : JPoint) : JPoint :=
  let PQ := jAdd P Q
  ((bitsDown 384 u1).zip (bitsDown 384 u2)).foldl (fun R (a, b) =>
    let R := jDouble R
    if a then (if b then jAdd R PQ else jAdd R P) else if b then jAdd R Q else R) ⟨1, 1, 0⟩

/-- Whether (x, y) is a point of the curve. -/
def onP384 (x y : Nat) : Bool :=
  decide (x < p384p) && decide (y < p384p) && (y * y + 3 * x) % p384p == (x * x % p384p * x + p384b) % p384p

/-- A public key's 96 bytes, X then Y, as one 768-bit number. -/
def keyX (k : Nat) : Nat := k / 2 ^ 384
def keyY (k : Nat) : Nat := k % 2 ^ 384

/-- ECDSA P-384 verification of the hash z: r and s are the halves of the 768-bit signature. -/
def ecdsaOk (key z sig : Nat) : Bool :=
  let r := sig / 2 ^ 384
  let s := sig % 2 ^ 384
  if onP384 (keyX key) (keyY key) && decide (0 < r) && decide (r < p384n) && decide (0 < s) && decide (s < p384n) then
    let w := powMod s (p384n - 2) p384n
    let R := jMul2 (z * w % p384n) ⟨p384gx, p384gy, 1⟩ (r * w % p384n) ⟨keyX key, keyY key, 1⟩
    let zi := powMod R.z (p384p - 2) p384p
    R.z != 0 && R.x * (zi * zi % p384p) % p384p % p384n == r
  else false

/-! ## AES-256-GCM -/

/-- The S-box, entry i at byte i. -/
def aesSbox : Nat := 0x16BB54B00F2D99416842E6BF0D89A18CDF2855CEE9871E9B948ED9691198F8E19E1DC186B95735610EF6034866B53E708A8BBD4B1F74DDE8C6B4A61C2E2578BA08AE7A65EAF4566CA94ED58D6D37C8E779E4959162ACD3C25C2406490A3A32E0DB0B5EDE14B8EE4688902A22DC4F816073195D643D7EA7C41744975FEC130CCDD2F3FF1021DAB6BCF5389D928F40A351A89F3C507F02F94585334D43FBAAEFD0CF584C4A39BECB6A5BB1FC20ED00D153842FE329B3D63B52A05A6E1B1A2C830975B227EBE28012079A059618C323C7041531D871F1E5A534CCF73F362693FDB7C072A49CAFA2D4ADF04759FA7DC982CA76ABD7FE2B670130C56F6BF27B777C63

def sub8 (b : Nat) : Nat := aesSbox >>> (8 * b) % 256
def xtime (b : Nat) : Nat := if 128 ≤ b then (2 * b) % 256 ^^^ 0x1B else 2 * b

/-- Byte i of a number of n bytes, from the most significant. -/
def byteBE (n x i : Nat) : Nat := x >>> (8 * (n - 1 - i)) % 256

/-- SubBytes on a word. -/
def subWord (w : Nat) : Nat := (List.range 4).foldl (fun a i => a * 256 + sub8 (byteBE 4 w i)) 0

def rconOf : Nat → Nat
  | 0 => 1
  | k + 1 => xtime (rconOf k)

/-- Eight more words of the key schedule, from the eight before them. -/
def aesMore (i : Nat) (k : List Nat) : List Nat :=
  let v (j : Nat) : Nat := k.getD j 0
  let t := subWord (v 7 % 2 ^ 24 * 256 + v 7 / 2 ^ 24) ^^^ rconOf i * 2 ^ 24
  let a := v 0 ^^^ t
  let b := v 1 ^^^ a
  let c := v 2 ^^^ b
  let d := v 3 ^^^ c
  let e := v 4 ^^^ subWord d
  let f := v 5 ^^^ e
  let g := v 6 ^^^ f
  [a, b, c, d, e, f, g, v 7 ^^^ g]

/-- The round keys of a 256-bit key, as 128-bit numbers; the sixteenth is not used. -/
def aesKeys (key : Nat) : List Nat :=
  let k0 := (List.range 8).map (fun i => key >>> (32 * (7 - i)) % 2 ^ 32)
  let all := (List.range 7).foldl (fun (x : List Nat × List Nat) i => let k := aesMore i x.2; (x.1 ++ k, k)) (k0, k0)
  (pieces 4 16 all.1).map (fun l => l.foldl (fun a w => a * 2 ^ 32 + w) 0)

/-- SubBytes and ShiftRows: the bytes of the block in column order. -/
def aesShift (x : Nat) : List Nat := (List.range 16).map (fun i => sub8 (byteBE 16 x ((i + 4 * (i % 4)) % 16)))

def joinBytes (l : List Nat) : Nat := l.foldl (fun a b => a * 256 + b) 0

/-- MixColumns on a column. -/
def mixCol (l : List Nat) : List Nat :=
  let v (j : Nat) : Nat := l.getD (j % 4) 0
  (List.range 4).map (fun j => xtime (v j) ^^^ (xtime (v (j + 1)) ^^^ v (j + 1)) ^^^ v (j + 2) ^^^ v (j + 3))

/-- AES-256 of a block under its round keys. -/
def aesBlock (keys : List Nat) (x : Nat) : Nat :=
  let x := (keys.take 14).drop 1 |>.foldl (fun x k => joinBytes ((pieces 4 4 (aesShift x)).flatMap mixCol) ^^^ k) (x ^^^ keys.getD 0 0)
  joinBytes (aesShift x) ^^^ keys.getD 14 0

/-- Multiplication in GF(2^128) as GCM has it. -/
def gfMul (x y : Nat) : Nat :=
  ((bitsDown 128 x).foldl (fun (a : Nat × Nat) d =>
    (if d then a.1 ^^^ a.2 else a.1, if a.2 % 2 = 1 then a.2 / 2 ^^^ 0xE1 * 2 ^ 120 else a.2 / 2)) (0, y)).1

/-- A byte string as 16-byte blocks, the last filled with zeros. -/
def gcmBlocks (l : List Byte) : List Nat := (pieces 16 l.length l).map (fun b => bytesBE b * 256 ^ (16 - b.length))

/-- The key stream's bytes i to i + n − 1. -/
def gcmStream (keys : List Nat) (iv i n : Nat) : List Byte :=
  let first := i / 16
  let bs := (List.range ((i + n + 15) / 16 - first)).flatMap (fun k => toBE 16 (aesBlock keys (iv * 2 ^ 32 + (first + k + 2) % 2 ^ 32)))
  (bs.drop (i - 16 * first)).take n

/-- Bytes that lie `i` bytes into the text, encrypted or decrypted under a key and a 96-bit IV. -/
def gcmCrypt (key iv i : Nat) (l : List Byte) : List Byte :=
  (l.zip (gcmStream (aesKeys key) iv i l.length)).map (fun (a, b) => a ^^^ b)

/-- The authentication tag over additional data and ciphertext. -/
def gcmTag (key iv : Nat) (aad text : List Byte) : Nat :=
  let keys := aesKeys key
  let h := aesBlock keys 0
  let y := (gcmBlocks aad ++ gcmBlocks text ++ [8 * aad.length * 2 ^ 64 + 8 * text.length]).foldl (fun y b => gfMul (y ^^^ b) h) 0
  y ^^^ aesBlock keys (iv * 2 ^ 32 + 1)

end Sys2Proof.Machine
end

