-- ==== Sys2Proof/Machine/Image.lean ====
section
/-! DEFINITION. Images (R436-R439), graft files' headers, canopy firmware copies (R419) and the NVM (R471): their layouts and
verification. -/

namespace Sys2Proof.Machine

def keySlotZero : KeySlot := ⟨0, false, false⟩

def State.keySlot (s : State) (k : Nat) : KeySlot := s.ht.keys.rd k keySlotZero

/-- Whether a key slot is usable (R415). -/
def KeySlot.usable (x : KeySlot) : Bool := x.prog && !x.rev

/-- Whether a public key, 96 bytes as a number, is accepted for a slot (R415). -/
def State.keyOk (s : State) (k key : Nat) : Bool :=
  (s.keySlot k).usable && sha384 (toBE 96 key) == (s.keySlot k).hash.toNat

/-- STEPPING_ID of this device (R475). -/
def State.stepping (s : State) : Nat := s.fld .cfId 0 7 0

/-! ## Headers (R437) -/

/-- Word i of a header. -/
def hw (h : List Word) (i : Nat) : Nat := (h.getD i 0).toNat

def hMagic : Nat := 0x534C4B53
def hFormat (h : List Word) : Nat := bits (hw h 1) 15 0
def hStepMin (h : List Word) : Nat := bits (hw h 1) 23 16
def hStepMax (h : List Word) : Nat := bits (hw h 1) 31 24
def hLength (h : List Word) : Nat := hw h 2
def hKeyId (h : List Word) : Nat := bits (hw h 3) 7 0
def hNkb (h : List Word) : Nat := bits (hw h 3) 15 8
def hFlags (h : List Word) : Nat := bits (hw h 3) 31 16
def hEnc (h : List Word) : Bool := bit (hFlags h) 0
def hLock (h : List Word) : Bool := bit (hFlags h) 1
def hGraft (h : List Word) : Bool := bit (hFlags h) 2
def hSvn (h : List Word) : Nat := hw h 4
def hWdog (h : List Word) : Nat := bits (hw h 5) 15 0
def hIv (h : List Word) : Nat := bytesBE (wordsBytes ((h.drop 6).take 3))

/-- Words of the key blocks, and of the parts after the command section. -/
def hKeyWords (h : List Word) : Nat := 20 * hNkb h
def hTailWords (h : List Word) : Nat := (if hEnc h then 4 else 0) + 48

/-- Words of a whole file (R436). -/
def hTotal (h : List Word) : Nat := 16 + hKeyWords h + hLength h / 4 + hTailWords h

/-- What R463 calls FORMAT in a header and its key blocks: a reserved byte, LENGTH, NKB or FLAGS (R437, R438). -/
def hFormatBad (h keys : List Word) : Bool :=
  hw h 0 != hMagic || hLength h % 4 != 0 || decide (hLength h < 28) || decide (3 < hKeyId h)
    || (if hEnc h then hNkb h == 0 || decide (16 < hNkb h) else hNkb h != 0 || hIv h != 0)
    || decide (7 < hFlags h) || bits (hw h 5) 31 16 != 0 || (h.drop 9).any (· != 0)
    || (List.range (hNkb h)).any (fun k => ((keys.drop (20 * k + 17)).take 3).any (· != 0))

/-- The header checks of R463, in the order of its table: FORMAT, VERSION, STEP, KEY, ROLL. -/
def State.headerCause (s : State) (h keys : List Word) : Option Nat :=
  if hFormatBad h keys then some 5
  else if hFormat h != 1 then some 6
  else if s.stepping < hStepMin h || hStepMax h < s.stepping then some 7
  else if !(s.keySlot (hKeyId h)).usable then some 8
  else if hSvn h < (s.reg .pbMono 0).toNat then some 9
  else none

/-- The content key of an encrypted file (R438): none when no key block names this device or its unwrap fails; 0 when the file
is not encrypted. -/
def unwrapKey (h keys : List Word) : Option Nat :=
  if !hEnc h then some 0
  else
    let block (k : Nat) : List Byte := wordsBytes ((keys.drop (20 * k)).take 20)
    match firstSome (fun k => if bytesLE ((block k).take 8) == Config.devid.toNat then some (block k) else none) (List.range (hNkb h)) with
    | none => none
    | some b =>
      let aad := b.take 8
      let iv := bytesBE ((b.drop 8).take 12)
      let ct := (b.drop 20).take 32
      if gcmTag Config.imageKek iv aad ct == bytesBE ((b.drop 52).take 16) then some (bytesBE (gcmCrypt Config.imageKek iv 0 ct))
      else none

/-- Command words in plain, of which the first lies `pos` bytes into the section (R439). -/
def plainWords (h : List Word) (key pos : Nat) (ws : List Word) : List Word :=
  if hEnc h then bytesWords (gcmCrypt key (hIv h) pos (wordsBytes ws)) else ws

/-- What the end of a file shows (R436): the tag's, the key's and the signature's bytes, from the words after the section. -/
def tailTag (h tail : List Word) : List Byte := if hEnc h then wordsBytes (tail.take 4) else []
def tailRest (h tail : List Word) : List Byte := wordsBytes (if hEnc h then tail.drop 4 else tail)
def tailKey (h tail : List Word) : Nat := bytesBE ((tailRest h tail).take 96)
def tailSig (h tail : List Word) : Nat := bytesBE (((tailRest h tail).drop 96).take 96)

/-- The hash the signature covers: every byte up to the end of PUBKEY (R439). -/
def fileHash (h keys cipher tail : List Word) : Nat :=
  sha384 (wordsBytes (h ++ keys ++ cipher) ++ tailTag h tail ++ toBE 96 (tailKey h tail))

/-- Whether the GCM tag of the section authenticates, when there is one (R439). -/
def tagOk (h keys cipher tail : List Word) (key : Nat) : Bool :=
  !hEnc h || gcmTag key (hIv h) (wordsBytes (h ++ keys)) (wordsBytes cipher) == bytesBE (tailTag h tail)

/-- The verification at SIG (R439, R463): TAG, KEY, SIG. -/
def State.sigCause (s : State) (h keys cipher tail : List Word) (key : Nat) : Option Nat :=
  if !tagOk h keys cipher tail key then some 2
  else if !s.keyOk (hKeyId h) (tailKey h tail) then some 8
  else if !ecdsaOk (tailKey h tail) (fileHash h keys cipher tail) (tailSig h tail) then some 1
  else none

/-- A file cut into header, key blocks, section and tail; none when it is not as long as its header says. -/
def cutFile (ws : List Word) : Option (List Word × List Word × List Word × List Word) :=
  let h := ws.take 16
  if ws.length < 16 || ws.length != hTotal h || hLength h % 4 != 0 then none
  else
    let r := ws.drop 16
    let keys := r.take (hKeyWords h)
    let r := r.drop (hKeyWords h)
    some (h, keys, r.take (hLength h / 4), r.drop (hLength h / 4))

/-! ## The NVM (R471) -/

/-- A byte of the NVM. -/
def State.nvmByte (s : State) (a : Nat) : Byte := s.cf.nvm.rd a 0

def State.nvmBytes (s : State) (a n : Nat) : List Byte := (List.range n).map (fun i => s.nvmByte (a + i))

/-- Words of the NVM from an address. -/
def State.nvmWords (s : State) (a n : Nat) : List Word :=
  (List.range n).map (fun i => BitVec.ofNat 32 (bytesLE (s.nvmBytes (a + 4 * i) 4)))

/-- Write bytes into the NVM. -/
def State.nvmPut (s : State) (a : Nat) (l : List Byte) : State :=
  { s with cf := { s.cf with nvm := l.zipIdx.foldl (fun t (b, i) => t.wr (a + i) 0 b) s.cf.nvm } }

/-- Heartwood reads a slot of the sealed registry (R417): one whose seal fails authentication, as it may by an open value, is treated as
empty and reported to the operator (log entry 79). -/
def State.readSlot (s : State) (t : Nat) : Option (BitVec 768) × State :=
  match s.ht.tkeys.rd t none with
  | none => (none, s)
  | some k =>
    let fails := Config.slotFails s.free
    let s := { s with free := s.free + 1 }
    if fails then
      let (c, s) := s.freeCode
      let (d, s) := s.freeWord
      (none, { s with ht := { s.ht with tkeys := s.ht.tkeys.del t } }.sendRec (.both opTag) (mkRec 9 (BitVec.ofNat 10 t) 11 c d.toNat))
    else (some k, s)

/-- The end of the 12 MB slot an address lies in (R471). -/
def slotEnd (a : Nat) : Nat := if a < 0xC00000 then 0xC00000 else 0x1800000

/-- What is wrong with the image at an NVM address (R462, R463): an uncorrectable read, the header, its size, the key blocks, or
the verification; none when it may be loaded. Its words are given too. -/
def State.nvmCause (s : State) (a : Nat) (eccBad : Bool) : Option Nat :=
  if eccBad then some 15
  else
    let h := s.nvmWords a 16
    if hw h 0 != hMagic || hGraft h then some 5
    else if slotEnd a < a + 4 * hTotal h then some 16
    else
      let ws := s.nvmWords a (hTotal h)
      let keys := (ws.drop 16).take (hKeyWords h)
      match s.headerCause h keys with
      | some c => some c
      | none =>
        match cutFile ws, unwrapKey h keys with
        | none, _ => some 5
        | _, none => some 3
        | some (_, _, cipher, tail), some key => s.sigCause h keys cipher tail key

/-! ## Canopy firmware copies (R419, R420) -/

/-- NVM address of a firmware copy. -/
def fwBase (copy : Nat) : Nat := if copy = 0 then 0x1800000 else 0x1B00000

def fwSvnOf (l : List Byte) : Nat := bytesLE ((l.drop 8).take 4)
def fwLength (l : List Byte) : Nat := bytesLE ((l.drop 12).take 4)
def fwEntry (l : List Byte) : Nat := bytesLE ((l.drop 16).take 4)
def fwKeyId (l : List Byte) : Nat := (l.getD 6 0).toNat

/-- Bytes of a whole copy. -/
def fwTotal (l : List Byte) : Nat := 256 + fwLength l

/-- Whether a copy's layout is correct (R419). -/
def fwFormOk (l : List Byte) : Bool :=
  bytesLE (l.take 4) == 0x46434B53 && bytesLE ((l.drop 4).take 2) == 1 && decide (fwKeyId l ≤ 3) && l.getD 7 0 == 0
    && fwLength l % 8 == 0 && decide (8 ≤ fwLength l) && decide (fwLength l ≤ 3145472)
    && decide (fwEntry l < fwLength l) && fwEntry l % 2 == 0 && ((l.drop 20).take 44).all (· == 0)

/-- What is wrong with a copy of firmware, given as its bytes (R420 step 2), as a refusal reason of R425: CALL for its layout, KEY,
SIG, ROLL. -/
def State.fwReason (s : State) (l : List Byte) : Option Nat :=
  let key := bytesBE ((l.drop 64).take 96)
  if !fwFormOk l || l.length != fwTotal l then some 0x0A
  else if !s.keyOk (fwKeyId l) key then some 0x0D
  else if !ecdsaOk key (sha384 (l.take (160 + fwLength l))) (bytesBE (l.drop (160 + fwLength l))) then some 0x0C
  else if fwSvnOf l < (s.reg .pbMono 0).toNat then some 0x0E
  else none

/-- A copy as the NVM holds it. -/
def State.fwCopy (s : State) (copy : Nat) : List Byte :=
  let h := s.nvmBytes (fwBase copy) 160
  if fwFormOk h then s.nvmBytes (fwBase copy) (fwTotal h) else h

def State.fwValid (s : State) (copy : Nat) : Bool := (s.fwReason (s.fwCopy copy)).isNone

end Sys2Proof.Machine
end

