-- ==== Sys2Proof/Machine/Lanes.lean ====
section
/-! DEFINITION. The lane groups (R261-R285, R301-R306): configuration, training, eye monitor, counters, received and transmitted
frames, and raw mode. -/

namespace Sys2Proof.Machine

/-! ## Configuration (R261-R263, R302) -/

def State.lnEn (s : State) (j : Nat) : Bool := s.flag .lnCfg j 31
def State.lnRate (s : State) (j : Nat) : Nat := s.fld .lnCfg j 30 28
def State.lnRaw (s : State) (j : Nat) : Bool := s.flag .lnCfg j 27

/-- Lanes of the port that starts at lane j (R262, R302). -/
def State.lnK (s : State) (j : Nat) : Nat := 2 ^ s.fld .lnCfg j 25 24

/-- The enabled port that holds lane j: its first lane (R263). -/
def State.portOf (s : State) (j : Nat) : Option Nat :=
  firstSome (fun i => let f := 8 * (j / 8) + i
    if s.lnEn f && f ≤ j && j < f + s.lnK f then some f else none) (List.range 8)

/-- The combinations of rate, k and PMD the device supports (R262). -/
def rateCombo (rate k pmd : Nat) : Bool :=
  match rate with
  | 0 => (k == 1 || k == 2 || k == 4) && decide (pmd ≤ 2)
  | 1 => (k == 1 || k == 2 || k == 4 || k == 8) && decide (pmd ≤ 2)
  | 2 => (k == 1 || k == 2 || k == 4 || k == 8) && pmd == 0
  | 3 => (k == 1 || k == 4) && pmd == 0
  | 4 => k == 1 && pmd == 0
  | _ => false

/-- The family of a rate (R261). -/
def rateFam (rate : Nat) : Nat := if rate ≤ 2 then 0 else 1

/-- Whether a word that sets EN passes the checks of R263. -/
def State.enableOk (s : State) (j w : Nat) : Bool :=
  let rate := bits w 30 28
  let k := 2 ^ bits w 25 24
  let pmd := bits w 23 22
  decide (rate ≤ 4) && rateFam rate == s.fld .lnGcfg (j / 8) 31 31
    && j % 8 % k == 0 && (List.range k).all (fun i => (s.portOf (j + i)).isNone)
    && pmd != 3 && rateCombo rate k pmd && (!bit w 27 || k == 1)

/-- A sticky bit of LN_STATj (R303); its event source is a level, judged in EVENT_PENDING. -/
def State.laneSticky (s : State) (j b : Nat) : State := s.setBit .lnStat j b true

/-! ## Pyril state (R294) -/

/-- The enabled streams of a lane, as keys 256g+s (R292). -/
def State.laneStreams (s : State) (j : Nat) : List Nat :=
  (s.regs.filter (fun e => e.1 % 256 == RegName.lnPys.ctorIdx && e.1 / 256 / 256 == j / 8 && bit e.2.toNat 31
    && bits e.2.toNat 30 28 == j % 8)).map (fun e => e.1 / 256)

def pyZero : PyrilSt := ⟨none, none, 0, 0, 0, false⟩
def State.py (s : State) (j : Nat) : PyrilSt := s.ln.py.rd j pyZero
def State.setPy (s : State) (j : Nat) (x : PyrilSt) : State := { s with ln := { s.ln with py := s.ln.py.wr j pyZero x } }

/-- PYST (R303). -/
def State.pySt (s : State) (j : Nat) : Nat := s.fld .lnStat j 28 27

/-- A change of PYST sets PYCHG (R303). -/
def State.setPySt (s : State) (j v : Nat) : State :=
  if s.pySt j = v then s else (s.setFld .lnStat j 28 27 v).laneSticky j 3

/-- Every entry to DOWN (R294). -/
def State.pyDown (s : State) (j : Nat) : State :=
  let s := s.setFld .lnPyl j 15 0 (s.fld .lnPyl j 15 0 + 1)
  let ks := s.laneStreams j
  let z (t : Tbl Word) : Tbl Word := ks.foldl (fun t k => t.del k) t
  let s := { s with ln := { s.ln with sent := z s.ln.sent, recv := z s.ln.recv, granted := z s.ln.granted,
                                      peerGranted := z s.ln.peerGranted } }
  (s.setFld .lnStat j 28 27 1).laneSticky j 3

/-! ## Registers (R263, R266, R267, R290, R301-R307) -/

def txZero : TxSt := ⟨none, [], false, false, []⟩
def State.tx (s : State) (j : Nat) : TxSt := s.ln.tx.rd j txZero
def State.setTx (s : State) (j : Nat) (x : TxSt) : State := { s with ln := { s.ln with tx := s.ln.tx.wr j txZero x } }

/-- The member lanes of the port that starts at lane j. -/
def State.members (s : State) (j : Nat) : List Nat := (List.range (s.lnK j)).map (j + ·)

/-- The rate a lane runs at: that of the port it is part of (R263), else its own. -/
def State.rateOf (s : State) (j : Nat) : Nat := s.lnRate ((s.portOf j).getD j)

/-- LOCK or ALIGN of a lane becomes 0 (R303). -/
def State.laneLoses (s : State) (j b sticky : Nat) : State :=
  if s.flag .lnStat j b then (s.setBit .lnStat j b false).laneSticky j sticky else s

/-- An enabled lane starts afresh: it has yet to lock and align (R265), its calibration is measured again (R281), nothing is in its
transmit buffer, and a Pyril lane enters DOWN (R294). -/
def State.laneUp (s : State) (j : Nat) : State :=
  let s := forEach (s.members j) s (fun i s => ((s.laneLoses i 31 7).laneLoses i 30 6).setBit .lnStat i 29 false)
  let s := s.setTx j txZero
  if s.flag .lnCfg j 20 then (s.setPy j { s.py j with helloAt := s.fc, first := true }).pyDown j else s

/-- A lane is disabled: it holds no lock (R265), and a Pyril lane is OFF (R294). -/
def State.laneDown (s : State) (j : Nat) : State :=
  (forEach (s.members j) s (fun i s => (s.laneLoses i 31 7).laneLoses i 30 6)).setPySt j 0

/-- A write of LN_CFGj (R263). A MAXLEN below 64 keeps the field alone (R12, R302). -/
def State.writeLnCfg (s : State) (p : Party) (j : Nat) (w : Word) : State :=
  let old := (s.reg .lnCfg j).toNat
  let judged := s.judgeW p .lnCfg j (fun _ _ => true) w
  if judged.byWriter then s.land .lnCfg j judged
  else
    let other := bits old 30 20 != bits w.toNat 30 20 || bits old 13 0 != bits w.toNat 13 0
    if bit old 31 then
      if other then s.ans .denied []
      else
        let s' := s.land .lnCfg j judged
        if bit w.toNat 31 then s' else s'.laneDown j
    else if bit w.toNat 31 then
      if !s.enableOk j w.toNat then s.ans .denied []
      else (s.land .lnCfg j judged).laneUp j
    else s.land .lnCfg j judged

/-- The signed taps of a transmitter word (R302). -/
def tapSum (w : Nat) : Nat :=
  (sgn 8 (bits w 31 24)).natAbs + (sgn 8 (bits w 23 16)).natAbs + (sgn 8 (bits w 15 8)).natAbs + (sgn 8 (bits w 7 0)).natAbs

/-- Symbol rate of a lane rate in kBd (R261). -/
def symbolRate (rate : Nat) : Nat :=
  match rate with
  | 0 => 106250000
  | 1 => 53125000
  | 2 => 26562500
  | 3 => 25781250
  | 4 => 10312500
  | _ => 0

/-- Whether MS_RCLKn may hold a word (R290): DIV even, 16 to 4,094, and at most 400 MHz out. -/
def State.rclkOk (s : State) (w : Nat) : Bool :=
  let d := bits w 11 0
  d % 2 == 0 && 16 ≤ d && d ≤ 4094 && decide (symbolRate (s.rateOf (bits w 30 24)) ≤ 400000 * d)

/-- What RCLK_OUTn carries (R290): the symbol clock of its lane, in kBd, divided by DIV; low, none, while it is off or the lane is disabled
or unlocked. -/
def State.rclkOut (s : State) (n : Nat) : Option (Nat × Nat) :=
  let j := s.fld .msRclk n 30 24
  if s.flag .msRclk n 31 && (s.portOf j).isSome && s.flag .lnStat j 31 then some (symbolRate (s.rateOf j), s.fld .msRclk n 11 0) else none

/-- A write that a whole-register rule may refuse for its value: the register then stays as it is (R12). -/
def State.writeWhole (s : State) (p : Party) (n : RegName) (i : Nat) (ok : Bool) (w : Word) : State :=
  let j := s.judgeW p n i (fun _ _ => true) w
  if j.byWriter || ok then s.land n i j else s.ans .denied []

/-- START of training refused (R266). -/
def State.trainBad (s : State) (j : Nat) : Bool :=
  !s.lnEn j || s.fld .lnCfg j 23 22 == 0 || s.lnRaw j || s.flag .lnTrain j 30

/-- A write of LN_TRAINj (R266, R303). -/
def State.writeTrain (s : State) (p : Party) (j : Nat) (w : Word) : State :=
  let judged := s.judgeW p .lnTrain j (fun _ _ => true) w
  if bit judged.acts 31 && s.trainBad j then s.ans .denied []
  else
    let s := s.land .lnTrain j judged
    if bit judged.acts 31 then
      { s.setBit .lnTrain j 30 true with ln := { s.ln with trainAt := s.ln.trainAt.wr j 0 s.fc } }
    else s

/-- A write of LN_EYECTLj (R305). -/
def State.writeEye (s : State) (p : Party) (j : Nat) (w : Word) : State :=
  let bad := s.flag .lnEyectl j 30 || !s.flag .lnStat j 31
  let judged := s.judgeW p .lnEyectl j (fun lo _ => lo != 31 || !bad) w
  let s := s.land .lnEyectl j judged
  if bit judged.acts 31 then s.setBit .lnEyectl j 30 true else s

/-- Count in a live counter of a lane (R306). -/
def State.lnCount (s : State) (j i k : Nat) : State :=
  { s with ln := { s.ln with live := s.ln.live.up (32 * j + i) 0 (fun v => BitVec.ofNat 32 (satAdd 32 v.toNat k)) } }

/-- A write of LN_CNTCTLj (R306): what was counted before this fc is copied, and what this fc has counted so far stays. -/
def State.writeCntctl (s : State) (p : Party) (j : Nat) (w : Word) : State :=
  let judged := s.judgeW p .lnCntctl j (fun _ _ => true) w
  let s := s.land .lnCntctl j judged
  if bit judged.acts 31 then
    forEach (List.range 32) s (fun i s =>
      let k := 32 * j + i
      let old := s.was.live.rd k 0
      { s.setReg .lnCnt k old with
        ln := { s.ln with live := s.ln.live.up k 0 (· - old) }
        was := { s.was with live := s.was.live.del k } })
  else s

/-- A write of a lane register (R301). -/
def State.writeLn (s : State) (p : Party) (n : RegName) (i : Nat) (w : Word) : State :=
  match p with
  | .tenant _ => s.barkAns 0
  | _ => match n with
    | .lnGcfg => s.writeWhole p n i
        (bit w.toNat 31 == s.flag .lnGcfg i 31 || (List.range 8).all (fun k => !s.lnEn (8 * i + k))) w
    | .lnCfg => s.writeLnCfg p i w
    | .lnTxeq => s.writeWhole p n i (decide (tapSum w.toNat ≤ 64)) w
    | .lnTrain => s.writeTrain p i w
    | .lnEyectl => s.writeEye p i w
    | .lnCntctl => s.writeCntctl p i w
    | .lnPys =>
      let old := (s.reg n i).toNat
      s.writeWhole p n i (!(bit old 31) || bits old 30 0 == bits (w.toNat - bits w.toNat 17 16 * 65536) 30 0) w
    | .msRclk => s.writeWhole p n i (s.rclkOk w.toNat) w
    | _ => s.plainWrite p n i w

/-- Credit a lane may still send data frames of a stream on (R293). -/
def State.avail (s : State) (k : Nat) : Nat := (s.ln.peerGranted.rd k 0 - s.ln.sent.rd k 0).toNat

/-- A lane register as read (R307). -/
def State.readLn (s : State) (n : RegName) (i : Nat) : Word :=
  match n with
  | .lnPyc => BitVec.ofNat 32 (s.avail i)
  -- on an NRZ lane the other two eyes read 0 (R305)
  | .lnEye => if i % 3 != 0 && rateFam (s.rateOf (i / 3)) == 1 then 0 else s.reg n i
  | _ => s.reg n i

/-- LANE_ENABLE (R263). -/
def execLaneEnable (p : Party) (j : Fin 128) (w : Word) (s : State) : Res := .next (s.writeLn p .lnCfg j.val w)

/-- TRAINING_START (R266). -/
def execTrainingStart (p : Party) (j : Fin 128) (w : Word) (s : State) : Res := .next (s.writeLn p .lnTrain j.val w)

/-- EYE_START (R305). -/
def execEyeStart (p : Party) (j : Fin 128) (w : Word) (s : State) : Res := .next (s.writeLn p .lnEyectl j.val w)

/-- LANE_COUNTER_SNAP (R306). -/
def execLaneCounterSnap (p : Party) (j : Fin 128) (w : Word) (s : State) : Res := .next (s.writeLn p .lnCntctl j.val w)

/-! ## What the line does (R265, R266, R281, R303, R305) -/

/-- Whether a lane group is powered. -/
def State.groupOn (s : State) (j : Nat) : Bool := s.powered (64 + j / 8)

/-- PLL_LOCK_CHANGE (R303). -/
def execPllLockChange (g : Fin 16) (lock : Bool) (s : State) : Res :=
  .next (if s.flag .lnGcfg g.val 30 == lock then s else (s.setBit .lnGcfg g.val 30 lock).assertSrc (640 + g.val))

/-- CALIBRATION_DONE (R281). -/
def execCalibrationDone (j : Fin 128) (s : State) : Res :=
  .next (if (s.portOf j.val).isSome then s.setBit .lnStat j.val 29 true else s)

/-- LOCK_CHANGE (R303, R294, R280): a Pyril lane that is UP and loses alignment goes DOWN; a raw lane without FEC that gains lock
marks its next beat. A lane that is not enabled acquires nothing (R265). -/
def execLockChange (j : Fin 128) (lock align : Bool) (s : State) : Res :=
  if (s.portOf j.val).isNone then .next s else
  let l := s.flag .lnStat j.val 31
  let a := s.flag .lnStat j.val 30
  let s := if l == lock then s else (s.setBit .lnStat j.val 31 lock).laneSticky j.val 7
  let s := if a == align then s else (s.setBit .lnStat j.val 30 align).laneSticky j.val 6
  let s := if a && !align && s.pySt j.val == 2 then s.pyDown j.val else s
  .next (if lock && !l && s.lnRaw j.val && !s.flag .lnCfg j.val 26 then
      { s with ln := { s.ln with relock := s.ln.relock.wr j.val false true } } else s)

/-- TRAINING_END (R266): OK or FAIL within TMO ms, TIMEOUT after them. The taps that training settled on are written for every member
lane when it ends OK. -/
def execTrainingEnd (j : Fin 128) (result : BitVec 2) (taps : List Word) (s : State) : Res :=
  let late := decide (s.ln.trainAt.rd j.val 0 + 1600000 * s.fld .lnTrain j.val 15 0 ≤ s.fc)
  .next (if s.flag .lnTrain j.val 30 && result != 0 && late == (result == 3) then
      let s := (s.setBit .lnTrain j.val 30 false).setFld .lnTrain j.val 29 28 result.toNat
      let s := if result = 1 then forEach ((s.members j.val).zip taps) s (fun x s => s.setReg .lnTxeq x.1 x.2) else s
      s.laneSticky j.val 5
    else s)

/-- EYE_DONE (R305): on an NRZ lane only the first eye is measured. -/
def execEyeDone (j : Fin 128) (m0 m1 m2 : Word) (s : State) : Res :=
  .next (if s.flag .lnEyectl j.val 30 then
      let nrz := rateFam (s.rateOf j.val) == 1
      let s := s.setReg .lnEye (3 * j.val) m0
      let s := s.setReg .lnEye (3 * j.val + 1) (if nrz then 0 else m1)
      let s := s.setReg .lnEye (3 * j.val + 2) (if nrz then 0 else m2)
      (s.setBit .lnEyectl j.val 30 false).laneSticky j.val 2
    else s)

/-! ## Received frames (R268-R274) -/

def opWord (code : Nat) (d : Nat) : CWord := ⟨opTag, false, BitVec.ofNat 4 code, BitVec.ofNat 24 d⟩

/-- An idle word, and an idle beat, of an edge channel. -/
def opIdle : CWord := opWord codeIDLE 0
def idleBeat : List CWord := List.replicate 6 opIdle

/-- Words in beats of six, the last one filled with IDLE. -/
def beatsOf (ws : List CWord) : List (List CWord) :=
  (List.range ((ws.length + 5) / 6)).map (fun i =>
    let b := (ws.drop (6 * i)).take 6
    b ++ List.replicate (6 - b.length) opIdle)

/-- Beats in rows of k, the last one filled with idle beats (R272). -/
def rowsOf (k : Nat) (bs : List (List CWord)) : List (List (List CWord)) :=
  (List.range ((bs.length + k - 1) / k)).map (fun i =>
    let r := (bs.drop (k * i)).take k
    r ++ List.replicate (k - r.length) idleBeat)

/-- Bytes in words of three, byte 0 first (R6). -/
def packBytes (l : List Byte) : List W24 :=
  (List.range ((l.length + 2) / 3)).map (fun i =>
    let b (k : Nat) : Nat := ((l[3 * i + k]?).map (·.toNat)).getD 0
    BitVec.ofNat 24 (b 0 * 65536 + b 1 * 256 + b 2))

/-- The words of bytes delivered as a packet that ends normally (R268). -/
def packetWords (l : List Byte) : List CWord :=
  let ws := packBytes l
  let n := ws.length
  let valid := l.length - 3 * (n - 1)
  ws.zipIdx.map (fun (w, i) => opWord
    (if i + 1 = n then (if i = 0 then 4 + valid else 1 + valid) else if i = 0 then codeSOP else codeDATA) w.toNat)

/-- The words of bytes delivered as a packet that ends in ERR (R271). -/
def errWords (l : List Byte) (cause : Nat) : List CWord :=
  (packBytes l).zipIdx.map (fun (w, i) => opWord (if i = 0 then codeSOP else codeDATA) w.toNat) ++ [opWord codeERR (cause * 2 ^ 20)]

/-- The META beat (R268-R270): the status word's low bits and the time. -/
def metaBeatOf (lane low : Nat) (cal : Bool) (t : Nat) : List CWord :=
  let sec := t / sec16 % 2 ^ 48
  let ns := t % sec16 / 65536
  [opWord codeMETA (lane * 2 ^ 17 + low + b2n cal * 2 ^ 5), opWord codeMETA (sec / 2 ^ 24), opWord codeMETA (sec % 2 ^ 24),
   opWord codeMETA (ns / 2 ^ 8), opWord codeMETA (ns % 2 ^ 8 * 2 ^ 16 + t % 65536), opIdle]

/-- An ingress time (R282, R283): the time base at the point, less LN_RXDLY of the lane that carried the bit there. -/
def State.ingressTime (s : State) (j ago : Nat) : Nat :=
  (((s.timeAgo ago : Int) - (s.reg .lnRxdly j).toInt) % ((2 ^ 48 * sec16 : Nat) : Int)).toNat

/-- Whether some output selects one of a lane's edge inputs (R273). -/
def State.laneWatched (s : State) (j : Nat) : Bool :=
  let (T, b) := laneEdge j
  (List.range 6).any (fun k => !(s.selects T (b + k)).isEmpty)

/-- Beats that wait in the ingress buffer of a port (R274). -/
def State.rxUsed (s : State) (j : Nat) : Nat := ((s.ln.rx.rd j []).map (·.length)).sum

def State.rxPush (s : State) (j : Nat) (rows : List (List (List CWord))) : State :=
  { s with ln := { s.ln with rx := s.ln.rx.up j [] (· ++ rows) } }

/-- Words that the ingress buffer gives back with an uncorrectable error are delivered POISON (R567). -/
def rotWords (rot : List Nat) (ws : List CWord) : List CWord :=
  ws.zipIdx.map (fun (w, i) => if rot.contains i then opWord codePOISON 0 else w)

/-- Put a frame's META beat and data beats into the ingress buffer (R272, R274): whether it was whole; what does not fit ends
it with cause 0x5, and with no room for its META beat it is discarded. -/
def State.rxStore (s : State) (j : Nat) (m : List CWord) (words : List CWord) : Bool × State :=
  let k := s.lnK j
  let room := 1024 * k - s.rxUsed j
  let bs := m :: beatsOf words
  if bs.length ≤ room then (true, s.rxPush j (rowsOf k bs))
  else if room = 0 then (false, s.lnCount j 4 1)
  else
    let kept := (words.take (6 * (room - 1))).map (fun w =>
      if w.code.toNat == codeERR then opWord codeDATA w.data.toNat else w)
    (false, ((s.lnCount j 4 1).lnCount j 1 1).rxPush j (rowsOf k (m :: beatsOf (kept ++ [opWord codeERR (5 * 2 ^ 20)]))))

/-- Two bytes of a frame as a number. -/
def be16 (l : List Byte) (i : Nat) : Nat := bytesBE ((l.drop i).take 2)

/-- MACCTL (R269). -/
def macCtl (l : List Byte) : Nat :=
  if be16 l 12 = 0x8808 then (match be16 l 14 with
    | 0x0001 => 1
    | 0x0101 => 2
    | _ => 3)
  else 0

/-- Whether a frame's FCS is good (R271). -/
def fcsGood (l : List Byte) : Bool := decide (4 ≤ l.length) && fcsOf (l.take (l.length - 4)) == l.drop (l.length - 4)

/-- The causes that keep a frame from being delivered intact (R271): of several the spec names no order. Of a frame that was cut short
nothing else is judged. -/
def State.rxCauses (s : State) (j : Nat) (f : RxFrame) : List Nat :=
  if f.cut || !s.flag .lnStat j 30 then [6]
  else (if fcsGood f.bytes then [] else [1]) ++ (if f.bytes.length < 64 then [2] else [])
    ++ (if s.fld .lnCfg j 13 0 < f.bytes.length then [3] else []) ++ (if f.pcsError then [4] else [])

/-- The cause delivered: the only one, or a free choice among several (log entry 3). -/
def State.rxCause (s : State) (j : Nat) (f : RxFrame) : Option Nat × State :=
  match s.rxCauses j f with
  | [] => (none, s)
  | [c] => (some c, s)
  | l => let (w, s) := s.freeWord; (some (l.getD (w.toNat % l.length) 1), s)

/-- The FEC counters of codewords decoded (R306). -/
def State.fecCount (s : State) (j : Nat) (l : List FecWord) : State :=
  forEach l s (fun c s =>
    let s := (s.lnCount j 9 1).lnCount j 10 c.bits
    match c.corrected with
    | some n => s.lnCount j (11 + n.val) 1
    | none => s.lnCount j 27 1)

/-- Deliver a frame's bytes into the fabric (R268, R271, R306): `low` are bits [16:6] of the status word. Every FCS failure counts, and an
over-long frame is delivered up to MAXLEN bytes, whatever cause is given. -/
def State.rxDeliver (s : State) (j : Nat) (f : RxFrame) (low : Nat) (body : List Byte) : State :=
  let i := j + f.lane.val % s.lnK j
  let m := metaBeatOf j low (s.flag .lnStat i 29) (s.ingressTime i f.ago)
  let cs := s.rxCauses j f
  let s := if cs.contains 1 then s.lnCount j 2 1 else s
  match s.rxCause j f with
  | (none, s) =>
    let (whole, s) := s.rxStore j m (rotWords f.rot (packetWords body))
    if whole then s.lnCount j 0 1 else s
  | (some c, s) =>
    let body := if cs.contains 3 then body.take (s.fld .lnCfg j 13 0) else body
    let (whole, s) := s.rxStore j m (rotWords f.rot (errWords body c))
    if whole then s.lnCount j 1 1 else s

/-- Whether the lane takes frames: an enabled Ethernet port whose group is powered and that is not training (R265, R266). What came of a
frame before its lane was disabled is taken too (R271). -/
def State.rxOpen (s : State) (j : Nat) (f : RxFrame) : Bool := (s.lnEn j || f.cut) && !s.lnRaw j && s.groupOn j && !s.closed (64 + j / 8) && !s.flag .lnTrain j 30

/-- Whether a frame is the Pyril engine's (R297). -/
def State.isPyril (s : State) (j : Nat) (f : RxFrame) : Bool := s.flag .lnCfg j 20 && be16 f.bytes 12 == 0x88B5

/-- RECEIVE_FRAME (R268): every frame but the Pyril engine's. -/
def execReceiveFrame (j : Fin 128) (f : RxFrame) (s : State) : Res :=
  .next (if !s.rxOpen j.val f || s.isPyril j.val f then s
    else
      let s := s.fecCount j.val f.fec
      if !s.laneWatched j.val then s.lnCount j.val 3 1
      else
        let mc := macCtl f.bytes
        let s := if mc = 0 then s else s.lnCount j.val 30 1
        let body := if s.flag .lnCfg j.val 21 && 4 < f.bytes.length then f.bytes.take (f.bytes.length - 4) else f.bytes
        s.rxDeliver j.val f (mc * 2 ^ 15) body)

/-! ## Raw receive (R280) -/

/-- Store what a raw lane delivers, and whether there was room: beats that do not fit are counted, and a GAP beat with the count goes
before the next beat that does. -/
def State.rawStore (s : State) (j units : Nat) (bs : List (List CWord)) : Bool × State :=
  let lost := s.ln.rxGap.rd j 0
  let gap := if lost = 0 then [] else [opWord codeGAP lost :: List.replicate 5 opIdle]
  if s.rxUsed j + gap.length + bs.length ≤ 1024 then
    let s := { s with ln := { s.ln with rxGap := s.ln.rxGap.wr j 0 0 } }
    (true, s.rxPush j ((gap ++ bs).map (fun b => [b])))
  else (false, { s with ln := { s.ln with rxGap := s.ln.rxGap.wr j 0 (min (lost + units) 0xFFFFFF) } })

/-- Codeword lock (R280): declared after 8 good codewords running, lost after 8 bad ones. -/
def State.cwLock (s : State) (j : Nat) (good : Bool) : State :=
  let g := if good then s.ln.good.rd j 0 + 1 else 0
  let b := if good then 0 else s.ln.badRun.rd j 0 + 1
  let s := { s with ln := { s.ln with good := s.ln.good.wr j 0 (min g 8), badRun := s.ln.badRun.wr j 0 (min b 8) } }
  let lock := s.flag .lnStat j 30
  let now := if lock then decide (b < 8) else decide (8 ≤ g)
  if lock == now then s else (s.setBit .lnStat j 30 now).laneSticky j 6

/-- RAW_RECEIVE (R280): `rot` are the words that the ingress buffer gives back with an uncorrectable error (R567). -/
def execRawReceive (j : Fin 128) (u : RawUnit) (ago : Nat) (rot : List Nat) (s : State) : Res :=
  let L := j.val
  let m (low : Nat) := metaBeatOf L low (s.flag .lnStat L 29) (s.ingressTime L ago)
  .next (if !s.lnEn L || !s.lnRaw L || !s.groupOn L then s
    else match u with
    | .beat ws =>
      if s.flag .lnCfg L 26 || !s.flag .lnStat L 31 || ws.length != 6 then s
      else
        let first := s.ln.relock.rd L false
        let s := { s with ln := { s.ln with relock := s.ln.relock.wr L false false } }
        (s.rawStore L 1 ((if first then [m (2 ^ 16)] else []) ++ [rotWords rot (ws.map (fun w => opWord codeDATA w.toNat))])).2
    | .codeword ws fec =>
      if !s.flag .lnCfg L 26 || !s.flag .lnStat L 31 || ws.length != 215 then s
      else
        let locked := s.flag .lnStat L 30
        let s := (s.fecCount L [fec]).cwLock L fec.corrected.isSome
        if !locked then s
        else
          let last := 214
          let word (i : Nat) (w : W24) : CWord :=
            if i = 0 then opWord codeSOP w.toNat
            else if i = last then
              opWord (if fec.corrected.isSome then 2 else codeDATA) (w.toNat / 2 ^ 20 * 2 ^ 20)
            else opWord codeDATA w.toNat
          let body := rotWords rot (ws.zipIdx.map (fun (w, i) => word i w))
          match fec.corrected with
          | some n =>
            let (kept, s) := s.rawStore L 1 (m (n.val * 2 ^ 6) :: beatsOf body)
            if kept then s.lnCount L 0 1 else s
          | none =>
            let (kept, s) := s.rawStore L 1 (m (2 ^ 16) :: beatsOf (body ++ [opWord codeERR (4 * 2 ^ 20)]))
            if kept then s.lnCount L 1 1 else s)

/-- One fc of a lane's delivery (R272): the oldest row enters the edge stages when every one has room; none does in training (R266). An
edge input that no output selects while another of the lane's six is selected holds its words, and with them the lane: the model's
choice, since R273 speaks only of the case of none selected (log entry 132). -/
def State.presentRow (j : Nat) (s : State) : State :=
  match s.ln.rx.rd j [] with
  | [] => s
  | row :: rest =>
    let at' := row.zipIdx.flatMap (fun (b, i) => b.zipIdx.map (fun (w, k) => (8 * (j + i) + k, w)))
    if s.groupOn j && !s.flag .lnTrain j 30 && at'.all (fun (k, _) => (s.srcStage (.edge k)).room s.fc) then
      let s := forEach at' s (fun (k, w) s => s.setSrc (.edge k) ((s.srcStage (.edge k)).push s.fc (s.fc + 1) w))
      { s with ln := { s.ln with rx := s.ln.rx.wr j [] rest } }
    else s

/-! ## Words for transmission (R276-R278) -/

/-- The six stages that feed lane j, of the edge tile's outputs (R120). -/
def laneOuts (j : Nat) : List Nat := let (T, b) := laneEdge j; (List.range 6).map (fun k => 64 * T + b + k)

/-- The place of a lane group's input in a record (R113). -/
def laneLoc (j : Nat) : Nat := 0xFFF * 2 ^ 20 + j / 8 * 2 ^ 14

/-- A word of another tag is dropped at the lane group's input (R112, R113). -/
def State.laneBark (s : State) (j : Nat) (w : CWord) : State :=
  let s := s.count .swGbark (laneGroves.getD (j / 8) 0) 31 0 1
  if s.sw.dropSeen.rd (j / 8) false then s
  else
    let s := s.tellHeart 2 opTag 1 5 (laneLoc j + w.tag.toNat)
    { s with sw := { s.sw with dropSeen := s.sw.dropSeen.wr (j / 8) false true } }

/-- The words at a lane's edge outputs in this fc: one that fails parity gives way to its replacement, which is counted and told (R115);
those of another tag are dropped. -/
def State.txHeads (s : State) (j : Nat) (upset : List Nat) : List CWord × State :=
  (laneOuts j).zipIdx.foldl (fun (got, s) (k, i) =>
    match (s.stageAt k).head s.fc with
    | some w =>
      let bad := upset.contains i
      let w := parityIn opTag.toNat bad w
      let s := if bad then (s.parityNote (laneGroves.getD (j / 8) 0) opTag.toNat (laneLoc j)).setSrc (.stage k) ((s.stageAt k).swap w) else s
      if w.tag == opTag then (got ++ [w], s) else (got, (s.laneBark j w).setSrc (.stage k) ((s.stageAt k).pop s.fc))
    | none => (got, s)) ([], s)

/-- The row a port may take in this fc (R276): a whole beat at every member. `upset` names the words that fail parity, word k of member i
as 6i + k. -/
def State.txRow (s : State) (j : Nat) (upset : List (Fin 48)) : Option (List (List CWord)) × State :=
  let (rows, s) := (List.range (s.lnK j)).foldl (fun (rs, s) i =>
    let (b, s) := s.txHeads (j + i) ((upset.filter (fun u => u.val / 6 == i)).map (·.val % 6))
    (rs ++ [b], s)) (([] : List (List CWord)), s)
  (if rows.all (fun b => b.length == 6) then some rows else none, s)

/-- Take the row from the stages. -/
def State.popRow (s : State) (j : Nat) : State :=
  forEach ((s.members j).flatMap laneOuts) s (fun k s => s.setSrc (.stage k) ((s.stageAt k).pop s.fc))

/-- Count the non-IDLE words among some as discarded (R276). -/
def State.txDiscard (s : State) (j : Nat) (ws : List CWord) : State :=
  s.lnCount j 7 (ws.filter (fun w => w.code.toNat != codeIDLE)).length

/-- Bytes of a word that carries `n` of them (R6, R100). -/
def wordBytes24 (w : W24) (n : Nat) : List Byte := (toBE 3 w.toNat).take n

/-- The bytes of a frame's words. -/
def frameBytes (ws : List CWord) : List Byte := ws.flatMap (fun w => wordBytes24 w.data (codeBytes w.code.toNat))

/-- Whether a word inside a frame aborts it (R278). -/
def abortsTx (code : Nat) : Bool :=
  code == codeERR || code == codeGAP || code == codePOISON || code == codeMETA || code == codeSOP || code == codeCTRL
  || codeOpens code

/-- Beats of a frame in the transmit buffer (R279). -/
def TxFrame.beats (f : TxFrame) : Nat := (f.ws.length + 5) / 6

/-- Beats in a port's transmit buffer that the line has not had. -/
def TxSt.used (x : TxSt) : Nat := (x.q.map (fun f => f.beats - f.sent)).sum

/-- The length of a frame on the line (R278, R302): its bytes, the headers of a Pyril frame (R291), and the FCS the MAC appends. -/
def TxFrame.length (f : TxFrame) : Nat :=
  (frameBytes f.ws).length + if bit f.cmd 0 then 26 else if bit f.cmd 23 then 4 else 0

/-- The frames with a change to the last. -/
def onLast (f : TxFrame → TxFrame) : List TxFrame → List TxFrame
  | [] => []
  | [x] => [f x]
  | x :: r => x :: onLast f r

/-- The open frame ends, whole or aborted. -/
def TxSt.close (x : TxSt) (whole : Bool) : TxSt :=
  { x with inFrame := false, q := onLast (fun f => { f with ended := some whole }) x.q }

/-- The words of a row taken one after another (R278), and those that lie between frames. After MAXLEN or an underrun the rest of a frame
is discarded up to its end; a word that aborts a frame takes the rest of its row with it. -/
def TxSt.eat (maxl : Nat) : List CWord → TxSt → TxSt × List CWord
  | [], x => (x, [])
  | w :: r, x =>
    let code := w.code.toNat
    if !x.inFrame && !x.skip then (x, w :: r)
    else if code == codeIDLE then TxSt.eat maxl r x
    else if x.skip then TxSt.eat maxl r (if codeEnds code || code == codeERR then { x with skip := false } else x)
    else if abortsTx code && !((x.q.getLast?.map (fun f => f.ws.isEmpty)).getD false && codeOpens code) then (x.close false, [])
    else if code == 11 || code == 15 then TxSt.eat maxl r x
    else
      let x := { x with q := onLast (fun f => { f with ws := f.ws ++ [w] }) x.q }
      let n := (x.q.getLast?.map TxFrame.length).getD 0
      if codeEnds code then TxSt.eat maxl r (x.close (decide (n ≤ maxl)))
      else if maxl ≤ n then TxSt.eat maxl r { x.close false with skip := true }
      else TxSt.eat maxl r x

/-- A frame begins, with the command that waits or, without one, FCSGEN only (R276). -/
def TxSt.open' (x : TxSt) : TxSt :=
  { x with cmd := none, inFrame := true, q := x.q ++ [⟨(x.cmd.map (·.toNat)).getD 0x800000, [], none, 0, none⟩] }

/-- What a row does at the transmit side (R276), and the words it discards: between frames only the first word of member 0 says what it
is. -/
def TxSt.row (x : TxSt) (maxl : Nat) (ws : List CWord) : TxSt × List CWord :=
  let w0 := ws.headD opIdle
  let code := w0.code.toNat
  if x.inFrame || x.skip then TxSt.eat maxl ws x
  else if code == codeMETA then ({ x with cmd := some w0.data }, ws.drop 6)
  else if codeOpens code then TxSt.eat maxl ws x.open'
  else (x, ws)

/-- Whether a row belongs to a Pyril frame: its command, or a row of the frame it began (R277, R296). -/
def TxSt.pyril (x : TxSt) (w0 : CWord) : Bool :=
  if x.inFrame || x.skip then (x.q.getLast?.map (fun f => bit f.cmd 0)).getD false
  else if w0.code.toNat == codeMETA then bit w0.data.toNat 0
  else codeOpens w0.code.toNat && bit ((x.cmd.map (·.toNat)).getD 0) 0

/-- Whether a row is a credit return (R298). -/
def TxSt.credit (x : TxSt) (w0 : CWord) : Bool :=
  !x.inFrame && !x.skip && w0.code.toNat == codeCTRL && bits w0.data.toNat 23 20 == 1

/-- Which of the three commands of a row takes it. -/
inductive TxRow where
  | frame | pyril | credit
  deriving DecidableEq, Repr

/-- In training a row is an Ethernet one, to be discarded (R266). -/
def State.rowKind (s : State) (j : Nat) (ws : List CWord) : TxRow :=
  let w0 := ws.headD opIdle
  if s.flag .lnTrain j 30 then .frame
  else if (s.tx j).pyril w0 then .pyril else if (s.tx j).credit w0 then .credit else .frame

/-- Take a row of one kind from the edge stages, when there is one and the transmit buffer has room for it (R276, R279). -/
def State.txTake (s : State) (j : Nat) (kind : TxRow) (upset : List (Fin 48)) : State :=
  match s.txRow j upset with
  | (none, s) => s
  | (some rows, s) =>
    let ws := rows.flatMap id
    if s.rowKind j ws != kind then s
    else if s.flag .lnTrain j 30 then (s.popRow j).txDiscard j ws
    else if 1024 * s.lnK j < (s.tx j).used + s.lnK j then s
    else
      let (x, rest) := (s.tx j).row (s.fld .lnCfg j 13 0) ws
      ((s.popRow j).setTx j x).txDiscard j rest

/-! ## Frames on the line (R278, R279, R282-R285) -/

/-- The egress time (R282): the time base plus LN_TXDLY of the lane that carries the bit at the point. -/
def State.egressTime (s : State) (j : Nat) : Nat :=
  (((s.now16 : Int) + (s.reg .lnTxdly j).toInt) % ((2 ^ 48 * sec16 : Nat) : Int)).toNat

/-- Nanoseconds rounded to the nearest, a tie to the even one, as seconds and nanoseconds (R285). -/
def roundNs (t : Nat) : Nat × Nat :=
  let n := t / 65536
  let f := t % 65536
  let n := if f > 32768 || (f == 32768 && n % 2 == 1) then n + 1 else n
  (n / 1000000000, n % 1000000000)

/-- Capture an egress time (R284, R304). -/
def State.txCapture (s : State) (j tag t : Nat) : State :=
  if s.flag .lnStat j 4 then s.laneSticky j 1
  else
    let sec := t / sec16
    let s := s.setReg .lnTxtsh j (BitVec.ofNat 32 (tag * 2 ^ 24 + sec / 2 ^ 32 % 65536))
    let s := s.setReg .lnTxtsl j (BitVec.ofNat 32 sec)
    let s := s.setReg .lnTxtsn j (BitVec.ofNat 32 (t % sec16 / 65536))
    let s := s.setReg .lnTxtsf j (BitVec.ofNat 32 (t % 65536))
    s.laneSticky j 4

/-- Put bytes in place of those from `off` on. -/
def spliceBytes (l : List Byte) (off : Nat) (b : List Byte) : List Byte := l.take off ++ b ++ l.drop (off + b.length)

/-- The bytes with zeros up to `n` (R278). -/
def padTo (n : Nat) (l : List Byte) : List Byte := l ++ List.replicate (n - l.length) 0

/-- What stands on the line: the bytes of a frame from its destination address to its FCS. -/
def State.onLine (s : State) (l : List Byte) : State := { s with line := l.map (·.toNat) }

/-- The bytes of a whole frame as it is sent, before its FCS, and whether an insertion asked for is made (R278, R285). -/
def TxFrame.body (f : TxFrame) : List Byte × Bool :=
  let (t, hdr) := f.start.getD (0, [])
  let l := frameBytes f.ws
  if bit f.cmd 0 then (padTo 60 (hdr ++ l), true)
  else
    let gen := bit f.cmd 23
    let off := bits f.cmd 20 9
    let ok := gen && decide (off + 10 ≤ l.length)
    let (sec, ns) := roundNs t
    let l := if bit f.cmd 21 && ok then spliceBytes l off (toBE 6 sec ++ toBE 4 ns) else l
    (if gen then padTo 60 l else l, ok || !bit f.cmd 21)

/-- A frame has been sent whole (R278, R285). -/
def State.txSend (s : State) (j : Nat) (f : TxFrame) : State :=
  let (l, ok) := f.body
  let s := if ok then s else s.lnCount j 8 1
  (s.onLine (if bit f.cmd 23 || bit f.cmd 0 then l ++ fcsOf l else l)).lnCount j 5 1

/-- A frame is aborted (R278): what was sent of it ends with an invalid FCS, whose value the spec leaves open (log entry 3). -/
def State.txAbort (s : State) (j : Nat) (f : TxFrame) : State :=
  let l := (f.start.map (·.2)).getD [] ++ frameBytes f.ws
  let (w, s) := s.freeWord
  let good := fcsOf l
  let fcs := if toLE 4 w.toNat = good then good.map (fun b => ~~~b) else toLE 4 w.toNat
  (s.onLine (l ++ fcs)).lnCount j 6 1

/-- What becomes of a frame that could start: it is held, discarded, or begun at an egress time behind some headers. -/
inductive TxBegin where
  | hold
  | drop (s : State)
  | go (s : State) (time : Nat) (hdr : List Byte)

/-- An Ethernet frame begins (R284). -/
def State.beginFrame (lane : Nat) (j : Nat) (f : TxFrame) (s : State) : TxBegin :=
  let t := s.egressTime (j + lane % s.lnK j)
  .go (if bit f.cmd 22 then s.txCapture j (bits f.cmd 8 1) t else s) t []

/-- A frame leaves the head of the buffer; the rest of one whose end has not come is discarded. -/
def State.txDrop (s : State) (j : Nat) (f : TxFrame) : State :=
  let x := s.tx j
  s.setTx j (if f.ended.isNone then { x with q := x.q.drop 1, inFrame := false, skip := true } else { x with q := x.q.drop 1 })

/-- The line takes one more beat of a frame that has begun (R278): whole, it is sent; at its end aborted, or with the buffer empty before
its end, it is aborted. Whether the frame goes on. -/
def State.txBeat (s : State) (j : Nat) (f : TxFrame) : Bool × State :=
  let f := { f with sent := f.sent + 1 }
  if f.sent < f.beats then (true, s.setTx j { s.tx j with q := f :: (s.tx j).q.drop 1 })
  else
    let s := s.txDrop j f
    (false, if f.ended = some true then s.txSend j f else s.txAbort j f)

/-- The line takes up to n beats of the frame at the head of the buffer, when it is of this kind: it starts once its end or 48 beats of it
are buffered (R279), and not while a HELLO or CREDIT must go first (R295). -/
def State.txDrain (j : Nat) (kind : Bool) (due : Bool) (begin' : TxFrame → State → TxBegin) : Nat → State → State
  | 0, s => s
  | n + 1, s =>
    match (s.tx j).q with
    | [] => s
    | f :: _ =>
      let go (f : TxFrame) (s : State) : State :=
        let (on, s) := s.txBeat j f
        if on then State.txDrain j kind due begin' n s else s
      if bit f.cmd 0 != kind then s
      else if f.start.isSome then go f s
      else if due || !(f.ended.isSome || decide (48 ≤ f.beats)) then s
      else match begin' f s with
        | .hold => s
        | .drop s => s.txDrop j f
        | .go s t hdr => go { f with start := some (t, hdr) } s

/-- A frame on its way out of which the transmit buffer gives back an uncorrectable word is aborted (R567). -/
def State.txRot (s : State) (j : Nat) (kind rot : Bool) : State :=
  match (s.tx j).q with
  | f :: _ => if rot && f.start.isSome && bit f.cmd 0 == kind then (s.txDrop j f).txAbort j f else s
  | [] => s

/-- Whether no frame is on its way out of a port: a frame boundary (R295). -/
def State.atBoundary (s : State) (j : Nat) : Bool := ((s.tx j).q.head?.map (fun f => f.start.isNone)).getD true

/-- Whether a HELLO is overdue or a CREDIT is to be sent on a Pyril lane (R295). -/
def State.pyDue (s : State) (j : Nat) : Bool :=
  s.pySt j != 0 && (decide ((s.py j).helloAt + 1600000 ≤ s.fc) || (s.laneStreams j).any (fun k => s.ln.changed.rd k false))

/-- Whether a port may take rows: enabled, powered, released by stage OUT (R265), in Ethernet mode. -/
def State.txOpen (s : State) (j : Nat) : Bool :=
  s.lnEn j && s.groupOn j && !s.closed (64 + j / 8) && s.ln.txOn && !s.lnRaw j

/-- What a port's transmitter does (R265, R280): nothing before stage OUT; else a frame, idles, or raw fill and words. -/
inductive TxLine where
  | electricalIdle | idles | frame | raw
  deriving DecidableEq, Repr

def State.txLine (s : State) (j : Nat) : TxLine :=
  if !(s.lnEn j && s.groupOn j && !s.closed (64 + j / 8) && s.ln.txOn) then .electricalIdle
  else if s.lnRaw j then .raw else if s.atBoundary j then .idles else .frame

/-- The edge outputs towards a closed lane group accept and discard (R539). -/
def State.edgeDiscard (s : State) (j : Nat) : State :=
  forEach (laneOuts j) s (fun k s => if ((s.stageAt k).head s.fc).isSome then s.setSrc (.stage k) ((s.stageAt k).pop s.fc) else s)

/-- TRANSMIT_FRAME (R276, R279): the line takes `beats` beats, no more than the port has lanes, of an Ethernet frame, and a row enters the
buffer. `lane` is the member that carries the bit of the timestamp point; `rot` says that the buffer's next word of a frame begun is
uncorrectable (R567). -/
def execTransmitFrame (j : Fin 128) (beats : Nat) (lane : Fin 8) (rot : Bool) (upset : List (Fin 48)) (s : State) : Res :=
  let J := j.val
  .next (if s.closed (64 + J / 8) then s.edgeDiscard J
    else if !s.txOpen J then s
    else
      let s := if s.flag .lnTrain J 30 then s
        else State.txDrain J false (s.pyDue J) (State.beginFrame lane.val J) (min beats (s.lnK J)) (s.txRot J false rot)
      s.txTake J .frame upset)

/-! ## Raw transmit (R280) -/

/-- The words of a beat a raw lane without FEC sends, and those it discards. -/
def rawTakes (code : Nat) : Bool := code == codeDATA || codeOpens code || codeEnds code

/-- A raw lane with FEC assembles its packets, each word in turn: a whole packet of 643 bytes is one codeword; one of another length, or
one that another packet cuts off, is discarded and counted in TXABT, and words between packets in TXDISC. -/
def State.rawAssemble (j : Nat) : List CWord → State → State
  | [], s => s
  | w :: r, s =>
    let x := s.tx j
    let code := w.code.toNat
    if code == codeIDLE then State.rawAssemble j r s
    else if !rawTakes code || !(x.inFrame || codeOpens code) then State.rawAssemble j r (s.lnCount j 7 1)
    else
      let s := if codeOpens code && x.inFrame then s.lnCount j 6 1 else s
      let ws := if codeOpens code then [w] else x.ws ++ [w]
      if !codeEnds code then State.rawAssemble j r (s.setTx j { x with ws := ws, inFrame := true })
      else if (frameBytes ws).length = 643 then
        State.rawAssemble j r (s.setTx j { x with ws := [], inFrame := false, q := x.q ++ [⟨0, ws, some true, 0, none⟩] })
      else State.rawAssemble j r ((s.lnCount j 6 1).setTx j { x with ws := [], inFrame := false })

/-- One unit of a raw lane's line: six words without FEC, a codeword's payload with it; what the buffer cannot give is fill, and a unit
without any data counts in TXABT. -/
def State.rawSend (s : State) (j : Nat) : State :=
  let x := s.tx j
  let fill := s.fld .lnRawfill j 23 0
  let (got, x, n) := if s.flag .lnCfg j 26 then (((x.q.head?.map (·.ws)).getD []), { x with q := x.q.drop 1 }, 215)
    else (x.ws.take 6, { x with ws := x.ws.drop 6 }, 6)
  let s := s.setTx j x
  { (if got.isEmpty then s.lnCount j 6 1 else s) with
    line := got.map (fun w => w.data.toNat) ++ List.replicate (n - got.length) fill }

/-- RAW_TRANSMIT (R280): when `due`, the time of the next beat or codeword begins on the line; and a row enters the buffer, which holds
1,024 beats (R279). -/
def execRawTransmit (j : Fin 128) (due : Bool) (upset : List (Fin 48)) (s : State) : Res :=
  let L := j.val
  .next (if s.closed (64 + L / 8) then s.edgeDiscard L
    else if !(s.lnEn L && s.lnRaw L && s.groupOn L && s.ln.txOn) then s
    else
      let s := if due then s.rawSend L else s
      match s.txRow L upset with
      | (none, s) => s
      | (some rows, s) =>
        let ws := rows.flatMap id
        let x := s.tx L
        if 1024 < x.used + (x.ws.length + 5) / 6 + 1 then s
        else if s.flag .lnCfg L 26 then State.rawAssemble L ws (s.popRow L)
        else
          let s := (s.popRow L).lnCount L 7 (ws.filter (fun w => !rawTakes w.code.toNat && w.code.toNat != codeIDLE)).length
          s.setTx L { x with ws := x.ws ++ ws.filter (fun w => rawTakes w.code.toNat) })

end Sys2Proof.Machine
end

