-- ==== Sys2Proof/Machine/Pyril.lean ====
section
/-! DEFINITION. Pyril link (R291-R300, R307): hellos, credit and data frames. -/

namespace Sys2Proof.Machine

/-- The device's VERMAX (R300). -/
def verMax : Nat := 1

/-- A lane's own address (R291, R307). -/
def State.pySa (s : State) (j : Nat) : Nat := s.fld .lnPymach j 15 0 * 2 ^ 32 + (s.reg .lnPymacl j).toNat

/-- The addresses and the EtherType of a Pyril frame (R291). -/
def State.pyHead (s : State) (j : Nat) : List Byte :=
  let da := match (s.py j).peerSa with
    | some a => a.toNat
    | none => 2 ^ 48 - 1
  toBE 6 da ++ toBE 6 (s.pySa j) ++ toBE 2 0x88B5

/-- A Pyril frame (R291): its addresses, the EtherType and the Pyril bytes, padded, with its FCS. -/
def State.pyFrame (s : State) (j : Nat) (body : List Byte) : List Byte :=
  let l := padTo 60 (s.pyHead j ++ body)
  l ++ fcsOf l

/-- The version a lane transmits (R300). -/
def State.txVer (s : State) (j : Nat) : Nat := s.fld .lnPyl j 27 24

/-- GRANTED of a stream (R293). -/
def State.grantedOf (s : State) (k : Nat) : Word :=
  BitVec.ofNat 32 (s.fld .lnPys k 15 0) + s.ln.granted.rd k 0

/-- Whether a stream is enabled and bound to the lane (R292). -/
def State.streamOn (s : State) (j st : Nat) : Bool :=
  let k := 256 * (j / 8) + st
  s.flag .lnPys k 31 && s.fld .lnPys k 30 28 == j % 8

def streamKey (j st : Nat) : Nat := 256 * (j / 8) + st

/-- The entry of a stream in a HELLO (R291). -/
def State.helloEntry (s : State) (k : Nat) : List Byte :=
  [BitVec.ofNat 8 (k % 256), BitVec.ofNat 8 (s.fld .lnPyg k 31 24), BitVec.ofNat 8 (s.fld .lnPyg k 23 16),
   BitVec.ofNat 8 (s.fld .lnPyg k 15 8)] ++ toBE 4 (s.grantedOf k).toNat

/-- The streams listed are no longer changed since the last CREDIT or HELLO (R295). -/
def State.told (s : State) (ks : List Nat) : State :=
  { s with ln := { s.ln with changed := ks.foldl (fun t k => t.del k) s.ln.changed } }

/-- Whether the Pyril engine of a lane is out of OFF (R294). -/
def State.pyOn (s : State) (j : Nat) : Bool := s.lnEn j && s.flag .lnCfg j 20 && s.groupOn j && s.ln.txOn && !s.flag .lnTrain j 30

/-- HELLO_SEND (R295): every 1,600,000 fc, the first at any time until then, at a frame boundary. -/
def execHelloSend (j : Fin 128) (s : State) : Res :=
  let L := j.val
  .next (if !s.pyOn L || !s.atBoundary L || !((s.py L).first || decide ((s.py L).helloAt + 1600000 ≤ s.fc)) then s
    else
      let ks := s.laneStreams L
      let x := s.py L
      let body := [BitVec.ofNat 8 (s.txVer L * 16 + 3), BitVec.ofNat 8 verMax] ++ toBE 2 (s.fld .lnPyl L 15 0)
        ++ toBE 4 x.hseq.toNat ++ toBE 2 ks.length ++ ks.flatMap s.helloEntry
      ((s.onLine (s.pyFrame L body)).setPy L { x with hseq := x.hseq + 1, helloAt := s.fc, first := false }).told ks)

/-- The credit beat (R299): one row with CTRL on member 0. -/
def State.creditBeat (s : State) (j st : Nat) : State :=
  s.rxPush j (rowsOf (s.lnK j) [opWord codeCTRL (2 ^ 20 + st * 2 ^ 12 + min (s.avail (streamKey j st)) 4095) :: List.replicate 5 opIdle])

/-- An entry of the peer: its GRANTED for a stream, and the credit beat when the credit rose (R293, R299). -/
def State.peerEntry (j st : Nat) (granted : Word) (s : State) : State :=
  if s.streamOn j st then
    let k := streamKey j st
    let was := s.avail k
    let s := { s with ln := { s.ln with peerGranted := s.ln.peerGranted.wr k 0 granted } }
    if was < s.avail k then s.creditBeat j st else s
  else s

/-- The Pyril bytes of a received frame, without its FCS. -/
def pyBody (f : RxFrame) : List Byte := (f.bytes.take (f.bytes.length - 4)).drop 14
def pyVer (b : List Byte) : Nat := bytesBE (b.take 1) / 16
def pyType (b : List Byte) : Nat := bytesBE (b.take 1) % 16
def byteAt (b : List Byte) (i : Nat) : Nat := bytesBE ((b.drop i).take 1)

/-- Whether a frame reaches the lane's Pyril engine intact (R297). -/
def State.pyTakes (s : State) (j : Nat) (f : RxFrame) (type : Nat) : Bool :=
  s.rxOpen j f && !f.cut && s.isPyril j f && pyType (pyBody f) == type

/-- Whether a HELLO is valid (R291, R294). -/
def helloValid (b : List Byte) : Bool :=
  1 ≤ pyVer b && pyVer b ≤ verMax && decide (be16 b 8 ≤ 256) && decide (10 + 8 * be16 b 8 ≤ b.length)

/-- HELLO_RECEIVE (R294): the lane goes UP; a new epoch of the peer takes it through DOWN first. -/
def execHelloReceive (j : Fin 128) (f : RxFrame) (s : State) : Res :=
  let L := j.val
  let b := pyBody f
  .next (if !s.pyTakes L f 3 then s
    else
      let s := s.fecCount L f.fec
      if !fcsGood f.bytes then s.lnCount L 2 1
      else if f.pcsError || !helloValid b then s
      else
        let x := s.py L
        let ep : BitVec 16 := BitVec.ofNat 16 (be16 b 2)
        let s := if s.pySt L == 2 && x.peerEpoch != some ep then s.pyDown L else s
        let s := s.setPy L { s.py L with
          peerSa := some (BitVec.ofNat 48 (bytesBE ((f.bytes.drop 6).take 6))), peerEpoch := some ep, heard := s.fc }
        let s := s.setPySt L 2
        let s := (s.setFld .lnPyl L 31 28 (min (byteAt b 1) 15)).setFld .lnPyl L 27 24 (min verMax (byteAt b 1))
        forEach (List.range (be16 b 8)) s (fun i s =>
          State.peerEntry L (byteAt b (10 + 8 * i)) (BitVec.ofNat 32 (bytesBE ((b.drop (14 + 8 * i)).take 4))) s))

/-- HELLO_TIMEOUT (R294). -/
def execHelloTimeout (j : Fin 128) (s : State) : Res :=
  .next (if s.pySt j.val == 2 && decide ((s.py j.val).heard + 4800000 ≤ s.fc) then s.pyDown j.val else s)

/-- CREDIT_SEND (R295), at a frame boundary: the streams whose GRANTED has changed, at most 64 in a frame. -/
def execCreditSend (j : Fin 128) (s : State) : Res :=
  let L := j.val
  let ks := ((s.laneStreams L).filter (fun k => s.ln.changed.rd k false)).take 64
  .next (if !s.pyOn L || !s.atBoundary L || ks.isEmpty then s
    else
      let body := [BitVec.ofNat 8 (s.txVer L * 16 + 2), BitVec.ofNat 8 ks.length, 0, 0, 0, 0, 0, 0]
        ++ ks.flatMap (fun k => [BitVec.ofNat 8 (k % 256), 0] ++ toBE 4 (s.grantedOf k).toNat)
      (s.onLine (s.pyFrame L body)).told ks)

/-- CREDIT_RECEIVE (R293): taken on a lane that is UP. -/
def execCreditReceive (j : Fin 128) (f : RxFrame) (s : State) : Res :=
  let L := j.val
  let b := pyBody f
  .next (if !s.pyTakes L f 2 then s
    else
      let s := s.fecCount L f.fec
      if !fcsGood f.bytes then s.lnCount L 2 1
      else if f.pcsError || s.pySt L != 2 || !(1 ≤ pyVer b && pyVer b ≤ verMax) then s
      else forEach (List.range (byteAt b 1)) s (fun i s =>
        State.peerEntry L (byteAt b (8 + 6 * i)) (BitVec.ofNat 32 (bytesBE ((b.drop (10 + 6 * i)).take 4))) s))

/-- CREDIT_RETURN (R298): the CTRL word on member 0 between frames. -/
def execCreditReturn (j : Fin 128) (upset : List (Fin 48)) (s : State) : Res :=
  let L := j.val
  .next (if !s.txOpen L then s
    else match s.txRow L upset with
    | (none, s) => s
    | (some rows, s) =>
      let ws := rows.flatMap id
      if s.rowKind L ws != .credit then s
      else
        let d := (ws.headD opIdle).data.toNat
        let st := bits d 19 12
        let n := bits d 11 0
        let k := streamKey L st
        let s := (s.popRow L).txDiscard L (ws.drop 1)
        if n != 0 && s.streamOn L st then
          { s with ln := { s.ln with granted := s.ln.granted.up k 0 (· + BitVec.ofNat 32 n), changed := s.ln.changed.wr k false true } }
        else s.lnCount L 7 1)

/-- Whether a Pyril command holds nothing it must not (R277). -/
def pyCmdOk (cmd : Nat) : Bool := bits cmd 22 21 == 0 && bits cmd 12 1 == 0

/-- A Pyril data frame could start (R277, R296): it is discarded and counted in PYTXD, waits for credit, or begins, counted in SENT, with
its headers as the stream's settings now stand. An aborted one begins and is counted like any other, since its peer takes it for one. -/
def State.beginPyril (j : Nat) (f : TxFrame) (s : State) : TxBegin :=
  let st := bits f.cmd 20 13
  let k := streamKey j st
  if !pyCmdOk f.cmd || !s.streamOn j st || s.pySt j != 2 then .drop (s.lnCount j 29 1)
  else if s.avail k = 0 then .hold
  else .go { s with ln := { s.ln with sent := s.ln.sent.up k 0 (· + 1) } } 0
    (s.pyHead j ++ [BitVec.ofNat 8 (s.txVer j * 16 + 1), BitVec.ofNat 8 st, BitVec.ofNat 8 (s.fld .lnPyg k 31 24), 0]
      ++ toBE 2 (s.fld .lnPys k 27 18 * 64) ++ [0, 0])

/-- PYRIL_DATA_SEND (R296): the line takes `beats` beats of a Pyril data frame, and a row of one, or its command, enters the buffer;
`rot` as in TRANSMIT_FRAME. -/
def execPyrilDataSend (j : Fin 128) (beats : Nat) (rot : Bool) (upset : List (Fin 48)) (s : State) : Res :=
  let J := j.val
  .next (if !s.txOpen J then s
    else
      let s := if s.flag .lnTrain J 30 then s
        else State.txDrain J true (s.pyDue J) (State.beginPyril J) (min beats (s.lnK J)) (s.txRot J true rot)
      s.txTake J .pyril upset)

/-- Whether a generation is accepted (R292). -/
def genOk (lo hi g : Nat) : Bool := if lo ≤ hi then lo ≤ g && g ≤ hi else lo ≤ g || g ≤ hi

/-- PYRIL_DATA_RECEIVE (R297): judged in the table's order; a frame of a reserved TYPE falls here too. Nothing in a frame padded to 60
bytes says how many of its bytes are payload: `pay` does (log entry 133). -/
def execPyrilDataReceive (j : Fin 128) (f : RxFrame) (pay : Fin 39) (s : State) : Res :=
  let L := j.val
  let b := pyBody f
  .next (if !(s.rxOpen L f && s.isPyril L f) || pyType b == 2 || pyType b == 3 then s
    else
      let s := s.fecCount L f.fec
      let st := byteAt b 1
      let k := streamKey L st
      if !(1 ≤ pyVer b && pyVer b ≤ verMax) || pyType b != 1 || s.pySt L != 2 then s.lnCount L 28 1
      else if !s.streamOn L st then s.lnCount L 28 1
      else if (s.grantedOf k).toNat ≤ (s.ln.recv.rd k 0).toNat then s.lnCount L 28 1
      else if be16 b 4 / 64 != s.fld .lnPys k 27 18 then s.count .lnPyd k 15 0 1
      else if !genOk (s.fld .lnPyg k 23 16) (s.fld .lnPyg k 15 8) (byteAt b 2) then s.count .lnPyd k 31 16 1
      else
        let s := { s with ln := { s.ln with recv := s.ln.recv.up k 0 (· + 1) } }
        if !s.laneWatched L then s.lnCount L 3 1
        else s.rxDeliver L f (2 ^ 14 + st * 2 ^ 6)
          (if f.bytes.length = 64 then (b.drop 8).take (max 1 pay.val) else b.drop 8))

end Sys2Proof.Machine
end

