-- ==== Sys2Proof/Machine/Queues.lean ====
section
/-! DEFINITION. The queue engine (R209-R236): token buckets, selection, sojourn histograms, and its registers. -/

namespace Sys2Proof

open Machine

/-- A token bucket (R215). -/
inductive Bucket where
  | queue (q : Nat)
  | cir (b : Nat)
  | pir (b : Nat)
  deriving DecidableEq, Repr

namespace Machine

/-! ## Buckets (R215-R219) -/

/-- The level, rate and burst registers of a bucket. -/
def bucketRegs : Bucket → Nat × RegName × RegName × RegName
  | .queue q => (q, .qeQlvl, .qeQrate, .qeQburst)
  | .cir b => (b, .qeBclvl, .qeBcir, .qeBcburst)
  | .pir b => (b, .qeBplvl, .qeBpir, .qeBpburst)

def State.level (s : State) (k : Bucket) : Int :=
  let (i, l, _, _) := bucketRegs k
  (s.reg l i).toInt

def State.setLevel (s : State) (k : Bucket) (v : Int) : State :=
  let (i, l, _, _) := bucketRegs k
  s.setReg l i (BitVec.ofInt 32 v)

def State.bRate (s : State) (k : Bucket) : Nat :=
  let (i, _, r, _) := bucketRegs k
  s.fld r i 30 0

def State.bBurst (s : State) (k : Bucket) : Nat :=
  let (i, _, _, b) := bucketRegs k
  s.fld b i 24 0

/-- DIS (R216); a CIR bucket has none. -/
def State.bypassed (s : State) (k : Bucket) : Bool :=
  match k with
  | .cir _ => false
  | _ => let (i, _, _, b) := bucketRegs k; s.flag b i 31

def State.bOpen (s : State) (k : Bucket) : Bool := !s.bypassed k && s.bRate k != 0

/-- Whether a bucket passes a departure (R216). -/
def State.passes (s : State) (k : Bucket) : Bool := s.bypassed k || (s.bOpen k && decide (0 ≤ s.level k))

/-- Where a bucket's residue stands. -/
def residKey (k : Bucket) : Nat := let (i, l, _, _) := bucketRegs k; l.key i

def State.resid (s : State) (k : Bucket) : Nat := (s.qe.resid.rd (residKey k) 0).toNat
def State.setResid (s : State) (k : Bucket) (v : Nat) : State :=
  { s with qe := { s.qe with resid := s.qe.resid.wr (residKey k) 0 (BitVec.ofNat 16 v) } }

/-- What has befallen a bucket in this fc. -/
def State.bucketDay (s : State) (k : Bucket) : BucketDay := s.qe.day.rd (residKey k) ⟨0, []⟩

/-- What a register write does to a level and residue (R212, R219). -/
def LevelAct.act : LevelAct → Int × Nat → Int × Nat
  | .forgive, (l, r) => (max l 0, r)
  | .clip b, (l, r) => if (b : Int) < l then ((b : Int), 0) else (l, r)
  | .zero, _ => (0, 0)

/-- A refill of a level and residue (R218, step 3). -/
def refilled (rate burst : Nat) (x : Int × Nat) : Int × Nat :=
  let f := x.2 + bits rate 15 0
  let l := x.1 + (bits rate 30 16 + f / 65536 : Nat)
  if (burst : Int) ≤ l then ((burst : Int), 0) else (l, f % 65536)

/-- A bucket's level and residue at the end of an fc (R218): from what they were at its start, the fc's debit, then its register writes in
the order they landed, then the refill of an open bucket in the fc of one, at the settings as they stand after the writes. -/
def State.settled (s : State) (k : Bucket) : Int × Nat :=
  let d := s.bucketDay k
  let x := d.acts.foldl (fun x a => a.act x) (s.atStart.level k - d.debit, s.atStart.resid k)
  if s.qe.refillAt = s.fc + 1 && s.bOpen k then refilled (s.bRate k) (s.bBurst k) x else x

/-- The level and residue follow what has befallen the bucket so far, whatever the order of the commands of the fc. -/
def State.settle (k : Bucket) (s : State) : State := (s.setLevel k (s.settled k).1).setResid k (s.settled k).2

/-- Something more befalls a bucket in this fc. -/
def State.befall (s : State) (k : Bucket) (f : BucketDay → BucketDay) : State :=
  State.settle k { s with qe := { s.qe with day := s.qe.day.up (residKey k) ⟨0, []⟩ f } }

/-- A departure debits a bucket that is open as the fc begins (R216, R217). -/
def State.debit (s : State) (k : Bucket) (cost : Nat) : State :=
  if s.atStart.bOpen k then s.befall k (fun d => { d with debit := d.debit + cost }) else s

/-- A refill made earlier in this fc is made again at the settings as they now stand (R218). -/
def State.resettle (s : State) (k : Bucket) : State := if s.qe.refillAt = s.fc + 1 then State.settle k s else s

/-- A register write acts on a bucket's level (R219). -/
def State.levelAct (s : State) (k : Bucket) (a : LevelAct) : State := s.befall k (fun d => { d with acts := d.acts ++ [a] })

/-- The buckets whose rate registers hold something. -/
def State.buckets (s : State) : List Bucket :=
  s.regs.filterMap (fun e =>
    if e.1 % 256 == RegName.qeQrate.ctorIdx then some (.queue (e.1 / 256))
    else if e.1 % 256 == RegName.qeBcir.ctorIdx then some (.cir (e.1 / 256))
    else if e.1 % 256 == RegName.qeBpir.ctorIdx then some (.pir (e.1 / 256))
    else none)

/-- BUCKET_REFILL (R218): in an fc whose refill counter stands at 255, once. -/
def execBucketRefill (s : State) : Res :=
  .next (if s.qe.refill = 255 && s.qe.refillAt != s.fc + 1
    then forEach s.buckets { s with qe := { s.qe with refillAt := s.fc + 1 } } State.settle else s)

/-! ## Selection (R213, R217, R220, R221) -/

def State.queueBough (s : State) (q : Nat) : Option Nat := if s.flag .qeQcfg q 27 then some (s.fld .qeQcfg q 26 16) else none

/-- The packet at the head of a queue that was enqueued before this fc. -/
def State.headPkt (s : State) (q : Nat) : Option Pkt :=
  match s.qe.pkts.rd q [] with
  | x :: _ => if x.enq < s.fc then some x else none
  | [] => none

def State.queueEligible (s : State) (q : Nat) : Bool :=
  s.flag .qeQcfg q 27 && !s.flag .qeQcfg q 31 && (s.headPkt q).isSome && s.passes (.queue q)

/-- What a packet costs on port p (R217). -/
def State.cost (s : State) (p len : Nat) : Nat :=
  (max 1 ((len : Int) + sgn 8 (s.fld .qePcfg p 7 0))).toNat

def State.headCost (s : State) (p q : Nat) : Nat := ((s.headPkt q).map (fun x => s.cost p x.len)).getD 0

/-- The member after x, in ascending number with wrap. -/
def nextMember (members : List Nat) (x : Nat) : Nat :=
  match members.filter (fun y => x < y) with
  | y :: _ => y
  | [] => members.headD x

/-- The deficit round robin (R221) over a member set whose deficits stand at `base`; `fuel` bounds the loop, which the spec
shows to end. Answers the member, the pointer and the deficits. -/
def dwrr (fuel : Nat) (members e : List Nat) (cost quantum : Nat → Nat) (base ptr : Nat) (df : Tbl Nat) :
    Option (Nat × Nat × Tbl Nat) :=
  match fuel with
  | 0 => none
  | fuel + 1 =>
    if e.contains ptr && decide (cost ptr ≤ df.rd (base + ptr) 0) then
      some (ptr, ptr, df.wr (base + ptr) 0 (df.rd (base + ptr) 0 - cost ptr))
    else
      let df := if e.contains ptr then df else df.wr (base + ptr) 0 0
      let y := nextMember members ptr
      let df := if e.contains y then df.wr (base + y) 0 (df.rd (base + y) 0 + quantum y) else df
      dwrr fuel members e cost quantum base y df

/-- Passes enough for any cost (R217, R221): each adds at least 256 bytes to a member. -/
def dwrrFuel (members : List Nat) : Nat := 260 * (members.length + 2)

/-- The weighted members of a bough: its queues 8-31 that are attached to it (R221), as global queue numbers. -/
def State.boughQueues (s : State) (b : Nat) (lo hi : Nat) : List Nat :=
  let own := s.fld .qeBcfg b 31 22
  if own < 512 then ((List.range (hi - lo)).map (fun i => 32 * own + lo + i)).filter (fun q => s.queueBough q == some b) else []

/-- queue_pick (R221): the queue, and the bough's pointer and deficits after it. -/
def State.queuePick (s : State) (p b : Nat) : Option (Nat × Option (Nat × Tbl Nat)) :=
  match (s.boughQueues b 0 8).filter s.queueEligible with
  | q :: _ => some (q, none)
  | [] =>
    let ms := s.boughQueues b 8 32
    let e := ms.filter s.queueEligible
    if e.isEmpty then none
    else
      let set := 256 + b
      let loc (q : Nat) := q % 32
      let own := 32 * s.fld .qeBcfg b 31 22
      match dwrr (dwrrFuel ms) (ms.map loc) (e.map loc) (fun i => s.headCost p (own + i))
          (fun i => 256 * s.fld .qeQcfg (own + i) 7 0) (4096 * set) (s.qe.ptr.rd set 0) s.qe.deficit with
      | some (i, ptr, df) => some (own + i, some (ptr, df))
      | none => none

/-- The assigned boughs of a port (R221). -/
def State.portBoughs (s : State) (p : Nat) : List Nat :=
  (s.regs.filter (fun e => e.1 % 256 == RegName.qeBcfg.ctorIdx && bits e.2.toNat 31 22 < 512 && bits e.2.toNat 20 14 == p)).map
    (fun e => e.1 / 256)

/-- Whether a bough is eligible in a phase: committed or excess (R220). -/
def State.boughEligible (s : State) (committed : Bool) (b : Nat) : Bool :=
  (s.boughQueues b 0 32).any s.queueEligible && s.passes (.pir b)
    && (!committed || (s.bOpen (.cir b) && decide (0 ≤ s.level (.cir b))))

/-! ## Histograms (R222, R223) -/

/-- The bin of a sojourn (R223). -/
def sojBin (shift soj : Nat) : Nat :=
  ((List.range 15).filter (fun k => 2 ^ (shift + k) ≤ soj)).length

def State.histRecord (s : State) (h soj : Nat) : State :=
  let s := s.count .qeHbin (16 * h + sojBin (s.fld .qeHcfg h 15 12) soj) 31 0 1
  if s.fld .qeHmax h 31 0 < soj then s.setFld .qeHmax h 31 0 soj else s

/-- Record a selected packet in a histogram it falls in (R222). -/
def State.histOne (x : Selected) (h : Nat) (s : State) : State :=
  let t := s.fld .qeHcfg h 29 16
  let hit := match s.fld .qeHcfg h 31 30 with
    | 0 => false
    | 1 => t == x.queue
    | 2 => t == x.bough
    | _ => t == x.port
  if hit then s.histRecord h x.soj else s

/-- Record a selected packet in every histogram it falls in (R222). -/
def State.histAll (s : State) (x : Selected) : State := forEach (List.range 64) s (State.histOne x)

def State.histClear (s : State) (h : Nat) : State :=
  (forEach (List.range 16) s (fun k s => s.setReg .qeHbin (16 * h + k) 0)).setReg .qeHmax h 0

/-- Whether the engine may select for port p (R213, R539): by what stands at the start of the fc, and once in it. -/
def State.maySelect (s : State) (p : Nat) : Bool :=
  let z := s.atStart
  (z.cout p).slot.isNone && (s.cout p).slot.isNone && decide ((z.cout p).slotFree ≤ s.fc) && !z.flag .qePcfg p 31
    && z.cf.wenGrove.rd (p / 2) false && s.powered (p / 2) && !s.closed (p / 2)

/-- Take the head packet `x` of queue q through bough b onto port p in a phase (R217, R221, R222). -/
def State.selectPkt (s : State) (p b q : Nat) (committed : Bool) (x : Pkt) : State :=
  let c := s.atStart.cost p x.len
  let s := { s with qe := { s.qe with pkts := s.qe.pkts.up q [] (fun l => l.filter (· != x)) } }
  let s := (s.debit (.queue q) c).debit (.pir b) c
  let s := if committed then s.debit (.cir b) c else s
  let y : Selected := ⟨q, b, p, min (s.fc - x.enq) 0xFFFFFFFF⟩
  let s := { s with qe := { s.qe with sel := s.qe.sel ++ [y] } }
  (s.histAll y).setCout p { s.cout p with
    slot := some (s.fc, ⟨q, BitVec.ofNat 10 (q / 32), x.len, [], 0, some x.head, [], false⟩) }

/-- Whether a bough was put back to 0 by a write that landed in this fc (R212). -/
def State.boughZeroed (s : State) (b : Nat) : Bool := (s.bucketDay (.cir b)).acts.contains .zero

/-- The pointer of a member set and the deficits of its members as a round robin leaves them (R221), but for members whose deficits a
write of this fc has put to 0. -/
def State.landDwrr (s : State) (set : Nat) (members : List Nat) (keep : Nat → Bool) (ptr : Nat) (df : Tbl Nat) : State :=
  { s with qe := { s.qe with
      ptr := s.qe.ptr.wr set 0 ptr
      deficit := (members.filter keep).foldl (fun t m => t.wr (4096 * set + m) 0 (df.rd (4096 * set + m) 0)) s.qe.deficit } }

/-- What the round robins of one phase on a port choose by what stands at the start of the fc (R221): bough, port pointer and deficits,
queue, its head packet, and the bough's pointer and deficits where they decided. -/
def State.phasePick (z : State) (p : Nat) (committed : Bool) : Option (Nat × (Nat × Tbl Nat) × Nat × Pkt × Option (Nat × Tbl Nat)) :=
  let ms := z.portBoughs p
  let e := ms.filter (z.boughEligible committed)
  let set := if committed then p else 128 + p
  if e.isEmpty then none
  else match dwrr (dwrrFuel ms) ms e (fun b => ((z.queuePick p b).map (fun x => z.headCost p x.1)).getD 0)
      (fun b => 256 * z.fld .qeBcfg b 7 0) (4096 * set) (z.qe.ptr.rd set 0) z.qe.deficit with
    | none => none
    | some (b, ptr, df) => match z.queuePick p b with
      | none => none
      | some (q, after) => (z.headPkt q).map (fun x => (b, (ptr, df), q, x, after))

/-- The selection of one phase on a port (R221): chosen by what stands at the start of the fc; the packet must still be there. -/
def State.selectPhase (s : State) (p : Nat) (committed : Bool) : Option State :=
  match s.atStart.phasePick p committed with
  | none => none
  | some (b, (ptr, df), q, x, after) =>
    if !(s.qe.pkts.rd q []).contains x then none
    else
      let s' := s.landDwrr (if committed then p else 128 + p) (s.atStart.portBoughs p) (fun m => !s.boughZeroed m) ptr df
      let s' := match after with
        | some (ptr, df) => s'.landDwrr (256 + b) ((List.range 24).map (8 + ·)) (fun _ => !s.boughZeroed b) ptr df
        | none => s'
      some (s'.selectPkt p b q committed x)

/-- A queue whose table entries hold an uncorrectable error stops as under STOP, and the operator and heartwood are told (R567); the spec
states no CODE and no DETAIL, which are free (log entry 3). -/
def State.queueRot (q : Nat) (s : State) : State :=
  let (c, s) := s.freeCode
  let (d, s) := s.freeWord
  (s.setBit .qeQcfg q 31 true).sendRec (.both opTag) (mkRec 1 opTag 5 c d.toNat)

/-- QUEUE_SELECT (R221): committed before excess, one selection per port per fc. `bad` is a queue whose entry in the engine's tables is
found uncorrectable as they are read. -/
def execQueueSelect (p : Fin 128) (bad : Option (Fin 16384)) (s : State) : Res :=
  .next (match bad with
  | some q => s.queueRot q.val
  | none => if s.maySelect p.val then
      match s.selectPhase p.val true with
      | some s' => s'
      | none => (s.selectPhase p.val false).getD s
    else s)

/-! ## Registers (R211, R212, R219, R226-R236) -/

/-- Whether a party reads a queue engine register (R226). -/
def State.qeReads (s : State) (p : Party) (n : RegName) (i : Nat) : Bool :=
  match p with
  | .tenant t =>
    let hist (h : Nat) : Bool := match s.fld .qeHcfg h 31 30 with
      | 1 => s.fld .qeHcfg h 29 16 / 32 == t.val
      | 2 => s.fld .qeBcfg (s.fld .qeHcfg h 29 16) 31 22 == t.val
      | _ => false
    match n with
    | .qeQcfg | .qeQrate | .qeQburst | .qeQlvl | .qeQpkt | .qeQcell => i / 32 == t.val
    | .qeBcfg | .qeBcir | .qeBcburst | .qeBpir | .qeBpburst | .qeBclvl | .qeBplvl => s.fld .qeBcfg i 31 22 == t.val
    | .qeHcfg | .qeHmax => hist i
    | .qeHbin => hist (i / 16)
    | _ => false
  | _ => true

/-- A queue engine register as read (R230, R231). -/
def State.readQe (s : State) (n : RegName) (i : Nat) : Word :=
  match n with
  | .qeQpkt => BitVec.ofNat 32 (s.qe.pkts.rd i []).length
  | .qeQcell => BitVec.ofNat 32 ((s.qe.pkts.rd i []).map Pkt.cells).sum
  | .qeQlvl | .qeBclvl | .qeBplvl => s.atStart.reg n i
  | _ => s.reg n i

/-- A bough's OWNER or PORT changed (R212). -/
def State.boughReset (s : State) (b : Nat) : State :=
  let qs := (s.regs.filter (fun e => e.1 % 256 == RegName.qeQcfg.ctorIdx && bit e.2.toNat 27 && bits e.2.toNat 26 16 == b)).map
    (fun e => e.1 / 256)
  let s := forEach qs s (fun q s => s.setBit .qeQcfg q 27 false)
  let s := forEach [.cir b, .pir b] s (fun k s => s.levelAct k .zero)
  { s with qe := { s.qe with deficit := s.qe.deficit.filter (fun e =>
      !(e.1 / 4096 == 256 + b || (e.1 / 4096 < 256 && e.1 % 4096 == b))) } }

/-- A write of QE_BCFGb that has been judged (R212). -/
def State.landBough (s : State) (b : Nat) (j : Judged) : State :=
  let old := (s.reg .qeBcfg b).toNat
  let s := s.land .qeBcfg b j
  if bits old 31 22 != bits j.val 31 22 || bits old 20 14 != bits j.val 20 14 then s.boughReset b else s

/-- A write of QE_QCFGq (R211, R227): BEN and BOUGH are refused together. -/
def State.writeQcfg (s : State) (p : Party) (q : Nat) (w : Word) : State :=
  let old := (s.reg .qeQcfg q).toNat
  let new := w.toNat
  let changes := bits old 27 16 != bits new 27 16
  let bad := changes && bit new 27 && s.fld .qeBcfg (bits new 26 16) 31 22 != q / 32
  if bad && p.writer = .t then
    let j := s.judgeW p .qeQcfg q (fun _ _ => true) (BitVec.ofNat 32 (setBits new 27 16 (bits old 27 16)))
    s.land .qeQcfg q { j with byValue := true }
  else s.plainWrite p .qeQcfg q w

/-- A write of a rate register (R219, R228). A refill made before it in the same fc is made again at the new rate (R218). -/
def State.writeRate (s : State) (p : Party) (n : RegName) (i : Nat) (k : Bucket) (w : Word) : State :=
  let j := s.judgeW p n i (fun _ _ => true) w
  let s := s.land n i j
  if bit j.acts 31 then s.levelAct k .forgive else s.resettle k

/-- A write of a burst register (R219, R229). -/
def State.writeBurst (s : State) (p : Party) (n : RegName) (i : Nat) (k : Bucket) (w : Word) : State :=
  let old := s.bBurst k
  let s := s.plainWrite p n i w
  if s.bBurst k < old then s.levelAct k (.clip (s.bBurst k)) else s.resettle k

/-- A histogram is zeroed and records the selections of this fc under its setting as it now stands (R223). -/
def State.histAnew (s : State) (h : Nat) : State := forEach s.qe.sel (s.histClear h) (fun x s => s.histOne x h)

/-- A write of QE_HCFGh (R223, R235). One refused for its TARGET leaves the register unchanged and performs no CLEAR either: the model's
choice (log entry 131). -/
def State.writeHcfg (s : State) (p : Party) (h : Nat) (w : Word) : State :=
  let scope := bits w.toNat 31 30
  let t := bits w.toNat 29 16
  let bad := (scope == 2 && 2047 < t) || (scope == 3 && 127 < t)
  let old := (s.reg .qeHcfg h).toNat
  let j := s.judgeW p .qeHcfg h (fun _ _ => !bad) w
  let s := s.land .qeHcfg h j
  if bit j.acts 11 || bits old 31 12 != bits j.val 31 12 then s.histAnew h else s

/-- A write of a queue engine register (R226). -/
def State.writeQe (s : State) (p : Party) (n : RegName) (i : Nat) (w : Word) : State :=
  if !s.qeReads p n i then s.barkAns 0
  else match n with
    | .qeQcfg => s.writeQcfg p i w
    | .qeQrate => s.writeRate p n i (.queue i) w
    | .qeBcir => s.writeRate p n i (.cir i) w
    | .qeBpir => s.writeRate p n i (.pir i) w
    | .qeQburst => s.writeBurst p n i (.queue i) w
    | .qeBcburst => s.writeBurst p n i (.cir i) w
    | .qeBpburst => s.writeBurst p n i (.pir i) w
    | .qeBcfg => s.landBough i (s.judgeW p n i (fun _ _ => true) w)
    | .qeHcfg => s.writeHcfg p i w
    | _ => s.plainWrite p n i w

/-- FORGIVE (R219): a write of a rate register. -/
def execForgive (p : Party) (r : RegId) (w : Word) (s : State) : Res :=
  .next (if [RegName.qeQrate, .qeBcir, .qeBpir].contains r.name && decide (r.idx < r.name.count)
    then s.writeQe p r.name r.idx w else s)

/-- QUEUE_ATTACH (R211). -/
def execQueueAttach (p : Party) (q : Fin 16384) (w : Word) (s : State) : Res := .next (s.writeQe p .qeQcfg q.val w)

/-- BOUGH_CHANGE (R212). -/
def execBoughChange (p : Party) (b : Fin 2048) (w : Word) (s : State) : Res := .next (s.writeQe p .qeBcfg b.val w)

/-- HISTOGRAM_CLEAR (R223). -/
def execHistogramClear (p : Party) (h : Fin 64) (w : Word) (s : State) : Res := .next (s.writeQe p .qeHcfg h.val w)

end Machine
end Sys2Proof
end

