-- ==== Sys2Proof/Machine/Tenancy.lean ====
section
/-! DEFINITION. Tenants (R237-R260): the checks of a resource vector, what heartwood writes for a grant and for a release, and the
placement on service wheels. -/

namespace Sys2Proof.Machine

/-! ## What an item names (R239) -/

/-- The resources an item grants, as kind and number: 1 calendar entry, 2 ring, 3 group, 4 switch input, 5 FIFO, 6 macrocell,
7 selection slot, 9 bough, 13 VF, 14 pin. The six tap inputs of a FIFO's tile are among its resources (R161). -/
def itemRes (w : Nat) : List (Nat × Nat) :=
  let T := itTile w
  match itKind w with
  | 1 => (ones 16 (bits w 15 0)).map (fun j => (1, 64 * T + 16 * bits w 45 44 + j))
  | 2 => (ones 16 (bits w 45 30)).map (fun r => (2, 16 * T + r)) ++ (ones 15 (bits w 29 15)).map (fun n => (3, 16 * T + n))
  | 4 => [(4, 64 * T + bits w 45 40)]
  | 5 =>
    let g := itGrove w
    let f := bits w 51 49
    (5, 8 * g + f) :: (List.range 6).map (fun k => (4, 64 * tileIx g (24 + f) + 36 + k))
  | 6 => (ones 32 (bits w 31 0)).map (fun m => (6, 32 * itGrove w + m))
  | 7 => (ones 32 (bits w 31 0)).map (fun j => (7, 96 * itGrove w + 32 * bits w 51 50 + j))
  | 9 => [(9, itBough w)]
  | 13 => [(13, bits w 57 48)]
  | 14 => [(14, bits w 57 52)]
  | _ => []

/-- The fields an item of each kind may use (R239); none for a reserved kind. -/
def itemMask (k : Nat) : Option (List (Nat × Nat)) :=
  match k with
  | 1 => some [(57, 46), (45, 44), (15, 0)]
  | 2 => some [(57, 46), (45, 30), (29, 15)]
  | 3 => some [(57, 46), (45, 42), (41, 30), (29, 19)]
  | 4 => some [(57, 46), (45, 40), (39, 39), (38, 29)]
  | 5 => some [(57, 52), (51, 49)]
  | 6 => some [(57, 52), (31, 0)]
  | 7 => some [(57, 52), (51, 50), (31, 0)]
  | 8 => some [(41, 21), (20, 0)]
  | 9 => some [(57, 47), (46, 40), (39, 32)]
  | 10 => some [(57, 47), (46, 46), (30, 0)]
  | 11 => some [(57, 47), (46, 46), (24, 0)]
  | 12 => some [(57, 51), (50, 44), (43, 42), (41, 32), (31, 24)]
  | 13 => some [(57, 48)]
  | 14 => some [(57, 52)]
  | 15 => some [(57, 56), (55, 49), (7, 0)]
  | _ => none

/-- Whether an item holds only its kind's fields. -/
def itemClean (w : Nat) : Bool :=
  match itemMask (itKind w) with
  | some fs => (fs.foldl (fun a (hi, lo) => a + bits w hi lo * 2 ^ lo) (itKind w * 2 ^ 58)) == w
  | none => false

/-- The groves in which a list of items holds a FIFO. -/
def fifoGroves (items : List Nat) : List Nat :=
  (List.range 64).filter (fun g => items.any (fun w => itKind w == 5 && itGrove w == g))

/-- The groves whose shadows a list of items is written into (R240). -/
def itemGroves (items : List Nat) : List Nat :=
  (List.range 64).filter (fun g => items.any (fun w =>
    ((itKind w == 1 || itKind w == 2 || itKind w == 3 || itKind w == 4) && itTile w / 64 == g)
      || ((itKind w == 5 || itKind w == 6 || itKind w == 7) && itGrove w == g)))

/-! ## Service wheels (R247, R252, R253, R331) -/

/-- Positions of a wheel: 64 of a bank wheel, 256 of the others (R247). -/
def wheelLen (res : Nat) : Nat := if res ≤ 1 then 64 else 256

/-- The most positions one reservation may hold (R253). -/
def wheelMax (res : Nat) : Nat := if res ≤ 1 then 32 else 128

/-- Whether a position of the wheel an item names is taken. -/
def State.wheelUsed (s : State) (res unit pos : Nat) : Bool :=
  match res with
  | 0 => (s.tn.wheelIn.rd pos none).isSome
  | 1 => (s.tn.wheelOut.rd pos none).isSome
  | 2 => (s.tn.wheelNi.rd (256 * unit + pos) none).isSome
  | _ => (s.tn.wheelDma.rd pos none).isSome

/-- The links a worm takes from node a to node b, as routers and outputs in order. -/
def linksOf (fuel r : Nat) (route : Nat) : List Nat :=
  match fuel with
  | 0 => []
  | fuel + 1 =>
    let c := routeCode route 0
    match linkTo r c with
    | some r' => (8 * r + c) :: linksOf fuel r' (route / 8)
    | none => []

/-- Service time of a target in fc (R339); for a grove with the most words a transaction moves. -/
def serviceTime (d : Nat) : Nat :=
  if d < 64 then 66 else if d < 84 then 16 else if d == 88 then 96 else if d == 90 then 1600 else 32

/-- The times a sealed transaction from position p towards d takes of each link, as link, first fc and length; links of the response
plane are numbered from 512 (R331). -/
def State.sealTimes (s : State) (ni d p : Nat) : List (Nat × Nat × Nat) :=
  let h := s.hop
  let out := linksOf 15 (routerOf ni) (dimRoute ni d).toNat
  let back := linksOf 15 (routerOf d) (dimRoute d ni).toNat
  let tail := p + (out.length + 1) * h + 8
  out.zipIdx.map (fun (l, i) => (l, p + i * h, 9))
    ++ back.zipIdx.map (fun (l, i) => (512 + l, tail + i * h, 2 * serviceTime d + 9))

/-- Whether two intervals on the wheel of 256 fc overlap. -/
def overlapMod (a la b lb : Nat) : Bool :=
  decide (256 ≤ la) || decide (256 ≤ lb) || decide ((b + 256 - a % 256) % 256 < la) || decide ((a + 256 - b % 256) % 256 < lb)

/-- Whether two positions could make two SEAL worms meet (R331). -/
def timesMeet (a b : List (Nat × Nat × Nat)) : Bool :=
  a.any (fun (l, t, n) => b.any (fun (l', t', n') => l == l' && overlapMod t n t' n'))

/-- The destinations a tag's NOC items name at an NI. -/
def nocDests (items : List Nat) (ni : Nat) : List Nat :=
  (items.filter (fun w => itKind w == 12 && itSrc w == ni)).map itDst

/-- The NI positions in force, as NI, position and tag. -/
def State.sealPositions (s : State) : List (Nat × Nat × Tag) :=
  s.tn.wheelNi.filterMap (fun e => e.2.map (fun t => (e.1 / 256, e.1 % 256, t)))

/-- The items a tag holds. -/
def State.itemsOf (s : State) (t : Nat) : List Nat :=
  match s.tn.adm.rd t none with
  | some v => v.items.map (·.toNat)
  | none => []

/-- The nodes a tag's sealed requests at an NI go to: those of its NOC items, and at NI 88 the groves its status records go to (R183). -/
def sealDests (t : Nat) (items : List Nat) (ni : Nat) : List Nat :=
  nocDests items ni ++ if ni = 88 && t < 512 then fifoGroves items else []

/-- The times a domain's positions at an NI take of the links. -/
def State.timesAt (s : State) (t : Nat) (items : List Nat) (ni pos : Nat) : List (Nat × Nat × Nat) :=
  (sealDests t items ni).flatMap (fun d => s.sealTimes ni d pos)

/-- Whether an NI position of a domain meets none in force but its own there (R331). -/
def State.niFree (s : State) (t : Nat) (items : List Nat) (ni pos : Nat) : Bool :=
  s.sealPositions.all (fun (n, p, t') => (n == ni && t'.toNat == t)
    || !timesMeet (s.timesAt t items ni pos) (s.timesAt t'.toNat (s.itemsOf t'.toNat) n p))

/-- The largest distance between consecutive positions on a wheel. -/
def maxGap (W : Nat) (ps : List Nat) : Nat :=
  (ps.map (fun p => (((List.range W).map (· + 1)).filter (fun d => ps.contains ((p + d) % W))).headD W)).foldl max 0

/-- Go round a wheel by the longest steps of at most G that the free places, counted from the start, allow; `got` is latest first. -/
def stride (free : List Nat) (G : Nat) : Nat → List Nat → List Nat
  | 0, got => got
  | fuel + 1, got =>
    match (free.filter (fun o => got.headD 0 < o && o ≤ got.headD 0 + G)).reverse with
    | o :: _ => stride free G fuel (o :: got)
    | [] => got

/-- k places without a gap above G, where places do not bear on one another: the longest steps need the fewest, and the rest may lie
anywhere. -/
def coverFrom (W k G : Nat) (free : List Nat) : Option (List Nat) :=
  let got := stride free G W [0]
  if decide (got.length ≤ k) && decide (W ≤ got.headD 0 + G) then
    let ps := got ++ (free.filter (fun o => !got.contains o)).take (k - got.length)
    if ps.length = k then some ps else none
  else none

/-- k more places without a gap above G, no two of which meet. -/
def spreadFrom (ok : Nat → Nat → Bool) (W G : Nat) (free : List Nat) : Nat → List Nat → Option (List Nat)
  | 0, got => if W ≤ got.headD 0 + G then some got else none
  | k + 1, got => firstSome (fun o => spreadFrom ok W G free k (o :: got))
      ((free.filter (fun o => got.headD 0 < o && o ≤ got.headD 0 + G && got.all (ok o))).reverse)

/-- k of the free positions of a wheel, as even as they go: with the least largest gap, not below ceil(W/k), that any k of them
have (R252). -/
def evenest (W k : Nat) (free : List Nat) (from' : Nat → Nat → List Nat → Option (List Nat)) : Option (List Nat) :=
  let low := (W + k - 1) / k
  firstSome (fun G => firstSome (fun p =>
      (from' p (low + G) (((rotate (List.range W) p).zipIdx.filter (fun x => free.contains x.1)).map (·.2))).map
        (fun os => os.map (fun o => (p + o) % W))) free)
    (List.range (W + 1 - low))

/-- The positions a domain holds on a wheel, of a port or NI. -/
def State.wheelOf (s : State) (tag : Tag) (res unit : Nat) : List Nat :=
  match res with
  | 0 => (s.tn.wheelIn.filter (fun e => e.2 == some (unit, tag))).map (·.1)
  | 1 => (s.tn.wheelOut.filter (fun e => e.2 == some (unit, tag))).map (·.1)
  | 2 => (s.tn.wheelNi.filter (fun e => e.1 / 256 == unit && e.2 == some tag)).map (fun e => e.1 % 256)
  | _ => (s.tn.wheelDma.filter (fun e => e.2 == some tag)).map (·.1)

/-- The positions a port of a bank wheel holds for every domain, or those of one reservation of another wheel (R253). -/
def State.wheelHeld (s : State) (tag : Tag) (res unit : Nat) : Nat :=
  match res with
  | 0 => (s.tn.wheelIn.filter (fun e => e.2.map (·.1) == some unit)).length
  | 1 => (s.tn.wheelOut.filter (fun e => e.2.map (·.1) == some unit)).length
  | _ => (s.wheelOf tag res unit).length

/-- A wheel without the positions a domain holds on it. -/
def State.freeWheel (s : State) (tag : Tag) (res unit : Nat) : State :=
  { s with tn := match res with
    | 0 => { s.tn with wheelIn := s.tn.wheelIn.filter (fun e => e.2 != some (unit, tag)) }
    | 1 => { s.tn with wheelOut := s.tn.wheelOut.filter (fun e => e.2 != some (unit, tag)) }
    | 2 => { s.tn with wheelNi := s.tn.wheelNi.filter (fun e => !(e.1 / 256 == unit && e.2 == some tag)) }
    | _ => { s.tn with wheelDma := s.tn.wheelDma.filter (fun e => e.2 != some tag) } }

/-- The placement of a domain's k positions on one wheel beside those of others (R252, R331). At an NI no two of them may meet. -/
def State.placement (s : State) (tag : Tag) (items : List Nat) (res unit k : Nat) : Option (List Nat) :=
  let W := wheelLen res
  let z := s.freeWheel tag res unit
  let t := tag.toNat
  let free := (List.range W).filter (fun p => !z.wheelUsed res unit p && (res != 2 || z.niFree t items unit p))
  if free.length < k then none
  else if res = 2 then evenest W k free (fun p G offs =>
    spreadFrom (fun a b => !timesMeet (z.timesAt t items unit (p + a)) (z.timesAt t items unit (p + b))) W G offs (k - 1) [0])
  else evenest W k free (fun _ G offs => coverFrom W k G offs)

/-- A domain's reservation of a wheel, k positions in all, placed anew; where none is possible it stands as it is. -/
def State.reserve (s : State) (tag : Tag) (items : List Nat) (res unit k : Nat) : State :=
  if k = 0 then s.freeWheel tag res unit
  else match s.placement tag items res unit k with
    | none => s
    | some ps => forEach ps (s.freeWheel tag res unit) (fun p s => { s with tn := match res with
      | 0 => { s.tn with wheelIn := s.tn.wheelIn.wr p none (some (unit, tag)) }
      | 1 => { s.tn with wheelOut := s.tn.wheelOut.wr p none (some (unit, tag)) }
      | 2 => { s.tn with wheelNi := s.tn.wheelNi.wr (256 * unit + p) none (some tag) }
      | _ => { s.tn with wheelDma := s.tn.wheelDma.wr p none (some tag) } })

/-- What an item asks of a wheel: RES, port or node, and how many positions more. One that only adds a destination at an NI asks for the
positions there to fit it too (R331). -/
def sealAsk (w : Nat) : Option (Nat × Nat × Nat) :=
  match itKind w with
  | 15 => some (itRes w, itSealPort w, itCount w)
  | 12 => some (2, itSrc w, 0)
  | 5 => some (2, 88, 0)
  | _ => none

/-- An item's positions are placed (R252). -/
def State.takeWheel (s : State) (tag : Tag) (w : Nat) (items : List Nat) : State :=
  match sealAsk w with
  | none => s
  | some (r, u, c) =>
    let k := (s.wheelOf tag r u).length + c
    if k = 0 then s else s.reserve tag items r u k

/-! ## The checks (R242) -/

/-- What a vector is judged against. `items` are all the vector's items, of which the first `old` are granted already; `others`
are those of every other admitted domain. -/
structure Judging where
  tag : Nat
  sealed : Bool
  image : Bool
  old : Nat
  items : List Nat
  others : List (Nat × Nat)

/-- FORMAT of the header, other than the count (R238, R242). -/
def State.headerBad (s : State) (image : Bool) (hdr : Nat) : Bool :=
  let t := bits hdr 63 54
  bits hdr 50 13 != 0 || decide (0x200 < t) || (t == 0x200 && !image) || (s.tn.adm.rd t none).isSome
    || bits hdr 12 0 == 0 || decide (4096 < bits hdr 12 0)

/-- The place of the second item of a kind. -/
def secondOf (k : Nat) (items : List Nat) : Option Nat :=
  (((items.zipIdx.filter (fun x => itKind x.1 == k)).drop 1).head?).map (·.2)

/-- FORMAT (R242): the place of the first failing item, counted from 0; 4096 for the header. -/
def Judging.format (j : Judging) : Option Nat :=
  let bad := firstSome (fun (x : Nat × Nat) =>
    if !itemClean x.1 || (itKind x.1 == 15 && !j.sealed) || (itKind x.1 == 13 && j.image)
        || secondOf 8 j.items == some x.2 || secondOf 13 j.items == some x.2
    then some x.2 else none) j.items.zipIdx
  match bad with
  | some i => some i
  | none =>
    if !(j.items.any (fun w => itKind w == 8)) || (!j.image && !(j.items.any (fun w => itKind w == 13))) then some 4096 else none

def Judging.grantsRing (j : Judging) (T r : Nat) : Bool :=
  j.items.any (fun w => itKind w == 2 && itTile w == T && bit w (30 + r))

def Judging.grantsBough (j : Judging) (b : Nat) : Bool := j.items.any (fun w => itKind w == 9 && itBough w == b)

/-- Whether a segment arrives at input i of tile T (R102, R103, R109): the taps are fed by the tile's hard block, if it has one. -/
def segmentAt (T i : Nat) : Bool :=
  if 36 ≤ i && i < 42 then (24 ≤ T % 64 && T % 64 < 32) || T % 64 == 34 || T % 64 == 35 else (srcOf T i).isSome

/-- RANGE of one item (R242, R249, R253, R328). The port field of a SEAL item for the DMA engine, which has no port, may hold 0 or the
bridge's node 87: the model's choice (log entry 46). -/
def State.rangeBad (s : State) (j : Judging) (w : Nat) : Bool :=
  let T := itTile w
  match itKind w with
  | 1 => (ones 16 (bits w 15 0)).any (fun b => decide (s.fld .tlGcalact (T / 64) 6 0 ≤ 16 * bits w 45 44 + b))
  | 3 => decide (2048 < bits w 41 30) || !j.grantsRing T (bits w 45 42)
  | 4 =>
    let i := bits w 45 40
    let from' := bits w 38 29
    decide (45 < i) || !segmentAt T i || (bit w 39 && decide (0x200 < from')
      && !(from' == 0x3FF && (T % 64 == 34 || T % 64 == 35) && 36 ≤ i && i ≤ 41))
  | 7 => bits w 51 50 == 3
  | 8 => decide (1048576 < itQuota w) || decide (1048576 < itFloor w) || (j.sealed && itQuota w != itFloor w)
  | 9 => itWeight w == 0
  | 10 => !j.grantsBough (itBough w)
  | 11 => decide (16777216 < bits w 24 0) || !j.grantsBough (itBough w)
  | 12 => itSrc w < 84 || 88 < itSrc w || 91 < itDst w || itNocRate w == 0 || 256 < itNocRate w || itNocBurst w == 0
  | 13 => bits w 57 48 == 0 || 512 < bits w 57 48
  | 15 => itCount w == 0 || wheelMax (itRes w) < itCount w
      || (itRes w == 2 && (itSealPort w < 84 || 88 < itSealPort w)) || (itRes w == 3 && itSealPort w != 0 && itSealPort w != 87)
  | _ => false

/-- OVERLAP of one item (R242, R41, R45, R450, R505): every edge segment and lane group input belongs to 0x200. -/
def State.overlapBad (s : State) (j : Judging) (taken : List (Nat × Nat)) (w : Nat) : Bool :=
  (itemRes w).any taken.contains
  || (itKind w == 4 && j.tag != 0x200 && (edgeLane (itTile w) (bits w 45 40)).isSome)
  || (itKind w == 14 && s.fld .gpPcfg (bits w 57 52) 31 28 != 0xF
      && !(s.fld .gpPcfg (bits w 57 52) 31 28 == 0xA && s.fld .gpPcfg (bits w 57 52) 27 18 == j.tag))
  || (itKind w == 3 && bits w 41 30 != 0 && j.others.any (fun (_, x) => itKind x == 3 && itTile x == itTile w && bits x 41 30 != 0
      && decide (bits x 29 19 < bits w 29 19 + bits w 41 30) && decide (bits w 29 19 < bits x 29 19 + bits x 41 30)))
  || (itKind w == 2 && (ones 15 (bits w 29 15)).any (fun n =>
      (ones 16 (s.fld .tlGrp (16 * itTile w + n) 15 0)).any (fun r => !j.grantsRing (itTile w) r)))

/-- Whether an earlier item asks for the same injection entry (R345). -/
def Judging.twin (j : Judging) (w i : Nat) : Bool :=
  itKind w == 12 && (j.items.take i).any (fun x => itKind x == 12 && bits x 57 42 == bits w 57 42)

/-- The items a sum runs over: those of every admitted domain and of the vector under judgement. -/
def Judging.allItems (j : Judging) : List (Nat × Nat) := j.others ++ j.items.map (fun w => (j.tag, w))

/-- The egress port of a bough in the grants. -/
def portOfBough (l : List (Nat × Nat)) (b : Nat) : Option Nat :=
  firstSome (fun (_, w) => if itKind w == 9 && itBough w == b then some (itPort w) else none) l

/-- The committed rates granted on a port, in 1/65,536 byte per refill (R215, R242). -/
def portSum (l : List (Nat × Nat)) (p : Nat) : Nat :=
  ((l.filter (fun x => itKind x.2 == 10 && itWhich x.2 == 0 && portOfBough l (itBough x.2) == some p)).map (fun x => itRate x.2)).sum

/-- The tenants' status-record entries at NI 88: one of 32 flits for each grove with a FIFO (R183). -/
def recordRates (l : List (Nat × Nat)) : List (Nat × Nat) :=
  ((l.filter (fun x => itKind x.2 == 5 && x.1 < 512)).map (fun x => (x.1, itGrove x.2))).eraseDups

/-- The injection rates at an NI (R242, R329). -/
def niSum (l : List (Nat × Nat)) (ni : Nat) : Nat :=
  ((l.filter (fun x => itKind x.2 == 12 && itSrc x.2 == ni)).map (fun x => itNocRate x.2)).sum
  + (if ni = 88 then 32 * (recordRates l).length else 0)
  + 9 * ((l.filter (fun x => itKind x.2 == 15 && itRes x.2 == 2 && itSealPort x.2 == ni)).map (fun x => itCount x.2)).sum

/-- The injection rates towards a destination (R242). A sealed position names no destination and counts at its NI alone: the model's
choice (log entry 46). -/
def dstSum (l : List (Nat × Nat)) (d : Nat) : Nat :=
  ((l.filter (fun x => itKind x.2 == 12 && itDst x.2 == d)).map (fun x => itNocRate x.2)).sum
  + 32 * ((recordRates l).filter (fun x => x.2 == d)).length

/-- The CRED a new route entry gets (R240). -/
def State.newCred (s : State) (ni d : Nat) : Nat :=
  if 84 ≤ ni && ni ≤ 88 then
    min 6 (32 - ((List.range 92).map (fun n => if n != ni && s.rteValid n d then s.rteCred n d else 0)).sum)
  else 0

/-- The rates of the operator's injection entries in the registers, at an NI or towards a destination (R328). -/
def State.opRates (s : State) (at' : Nat → Nat → Bool) : Nat :=
  ((s.regs.filter (fun (e : Nat × Word) => e.1 % 256 == RegName.ncInjA.ctorIdx && bit e.2.toNat 31 && bits e.2.toNat 30 21 == 0x200
    && at' (84 + e.1 / 256 / 2048) (bits e.2.toNat 20 14))).map (fun (e : Nat × Word) => s.fld .ncInjB (e.1 / 256) 23 15)).sum

/-- The sums of NOC that one item is in (R242, R329). The operator domain counts with the entries it has, its own vector with its items. -/
def State.nocOver (s : State) (j : Judging) (w : Nat) : Bool :=
  let l := j.allItems.filter (fun x => x.1 < 512 || j.tag == 0x200)
  let niSum (l : List (Nat × Nat)) (ni : Nat) : Nat := niSum l ni + s.opRates (fun n _ => n == ni)
  let dstSum (l : List (Nat × Nat)) (d : Nat) : Nat := dstSum l d + s.opRates (fun _ x => x == d)
  if itKind w == 12 then 192 < niSum l (itSrc w) || 192 < dstSum l (itDst w)
  else if itKind w == 5 && j.tag < 512 then 192 < niSum l 88 || 192 < dstSum l (itGrove w)
  else if itKind w == 15 && itRes w == 2 then 192 < niSum l (itSealPort w)
  else false

/-- The route entries a NOC item needs (R240): one already valid is kept. -/
def State.needRoutes (s : State) (a b : Nat) : State :=
  let s := if s.rteValid a b then s else s.putRoute a b (s.newCred a b)
  if s.rteValid b a then s else s.putRoute b a (s.newCred b a)

/-- The routes and the injection entry of a NOC item (R240). -/
def State.nocItem (s : State) (tag : Tag) (w : Nat) : State :=
  let s := s.needRoutes (itSrc w) (itDst w)
  match s.injFree (itSrc w) with
  | some i => s.putInj (itSrc w) i true tag (itDst w) (itPrio w) (itNocRate w) (itNocBurst w)
  | none => s

/-- The NI 88 entry of a tenant's first FIFO in a grove (R183, R240). -/
def State.recordEntry (s : State) (tag : Tag) (g : Nat) : State :=
  if tag.toNat < 512 && (s.injEntry 88 tag g 1).isNone then
    match s.injFree 88 with
    | some i => s.putInj 88 i true tag g 1 32 32
    | none => s
  else s

/-- A NOC item finds the injection table of its NI full, or would get no credit for a new route entry (R240, R329), with what the items
before it take in place. -/
def State.nocBad (s : State) (w : Nat) : Bool :=
  itKind w == 12 && ((s.injFree (itSrc w)).isNone
    || (!s.rteValid (itSrc w) (itDst w) && s.newCred (itSrc w) (itDst w) == 0)
    || (84 ≤ itDst w && itDst w ≤ 88 && !s.rteValid (itDst w) (itSrc w) && s.newCred (itDst w) (itSrc w) == 0))

/-- The place of the first item that fails NOC (R242): the added ones, in order, then those held already, for the sums. -/
def State.nocFails (s : State) (j : Judging) : Option Nat :=
  let tag := BitVec.ofNat 10 j.tag
  let bad := ((j.items.zipIdx.drop j.old).foldl (fun (a : State × Option Nat) (x : Nat × Nat) =>
    if a.2.isSome then a
    else if s.nocOver j x.1 || a.1.nocBad x.1 then (a.1, some x.2)
    else (if itKind x.1 = 12 then a.1.nocItem tag x.1 else if itKind x.1 = 5 then a.1.recordEntry tag (itGrove x.1) else a.1, none))
    (s, none)).2
  match bad with
  | some i => some i
  | none => firstSome (fun (x : Nat × Nat) => if s.nocOver j x.1 then some x.2 else none) (j.items.zipIdx.take j.old)

/-- Whether VC 3 carries only SEAL flits, in the mode that stands or in the one a load has asked for (R342, R442). -/
def State.sealVc (s : State) : Bool := bit ((s.nc.newMode.getD (s.reg .ncMode 0)).toNat) 27

/-- SEAL of one item (R242, R253, R331), with those before it placed. -/
def State.sealBad (s : State) (j : Judging) (w : Nat) : Bool :=
  match sealAsk w with
  | none => false
  | some (r, u, c) =>
    let tag := BitVec.ofNat 10 j.tag
    let k := (s.wheelOf tag r u).length + c
    decide (0 < k) && ((r == 2 && !s.sealVc) || decide (wheelMax r < s.wheelHeld tag r u + c)
      || (s.placement tag j.items r u k).isNone)

/-- The place of the first item that fails SEAL (R242). -/
def State.sealFails (s : State) (j : Judging) : Option Nat :=
  ((j.items.zipIdx.drop j.old).foldl (fun (a : State × Option Nat) (x : Nat × Nat) =>
    if a.2.isSome then a
    else if a.1.sealBad j x.1 then (a.1, some x.2)
    else (a.1.takeWheel (BitVec.ofNat 10 j.tag) x.1 j.items, none))
    ({ s with tn := { s.tn with adm := s.tn.adm.wr j.tag none (some ⟨0, j.sealed, j.items.map (BitVec.ofNat 64)⟩) } }, none)).2

/-- BOUND of one item (R242). -/
def Judging.boundBad (j : Judging) (w : Nat) : Bool :=
  itKind w == 10 && itWhich w == 0 && j.items.any (fun x =>
    itKind x == 10 && itWhich x == 1 && itBough x == itBough w && itRate x < itRate w)

/-- Every check of R242 on the items, in the table's order and within each in vector order: the reason and the failing place. Of items
added to a vector (R244), the added ones come first. -/
def State.judgeItems (s : State) (j : Judging) : Option (Nat × Nat) :=
  let idx := j.items.zipIdx.drop j.old ++ j.items.zipIdx.take j.old
  let find (reason : Nat) (bad : Nat → Bool) : Option (Nat × Nat) :=
    firstSome (fun (x : Nat × Nat) => if bad x.1 then some (reason, x.2) else none) idx
  let l := j.allItems
  let taken := j.others.flatMap (fun x => itemRes x.2)
  let rates := ((l.filter (fun x => itUnder 1 x.2)).map (fun x => itRate x.2)).sum
    + positionRate * ((l.filter (fun x => itKind x.2 == 15 && itRes x.2 == 1)).map (fun x => itCount x.2)).sum
  let floors := ((l.filter (fun x => itKind x.2 == 8)).map (fun x => itFloor x.2)).sum
  firstSome id [
    j.format.map (fun i => (1, i)),
    find 2 (s.rangeBad j),
    firstSome (fun (x : Nat × Nat) => if s.overlapBad j taken x.1 || j.twin x.1 x.2 then some (3, x.2) else none) idx,
    find 4 (fun w => itKind w == 10 && itWhich w == 0 && match portOfBough l (itBough w) with
      | some p => decide (s.fld .qePrate p 30 0 < portSum l p)
      | none => false),
    find 5 (fun w => (itUnder 1 w || (itKind w == 15 && itRes w == 1)) && decide (s.deviceLimit < rates)),
    find 6 (fun w => itKind w == 8 && (decide (itQuota w < itFloor w) || decide (s.fillLimit < floors))),
    (s.nocFails j).map (fun i => (7, i)),
    (s.sealFails j).map (fun i => (8, i)),
    find 9 j.boundBad]

/-- The items of the other admitted domains. -/
def State.othersOf (s : State) (t : Nat) : List (Nat × Nat) :=
  (s.granted.filter (fun x => x.1 != t)).map (fun x => (x.1, x.2.2))

/-- The judgement of a whole vector (R242): reason and index, the header's index being 0 and items counting from 1. -/
def State.judgeVector (s : State) (image : Bool) (hdr : Nat) (items : List Nat) : Option (Nat × Nat) :=
  if s.headerBad image hdr || bits hdr 12 0 != items.length then some (1, 0)
  else (s.judgeItems ⟨bits hdr 63 54, bit hdr 51, image, 0, items, s.othersOf (bits hdr 63 54)⟩).map
    (fun (r, i) => (r, if i = 4096 then 0 else i + 1))

/-- The judgement of items added to an admitted vector (R244): as if it had held them from the start. -/
def State.judgeAdded (s : State) (t : Nat) (v : AVec) (items : List Nat) : Option (Nat × Nat) :=
  let old := v.items.map (·.toNat)
  (s.judgeItems ⟨t, v.sealed, t == 0x200, old.length, old ++ items, s.othersOf t⟩).map
    (fun (r, i) => (r, if i = 4096 || i < old.length then 0 else i - old.length + 1))

/-! ## Grants (R240) -/

/-- Request a commit of a grove's shadows (R57). -/
def State.askCommit (s : State) (g : Nat) : State :=
  { s.setBit .tlGcal g 31 true with tl := { s.tl with commitAt := s.tl.commitAt.wr g 0 (s.fc + 1) } }

/-- Set the OWNER and TTAG of a pin; its OUT and OE bits are cleared (R505, R508). -/
def State.ownPin (s : State) (n own tag : Nat) : State :=
  (((s.setFld .gpPcfg n 31 28 own).setFld .gpPcfg n 27 18 tag).setBit .gpOut (n / 32) (n % 32) false).setBit .gpOe (n / 32) (n % 32) false

/-- Put a bough's settings through the write of QE_BCFGb (R212). -/
def State.ownBough (s : State) (b own port weight : Nat) : State :=
  let w := own * 2 ^ 22 + port * 2 ^ 14 + weight
  s.landBough b ⟨w, 0, false, false⟩

/-- What heartwood writes for one granted item (R240). -/
def State.grantItem (tag : Tag) (items : List Nat) (w : Nat) (s : State) : State :=
  let t := tag.toNat
  let T := itTile w
  match itKind w with
  | 2 =>
    let s := forEach (ones 15 (bits w 29 15)) s (fun n s => s.setFld .tlGrp (16 * T + n) 31 22 t)
    forEach (ones 16 (bits w 45 30)) s (fun r s => s.writeRingOwner (16 * T + r) tag false)
  | 3 =>
    let k := 16 * T + bits w 45 42
    (s.setFld .tlWin k 27 16 (bits w 41 30)).setFld .tlWin k 10 0 (bits w 29 19)
  | 4 =>
    let k := 64 * T + bits w 45 40
    ((s.setFld .swIn k 31 22 t).setFld .swIn k 21 12 (bits w 38 29)).setFld .swIn k 11 11 (bits w 39 39)
  | 5 =>
    let g := itGrove w
    let F := 8 * g + bits w 51 49
    let s := s.setFld .ffOwn F 31 22 t
    let s := forEach (List.range 6) s (fun k s =>
      s.setFld .swIn (64 * tileIx g (24 + F % 8) + 36 + k) 31 22 t)
    (s.recordEntry tag g).takeWheel tag w items
  | 6 => forEach (ones 32 (bits w 31 0)) s (fun m s => s.setFld .ltMcown (32 * itGrove w + m) 31 22 t)
  | 7 => forEach (ones 32 (bits w 31 0)) s (fun i s => s.setFld .ltIsown (96 * itGrove w + 32 * bits w 51 50 + i) 31 22 t)
  | 8 => (s.setFld .cxQuota t 20 0 (itQuota w)).setFld .cxFloor t 20 0 (itFloor w)
  | 9 =>
    let b := itBough w
    let s := s.ownBough b t (itPort w) (itWeight w)
    -- buckets without an item of their own (R239)
    let s := (s.setReg .qeBcir b 0).setReg .qeBpir b 0
    (s.setReg .qeBcburst b 0x1000000).setReg .qeBpburst b 0x81000000
  | 10 =>
    let b := itBough w
    if itWhich w = 0 then s.setFld .qeBcir b 30 0 (itRate w)
    else (s.setFld .qeBpir b 30 0 (itRate w)).setBit .qeBpburst b 31 false
  | 11 =>
    let b := itBough w
    if itWhich w = 0 then (s.setFld .qeBcburst b 24 0 (bits w 24 0)).levelAct (.cir b) (.clip (bits w 24 0))
    else (s.setFld .qeBpburst b 24 0 (bits w 24 0)).levelAct (.pir b) (.clip (bits w 24 0))
  | 12 =>
    (s.nocItem tag w).takeWheel tag w items
  | 13 => { s with tn := { s.tn with bind := s.tn.bind.wr (bits w 57 48 - 1) none (some tag) } }
  | 14 => s.ownPin (bits w 57 52) 0xA t
  | 15 => s.takeWheel tag w items
  | _ => s

/-- Heartwood grants items (R240): bough items come before their rates; the groves are asked to commit. -/
def State.grantItems (s : State) (tag : Tag) (items : List Nat) : State :=
  let s := forEach (items.filter (fun w => itKind w == 9)) s (State.grantItem tag items)
  let s := forEach (items.filter (fun w => itKind w != 9)) s (State.grantItem tag items)
  forEach (itemGroves items) s (fun g s => s.askCommit g)

/-- Admit a judged vector (R240, R573): the grants, the vector, and a tenant's meters at 0. -/
def State.admitVector (s : State) (hdr : Nat) (items : List Nat) : State :=
  let t := bits hdr 63 54
  let v : AVec := ⟨BitVec.ofNat 2 (bits hdr 53 52), bit hdr 51, items.map (BitVec.ofNat 64)⟩
  let s := { s with tn := { s.tn with adm := s.tn.adm.wr t none (some v) } }
  let s := if t < 512 then { s with ms := { s.ms with meter := s.ms.meter.clr (8 * t) (8 * t + 8) } } else s
  s.grantItems (BitVec.ofNat 10 t) items

/-! ## Holds and releases (R244, R39, R138, R163) -/

/-- A ring's state is zero (R39). -/
def State.zeroRing (k : Nat) (s : State) : State :=
  s.setRst fun x => { x with
    d := x.d.clr (8 * k) (8 * k + 8), acc := x.acc.clr (4 * k) (4 * k + 4), p := x.p.clr (4 * k) (4 * k + 4)
    base := x.base.clr (4 * k) (4 * k + 4), len := x.len.clr (4 * k) (4 * k + 4), fl := x.fl.del k }

/-- A ring is held with zero state (R39). Its results in flight still land (R53). -/
def State.holdRing (k : Nat) (s : State) : State :=
  let s := s.zeroRing k
  { s with tl := { s.tl with held := s.tl.held.wr k false true } }

/-- A FIFO is flushed and held (R163, R494). -/
def State.holdFifo (F : Nat) (s : State) : State :=
  let s := s.fifoFlush F
  { s with ff := { s.ff with held := s.ff.held.wr F false true } }

/-- A macrocell is zero and held (R138). -/
def State.holdMc (k : Nat) (s : State) : State :=
  let s := s.zeroMc k
  { s with lt := { s.lt with held := s.lt.held.wr k false true } }

/-- What heartwood does for one released item (R244), but for what the items `left` still name: rings are held off and leave their window
and every group (R41, R45), FIFOs are flushed, macrocells zeroed and held (R548) (log entry 43). -/
def State.releaseItem (tag : Tag) (left : List Nat) (w : Nat) (s : State) : State :=
  let T := itTile w
  let kept := left.flatMap itemRes
  -- the bits of a mask whose resources no item left names
  let gone (k base width n : Nat) : List Nat := (ones width n).filter (fun j => !kept.contains (k, base + j))
  if itKind w != 15 && left.contains w then s
  else match itKind w with
  | 1 => forEach (gone 1 (64 * T + 16 * bits w 45 44) 16 (bits w 15 0)) s (fun j s =>
      let e := 16 * bits w 45 44 + j
      s.setFld .tlCal (8 * T + e / 8) (4 * (e % 8) + 3) (4 * (e % 8)) 15)
  | 2 =>
    let rings := gone 2 (16 * T) 16 (bits w 45 30)
    let s := forEach (gone 3 (16 * T) 15 (bits w 29 15)) s (fun n s => s.setReg .tlGrp (16 * T + n) 0xFFC00000)
    let s := forEach (List.range 15) s (fun n s => forEach rings s (fun r s => s.setBit .tlGrp (16 * T + n) r false))
    forEach rings s (fun r s => ((s.holdRing (16 * T + r)).writeRingOwner (16 * T + r) noTag false).setReg .tlWin (16 * T + r) 0)
  | 3 => s.setFld .tlWin (16 * T + bits w 45 42) 27 16 0
  | 4 => s.setReg .swIn (64 * T + bits w 45 40) 0xFFFFF000
  | 5 =>
    let g := itGrove w
    let F := 8 * g + bits w 51 49
    let s := (s.fifoFlush F).setFld .ffOwn F 31 22 0x3FF
    forEach (List.range 6) s (fun k s =>
      s.setFld .swIn (64 * tileIx g (24 + F % 8) + 36 + k) 31 22 0x3FF)
  | 6 => forEach (gone 6 (32 * itGrove w) 32 (bits w 31 0)) s (fun m s =>
      (s.holdMc (32 * itGrove w + m)).setFld .ltMcown (32 * itGrove w + m) 31 22 0x3FF)
  | 7 => forEach (gone 7 (96 * itGrove w + 32 * bits w 51 50) 32 (bits w 31 0)) s (fun i s =>
      s.setFld .ltIsown (96 * itGrove w + 32 * bits w 51 50 + i) 31 22 0x3FF)
  | 8 => (s.setFld .cxQuota tag.toNat 20 0 0).setFld .cxFloor tag.toNat 20 0 0
  | 9 => s.ownBough (itBough w) 0x3FF 0 1
  | 10 => if itWhich w = 0 then s.setFld .qeBcir (itBough w) 30 0 0 else s.setBit .qeBpburst (itBough w) 31 true
  | 11 => s.setFld (if itWhich w = 0 then .qeBcburst else .qeBpburst) (itBough w) 24 0 0x1000000
  | 12 => s.dropInj (itSrc w) tag (itDst w) (itPrio w)
  | 13 => { s with tn := { s.tn with bind := s.tn.bind.del (bits w 57 48 - 1) } }
  | 14 => s.ownPin (bits w 57 52) 0xF 0x3FF
  | 15 =>
    let (r, u) := (itRes w, itSealPort w)
    s.reserve tag (left ++ [w]) r u ((s.wheelOf tag r u).length - itCount w)
  | _ => s

/-- Items without those that leave, one of equal ones at a time. -/
def leftOf (items gone : List Nat) : List Nat := gone.foldl List.erase items

/-- Heartwood releases items of an admitted vector (R244); with CELLS the admission ends. -/
def State.releaseItems (s : State) (t : Nat) (items : List Nat) : State :=
  let tag := BitVec.ofNat 10 t
  let keep := leftOf (s.itemsOf t) items
  let s := forEach items s (State.releaseItem tag keep)
  let s := { s with tn := { s.tn with adm := s.tn.adm.up t none (fun v => v.map (fun v =>
    { v with items := keep.map (BitVec.ofNat 64) })) } }
  let left := fifoGroves keep
  let s := forEach ((fifoGroves items).filter (fun g => !left.contains g)) s (fun g s => s.dropInj 88 tag g 1)
  let s := forEach (itemGroves items) s (fun g s => s.askCommit g)
  if items.any (fun w => itKind w == 8) then { s with tn := { s.tn with adm := s.tn.adm.del t } } else s

end Sys2Proof.Machine
end

