-- ==== Sys2Proof/Machine/Records.lean ====
section
/-! DEFINITION. Configuration records and frames (R446-R452, R481): their places, the rules that refuse them (R33, R45, R98, R105,
R108, R142, R162), and what writing and reading one does. -/

namespace Sys2Proof.Machine

/-! ## Rules of one record -/

/-- WUOP opcodes that R76 lists. -/
def wuopKnown (op : Nat) : Bool :=
  op ≤ 0xE || (0x10 ≤ op && op ≤ 0x13) || (0x18 ≤ op && op ≤ 0x1C) || (0x20 ≤ op && op ≤ 0x26) || op == 0x28 || op == 0x29
    || (0x30 ≤ op && op ≤ 0x33) || op == 0x38

/-- The largest VAR an operation may carry (R75). -/
def varMax (op : Nat) : Nat :=
  if op = 0x20 then 1 else if op = 0x24 || op = 0x25 then 2
  else if op = 0x18 || op = 0x28 || op = 0x29 || (0x30 ≤ op && op ≤ 0x33) then 3 else 0

/-- A WUOP that R98 refuses. -/
def wuopBad (w : Nat) : Bool :=
  let op := bits w 19 14
  !wuopKnown op || (op == 0 && w != 0) || decide (14 ≤ bits w 13 10) || decide (14 ≤ bits w 9 6) || decide (varMax op < bits w 1 0)

/-- A MAC operation that R98 refuses by itself; `second` is MAC1OP. -/
def macBad (second : Bool) (w : Nat) : Bool :=
  let a := decide (14 ≤ bits w 13 10)
  let b := decide (14 ≤ bits w 9 6)
  match bits w 17 14 with
  | 0 => w != 0
  | 1 | 2 | 3 => a || b || bits w 2 0 != 0
  | 4 | 10 => a || bits w 9 6 != 0 || bits w 2 0 != 0
  | 5 => bits w 13 6 != 0 || bits w 3 0 != 0
  | 6 | 7 => bits w 2 0 != 0
  | 8 => second || a || b || bits w 5 4 == 3
  | 9 => !second || bits w 13 10 != 0 || b || bits w 5 0 != 0
  | _ => true

/-- CMAC and CPAIR stand only beside each other, or CMAC with PK 1 beside NOP (R98). -/
def macPairBad (m0 m1 : Nat) : Bool :=
  (bits m0 17 14 == 8 && bits m1 17 14 != (if bit m0 1 then 0 else 9)) || (bits m1 17 14 == 9 && bits m0 17 14 != 8)

/-- A MEMOP that R98 refuses. -/
def memopBad (m : Nat) : Bool :=
  bits m 11 10 == 3 || decide (14 ≤ bits m 4 1) || (bit m 5 && bits m 9 6 != 0) || (bit m 0 && bits m 13 12 == 3)

/-- INSEL and OUTSEL that R108 refuses. -/
def portsBad (i o : Nat) : Bool :=
  bits i 7 0 != 0 || (bit i 15 && bit i 11 && bits i 14 13 == bits i 10 9) || (bit i 12 && !bit i 15) || (bit i 8 && !bit i 11)
    || (List.range 4).any (fun k => decide (3 < outCode o k))

/-- A ring record that R33, R98 or R108 refuses. -/
def ringBad (r : Nat) : Bool :=
  bits r 23 0 != 0 || rSteer r == 0xA || rSteer r == 0xB || decide (8 < bits (rLatio r) 15 12) || bits (rLatio r) 8 0 != 0
    || wuopBad (rWuop r) || macBad false (rMac0 r) || macBad true (rMac1 r) || macPairBad (rMac0 r) (rMac1 r)
    || memopBad (rMemop r) || portsBad (rInsel r) (rOutsel r)

/-- A FIFO record that R162 refuses at f by itself. -/
def fifoRecBad (f r : Nat) : Bool :=
  bits r 25 0 != 0 || (bits r 31 30 == 1 && f % 2 == 1) || (bits r 31 30 == 2 && f % 4 != 0)

/-- Whether FIFO f is consumed by a lower one of its grove (R148). -/
def State.fifoTaken (s : State) (g f : Nat) : Bool :=
  (List.range f).any (fun k => match bits (s.fifoRec (8 * g + k)) 31 30 with
    | 1 => k % 2 == 0 && f == k + 1
    | 2 => k % 4 == 0 && f < k + 4
    | _ => false)

/-- Whether grove g holds a FIFO that a lower one consumes and whose record is not SIZE 0b11, or one of SIZE 0b11 that none consumes
(R148, R162). -/
def State.takenBad (s : State) (g : Nat) : Bool :=
  (List.range 8).any (fun f => s.fifoTaken g f != fifoConsumed (s.fifoRec (8 * g + f)))

/-! ## Selects (R105, R106, R162) -/

/-- The FIFO at a tile's taps. -/
def fifoOfTile (T : Nat) : Option Nat := if 24 ≤ T % 64 && T % 64 < 32 then some (8 * (T / 64) + (T % 64 - 24)) else none

def hasTapIn (T : Nat) : Bool := (fifoOfTile T).isSome || T % 64 == 34 || T % 64 == 35
def hasTapOut (T : Nat) : Bool := (fifoOfTile T).isSome || T % 64 == 32 || T % 64 == 33 || T == 36

/-- Whether a segment arrives at input i (R102, R105). -/
def inputExists (T i : Nat) : Bool :=
  if i < 32 then (facing T i).isSome || (edgeLane T i).isSome else if i < 36 then true else i < 42 && hasTapIn T

/-- The input that receives output o, as its owner entry's key; none where a hard block or nothing receives it. -/
def receiver (T o : Nat) : Option Nat := (sinkOf T o).map (fun (T', i) => 64 * T' + i)

/-- The owner of what receives output o (R18, R106, R112, R482): an input's, a lane group's, a FIFO's, and at a cell-in or graft port
tap that of the tile's own entry for the tap. None where nothing receives it. -/
def State.recvOwner (s : State) (T o : Nat) : Option Nat :=
  if o < 36 then
    match sinkOf T o with
    | some (T', i) => some (s.swOwner T' i)
    | none => if o < 32 && (edgeLane T o).isSome then some 0x200 else none
  else match fifoOfTile T with
    | some F => some (s.ffOwner (F / 8) (F % 8))
    | none => if hasTapOut T then some (s.swOwner T o) else none

/-- The select of output o. -/
def State.selOf (s : State) (T o : Nat) : Nat := (s.sw.sel.rd (64 * T + o) 63).toNat

/-- A select that R105 refuses: its source or its receiver does not exist, or the owners differ and no gate opens to the source's
owner. Taps of cell-in ports and of the graft port make no check. -/
def State.selBad (s : State) (T o : Nat) : Bool :=
  let i := s.selOf T o
  if i = 63 then false
  else if 42 ≤ i || !inputExists T i then true
  else match s.recvOwner T o with
    | none => true
    | some own =>
      let gate := match receiver T o with
        | some k => bit (s.actv .swIn k).toNat 11 && (bits (s.actv .swIn k).toNat 21 12 == s.swOwner T i
            || bits (s.actv .swIn k).toNat 21 12 == 0x3FF)
        | none => false
      !(36 ≤ o && (fifoOfTile T).isNone) && s.swOwner T i != own && !gate

/-- A route to or from a tap that R162 closes: of a consumed FIFO, of an end on the NoC, at or above w. -/
def State.tapBad (s : State) (T o : Nat) : Bool :=
  match fifoOfTile T with
  | none => false
  | some F =>
    let r := s.fifoRec F
    let shut (k : Nat) (noc : Bool) : Bool := fifoConsumed r || noc || decide (fifoW r ≤ k)
    let i := s.selOf T o
    (36 ≤ o && i != 63 && shut (o - 36) (bit r 27)) || (36 ≤ i && i < 42 && shut (i - 36) (bit r 26))

/-- Some select of tile T that R162 refuses. -/
def State.tapsBad (s : State) (T : Nat) : Bool := (List.range 42).any (s.tapBad T)

/-! ## The lattice (R142) -/

/-- The macrocell that uses term 5m + j; none where its role is OFF or it is lent off the array. -/
def State.termUser (s : State) (g m j : Nat) : Option Nat :=
  match mcRole (s.mcRec g m) j with
  | 0 => none
  | 6 => if m = 0 then none else some (m - 1)
  | 7 => if m = 31 then none else some (m + 1)
  | _ => some m

/-- A term with a literal of a slot whose owner differs from that of the macrocell that uses the term (R142). -/
def State.termBad (s : State) (g m j : Nat) : Bool :=
  match s.termUser g m j with
  | none => false
  | some u =>
    let mask := (s.lt.pt.rd (160 * g + 5 * m + j) 0).toNat
    mask != 0 && (List.range 96).any (fun i => bits mask (2 * i + 1) (2 * i) != 0 && s.isOwner g i != s.mcOwner g u)

/-- A macrocell record that R142 refuses, its dedicated terms included. -/
def State.mcBad (s : State) (g m : Nat) : Bool :=
  bits (s.mcRec g m) 11 0 != 0 || (List.range 5).any (fun j =>
    let role := mcRole (s.mcRec g m) j
    (6 ≤ role && match s.termUser g m j with
      | some u => s.mcOwner g u != s.mcOwner g m
      | none => true)
    || s.termBad g m j)

/-- A quad record that R142 refuses. -/
def State.quadBad (s : State) (g q : Nat) : Bool :=
  let r := s.quadRec g q
  let w := bits r 62 60
  let sel (j : Nat) : Nat := bits r (24 + 7 * j) (18 + 7 * j)
  let roles (m : Nat) : List Nat := (List.range 5).map (mcRole (s.mcRec g m))
  bits r 17 0 != 0 || (List.range 5).any (fun j => w ≤ j && sel j != 0)
  || (bit r 63 && (w == 0 || decide (5 < w) || decide (95 < bits r 59 53 + 2 ^ w - 1) || (List.range w).any (fun j => decide (95 < sel j))
    || (List.range 3).any (fun k => s.mcOwner g (4 * q + k) != s.mcOwner g (4 * q + 3) || (roles (4 * q + k)).any (· != 0))
    || (roles (4 * q + 3)).contains 1))

/-- A selection slot's source code that R142 refuses. -/
def slotBad (g c : Nat) : Bool :=
  (0x430 ≤ c && c ≤ 0x437 && 4 ≤ g) || (0x438 ≤ c && c ≤ 0x7FE)

/-- An event line or pin line record that R142 refuses; a line of k 8 or more is a pin line. -/
def State.lineBad (s : State) (g k : Nat) : Bool :=
  let r := s.lineRec g k
  (8 ≤ k && (bits r 6 5 != 0 || (4 ≤ g && r != 0))) || (bit r 7 && s.mcOwner g (bits r 4 0) != 0x200)

/-- A sideband decode that R142 refuses. -/
def State.sdBad (s : State) (g k : Nat) : Bool := bits (s.sdRec g k) 2 1 != 0 || decide (41 < bits (s.sdRec g k) 9 4)

/-- Whether lattice record i of kind k of grove g, with v in its place, is one that R142 refuses, whatever other owners' records hold: a
macrocell's is judged with the quad of its owner that it belongs to. -/
def State.latRecBad (s : State) (g k i v : Nat) : Bool :=
  match k with
  | 5 => slotBad g v
  | 6 => s.termBad g (i / 5) (i % 5)
  | 7 => s.mcBad g i || (s.mcOwner g (4 * (i / 4) + 3) == s.mcOwner g i && s.quadBad g (i / 4))
  | 8 => s.quadBad g i
  | 9 => s.sdBad g i
  | _ => s.lineBad g i

/-- Whether the lattice of grove g, as it stands, holds something R142 refuses. The rule's list does not name a slot whose source has
another owner; the worked example after it says that heartwood refuses such a slot by R142, while the slot's own owner entry and R132 give
every slot an owner of its own. The model follows the list and refuses none (log entry 135). -/
def State.latBad (s : State) (g : Nat) : Bool :=
  (List.range 96).any (fun i => slotBad g (s.lt.isel.rd (96 * g + i) 0).toNat) || (List.range 32).any (s.mcBad g)
  || (List.range 8).any (s.quadBad g)
  || (List.range 16).any (fun k => s.sdBad g k || s.lineBad g k)

/-! ## Grants (R452) -/

/-- The tag to which an admitted vector grants a resource, as the number of its owner; 0x3FF for none. -/
def State.granteeOf (s : State) (res : Nat × Nat) : Nat :=
  (firstSome (fun (x : Nat × Nat × Nat) => if (itemRes x.2.2).contains res then some x.1 else none) s.granted).getD 0x3FF

/-- The window that a WINDOW item grants a ring: LEN and BASE, zeros where none does. -/
def State.windowOf (s : State) (T r : Nat) : Nat × Nat :=
  (firstSome (fun (x : Nat × Nat × Nat) =>
    let w := x.2.2
    if itKind w == 3 && itTile w == T && bits w 45 42 == r then some (bits w 41 30, bits w 29 19) else none) s.granted).getD (0, 0)

/-! ## Single records (R481) -/

/-- Set a field of a shadow register and of its active copy. -/
def State.setBoth (s : State) (n : RegName) (i hi lo v : Nat) : State :=
  (s.setFld n i hi lo v).setActv n i (BitVec.ofNat 32 (setBits (s.actv n i).toNat hi lo v))

/-- Records of each kind in a tile or grove, words of a record in a file, and its bits (R481). -/
def recCount (k : Nat) : Nat := [16, 42, 64, 15, 1, 96, 160, 32, 8, 16, 16].getD k 0
def recWords (k : Nat) : Nat := [6, 1, 1, 1, 2, 1, 6, 1, 2, 1, 1].getD k 0
def recBits (k : Nat) : Nat := [192, 6, 4, 16, 64, 11, 192, 32, 64, 32, 8].getD k 0

/-- Whether a record of kind k exists at tile T, index i: FIFO records in tiles g.24 to g.31, lattice records in g.0. -/
def recExists (k T i : Nat) : Bool :=
  k ≤ 10 && i < recCount k && (k != 4 || (fifoOfTile T).isSome) && (k < 5 || T % 64 == 0)

/-- Put a record into force. A FIFO record leaves THR and CTT as they are (R163, log entry 136); an image writes them besides. -/
def State.putRec (s : State) (k T i : Nat) (b : BitVec 192) : State :=
  let g := T / 64
  let v := b.toNat
  match k with
  | 0 => { s with tl := { s.tl with recs := s.tl.recs.wr (16 * T + i) recReset b } }
  | 1 => { s with sw := { s.sw with sel := s.sw.sel.wr (64 * T + i) 63 (BitVec.ofNat 6 v) } }
  | 2 => s.setBoth .tlCal (8 * T + i / 8) (4 * (i % 8) + 3) (4 * (i % 8)) (v % 16)
  | 3 => s.setBoth .tlGrp (16 * T + i) 15 0 (v % 65536)
  | 4 =>
    let F := 8 * g + (T % 64 - 24)
    { s with ff := { s.ff with recd := s.ff.recd.wr F 0 (BitVec.ofNat 32 v) } }
  | _ => { s with lt := match k with
    | 5 => { s.lt with isel := s.lt.isel.wr (96 * g + i) 0 (BitVec.ofNat 11 v) }
    | 6 => { s.lt with pt := s.lt.pt.wr (160 * g + i) 0 b, dead := s.lt.dead.del (deadTerm g i) }
    | 7 => { s.lt with mc := s.lt.mc.wr (32 * g + i) 0 (BitVec.ofNat 32 v), dead := s.lt.dead.del (deadMc g i) }
    | 8 => { s.lt with quad := s.lt.quad.wr (8 * g + i) 0 (BitVec.ofNat 64 v), dead := s.lt.dead.del (deadQuad g i) }
    | 9 => { s.lt with sd := s.lt.sd.wr (16 * g + i) 0 (BitVec.ofNat 32 v) }
    | _ => { s.lt with line := s.lt.line.wr (16 * g + i) 0 (BitVec.ofNat 8 v) } }

/-- The record in force. -/
def State.getRec (s : State) (k T i : Nat) : BitVec 192 :=
  let g := T / 64
  match k with
  | 0 => s.tl.recs.rd (16 * T + i) recReset
  | 1 => BitVec.ofNat 192 (s.selOf T i)
  | 2 => BitVec.ofNat 192 (s.actFld .tlCal (8 * T + i / 8) (4 * (i % 8) + 3) (4 * (i % 8)))
  | 3 => BitVec.ofNat 192 (s.actFld .tlGrp (16 * T + i) 15 0)
  | 4 => BitVec.ofNat 192 (s.fifoRec (8 * g + (T % 64 - 24)) + 2 ^ 32 * (s.reg .ffThr (8 * g + (T % 64 - 24))).toNat)
  | 5 => BitVec.ofNat 192 (s.lt.isel.rd (96 * g + i) 0).toNat
  | 6 => s.lt.pt.rd (160 * g + i) 0
  | 7 => BitVec.ofNat 192 (s.mcRec g i)
  | 8 => BitVec.ofNat 192 (s.quadRec g i)
  | 9 => BitVec.ofNat 192 (s.sdRec g i)
  | _ => BitVec.ofNat 192 (s.lineRec g i)

/-! ## Frames (R446) -/

/-- Words of a number, least significant first, and back. -/
def ofWords (ws : List Word) : Nat := ws.foldr (fun w a => w.toNat + 2 ^ 32 * a) 0
def toWords (n x : Nat) : List Word := (List.range n).map (fun i => BitVec.ofNat 32 (x / 2 ^ (32 * i)))

/-- Fields of w bits side by side, the first lowest. -/
def packBits (w : Nat) (l : List Nat) : Nat := l.foldr (fun v a => v % 2 ^ w + 2 ^ w * a) 0
/-- n fields of w bits of x, from bit `off`. -/
def slices (w n off x : Nat) : List Nat := (List.range n).map (fun i => x / 2 ^ (off + w * i) % 2 ^ w)

def fKind (a : Nat) : Nat := bits a 31 28
def fGrove (a : Nat) : Nat := bits a 27 22
def fTile (a : Nat) : Nat := bits a 21 16
def fSub (a : Nat) : Nat := bits a 15 0
/-- The tile index a frame address names. -/
def fT (a : Nat) : Nat := 64 * fGrove a + fTile a

/-- Words of a pin frame (R510). -/
def pinFrameWords (sub : Nat) : Option Nat := [64, 160, 4][sub]?

/-- Words of a lattice frame (R140). -/
def latFrameWords (sub : Nat) : Option Nat := [48, 960, 32, 16, 16, 4][sub]?

/-- Words of the frame an address names; none where the address is not valid for writing (R446). The first word of a domain vector
gives its length, `cnt` items. -/
def frameWords (a cnt : Nat) : Option Nat :=
  let g := fGrove a
  let t := fTile a
  let sub := fSub a
  match fKind a with
  | 0 => if sub = 0 then some 144 else none
  | 1 => if sub = 0 then some 288 else none
  | 2 => if sub % 64 = 0 && sub ≤ 1984 then some 48 else none
  | 3 => if t = 0 then latFrameWords sub else none
  | 4 => if t = 0 && g < 16 then (if sub = 0 then some 64 else if sub = 1 then some 512 else none) else none
  | 5 =>
    if t != 0 || g != 0 then none
    else if sub % 256 = 0 then (if sub / 256 < 92 then some 256 else none)
    else if sub % 256 ≤ 8 && 84 ≤ sub / 256 && sub / 256 ≤ 88 then some 512 else none
  | 6 =>
    if t != 0 || g != 0 then none
    else if sub = 0 then some 256 else if sub = 1 then some 64 else if sub = 0x1000 then some (2 * (cnt + 1)) else none
  | 7 => if t = 0 && g = 0 then pinFrameWords sub else none
  | _ => none

/-- Whether an address names a domain vector. -/
def isVector (a : Nat) : Bool := fKind a == 6 && fSub a == 0x1000 && fTile a == 0 && fGrove a == 0

/-! ## Frames of kind 0 (R447) -/

def cfgRings (x : Nat) : List Nat := slices 192 16 0 x
def cfgSels (x : Nat) : List Nat := slices 6 42 3072 x
def cfgCal (x : Nat) : List Nat := slices 4 64 3328 x
def cfgGroups (x : Nat) : List Nat := slices 32 15 3584 x
def cfgWins (x : Nat) : List Nat := slices 24 16 4064 x
def cfgFifo (x : Nat) : Nat := bits x 4511 4448
def cfgCallen (x : Nat) : Nat := bits x 4519 4512

/-- Whether a bit that R447 gives as 0 is set. -/
def cfgZeroBad (T x : Nat) : Bool :=
  (cfgRings x).any (fun r => bits r 23 0 != 0 || bits (rLatio r) 8 0 != 0) || bits x 3327 3324 != 0 || (cfgGroups x).any (fun w => bits w 21 16 != 0) || (cfgWins x).any (fun w => bit w 11)
    || (if (fifoOfTile T).isSome then bits (cfgFifo x) 25 0 != 0 else cfgFifo x != 0)
    || (if T % 64 = 0 then bit (cfgCallen x) 7 else cfgCallen x != 0) || bits x 4607 4520 != 0

/-- The frame of kind 0 as it stands. -/
def State.cfgFrame (s : State) (T : Nat) : Nat :=
  let f (k n : Nat) : List Nat := (List.range n).map (fun i => (s.getRec k T i).toNat)
  packBits 192 (f 0 16) + 2 ^ 3072 * packBits 6 (f 1 42) + 2 ^ 3328 * packBits 4 (f 2 64)
    + 2 ^ 3584 * packBits 32 ((List.range 15).map (fun n => (s.actv .tlGrp (16 * T + n)).toNat))
    + 2 ^ 4064 * packBits 24 ((List.range 16).map (fun r => let (b, l) := s.window T r; l * 2 ^ 12 + b))
    + (if (fifoOfTile T).isSome then 2 ^ 4448 * (s.getRec 4 T 0).toNat else 0)
    + (if T % 64 = 0 then 2 ^ 4512 * s.fld .tlGcalact (T / 64) 6 0 else 0)

/-- The parts of a kind 0 frame that are records, with kind and index (R481). -/
def cfgRecords (T x : Nat) : List (Nat × Nat × Nat) :=
  let f (k : Nat) (l : List Nat) : List (Nat × Nat × Nat) := l.zipIdx.map (fun (v, i) => (k, i, v))
  f 0 (cfgRings x) ++ f 1 (cfgSels x) ++ f 2 (cfgCal x) ++ f 3 ((cfgGroups x).map (fun w => bits w 15 0))
    ++ (if (fifoOfTile T).isSome then [(4, 0, cfgFifo x)] else [])

/-- Write a kind 0 frame: its records, THR and CTT of its FIFO, and at g.0 CALLEN. Owners of groups and the windows are the granted ones already. -/
def State.putCfg (s : State) (T x : Nat) : State :=
  let s := forEach (cfgRecords T x) s (fun (k, i, v) s => s.putRec k T i (BitVec.ofNat 192 v))
  let s := match fifoOfTile T with
    | some F => s.setReg .ffThr F (BitVec.ofNat 32 (cfgFifo x / 2 ^ 32))
    | none => s
  if T % 64 = 0 then (s.setFld .tlGcal (T / 64) 6 0 (cfgCallen x)).setFld .tlGcalact (T / 64) 6 0 (cfgCallen x) else s

/-- Heartwood's check of a full image's kind 0 frame (R452), as cause and reason: forms and CALLEN, the owners of rings, groups,
members and calendar entries, windows, named ports, and selects. -/
def State.cfgCheck (s : State) (T x : Nat) : Option (Nat × Nat) :=
  let s' := s.putCfg T x
  let gown (n : Nat) : Nat := bits ((cfgGroups x).getD n 0) 31 22
  let rown (r : Nat) : Nat := rOwner ((cfgRings x).getD r 0)
  if cfgZeroBad T x then some (5, 0)
  else if (T % 64 == 0 && (cfgCallen x == 0 || decide (64 < cfgCallen x))) || (cfgRings x).any ringBad then some (12, 1)
  else if (match fifoOfTile T with
      | some F => fifoRecBad (F % 8) (cfgFifo x % 2 ^ 32)
      | none => false) || s'.tapsBad T then some (12, 1)
  else if (List.range 16).any (fun r => rown r != s.granteeOf (2, 16 * T + r) || (let w := (cfgWins x).getD r 0
        (bits w 23 12, bits w 10 0) != s.windowOf T r)
        || (rown r != 0x3FF && !s.portsOwned T ((cfgRings x).getD r 0) (rown r)))
      || (List.range 15).any (fun n => gown n != s.granteeOf (3, 16 * T + n)
        || (ones 16 (bits ((cfgGroups x).getD n 0) 15 0)).any (fun r => rown r != gown n))
      || (cfgCal x).zipIdx.any (fun (v, e) => v != 15 && (gown v == 0x3FF || s.granteeOf (1, 64 * T + e) != gown v))
  then some (12, 3)
  else if (List.range 42).any (s'.selBad T) then some (12, 1) else none

/-! ## Frames of kinds 1 and 2 (R448, R446) -/

/-- Write a tile state frame. -/
def State.putState (s : State) (T x : Nat) : State :=
  let s := forEach (List.range 16) s (fun r s =>
    let y := x / 2 ^ (560 * r) % 2 ^ 560
    let s := forEach (slices 24 8 0 y).zipIdx s (fun (v, i) s => s.setDReg T r i (BitVec.ofNat 24 v))
    let s := forEach (slices 56 4 192 y).zipIdx s (fun (v, i) s => s.setAcc T r i (BitVec.ofNat 56 v))
    let s := forEach (slices 11 4 416 y).zipIdx s (fun (v, i) s => s.setP T r i (BitVec.ofNat 11 v))
    let s := forEach (slices 11 4 460 y).zipIdx s (fun (v, i) s => s.setBase T r i (BitVec.ofNat 11 v))
    let s := forEach (slices 12 4 504 y).zipIdx s (fun (v, i) s => s.setLen T r i (BitVec.ofNat 12 v))
    let f := bits y 559 552
    s.setFlags T r ⟨bit f 0, bit f 1, bit f 2, bit f 3, bit f 4, bit f 5, bit f 6, bit f 7⟩)
  forEach (slices 4 15 8960 x).zipIdx s (fun (v, j) s => s.setSidx T j v)

/-- The 560 bits of a ring's state (R448). -/
def ringState (t : RingTbls) (k : Nat) : Nat :=
  let f := t.fl.rd k flagsZero
  packBits 24 ((List.range 8).map (fun i => (t.d.rd (8 * k + i) 0).toNat))
    + 2 ^ 192 * packBits 56 ((List.range 4).map (fun i => (t.acc.rd (4 * k + i) 0).toNat))
    + 2 ^ 416 * packBits 11 ((List.range 4).map (fun i => (t.p.rd (4 * k + i) 0).toNat))
    + 2 ^ 460 * packBits 11 ((List.range 4).map (fun i => (t.base.rd (4 * k + i) 0).toNat))
    + 2 ^ 504 * packBits 12 ((List.range 4).map (fun i => (t.len.rd (4 * k + i) 0).toNat))
    + 2 ^ 552 * maskOf [f.c, f.z, f.n, f.v, f.cond, f.sat, f.aov, f.wfault]

/-- The words of a tile memory frame: three bytes each, byte 0 first (R446). -/
def memFrame (ws : List Word) : List W24 :=
  let b := wordsBytes ws
  (List.range 64).map (fun i => BitVec.ofNat 24 (bytesBE ((b.drop (3 * i)).take 3)))

/-! ## Frames of kind 3 (R140) -/

/-- Kind, number and width of the records of a lattice frame. -/
def latShape (sub : Nat) : Nat × Nat × Nat :=
  [(5, 96, 16), (6, 160, 192), (7, 32, 32), (8, 8, 64), (9, 16, 32), (10, 16, 8)].getD sub (10, 0, 8)

def latRecords (sub x : Nat) : List (Nat × Nat × Nat) :=
  let (k, n, w) := latShape sub
  (slices w n 0 x).zipIdx.map (fun (v, i) => (k, i, v))

/-- A reserved bit of a selection slot's record (R140). -/
def latZeroBad (sub x : Nat) : Bool := sub == 0 && (latRecords sub x).any (fun (_, _, v) => bits v 15 11 != 0)

def State.putLat (s : State) (g sub x : Nat) : State :=
  forEach (latRecords sub x) s (fun (k, i, v) s => s.putRec k (64 * g) i (BitVec.ofNat 192 v))

def State.latFrame (s : State) (g sub : Nat) : Nat :=
  let (k, n, w) := latShape sub
  packBits w ((List.range n).map (fun i => (s.getRec k (64 * g) i).toNat))

/-! ## Frames of kinds 4 to 7 (R449, R452) -/

/-- The registers of a lane's eight words, and those of a stream's two. -/
def laneRegs : List RegName := [.lnCfg, .lnTxeq, .lnRxdly, .lnTxdly, .lnRawfill, .lnPymach, .lnPymacl, .lnIen]

/-- Write registers through the write rules of lanes; false where one refuses. -/
def State.writeAll (s : State) (l : List (RegName × Nat × Word)) : Bool × State :=
  l.foldl (fun (ok, s) (n, i, w) =>
    let s := s.writeLn .pf0 n i w
    (ok && s.answer.status == .ok, s)) (true, s)

/-- A lane settings frame: the group's lanes from their reset values, LN_CFGj last (R263, R267, R307). -/
def State.putLanes (s : State) (g : Nat) (ws : List Word) : Bool × State :=
  let js := (List.range 8).map (8 * g + ·)
  let s := forEach js s (fun j s => laneRegs.foldl (fun s n => s.resetReg n j) s)
  let at' (k : Nat) (n : RegName) : List (RegName × Nat × Word) := js.map (fun j => (n, j, ws.getD (8 * (j % 8) + k) 0))
  s.writeAll (((laneRegs.zipIdx.drop 1).flatMap (fun (n, k) => at' k n)) ++ at' 0 .lnCfg)

/-- A Pyril stream table frame. -/
def State.putStreams (s : State) (g : Nat) (ws : List Word) : Bool × State :=
  let ks := (List.range 256).map (256 * g + ·)
  let s := forEach ks s (fun k s => (s.resetReg .lnPys k).resetReg .lnPyg k)
  s.writeAll (ks.flatMap (fun k => [(.lnPyg, k, ws.getD (2 * (k % 256) + 1) 0), (.lnPys, k, ws.getD (2 * (k % 256)) 0)]))

/-- The credit of all requesters towards node d (R326). -/
def State.credSum (s : State) (d : Nat) : Nat :=
  ((List.range 92).map (fun ni => if s.rteValid ni d then s.rteCred ni d else 0)).sum

/-- A route table frame: each valid entry as R317 and R326 lay down. -/
def State.putRoutes (s : State) (ni : Nat) (ws : List Word) : Bool × State :=
  let (ok, s) := (List.range 128).foldl (fun (ok, s) d =>
    let k := rteKey ni d
    let s := (((s.resetReg .ncRteH k).resetReg .ncRteL k).setReg .ncRteL k (ws.getD (2 * d) 0)).writeRteH .heartwood ni d
      (ws.getD (2 * d + 1) 0)
    (ok && s.answer.status == .ok, s)) (true, s)
  (ok && (List.range 92).all (fun d => decide (s.credSum d ≤ 32)), s)

/-- The operator's injection rates and the others' at an NI or towards a node, with its sealed positions, exceed what R242
allows. -/
def State.injSumBad (s : State) : Bool :=
  let es := s.regs.filter (fun (e : Nat × Word) => e.1 % 256 == RegName.ncInjA.ctorIdx && bit e.2.toNat 31)
  let rate (e : Nat × Word) : Nat := s.fld .ncInjB (e.1 / 256) 23 15
  let seals := s.sealPositions
  (List.range 5).any (fun n => decide (192 < ((es.filter (fun e => e.1 / 256 / 2048 == n)).map rate).sum
    + 9 * (seals.filter (fun x => x.1 == 84 + n)).length))
  || (List.range 92).any (fun d => decide (192 < ((es.filter (fun e => bits e.2.toNat 20 14 == d)).map rate).sum))

/-- An injection entry's first word, its reserved bits left out (R13, R345), with its second as at reset. -/
def State.putInjA (s : State) (k : Nat) (a : Word) : State :=
  ((s.resetReg .ncInjA k).resetReg .ncInjB k).setReg .ncInjA k (BitVec.ofNat 32 (a.toNat / 4096 * 4096))

/-- One entry of an injection frame: a valid one carries tag 0x200 and is judged; a tenant's entry in its way moves to a free one, and
an entry that is not valid is not judged and leaves a tenant's as it stands. -/
def State.putInjEntry (s : State) (ni i : Nat) (a b : Word) : Bool × State :=
  let k := injKey ni i
  let tenant := s.flag .ncInjA k 31 && s.fld .ncInjA k 30 21 != 0x200
  if !bit a.toNat 31 then
    if tenant then (true, s)
    else
      let s := s.putInjA k a
      (true, s.writeInjB .heartwood ni i b)
  else
    let s := if tenant then
        match s.injFree ni with
        | some j => (s.setReg .ncInjA (injKey ni j) (s.reg .ncInjA k)).setReg .ncInjB (injKey ni j) (s.reg .ncInjB k)
        | none => s
      else s
    let s := s.putInjA k a
    let s := s.writeInjB .heartwood ni i b
    (s.answer.status == .ok && bits a.toNat 30 21 == 0x200 && decide (bits a.toNat 20 14 < 92), s)

/-- An injection block frame (R452): the reason of a refusal, FORMAT or NOC. -/
def State.putInjBlock (s : State) (ni blk : Nat) (ws : List Word) : Option Nat × State :=
  let (ok, s) := (List.range 256).foldl (fun (ok, s) i =>
    let (o, s) := s.putInjEntry ni (256 * (blk - 1) + i) (ws.getD (2 * i) 0) (ws.getD (2 * i + 1) 0)
    (ok && o, s)) (true, s)
  (if !ok then some 1 else if s.injSumBad then some 7 else none, s)

/-- The port table and the histogram table. -/
def State.putPorts (s : State) (ws : List Word) : State :=
  forEach (List.range 128) s (fun p s => (((s.resetReg .qePcfg p).writeQe .pf0 .qePcfg p (ws.getD (2 * p) 0)).resetReg .qePrate p).writeQe
    .heartwood .qePrate p (ws.getD (2 * p + 1) 0))

def State.putHists (s : State) (ws : List Word) : State :=
  forEach (List.range 64) s (fun h s => (s.resetReg .qeHcfg h).writeQe .pf0 .qeHcfg h (ws.getD h 0))

/-- Items of a vector frame: a header and 64-bit items, little-endian (R237, R450). -/
def vectorItems (ws : List Word) : List Nat :=
  (List.range (ws.length / 2)).map (fun i => (ws.getD (2 * i) 0).toNat + 2 ^ 32 * (ws.getD (2 * i + 1) 0).toNat)

/-- A domain vector of an image (R450): judged against those before it and put in force at once (R451). -/
def State.putVector (s : State) (ws : List Word) : Option (Nat × Nat) × State :=
  let l := vectorItems ws
  let hdr := l.headD 0
  let items := l.drop 1
  let op := bits hdr 63 54 == 0x200
  if op && (bits hdr 53 52 != 0 || bit hdr 51) then (some (12, 1), s)
  else match s.judgeVector op hdr items with
    | some (r, _) => (some (12, r), s)
    | none =>
      let s := s.admitVector hdr items
      let s := forEach (itemGroves items) s (fun g s => s.activateShadows g)
      if op then
        -- every edge segment and lane group input belongs to 0x200 (R450)
        (none, forEach (List.range 128) s (fun j s => forEach (List.range 6) s (fun k s =>
          let (T, b) := laneEdge j
          s.setBoth .swIn (64 * T + b + k) 31 22 0x200)))
      else (none, s)

/-- Check a frame of a full image and write it (R446-R452): cause and reason of a refusal, and the state after. -/
def State.putFrame (s : State) (a : Nat) (ws : List Word) : Option (Nat × Nat) × State :=
  let x := ofWords ws
  let g := fGrove a
  let T := fT a
  let sub := fSub a
  let bad (b : Bool) (r : Nat) : Option (Nat × Nat) := if b then some (12, r) else none
  match fKind a with
  | 0 => (s.cfgCheck T x, s.putCfg T x)
  | 1 => (if bits x 9023 9020 != 0 || bits x 9215 9024 != 0 then some (5, 0) else none, s.putState T x)
  | 2 => (none, forEach (memFrame ws).zipIdx s (fun (v, i) s => s.setTmem T (sub + i) v))
  | 3 =>
    let s' := s.putLat g sub x
    (bad (latZeroBad sub x || s'.latBad g) 1, s')
  | 4 => let (ok, s) := if sub = 0 then s.putLanes g ws else s.putStreams g ws
    (bad (!ok) 1, s)
  | 5 =>
    if sub % 256 = 0 then
      let (ok, s) := s.putRoutes (sub / 256) ws
      (bad (!ok) 1, s)
    else
      let (r, s) := s.putInjBlock (sub / 256) (sub % 256) ws
      (r.map (fun r => (12, r)), s)
  | 6 => if sub = 0 then (none, s.putPorts ws) else if sub = 1 then (none, s.putHists ws) else s.putVector ws
  | _ => ((s.pinFrameBad sub ws).map (fun r => (12, r)), s.putPinFrame sub ws)

end Sys2Proof.Machine
end

