-- ==== Sys2Proof/Machine/Graft.lean ====
section
/-! DEFINITION. Grafts (R478-R495): files, the internal graft port, checks, shadows, commits and staged release. -/

namespace Sys2Proof

/-- The owner of a graft. -/
def Machine.Origin.owner : Machine.Origin → Tag
  | .file o _ => o
  | .port o _ => o

namespace Machine

/-! ## Whose a record is (R482, R143) -/

/-- The owner of the input a sideband decode watches; an all-zero decode is nobody's. -/
def State.decodeOwner (s : State) (g r : Nat) : Option Nat :=
  if r = 0 then none else some (s.swOwner (64 * g + bits r 15 10) (bits r 9 4))

/-- Whether the owner may change record i of kind k at tile T, which is to hold v (R482, R143). -/
def State.mayChange (s : State) (own k T i v : Nat) : Bool :=
  let g := T / 64
  let dec (r : Nat) : Bool := match s.decodeOwner g r with
    | some o => o == own
    | none => true
  match k with
  | 0 => rOwner (s.ringRec T i) == own
  | 1 => s.recvOwner T i == some own
  | 2 => s.granteeOf (1, 64 * T + i) == own
  | 3 => s.actFld .tlGrp (16 * T + i) 31 22 == own
  | 4 => s.ffOwner g (T % 64 - 24) == own
  | 5 => s.isOwner g i == own
  | 6 => s.mcOwner g (i / 5) == own
  | 7 => s.mcOwner g i == own
  | 8 => s.mcOwner g (4 * i + 3) == own
  | 9 => dec v && dec (s.sdRec g i)
  | _ => own == 0x200

/-- Whether what a record names besides itself is its owner's too: a ring record's OWNER, the group of a calendar entry, and the
members of a group (R482). -/
def State.namesOwn (s : State) (own k T v : Nat) : Bool :=
  match k with
  | 0 => rOwner v == own
  | 2 => v == 15 || s.actFld .tlGrp (16 * T + v % 16) 31 22 == own
  | 3 => (ones 16 v).all (fun r => rOwner (s.ringRec T r) == own)
  | _ => true

/-- The rules of the record itself, with the record in place in `s` (R483 GRECORD). -/
def State.recordBad (s : State) (k T i v : Nat) : Bool :=
  let g := T / 64
  decide (2 ^ recBits k ≤ v) || match k with
  | 0 => ringBad v
  | 1 => s.tapBad T i
  | 2 | 3 => false
  | 4 => fifoRecBad (T % 64 - 24) (v % 2 ^ 32) || s.tapsBad T
  | _ => s.latRecBad g k i v

/-- The reason for which a record is refused (R482, R483), judged on `s`, in the order of R483's table (log entry 93). -/
def State.recReason (s : State) (org : Origin) (k T i v : Nat) : Option Nat :=
  let own := org.owner.toNat
  let s' := s.putRec k T i (BitVec.ofNat 192 v)
  if !recExists k T i then some 0x22
  else if k == 10 && own != 0x200 then some 0x24
  else if !s.mayChange own k T i v || !s.namesOwn own k T v then some 0x23
  else if s'.recordBad k T i v then some 0x24
  else if k == 1 && s'.selBad T i then some 0x25
  else if k == 0 && !s.portsOwned T v own then some 0x26
  else if s.gr.sh.any (fun h => h.kind.toNat == k && h.tile.toNat == T && h.idx.toNat == i && h.org != org) then some 0x28
  else if s.closed (T / 64) || !s.powered (T / 64) then some 0x2A
  else none

/-! ## The judgement of a file (R479-R483) -/

/-- A file under judgement: the state with its records so far in place, its shadows, the previous frame (R443), the running CRC-32C
and whether the last command was a CHECKPOINT. -/
structure GJudge where
  view : State
  sh   : List GShadow
  prev : Option (Nat × List Word)
  crc  : BitVec 32
  checked : Bool

/-- A pending shadow, in place of one of the same graft for the same record, whose commit request it keeps (R489, log entry 93). -/
def addShadow (l : List GShadow) (h : GShadow) : List GShadow :=
  let same (x : GShadow) : Bool := x.org == h.org && x.kind == h.kind && x.tile == h.tile && x.idx == h.idx
  l.filter (fun x => !same x) ++ [{ h with asked := (l.find? same).bind (·.asked) }]

def mkShadow (org : Origin) (k T i v : Nat) : GShadow :=
  ⟨org, BitVec.ofNat 4 k, BitVec.ofNat 12 T, BitVec.ofNat 8 i, BitVec.ofNat 192 v, none⟩

/-- One record of a file. -/
def GJudge.record (j : GJudge) (org : Origin) (k T i v : Nat) : Except Nat GJudge :=
  match j.view.recReason org k T i v with
  | some r => .error r
  | none => .ok { j with view := j.view.putRec k T i (BitVec.ofNat 192 v), sh := addShadow j.sh (mkShadow org k T i v) }

/-- One record of a frame: the owner's is written, another's must stand as it is held. -/
def GJudge.part (j : GJudge) (org : Origin) (T : Nat) (x : Nat × Nat × Nat) : Except Nat GJudge :=
  let (k, i, v) := x
  if j.view.mayChange org.owner.toNat k T i v then j.record org k T i v
  else if (j.view.getRec k T i).toNat = v then .ok j else .error 0x27

/-- A kind 0 or kind 3 frame of a graft (R480, R483). -/
def GJudge.frame (j : GJudge) (org : Origin) (a : Nat) (ws : List Word) : Except Nat GJudge :=
  let x := ofWords ws
  let T := fT a
  if fKind a != 0 && fKind a != 3 then .error 0x21
  else if frameWords a 0 != some ws.length then .error 0x22
  else if fKind a = 0 then
    let held := j.view.cfgFrame T
    let fixed (y : Nat) : List Nat := (cfgGroups y).map (fun w => bits w 31 16) ++ cfgWins y ++ [cfgCallen y]
    if cfgZeroBad T x then .error 0x24
    else if fixed x != fixed held then .error 0x27
    else (cfgRecords T x).foldlM (fun j y => j.part org T y) j
  else if latZeroBad (fSub a) x then .error 0x24
  else (latRecords (fSub a) x).foldlM (fun j y => j.part org T y) j

/-- Words of a command, by its first word (R440, R481); none for an operation that is reserved in full images. -/
def cmdLen (w0 : Word) : Option Nat :=
  let n := w0.toNat
  match bits n 31 28 with
  | 0 => some 1
  | 1 | 4 => some (2 + bits n 13 0)
  | 2 => some (if bit n 27 then 1 + bits n 15 0 else 3)
  | 3 => some 3
  | 5 => some 4
  | 6 | 7 => some 2
  | 8 => some 1
  | _ => none

/-- The addresses of a FRAME_REPEAT (R443). -/
def repeatAddrs (ws : List Word) : List Nat :=
  let w (i : Nat) : Nat := (ws.getD i 0).toNat
  let n := bits (w 0) 15 0
  if bit (w 0) 27 then (ws.drop 1).map (·.toNat)
  else (List.range n).map (fun i => (w 1 + i * w 2) % 2 ^ 32)

/-- The words of a filled frame (R443); none for an address that may not be filled. -/
def fillWords (a : Nat) (pattern : Word) : Option (List Word) :=
  if isVector a then none else (frameWords a 0).map (fun n => List.replicate n pattern)

/-- One command of a graft other than CHECKPOINT and END (R480, R481). -/
def GJudge.cmd (j : GJudge) (org : Origin) (ws : List Word) : Except Nat GJudge :=
  let w (i : Nat) : Nat := (ws.getD i 0).toNat
  match bits (w 0) 31 28 with
  | 0 => if w 0 = 0 then .ok j else .error 0x21
  | 1 =>
    if bits (w 0) 27 14 != 0 then .error 0x21
    else (j.frame org (w 1) (ws.drop 2)).map (fun j => { j with prev := some (w 1, ws.drop 2) })
  | 2 =>
    match j.prev with
    | none => .error 0x21
    | some (a, d) =>
      if bits (w 0) 26 16 != 0 || bits (w 0) 15 0 == 0 then .error 0x21
      else (repeatAddrs ws).foldlM (fun j b =>
        if (frameWords b 0).isNone then .error 0x22
        else if fKind b != fKind a || frameWords b 0 != some d.length then .error 0x21 else j.frame org b d) j
  | 3 =>
    if bits (w 0) 27 0 != 0 || (fKind (w 1) != 0 && fKind (w 1) != 3) then .error 0x21
    else match fillWords (w 1) (ws.getD 2 0) with
      | none => .error 0x22
      | some d => (j.frame org (w 1) d).map (fun j => { j with prev := some (w 1, d) })
  | 9 =>
    let k := bits (w 0) 27 24
    if bits (w 0) 23 16 != 0 || bits (w 1) 19 8 != 0 then .error 0x21
    else if 10 < k || bits (w 0) 15 0 != recWords k then .error 0x22
    else j.record org k (bits (w 1) 31 20) (bits (w 1) 7 0) (ofWords (ws.drop 2))
  | _ => .error 0x21

/-- The command section of a graft (R441, R444, R480). -/
def GJudge.run (org : Origin) : Nat → List Word → GJudge → Except Nat GJudge
  | 0, _, _ => .error 0x21
  | _ + 1, [], _ => .error 0x21
  | n + 1, w0 :: r, j =>
    let len := if bits w0.toNat 31 28 = 9 then some (2 + bits w0.toNat 15 0) else cmdLen w0
    match len with
    | none => .error 0x21
    | some len =>
      let ws := (w0 :: r).take len
      let rest := (w0 :: r).drop len
      if ws.length != len then .error 0x21
      else if bits w0.toNat 31 28 = 8 then
        if w0 == 0x80000000 && j.checked && rest.isEmpty then .ok j else .error 0x21
      else if bits w0.toNat 31 28 = 7 then
        if w0 == 0x70000000 && ws.getD 1 0 == ~~~j.crc then GJudge.run org n rest { j with crc := 0xFFFFFFFF, checked := true }
        else .error 0x21
      else match j.cmd org ws with
        | .error e => .error e
        | .ok j => GJudge.run org n rest { j with crc := crcRun polyC j.crc (wordsBytes ws), checked := false }

/-- What R483 calls GHEAD, GSTEP, KEY, ROLL or SIG in a file of words, in that order; else its section in plain (R479). -/
def State.graftHead (s : State) (tag : Tag) (ws : List Word) : Except Nat (List Word) :=
  let h := ws.take 16
  let keys := (ws.drop 16).take (hKeyWords h)
  let tenant := tag != opTag
  if 262144 < ws.length then .error 0x20
  else match cutFile ws with
    | none => .error 0x20
    | some (_, _, cipher, tail) =>
      if hFormatBad h keys || hFormat h != 1 || decide (s.stepping < hStepMin h) || decide (hStepMax h < s.stepping) || !hGraft h
          || hWdog h != 0 || (tenant && (hKeyId h != 0 || hEnc h || hNkb h != 0)) then .error 0x20
      else if hLock h != s.flag .cfStat 0 21 then .error 0x29
      else if tenant then
        if s.ht.tkeys.rd tag.toNat none != some (BitVec.ofNat 768 (tailKey h tail)) then .error 0x0D
        else if !ecdsaOk (tailKey h tail) (fileHash h keys cipher tail) (tailSig h tail) then .error 0x0C
        else .ok cipher
      else if !s.keyOk (hKeyId h) (tailKey h tail) then .error 0x0D
      else if hSvn h < (s.reg .pbMono 0).toNat then .error 0x0E
      else match unwrapKey h keys with
        | none => .error (if (List.range (hNkb h)).any (fun k =>
            bytesLE (wordsBytes ((keys.drop (20 * k)).take 2)) == Config.devid.toNat) then 0x0C else 0x0D)
        | some key =>
          if !tagOk h keys cipher tail key || !ecdsaOk (tailKey h tail) (fileHash h keys cipher tail) (tailSig h tail) then .error 0x0C
          else .ok (plainWords h key 0 cipher)

/-- The judgement of a whole graft file: the reason of its refusal, or its shadows (R482). -/
def State.judgeGraft (s : State) (org : Origin) (ws : List Word) : Except Nat (List GShadow) :=
  match s.graftHead org.owner ws with
  | .error r => .error r
  | .ok sec => match GJudge.run org (sec.length + 1) sec ⟨s, [], none, 0xFFFFFFFF, false⟩ with
    | .error r => .error r
    | .ok j =>
      if j.sh.any (fun h => h.kind == 4 && j.view.takenBad (h.tile.toNat / 64)) then .error 0x24
      else .ok j.sh

/-! ## Outcomes (R371, R495, R500) -/

/-- An operator graft's outcome (R500). -/
def State.ogDone (s : State) (st reason : Nat) : State :=
  s.setReg .cfOgstat 0 (BitVec.ofNat 32 (3 * 2 ^ 30 + reason * 2 ^ 16 + st * 2 ^ 12))

/-- A graft file is done (R495). -/
def State.fileDone (s : State) (vf : Option (Fin 512)) (st reason : Nat) : State :=
  match vf with
  | some v => s.graftDone v.val st reason
  | none => s.ogDone st reason

/-- Files that no grove has still to release are done (R495). -/
def State.settleGrafts (s : State) : State :=
  let fin := s.gr.files.filter (fun f => f.groves.isEmpty)
  let s := { s with gr := { s.gr with files := s.gr.files.filter (fun f => !f.groves.isEmpty) } }
  forEach fin s (fun f s => s.fileDone f.vf (if f.fenced then Status.fenced.code else 0) 0)

/-- Grove g is fenced (R493, R495): files that wait for it will show FENCED, and its staged releases are the restoration's. -/
def State.graftFenced (s : State) (g : Nat) : State :=
  { s with gr := { s.gr with
    staged := s.gr.staged.filter (fun x => x.grove != g)
    files := s.gr.files.map (fun f => if f.groves.contains g then { f with fenced := true, groves := f.groves.filter (· != g) } else f) } }

/-- Pending shadows of which `p` holds are dropped (R493), with requests that have nothing left to commit; a file that loses one of
its shadows is done with ABORTED (log entry 93). -/
def State.dropShadows (s : State) (p : GShadow → Bool) : State :=
  let lost := (s.gr.sh.filter p).map (·.org)
  let dead := s.gr.files.filter (fun f => lost.contains f.org)
  let gone (o : Origin) : Bool := dead.any (fun f => f.org == o)
  let sh := s.gr.sh.filter (fun h => !p h && !gone h.org)
  let s := { s with gr := { s.gr with sh := sh, req := s.gr.req.filter (fun r => sh.any (fun h => h.org == r.org && h.asked == some r.fc)),
                                      files := s.gr.files.filter (fun f => !gone f.org) } }
  forEach dead s (fun f s => s.fileDone f.vf Status.aborted.code 0)

/-! ## Heartwood's part (R482, R485) -/

/-- The groves that some shadows touch. -/
def shadowGroves (l : List GShadow) : List Nat := (List.range 64).filter (fun g => l.any (fun h => h.tile.toNat / 64 == g))

/-- Whether heartwood takes calls now: it has booted, is not halted, no call is RUNNING, and no full load holds them (R414,
R423, R459). -/
def State.htFree (s : State) : Bool :=
  s.flag .htStat 0 30 && !s.flag .htStat 0 31 && s.ht.wait.isNone && !s.callsHeld

/-- Judge a graft file and write its shadows, or refuse it (R482, R485); a tenant's is judged by its registry slot (R417). -/
def State.checkFile (s : State) (tag : Tag) (vf : Option (Fin 512)) (ws : List Word) : State :=
  let org := Origin.file tag s.gr.nfile
  let s := { s with gr := { s.gr with nfile := s.gr.nfile + 1 } }
  let s := if tag == opTag then s else (s.readSlot tag.toNat).2
  match s.judgeGraft org ws with
  | .error r => s.fileDone vf Status.denied.code r
  | .ok sh =>
    let gs := shadowGroves sh
    { s with gr := { s.gr with
      sh := s.gr.sh ++ sh.map (fun (h : GShadow) => { h with asked := some s.fc })
      req := s.gr.req ++ gs.map (fun g => ((⟨org, g, s.fc⟩ : GCommit)))
      files := s.gr.files ++ [(⟨org, vf, gs, false⟩ : GFile)] } }.settleGrafts

/-- GRAFT_CHECK (R482): heartwood takes the graft file at the head of its queue. -/
def execGraftCheck (s : State) : Res :=
  let pop (r : List (Nat × CallSrc)) (s : State) : State := { s with ht := { s.ht with callq := r } }
  .next (match s.ht.callq with
  | (_, .graft v) :: r =>
    if !s.htFree then s
    else if s.gState v.val != 2 then pop r s
    else match s.boundTag v.val with
      | some t => (pop r s).checkFile t (some v) (s.hi.gstage.rd v.val [])
      | none => (pop r s).graftDone v.val Status.denied.code 0x0F
  | (_, .opGraft) :: r =>
    if !s.htFree then s
    else
      let ws := s.gr.opStage
      let s := pop r { s with gr := { s.gr with opStage := [] } }
      s.checkFile opTag none ws
  | _ => s)

/-! ## The internal graft port (R486-R489) -/

/-- The port takes the words at its taps in this fc (R486-R488): T0 into a command, T1 to T5 discarded and counted. -/
def State.tickGraftPort (s : State) : State :=
  let key (k : Nat) : Nat := 64 * 36 + 36 + k
  let s := forEach [1, 2, 3, 4, 5] s (fun k s => match (s.stageAt (key k)).head s.fc with
    | some _ => (s.setSrc (.stage (key k)) ((s.stageAt (key k)).pop s.fc)).count .cfGpdisc 0 31 0 1
    | none => s)
  if 4 ≤ s.gr.cmds.length then s
  else match (s.stageAt (key 0)).head s.fc with
    | none => s
    | some w =>
      let s := s.setSrc (.stage (key 0)) ((s.stageAt (key 0)).pop s.fc)
      let c := w.code.toNat
      if c == codeIDLE || (s.gr.port.isEmpty && !codeOpens c) then s
      else
        let ws := s.gr.port ++ [w]
        if codeEnds c || c == codeERR then { s with gr := { s.gr with port := [], cmds := s.gr.cmds ++ [ws] } }
        else { s with gr := { s.gr with port := ws } }

/-- A command that R487 discards whole: a word of another tag, or of a code other than DATA and the closing EOP of three bytes. -/
def portMalformed (ws : List CWord) : Bool :=
  match ws with
  | [] => true
  | [w] => w.code.toNat != 7
  | w :: r => w.code.toNat != codeSOP || (r.getLast?.map (fun x => x.code.toNat)) != some 4
      || r.dropLast.any (fun x => x.code.toNat != codeDATA) || r.any (fun x => x.tag != w.tag)

/-- Word i of a port command. -/
def pWord (ws : List CWord) (i : Nat) : Nat := ((ws[i]?).map (fun w => w.data.toNat)).getD 0

def pTag (ws : List CWord) : Tag := ((ws[0]?).map (·.tag)).getD noTag
def pOp (ws : List CWord) : Nat := bits (pWord ws 0) 23 20
def pOrigin (ws : List CWord) : Origin := .port (pTag ws) (BitVec.ofNat 2 (bits (pWord ws 0) 15 14))

/-- Port words of a record of kind k: ceil(bits / 24) (R481). -/
def portWords (k : Nat) : Nat := (recBits k + 23) / 24

/-- The reason for which a well-formed port packet is refused as a command (R487): a reserved operation or field, or its length. -/
def portBad (ws : List CWord) : Option Nat :=
  let w0 := pWord ws 0
  let k := bits w0 19 16
  if pOp ws = 1 then
    if bits w0 13 0 != 0 || ws.length < 2 || bits (pWord ws 1) 11 8 != 0 then some 0x21
    else if 10 < k then some 0x22
    else if ws.length != 2 + portWords k then some 0x21 else none
  else if pOp ws = 2 || pOp ws = 3 then (if k != 0 || bits w0 13 0 != 0 || ws.length != 1 then some 0x21 else none)
  else some 0x21

/-- A command is refused (R488): counted, and told to its issuer. -/
def State.portRefuse (s : State) (ws : List CWord) (reason : Nat) : State :=
  let s := s.count .cfGpcnt 0 15 0 1
  let det := if pOp ws = 1 then bits (pWord ws 1) 23 12 * 2 ^ 20 + bits (pWord ws 1) 7 0 * 2 ^ 12 + bits (pWord ws 0) 19 16 * 2 ^ 8 else 0
  s.tellOwner 2 (pTag ws) 12 10 (det + reason)

def State.popPort (s : State) : State := { s with gr := { s.gr with cmds := s.gr.cmds.drop 1 } }

/-- GRAFT_PORT_RECORD (R488): the port's next command is a RECORD, or one with no operation of the table; it is checked on the
state with its own group's shadows in place. -/
def execGraftPortRecord (s : State) : Res :=
  .next (match s.gr.cmds with
  | [] => s
  | ws :: _ =>
    if portMalformed ws || pOp ws = 2 || pOp ws = 3 then s
    else
      let s := s.popPort
      match portBad ws with
      | some r => s.portRefuse ws r
      | none =>
        let org := pOrigin ws
        let k := bits (pWord ws 0) 19 16
        let T := bits (pWord ws 1) 23 12
        let i := bits (pWord ws 1) 7 0
        let v := (ws.drop 2).foldl (fun a w => a * 2 ^ 24 + w.data.toNat) 0
        let view := forEach (s.gr.sh.filter (fun h => h.org == org)) s
          (fun h s => s.putRec h.kind.toNat h.tile.toNat h.idx.toNat h.bits)
        match view.recReason org k T i v with
        | some r => s.portRefuse ws r
        | none =>
          if k == 4 && (view.putRec k T i (BitVec.ofNat 192 v)).takenBad (T / 64) then s.portRefuse ws 0x24
          else { s with gr := { s.gr with sh := addShadow s.gr.sh (mkShadow org k T i v) } }.count .cfGpcnt 0 31 16 1)

/-- The port's next command when it is well formed and of operation `op`. -/
def State.portNext (s : State) (op : Nat) : Option (List CWord) :=
  match s.gr.cmds with
  | ws :: _ => if portMalformed ws || pOp ws != op then none else some ws
  | [] => none

/-- GRAFT_PORT_COMMIT (R489): the commit of the issuer's group, as it is pending now, is requested in every grove that it touches. -/
def execGraftPortCommit (s : State) : Res :=
  .next (match s.portNext 2 with
  | none => s
  | some ws => match portBad ws with
    | some r => s.popPort.portRefuse ws r
    | none =>
      let org := pOrigin ws
      let mine (h : GShadow) : Bool := h.org == org && h.asked.isNone
      let new := (shadowGroves (s.gr.sh.filter mine)).map (fun g => (⟨org, g, s.fc⟩ : GCommit))
      let s := s.popPort
      { s with gr := { s.gr with
        req := s.gr.req ++ new.filter (fun r => !s.gr.req.contains r)
        sh := s.gr.sh.map (fun h => if mine h then { h with asked := some s.fc } else h) } }.count .cfGpcnt 0 31 16 1)

/-- GRAFT_PORT_DISCARD (R489). -/
def execGraftPortDiscard (s : State) : Res :=
  .next (match s.portNext 3 with
  | none => s
  | some ws => match portBad ws with
    | some r => s.popPort.portRefuse ws r
    | none => (s.popPort.dropShadows (fun h => h.org == pOrigin ws)).count .cfGpcnt 0 31 16 1)

/-- GRAFT_PORT_COMMAND_DISCARD (R487). -/
def execGraftPortCommandDiscard (s : State) : Res :=
  .next (match s.gr.cmds with
  | ws :: _ => if portMalformed ws then (s.popPort.count .cfGpdisc 0 31 0 1).alarm else s
  | [] => s)

/-! ## Commits (R490-R492, R494) -/

/-- The macrocells a record concerns: its own, that of a dedicated term, the four of a quad (R494). -/
def recMcs (h : GShadow) : List Nat :=
  let g := h.tile.toNat / 64
  let i := h.idx.toNat
  match h.kind.toNat with
  | 6 => [32 * g + i / 5]
  | 7 => [32 * g + i]
  | 8 => (List.range 4).map (32 * g + 4 * i + ·)
  | _ => []

/-- The groups with one of these rings as a member (R39). -/
def State.groupsOf (s : State) (rings : List Nat) : List (Nat × Nat) :=
  ((rings.map (· / 16)).eraseDups).flatMap (fun T => ((List.range 15).filter (fun n =>
    (ones 16 (s.actFld .tlGrp (16 * T + n) 15 0)).any (fun r => rings.contains (16 * T + r)))).map (fun n => (T, n)))

/-- The shadows of a graft's commit request of fc `at'` in grove g take effect, its resources are held, and its stages are set (R492,
R494). -/
def State.commitGraft (org : Origin) (at' g : Nat) (s : State) : State :=
  let mine (h : GShadow) : Bool := h.org == org && h.tile.toNat / 64 == g && h.asked == some at'
  let sh := s.gr.sh.filter mine
  let rings := (sh.filter (fun h => h.kind == 0)).map (fun h => 16 * h.tile.toNat + h.idx.toNat)
  let fifos := (sh.filter (fun h => h.kind == 4)).map (fun h => 8 * g + (h.tile.toNat % 64 - 24))
  let mcs := (sh.flatMap recMcs).eraseDups
  let moved := (sh.filter (fun h => h.kind == 3
    && s.actFld .tlGrp (16 * h.tile.toNat + h.idx.toNat) 15 0 != h.bits.toNat)).map (fun h => (h.tile.toNat, h.idx.toNat))
  let s := forEach sh s (fun h s => s.putRec h.kind.toNat h.tile.toNat h.idx.toNat h.bits)
  let s := forEach (moved ++ s.groupsOf rings) s State.zeroGroup
  let s := forEach mcs (forEach fifos (forEach rings s State.holdRing) State.holdFifo) State.holdMc
  let none' := rings.isEmpty && fifos.isEmpty && mcs.isEmpty
  { s with gr := { s.gr with
    sh := s.gr.sh.filter (fun h => !mine h)
    req := s.gr.req.filter (fun r => r != ⟨org, g, at'⟩)
    staged := if none' then s.gr.staged else s.gr.staged ++ [⟨g, s.fc, some org, none, false, rings, fifos, mcs⟩]
    files := if none' then s.gr.files.map (fun f => if f.org == org then { f with groves := f.groves.filter (· != g) } else f)
      else s.gr.files } }

/-- Every graft whose commit is requested in grove g is committed, whatever its fc (R541). -/
def State.graftCommitAll (s : State) (g : Nat) : State :=
  forEach (s.gr.req.filter (fun r => r.grove == g)) s (fun r s => s.commitGraft r.org r.fc g)

/-- Whether a request of fc t is due in grove g in this fc (R491, R600). -/
def State.graftDue (s : State) (g t : Nat) : Bool :=
  s.powered g && (if s.running g then s.fld .tlGphase g 5 0 == 0 && decide (t + 2 ≤ s.fc) else decide (t + 1 ≤ s.fc))

/-- GRAFT_COMMIT (R491). -/
def execGraftCommit (g : Fin 64) (s : State) : Res :=
  .next (forEach (s.gr.req.filter (fun r => r.grove == g.val && s.graftDue g.val r.fc)) s
    (fun r s => s.commitGraft r.org r.fc g.val)).settleGrafts

/-! ## Staged release (R494, R541, R548) -/

/-- Whether a staged release is of a whole restored grove (R541). -/
def Staged.whole (x : Staged) : Bool := x.org.isNone && x.tenant.isNone

/-- What a staged release lets go: of the things it holds, those that no other release still holds (R39, R138, R494). -/
def loose (mine : List Nat) (others : List Staged) (of : Staged → List Nat) : List Nat :=
  mine.filter (fun k => !others.any (fun y => (of y).contains k))

/-- Stage WEN of a staged release: its FIFOs' write ends accept, and a restored grove's all do. `others` have yet to take it. -/
def State.stagedWen (others : List Staged) (x : Staged) (s : State) : State :=
  let s := { s with ff := { s.ff with held := (loose x.fifos others (·.fifos)).foldl (fun t F => t.del F) s.ff.held } }
  if x.whole then { s with cf := { s.cf with wenGrove := s.cf.wenGrove.wr x.grove false true } } else s

/-- GRAFT_WEN (R494): at c + 16. -/
def execGraftWen (g : Fin 64) (s : State) : Res :=
  let due (x : Staged) : Bool := x.grove == g.val && !x.wen && decide (x.c + 16 ≤ s.fc)
  .next (let s' := forEach (s.gr.staged.filter due) s (State.stagedWen (s.gr.staged.filter (fun x => !x.wen && !due x)))
    { s' with gr := { s'.gr with staged := s'.gr.staged.map (fun x => if due x then { x with wen := true } else x) } })

/-- Stage RUN of a staged release: its rings start from zero and may execute, its macrocells update, and a restored grove starts its
first pass in the next fc. What one of the others holds too waits for that one's RUN. -/
def State.stagedRun (others : List Staged) (x : Staged) (s : State) : State :=
  let s := forEach x.rings s State.zeroRing
  let s := { s with
    tl := { s.tl with held := (loose x.rings others (·.rings)).foldl (fun t k => t.del k) s.tl.held }
    lt := { s.lt with held := (loose x.mcs others (·.mcs)).foldl (fun t k => t.del k) s.lt.held } }
  let s := if x.whole then { s with pw := { s.pw with runNext := s.pw.runNext.wr x.grove false true } } else s
  match x.org with
  | some o => { s with gr := { s.gr with files := s.gr.files.map (fun f =>
      if f.org == o then { f with groves := f.groves.filter (· != x.grove) } else f) } }
  | none => s

/-- Whether a staged release takes RUN in this fc: a restored grove at c + 32, others at the first fc of the first pass from then
on (R494, R541). -/
def State.runDue (s : State) (x : Staged) : Bool :=
  x.wen && decide (x.c + 32 ≤ s.fc) && (x.whole || (s.running x.grove && s.fld .tlGphase x.grove 5 0 == 0))

/-- GRAFT_RUN (R494, R495). -/
def execGraftRun (g : Fin 64) (s : State) : Res :=
  let due (x : Staged) : Bool := x.grove == g.val && s.runDue x
  .next (let s' := forEach (s.gr.staged.filter due) s (State.stagedRun (s.gr.staged.filter (fun x => !due x)))
    { s' with gr := { s'.gr with staged := s'.gr.staged.filter (fun x => !due x) } }.settleGrafts)

end Machine
end Sys2Proof
end

