-- ==== Sys2Proof/Machine/Power.lean ====
section
/-! DEFINITION. Power domains (R536-R541): fencing and switching off, what is lost while a domain is off, and its return; rail
faults (R564). -/

namespace Sys2Proof.Machine

/-- Switch a domain's power bit and fence bit (R553). -/
def State.setPwr (s : State) (d : Nat) (on : Bool) : State := s.setBit .pwDompwr (d / 32) (d % 32) on
def State.setFen (s : State) (d : Nat) (on : Bool) : State := s.setBit .pwDomfen (d / 32) (d % 32) on

/-! ## Capacity records (R256, R257, R541, R561) -/

/-- Whether an item lies in grove g: its tile and grove resources, and the boughs of its cell-out ports (R256). -/
def itemInGrove (g w : Nat) : Bool := (itemGroves [w]).contains g || (itKind w == 9 && itPort w / 2 == g)

/-- Tenants that hold resources in grove g. -/
def State.groveTenants (s : State) (g : Nat) : List Nat :=
  (s.tn.adm.filter (fun e => e.1 < 512 && (s.itemsOf e.1).any (itemInGrove g))).map (·.1)

/-- The loss or the return of a domain is told to each party concerned: the tenants of a grove, each beside the operator, and the
operator for itself (R257, R541, R561). A bank is nobody's. -/
def State.tellCapacity (s : State) (d code : Nat) : State :=
  if 80 ≤ d then s
  else
    let det := (if d < 64 then 3 else 4) * 2 ^ 29 + (if d < 64 then d else d - 64)
    let s := forEach (if d < 64 then s.groveTenants d else []) s (fun t s =>
      let r := mkRec 4 (BitVec.ofNat 10 t) 16 code det
      (s.sendRec (.domain (BitVec.ofNat 10 t)) r).sendRec (.domain opTag) r)
    s.tellOp 4 16 code det

/-! ## Closing (R539) -/

/-- The cells of a packet that leave nothing behind when its delivery ends early: those read and those of the chain still unread. -/
def State.restOf (s : State) (o : OutPkt) : List Handle :=
  o.cellsRead ++ (match o.next with
    | some h => s.chain ((wordsOf o.len + 63) / 64) h
    | none => [])

/-- A cell-in port drops every open packet with cause FENCED; a cell-out port's packets end and their cells are freed. -/
def State.closePort (p : Nat) (s : State) : State :=
  let s := forEach (s.cin p).pkts s (fun k s => s.dropPkt p k .fenced k.closed.isNone)
  let c := s.cin p
  let s := s.setCin p { c with mpend := none, skip := [], staging := [] }
  let o := s.cout p
  let rest := (o.cur.map s.restOf).getD [] ++ (o.slot.map (fun x => s.restOf x.2)).getD []
  s.setCout p { o with slot := none, cur := none, freeing := queueFree s.fc o.freeing rest }

/-- The first word of a row of beats. -/
def rowHead (row : List (List CWord)) : CWord := (row.headD []).headD opIdle

/-- A lane's frame in delivery ends with ERR cause 0x6, what waits behind it is lost, and its frame in transmission is aborted. -/
def State.closeLane (j : Nat) (s : State) : State :=
  let s := match s.ln.rx.rd j [] with
    | [] => s
    | row :: _ =>
      let c := (rowHead row).code.toNat
      let rows := if c == codeMETA || c == codeCTRL || c == codeIDLE || (s.lnRaw j && !s.flag .lnCfg j 26) then []
        else rowsOf (s.lnK j) (beatsOf [opWord codeERR (6 * 2 ^ 20)])
      let s := if rows.isEmpty then s else s.lnCount j 1 1
      { s with ln := { s.ln with rx := s.ln.rx.wr j [] rows } }
  let s := match (s.tx j).q.head? with
    | some f => if f.start.isSome then s.txAbort j f else s
    | none => s
  s.setTx j txZero

/-! ## Loss and return (R540, R541) -/

/-- What grove g loses while it is off; every stage and port of it is empty, and it runs nothing. -/
def State.groveLost (s : State) (g : Nat) : State :=
  let cl {α : Type} (n : Nat) (t : Tbl α) : Tbl α := t.clr (n * g) (n * (g + 1))
  let s := s.setRst fun x => { x with
    d := cl 8192 x.d, acc := cl 4096 x.acc, p := cl 4096 x.p, base := cl 4096 x.base, len := cl 4096 x.len
    fl := cl 1024 x.fl, sidx := cl 1024 x.sidx, mcq := cl 32 x.mcq }
  let s := { s with
    tl := { s.tl with land := cl 64 s.tl.land, steer := cl 64 s.tl.steer, mem := cl 131072 s.tl.mem, bad := cl 131072 s.tl.bad,
                      slotAt := cl 64 s.tl.slotAt }
    sw := { s.sw with stage := cl 4096 s.sw.stage, outp := cl 256 s.sw.outp }
    lt := { s.lt with out := cl 1 s.lt.out, prev := cl 1 s.lt.prev, sdNow := cl 1 s.lt.sdNow, sdNext := cl 1 s.lt.sdNext,
                      pinOut := cl 8 s.lt.pinOut }
    ff := { s.ff with st := cl 8 s.ff.st }
    cf := { s.cf with wenGrove := cl 1 s.cf.wenGrove }
    pw := { s.pw with runNext := cl 1 s.pw.runNext } }
  let s := s.resetReg .tlGphase g
  forEach ((List.range 8).map (8 * g + ·)) s (fun F s => ((s.resetReg .ffDrop F).resetReg .ffPar F).resetReg .ffStat F)

/-- What lane j of a lane group loses while the group is off. -/
def State.laneLost (j : Nat) (s : State) : State :=
  let s := { s with
    ln := { s.ln with rx := s.ln.rx.del j, rxGap := s.ln.rxGap.del j, tx := s.ln.tx.del j, live := s.ln.live.clr (32 * j) (32 * j + 32),
                      py := s.ln.py.del j, trainAt := s.ln.trainAt.del j, good := s.ln.good.del j, badRun := s.ln.badRun.del j, relock := s.ln.relock.del j }
    sw := { s.sw with edgeIn := s.sw.edgeIn.clr (8 * j) (8 * j + 8) } }
  ((s.setFld .lnTrain j 30 28 0).setBit .lnEyectl j 30 false).resetReg .lnStat j

def laneGroupOf (d : Nat) : List Nat := (List.range 8).map (8 * (d - 64) + ·)

/-- A lane group's losses: those of its lanes, its PLL's lock, and its Pyril counts. -/
def State.laneGroupLost (s : State) (d : Nat) : State :=
  let s := forEach (laneGroupOf d) s State.laneLost
  let s := if s.flag .lnGcfg (d - 64) 30 then (s.setBit .lnGcfg (d - 64) 30 false).assertSrc (640 + (d - 64)) else s
  let cl {α : Type} (t : Tbl α) : Tbl α := t.clr (256 * (d - 64)) (256 * (d - 63))
  let s := { s with ln := { s.ln with sent := cl s.ln.sent, recv := cl s.ln.recv, granted := cl s.ln.granted,
                                      peerGranted := cl s.ln.peerGranted, changed := cl s.ln.changed } }
  { s with regs := s.regs.filter (fun e => !(e.1 % 256 == RegName.lnPyd.ctorIdx && e.1 / 256 / 256 == d - 64)) }

/-- A bank's losses: the words of its cells, none of which is held. -/
def State.bankLost (s : State) (b : Nat) : State :=
  { s with cx := { s.cx with words := s.cx.words.clr (64 * 65536 * b) (64 * 65536 * (b + 1))
                             badUnit := s.cx.badUnit.clr (24 * 65536 * b) (24 * 65536 * (b + 1))
                             link := s.cx.link.clr (65536 * b) (65536 * (b + 1)) } }

/-- A domain's power goes off, and with it what R540 says is lost. -/
def State.domainOff (s : State) (d : Nat) : State :=
  let s := s.setPwr d false
  if d < 64 then s.groveLost d else if d < 80 then s.laneGroupLost d else s.bankLost (d - 80)

/-- All domains off, without fencing (R537, R546). -/
def State.allOff (s : State) : State :=
  let s := forEach ((List.range 96).filter s.powered) s (fun d s => s.domainOff d)
  let s := s.resetRegs [.pwDompwr, .pwDomfen]
  { s with pw := { s.pw with fenceAsk := [], draining := [], closeAt := [], restoring := [], offAt := [], railBad := [] } }

/-- The record of a domain whose rail has failed, to the operator and heartwood (R558, R564). -/
def State.tellRail (s : State) (d : Nat) : State := s.sendRec (.both opTag) (mkRec 5 opTag 16 1 d)

/-- Heartwood switches a closed domain off and tells those concerned (R539 steps 3 and 4); a grove's or lane group's rail fault is told
after that (R564). -/
def State.finishOff (s : State) (d : Nat) : State :=
  let fault := s.pw.railBad.rd d false && d < 80
  let s := s.domainOff d
  let s := { s with pw := { s.pw with fenceAsk := s.pw.fenceAsk.del d, closeAt := s.pw.closeAt.del d, offAt := s.pw.offAt.del d, railBad := s.pw.railBad.del d } }.tellCapacity d 4
  if fault then s.tellRail d else s

/-- Whether a closed lane group's ERR words have been taken (R539). -/
def State.laneGroupDrained (s : State) (d : Nat) : Bool :=
  (laneGroupOf d).all (fun j => (s.ln.rx.rd j []).isEmpty
    && (List.range 6).all (fun k => (s.srcStage (.edge (8 * j + k))).q.isEmpty))

/-- The boundaries of an acknowledged domain close (R539), in the fc after FENCE_ACK. A grove or bank is switched off at once, a lane
group when its ERR words are taken or 1 ms after FENCE_ACK. -/
def State.fence (s : State) (d : Nat) : State :=
  if d < 64 then ((forEach [2 * d, 2 * d + 1] s State.closePort).graftFenced d).finishOff d
  else if d < 80 then
    let s := forEach (laneGroupOf d) s State.closeLane
    if s.laneGroupDrained d then s.finishOff d
    else { s with pw := { s.pw with offAt := s.pw.offAt.wr d 0 (s.fc + 1599999) } }
  else s.finishOff d

/-- FENCE_REQ (R336): the request reaches the target NI of a domain that heartwood is switching off, which answers FENCED for it from
this fc on. -/
def execFenceReq (d : Fin 96) (s : State) : Res :=
  .next (if s.pw.fenceAsk.rd d.val false && !s.fencedOff d.val then
      { s with pw := { s.pw with draining := s.pw.draining.wr d.val 0 (s.fc + 1) } }
    else s)

/-- One fc of a draining domain (R336, R539): in the fc after its request, or after the response of the request in service there, FENCE_ACK
is returned; in the next its boundaries close. -/
def State.drain (d : Nat) (s : State) : State :=
  if s.flag .pwDomfen (d / 32) (d % 32) then
    { s with pw := { s.pw with draining := s.pw.draining.del d } }.fence d
  else if (s.nc.svc.rd d none).isSome && d < 80 then s
  else { s.setFen d true with pw := { s.pw with closeAt := s.pw.closeAt.wr d 0 (s.fc + 1) } }

/-- Every draining domain, as an fc begins. -/
def State.tickFence (s : State) : State := forEach (s.pw.draining.map (·.1)) s State.drain

/-- What one fc brings to domains being switched off: closed lane groups, and banks whose rail has failed once they hold no cell
(R539, R564). -/
def State.tickPower (s : State) : State :=
  let s := forEach (s.pw.offAt.filter (fun e => s.laneGroupDrained e.1 || decide (e.2 ≤ s.fc))) s (fun e s => s.finishOff e.1)
  forEach ((List.range 16).filter (fun b => s.pw.railBad.rd (80 + b) false && s.powered (80 + b) && !s.flag .htStat 0 31
      && !(s.cx.link.any (fun e => e.1 / 65536 == b && e.2.st != .free)))) s (fun b s => (s.setFen (80 + b) true).finishOff (80 + b))

/-! ## Return (R541, R494) -/

/-- The rings, FIFOs and macrocells of a grove. -/
def groveRings (g : Nat) : List Nat := (List.range 1024).map (1024 * g + ·)
def groveFifos (g : Nat) : List Nat := (List.range 8).map (8 * g + ·)
def groveMcs (g : Nat) : List Nat := (List.range 32).map (32 * g + ·)

/-- A restored grove: all of it is held with zero state, its pending commits are made, and its stages are set (R541). -/
def State.groveBack (s : State) (g : Nat) : State :=
  let s := forEach (groveRings g) s State.holdRing
  let s := forEach (groveFifos g) s State.holdFifo
  let s := forEach (groveMcs g) s State.holdMc
  let s := if s.flag .tlGcal g 31 then s.commitShadows g else s
  let s := s.graftCommitAll g
  { s with gr := { s.gr with staged := s.gr.staged ++ [⟨g, s.fc, none, none, false, groveRings g, groveFifos g, groveMcs g⟩] } }

/-- A restored lane group: its enabled lanes relock, calibrate and start afresh (R281, R294). -/
def State.laneGroupBack (s : State) (d : Nat) : State :=
  forEach ((laneGroupOf d).filter s.lnEn) s (fun j s => s.laneUp j)

/-- DOMAIN_READY (R541, R337): a domain that a DOMAIN call restores, or that a held request wakes, signals ready. -/
def execDomainReady (d : Fin 96) (s : State) : Res :=
  let d := d.val
  .next (if s.powered d then s
    else if s.pw.restoring.rd d false then
      let s := (s.setPwr d true).setFen d false
      let s := { s with pw := { s.pw with restoring := s.pw.restoring.del d } }
      let s := if d < 64 then s.groveBack d else if d < 80 then s.laneGroupBack d else s
      s.tellCapacity d 5
    else match s.nc.wake.rd d none with
      | some t =>
        let s := (s.setPwr d true).setFen d false
        if t = 0 then { s with nc := { s.nc with wake := s.nc.wake.del d } } else s
      | none => s)

/-! ## Rail faults (R564) -/

/-- RAIL_FAULT (R564): heartwood has a grove or lane group fenced; a bank is taken offline and told at once. A halted heartwood does
neither (R414). -/
def execRailFault (d : Fin 96) (s : State) : Res :=
  let d := d.val
  .next (if !s.powered d || s.pw.railBad.rd d false then s
    else
      let s := { s with pw := { s.pw with railBad := s.pw.railBad.wr d false true } }
      if s.flag .htStat 0 31 then s
      else if d < 80 then { s with pw := { s.pw with fenceAsk := s.pw.fenceAsk.wr d false true } }
      else (if s.online (d - 80) then s.bankOffline (d - 80) else s).tellRail d)

end Sys2Proof.Machine
end

