-- ==== Sys2Proof/Machine/Heartwood.lean ====
section
/-! DEFINITION. Heartwood (R411-R435): the boot chain, the call mailbox and the calls, debug tokens, heartwood faults, and the persistent
bank's clock. -/

namespace Sys2Proof.Machine

/-! ## Canopy SRAM (R25) -/

def sramBase : Nat := 0x10000000
def sramSize : Nat := 0x800000

/-- Byte `a` of canopy SRAM, counted from its start. -/
def State.sramByte (s : State) (a : Nat) : Byte :=
  BitVec.ofNat 8 ((s.dp.csram.rd (a / 4) 0).toNat / 2 ^ (8 * (a % 4)))

def State.sramBytes (s : State) (a n : Nat) : List Byte := (List.range n).map (fun i => s.sramByte (a + i))

/-- Whether a range holds a word with a poison mark (R565). -/
def State.sramPoison (s : State) (a n : Nat) : Bool :=
  s.dp.cpoison.any (fun e => e.2 && decide (a < 4 * e.1 + 4) && decide (4 * e.1 < a + n))

/-- Write one byte; a mark on its word stays until the word is written whole. -/
def State.sramPutByte (s : State) (a : Nat) (b : Byte) : State :=
  { s with dp := { s.dp with csram := s.dp.csram.up (a / 4) 0 (fun w =>
    BitVec.ofNat 32 (setBits w.toNat (8 * (a % 4) + 7) (8 * (a % 4)) b.toNat)) } }

/-- Write bytes into canopy SRAM; words written whole lose their poison mark (R565), and reservations on them end. -/
def State.sramPut (s : State) (a : Nat) (l : List Byte) : State :=
  let s := (forEach l.zipIdx s (fun x s => s.sramPutByte (a + x.2) x.1)).breakResv (sramBase + a) l.length
  { s with dp := { s.dp with cpoison := s.dp.cpoison.filter (fun e => !(decide (a ≤ 4 * e.1) && decide (4 * e.1 + 4 ≤ a + l.length))) } }

/-- The offset in canopy SRAM of a block at a physical address, when it lies wholly inside (R423). -/
def sramBlock (addr n : Nat) : Option Nat :=
  if sramBase ≤ addr && addr + n ≤ sramBase + sramSize then some (addr - sramBase) else none

/-! ## Boot (R418-R421) -/

/-- Both copies of MONO become the greater of the two (R418). -/
def State.restoreMono (s : State) : State :=
  let m := BitVec.ofNat 32 (max (s.reg .pbMono 0).toNat s.ht.monoNvm.toNat)
  { s.setReg .pbMono 0 m with ht := { s.ht with monoNvm := m } }

/-- Steps 2 to 4 of R420, and R421: the firmware copies are verified, one is chosen and loaded, and the cores are released or held. -/
def State.loadCanopy (s : State) : State :=
  let v0 := s.fwValid 0
  let v1 := s.fwValid 1
  if !v0 && !v1 then
    { (s.setReg .pb 5 0x10000000).setBit .htStat 0 29 true with dp := { s.dp with coresHeld := true } }
  else
    let copy := if v1 && (!v0 || decide (fwSvnOf (s.fwCopy 0) < fwSvnOf (s.fwCopy 1))) then 1 else 0
    let l := s.fwCopy copy
    let s := (s.setReg .pb 5 (BitVec.ofNat 32 (copy * 2 ^ 31 + b2n v0 * 2 ^ 30 + b2n v1 * 2 ^ 29))).setBit .htStat 0 29 false
    let s := s.sramPut 0 ((l.drop 160).take (fwLength l))
    let s := forEach (List.range 8) s (fun n s => s.csrWrite n 0xB00 0)
    { s with dp := { s.dp with coresHeld := false }, ht := { s.ht with fwSvn := BitVec.ofNat 32 (fwSvnOf l) } }

/-- The reset record of step 1 (R550): the source from PW_RSTSRC, a trip counted, and the reset counted. -/
def State.recordReset (s : State) : State :=
  let trips := s.fld .pb 2 23 16 + (if s.fld .pwRstsrc 0 31 28 = 5 then 1 else 0)
  s.setReg .pb 2 (BitVec.ofNat 32 (s.fld .pwRstsrc 0 31 24 * 2 ^ 24 + min trips 255 * 2 ^ 16 + min (s.fld .pb 2 15 0 + 1) 0xFFFF))

/-- A new placement key from the random source (R187); every one but a cold reset's is counted (R204). -/
def State.newKey (s : State) (counted : Bool) : State :=
  { (if counted then s.count .cxKeygen 0 31 0 1 else s) with
    cx := { s.cx with key := Config.randomKey s.free }, free := s.free + 1 }

/-- A load that has yet to pass its checks (R457, R462): stages in the order OUT, WEN, RUN with gaps of 16 fc, unless the image says
otherwise (R441). -/
def newLoad (src : LoadSrc) (fromSafe : Bool) : Load where
  src := src
  fromSafe := fromSafe
  fallback := false
  ready := false
  started := false
  hdr := []
  keys := []
  ckey := 0
  cipher := []
  crc := 0xFFFFFFFF
  checked := false
  setDev := false
  phase := 0
  prev := none
  ordered := false
  order := [0, 1, 2]
  gap1 := 16
  gap2 := 16
  ended := false
  pllen := 0
  supply := 0
  opVec := false
  lockBy := 0
  relAt := 0
  relStep := 0

/-- HEARTWOOD_BOOT (R420, R421, R457): from HTBOOT, outside a warm reset; then the mailbox opens, and the controller waits for a host
or takes the image of slot A. -/
def execHeartwoodBoot (s : State) : Res :=
  .next (if s.fld .cfStat 0 31 28 != 0 || s.flag .htStat 0 30 || s.flag .htStat 0 31 || s.pw.warm.isSome || s.pw.cold then s
  else
    let s := { (if s.ht.lossNew then forEach (List.range 6) s (fun i s => s.resetReg .pb i) else s) with
      ht := { s.ht with lossNew := false, core0 := { HtCore.zero with runs := true }, core1 := { HtCore.zero with runs := true } } }
    let s := ((s.restoreMono.recordReset.newKey (decide (3 ≤ s.fld .pwRstsrc 0 31 28))).loadCanopy).setBit .htStat 0 30 true
    if s.flag .pb 0 31 then
      { s with cf := { s.cf with load := some (newLoad (.nvm 0 false) false) } }
    else s.setFld .cfStat 0 31 28 1)

/-! ## Channels (R422-R425) -/

/-- The state of a channel (R435). -/
def State.chan (s : State) (c : Nat) : Nat := s.fld .htSt c 31 30
def State.setChan (s : State) (c v : Nat) : State := s.setFld .htSt c 31 30 v

/-- Word k of a channel's request. -/
def State.reqW (s : State) (c k : Nat) : Nat := (s.reg .htReq (8 * c + k)).toNat

/-- A call completes with its response (R422, R424). -/
def State.respondCall (s : State) (c st reason : Nat) (res : List Word) : State :=
  let w0 := s.reqW c 0 / 2 ^ 16 * 2 ^ 16 + st * 2 ^ 12 + reason
  let s := s.setReg .htRsp (8 * c) (BitVec.ofNat 32 w0)
  let s := forEach (List.range 7) s (fun k s => s.setReg .htRsp (8 * c + k + 1) (res.getD k 0))
  let s := s.setChan c 3
  if c < 8 then s.assertSrc 713 else s

/-- The items of one list beyond those of another, each counted. -/
def itemsBeyond (a b : List Nat) : List Nat := b.foldl (fun l x => l.erase x) a

/-- The call that runs at a heartwood fault changes nothing (R414): what it granted or released is as it was, and a domain's switching that
it asked for and that has not begun is not (log entry 81). -/
def State.undoCall (s : State) : State :=
  match s.ht.wait with
  | none => s
  | some w => match w.what, w.old with
    | .commits _, some (t, old) =>
      let before := match old with
        | some v => v.items.map (·.toNat)
        | none => []
      let now := s.itemsOf t
      let s := s.releaseItems t (itemsBeyond now before)
      let s := { s with tn := { s.tn with adm := s.tn.adm.wr t none old } }
      s.grantItems (BitVec.ofNat 10 t) (itemsBeyond before now)
    | .domain d on, _ =>
      if on then { s with pw := { s.pw with restoring := s.pw.restoring.del d } }
      else if s.fencedOff d || (s.pw.draining.rd d 0) != 0 then s
      else { s with pw := { s.pw with fenceAsk := s.pw.fenceAsk.del d } }
    | _, _ => s

/-- Everything that waits for heartwood completes FENCED (R414): calls queued and running, and grafts being checked. -/
def State.allFenced (s : State) : State :=
  let s := forEach ((List.range 9).filter (fun c => s.chan c == 1 || s.chan c == 2)) s (fun c s => s.respondCall c Status.fenced.code 0 [])
  let q := s.ht.callq
  let files := s.gr.files
  let s := { s with ht := { s.ht with callq := [], wait := none }, gr := { s.gr with files := [], opStage := [] } }
  let s := forEach files s (fun f s => s.fileDone f.vf Status.fenced.code 0)
  forEach q s (fun e s => match e.2 with
    | .graft v => if s.gState v.val = 2 then s.graftDone v.val Status.fenced.code 0 else s
    | .opGraft => s.ogDone Status.fenced.code 0
    | .chan _ => s)

/-- HEARTWOOD_FAULT (R414): causes as PB4 codes them. -/
def State.htFault (s : State) (cause : Nat) : State :=
  if s.flag .htStat 0 31 || cause = 0 || 4 < cause then s
  else
    let s := { s with ht := { s.ht with core0 := { s.ht.core0 with runs := false }, core1 := { s.ht.core1 with runs := false } } }
    ((s.setFld .pb 4 31 28 cause).setBit .htStat 0 31 true).undoCall.allFenced

def execHeartwoodFault (cause : BitVec 4) (s : State) : Res := .next (s.htFault cause.toNat)

/-- COMPARATOR_SELF_TEST (R413): a copy that fails to flag the injected mismatch is a heartwood fault. -/
def execComparatorSelfTest (flag0 flag1 : Bool) (s : State) : Res := .next (if flag0 && flag1 then s else s.htFault 3)

/-- Whether a party writes a channel (R422). -/
def mailWriter (p : Party) (c : Nat) : Bool :=
  match p with
  | .core _ => decide (c < 8)
  | .pf0 => c == 8
  | _ => false

/-- A write of a mailbox register (R422, R435): one by heartwood is a channel's and is judged besides by Writer (R12). -/
def State.writeHt (s : State) (p : Party) (n : RegName) (i : Nat) (w : Word) : State :=
  let c := if n == .htReq || n == .htRsp then i / 8 else i
  let stranger : Bool := match p with
    | .heartwood | .tenant _ => true
    | .core _ | .pf0 => false
  if n != .htStat && stranger then (s.plainWrite p n i w).ans .denied []
  else if n != .htStat && !mailWriter p c then s.ans .denied []
  else if n == .htReq && (s.chan c == 1 || s.chan c == 2) then s.ans .denied []
  else if n != .htCtl then s.plainWrite p n i w
  else
    let j := s.judgeW p n i (fun _ _ => true) w
    if !bit j.acts 31 then s.ans j.status []
    else if !s.flag .htStat 0 30 || s.chan c == 1 || s.chan c == 2 then s.ans .denied []
    else
      let s := s.ans j.status []
      if s.flag .htStat 0 31 then s.respondCall c Status.fenced.code 0 []
      else (s.setChan c 1).queueCall (.chan (Fin.ofNat 9 c))

/-- GO (R422). -/
def execGo (p : Party) (ch : Fin 9) (s : State) : Res := .next (s.writeHt p .htCtl ch.val 0x80000000)

/-- What a call comes to: refused with a reason and a first result word, POISON in its block, done, or done once something has
happened. -/
inductive Verdict where
  | refused (reason w1 : Nat)
  | poison
  | done (s : State) (res : List Nat)
  | waits (s : State) (what : CallUntil) (res : List Nat)

/-- The operation codes of R426. -/
def callOpcs : List Nat := [0, 1, 2, 3, 4, 5, 6, 0x10, 0x11, 0x12, 0x13, 0x14, 0x18, 0x19, 0x1A, 0x1B, 0x1C, 0x1D, 0x20, 0x21, 0x22,
  0x28, 0x29, 0x30, 0x31]

/-- Channel `c`'s call is the next that heartwood takes: the first in its queue, or, until stage OUT of a full load, the first INFO or
PBREAD (R423, R459). -/
def State.nextCall (s : State) (c : Fin 9) : Bool :=
  let mine (x : Nat × CallSrc) : Bool := x.2 == .chan c
  s.flag .htStat 0 30 && !s.flag .htStat 0 31 && s.ht.wait.isNone && s.chan c.val == 1 &&
  match s.ht.callq.find? (fun x => !s.callsHeld || (match x.2 with
      | .chan k => let o := bits (s.reqW k.val 0) 31 24; o == 0 || o == 0x21
      | _ => false)) with
  | some x => mine x
  | none => false

/-- The vector that a call has changed, as it was. -/
def oldVector (before after : State) : Option (Nat × Option AVec) :=
  ((before.tn.adm ++ after.tn.adm).find? (fun e => before.tn.adm.rd e.1 none != after.tn.adm.rd e.1 none)).map
    (fun e => (e.1, before.tn.adm.rd e.1 none))

/-- Heartwood takes a call: its operation code and reserved fields, the restriction of R421, then the call's own judgement
(R423-R427). `used` gives the bits that words 1 to 7 use. -/
def State.runCall (s : State) (ch : Fin 9) (opc : Nat) (used : List Nat) (body : State → (Nat → Nat) → Verdict) : State :=
  let c := ch.val
  let w (k : Nat) : Nat := s.reqW c k
  let op := bits (w 0) 31 24
  if !s.nextCall ch || (op != opc && callOpcs.contains op) then s
  else
    let s := { s with ht := { s.ht with callq := s.ht.callq.filter (fun x => x.2 != .chan ch) } }
    let refuse (r w1 : Nat) : State := s.respondCall c Status.denied.code r [BitVec.ofNat 32 w1]
    if c == 8 && s.flag .htStat 0 29 && !([0, 0x20, 0x21, 0x22, 0x28].contains op) then refuse 0x0F 0
    else if op != opc || bits (w 0) 15 0 != 0 || (List.range 7).any (fun k => w (k + 1) &&& (0xFFFFFFFF ^^^ used.getD k 0) != 0) then
      refuse 0x0A 0
    else match body s w with
      | .refused r w1 => refuse r w1
      | .poison => s.respondCall c Status.poison.code 0 []
      | .done s res => s.respondCall c 0 0 (res.map (BitVec.ofNat 32))
      | .waits s' what res => { s'.setChan c 2 with ht := { s'.ht with wait := some ⟨ch, what, res.map (BitVec.ofNat 32), oldVector s s'⟩ } }

/-- All bits of a word, and those an argument block address uses (R426). -/
def allBits : Nat := 0xFFFFFFFF
def blockUsed : List Nat := [allBits, 0xFF]

/-- Heartwood's copy of an argument block, from the start of its private SRAM, as far as that reaches (R411, R423, log entry 79). -/
def State.keepBlock (s : State) (l : List Byte) : State :=
  let ws := (pieces 4 65536 l).map (fun b => BitVec.ofNat 32 (bytesLE b))
  let new : Tbl Word := (ws.zipIdx.map (fun x => (x.2, x.1))).filter (fun e => e.2 != 0)
  { s with ht := { s.ht with sram := new ++ s.ht.sram.filter (fun e => decide (ws.length ≤ e.1)) } }

/-- The instruction word that a core's pc names, in mask ROM from address 0 (R411, log entry 79). -/
def HtCore.word (c : HtCore) : Word := Config.heartwoodRom (c.pc.toNat / 4)

/-- The argument block of a call: address from words 1 and 2, `n` bytes (R423, R426). -/
def State.block (s : State) (w : Nat → Nat) (n : Nat) (k : List Byte → Verdict) : Verdict :=
  match sramBlock (w 1 + bits (w 2) 7 0 * 2 ^ 32) n with
  | none => .refused 0x0B 0
  | some a =>
    if s.sramPoison a n then .poison
    else
      let l := s.sramBytes a n
      match k l with
      | .done s res => .done (s.keepBlock l) res
      | .waits s what res => .waits (s.keepBlock l) what res
      | v => v

/-! ## Simple calls (R426) -/

/-- INFO. -/
def execInfoCall (ch : Fin 9) (s : State) : Res :=
  .next (s.runCall ch 0x00 [] (fun s _ =>
    let slots (f : KeySlot → Bool) : Nat := (List.range 4).foldl (fun a k => a + b2n (f (s.keySlot k)) * 2 ^ k) 0
    .done s [Config.devid.toNat % 2 ^ 32, Config.devid.toNat / 2 ^ 32, Config.romVersion.toNat * 2 ^ 24 + s.stepping * 2 ^ 16 + 2 ^ 8,
      (s.reg .pbMono 0).toNat, slots (·.prog) + slots (·.rev) * 16]))

/-- TKEYSET (R417). -/
def execTkeyset (ch : Fin 9) (s : State) : Res :=
  .next (s.runCall ch 0x10 (blockUsed ++ [0x1FF, 1]) (fun s w =>
    let t := w 3
    let rotate := w 4 == 1
    s.block w (if rotate then 192 else 96) (fun l =>
      let key := bytesBE (l.take 96)
      let (held, s) := s.readSlot t
      let put : Verdict := .done { s with ht := { s.ht with tkeys := s.ht.tkeys.wr t none (some (BitVec.ofNat 768 key)) } } []
      if !onP384 (keyX key) (keyY key) then .refused 0x0A 0
      else match held with
        | none => put
        | some old =>
          if !s.admitted (BitVec.ofNat 10 t) then put
          else if !rotate then .refused 0x0F 0
          else if ecdsaOk old.toNat (sha384 (toLE 8 Config.devid.toNat ++ toLE 2 t ++ l.take 96)) (bytesBE (l.drop 96)) then put
          else .refused 0x0C 0)))

/-- TKEYCLR (R417). -/
def execTkeyclr (ch : Fin 9) (s : State) : Res :=
  .next (s.runCall ch 0x11 [0, 0, 0x1FF] (fun s w =>
    if s.admitted (BitVec.ofNat 10 (w 3)) then .refused 0x0F 0
    else .done { s with ht := { s.ht with tkeys := s.ht.tkeys.del (w 3) } } []))

/-- Whether an endorsement verifies (R416). -/
def endorsed (opc k : Nat) (hash key sig : List Byte) : Bool :=
  ecdsaOk (bytesBE key) (sha384 (toLE 8 Config.devid.toNat ++ [BitVec.ofNat 8 opc, BitVec.ofNat 8 k] ++ hash)) (bytesBE sig)

/-- OPKEYPROG (R416). -/
def execOpkeyprog (ch : Fin 9) (s : State) : Res :=
  .next (s.runCall ch 0x12 (blockUsed ++ [0x33]) (fun s w =>
    let k := bits (w 3) 1 0
    let e := bits (w 3) 5 4
    s.block w 240 (fun l =>
      let hash := l.take 48
      let key := (l.drop 48).take 96
      let sig := l.drop 144
      let put : Verdict := .done { s with ht := { s.ht with keys := s.ht.keys.up k keySlotZero (fun x =>
        { x with hash := BitVec.ofNat 384 (bytesBE hash), prog := true }) } } []
      if k == 0 then
        if e != 0 || (key ++ sig).any (· != 0) then .refused 0x0A 0
        else if (List.range 4).any (fun i => (s.keySlot i).prog) then .refused 0x0F 0
        else put
      else if (s.keySlot k).prog then .refused 0x0F 0
      else if !s.keyOk e (bytesBE key) then .refused 0x0D 0
      else if !endorsed 0x12 k hash key sig then .refused 0x0C 0
      else put)))

/-- OPKEYREV (R416, R429): a debug token of the slot ends. -/
def execOpkeyrev (ch : Fin 9) (s : State) : Res :=
  .next (s.runCall ch 0x13 (blockUsed ++ [0x33]) (fun s w =>
    let k := bits (w 3) 1 0
    let e := bits (w 3) 5 4
    s.block w 192 (fun l =>
      let key := l.take 96
      if !(s.keySlot k).usable || k == e || !s.keyOk e (bytesBE key) then .refused 0x0D 0
      else if !endorsed 0x13 k (List.replicate 48 0) key (l.drop 96) then .refused 0x0C 0
      else .done { s with ht := { s.ht with
        keys := s.ht.keys.up k keySlotZero (fun x => { x with rev := true })
        dbg := s.ht.dbg.filter (fun d => d.slot.toNat != k) } } [])))

/-- The security version of the image at the address in PB1, when it verifies under R439 (R418). -/
def State.seedSvn (s : State) : Option Nat :=
  let a := (s.reg .pb 1).toNat
  let h := s.nvmWords a 16
  if hw h 0 != hMagic || hGraft h || decide (slotEnd a < a + 4 * hTotal h) then none
  else
    let ws := s.nvmWords a (hTotal h)
    match cutFile ws, unwrapKey h ((ws.drop 16).take (hKeyWords h)) with
    | some (_, keys, cipher, tail), some key => if (s.sigCause h keys cipher tail key).isSome then none else some (hSvn h)
    | _, _ => none

/-- ROLLFWD (R418). -/
def execRollfwd (ch : Fin 9) (s : State) : Res :=
  .next (s.runCall ch 0x14 [allBits] (fun s w =>
    let v := w 1
    let ok := match s.seedSvn with
      | some n => decide (v ≤ n)
      | none => false
    if v ≤ (s.reg .pbMono 0).toNat || s.ht.fwSvn.toNat < v || !ok then .refused 0x0E 0
    else .done { s.setReg .pbMono 0 (BitVec.ofNat 32 v) with ht := { s.ht with monoNvm := BitVec.ofNat 32 v } } []))

/-- REKEY (R187). -/
def execRekey (ch : Fin 9) (s : State) : Res :=
  .next (s.runCall ch 0x18 [] (fun s _ => .done (s.newKey true) []))

/-- BANK (R426, R254). -/
def execBankCall (ch : Fin 9) (s : State) : Res :=
  .next (s.runCall ch 0x19 [0x8000000F] (fun s w =>
    let b := bits (w 1) 3 0
    let on := bit (w 1) 31
    if s.online b == on then .refused 0x0F 0
    else .done (if on then s.setBit .cxStat 0 b true else s.bankOffline b) []))

/-- DOMAIN (R538, R539, R541). -/
def execDomainCall (ch : Fin 9) (s : State) : Res :=
  .next (s.runCall ch 0x1A [0x8000007F] (fun s w =>
    let d := bits (w 1) 6 0
    let on := bit (w 1) 31
    if 95 < d || s.powered d == on || (!on && s.closed d) || s.fld .cfStat 0 31 28 != 5
        || (!on && 80 ≤ d && (s.online (d - 80) || s.cx.link.any (fun e => e.1 / 65536 == d - 80 && e.2.st != .free)))
    then .refused 0x0F 0
    else if on then .waits { s with pw := { s.pw with restoring := s.pw.restoring.wr d false true } } (.domain d true) []
    else .waits { s with pw := { s.pw with fenceAsk := s.pw.fenceAsk.wr d false true } } (.domain d false) []))

/-- PORTRATE (R426, R234). -/
def execPortrate (ch : Fin 9) (s : State) : Res :=
  .next (s.runCall ch 0x1B [0x7F, 0x7FFFFFFF] (fun s w =>
    if w 2 < portSum (s.othersOf 1024) (w 1) then .refused 0x04 0
    else .done (s.setReg .qePrate (w 1) (BitVec.ofNat 32 (w 2))) []))

/-- PINOWN (R508). -/
def execPinown (ch : Fin 9) (s : State) : Res :=
  .next (s.runCall ch 0x1C [0xF3F] (fun s w =>
    let n := bits (w 1) 5 0
    let o := bits (w 1) 11 8
    if 9 < o && o != 15 then .refused 0x0A 0
    else if s.pinOwner n == 0xA then .refused 0x0F 0
    else .done (s.ownPin n o 0x3FF) []))

/-- TRNOM (R401). -/
def execTrnom (ch : Fin 9) (s : State) : Res :=
  .next (s.runCall ch 0x1D [0x80000007] (fun s w => .done (s.setReg .dpTrnom 0 (BitVec.ofNat 32 (w 1))) []))

/-- BOOTCFG. -/
def execBootcfg (ch : Fin 9) (s : State) : Res :=
  .next (s.runCall ch 0x20 [0x80000000, 0x80000000, allBits] (fun s w =>
    let wr := bit (w 2) 31
    if wr && (w 3 % 512 != 0 || 0x1800000 ≤ w 3) then .refused 0x0B 0
    else
      let s := s.setReg .pb 0 (BitVec.ofNat 32 (w 1))
      .done (if wr then s.setReg .pb 1 (BitVec.ofNat 32 (w 3)) else s) []))

/-- PBREAD. -/
def execPbread (ch : Fin 9) (s : State) : Res :=
  .next (s.runCall ch 0x21 [] (fun s _ => .done s ((List.range 6).map (fun i => (s.reg .pb i).toNat))))

/-- RTCSET. -/
def execRtcset (ch : Fin 9) (s : State) : Res :=
  .next (s.runCall ch 0x22 [allBits, 0xFFFF] (fun s w =>
    .done { s.setBit .pbStat 0 30 true with ht := { s.ht with
      rtcSec := BitVec.ofNat 48 (w 2 * 2 ^ 32 + w 1), rtcSub := 0 } } []))

/-- FWWRITE (R419, R420 step 2). -/
def execFwwrite (ch : Fin 9) (s : State) : Res :=
  .next (s.runCall ch 0x28 (blockUsed ++ [1, allBits]) (fun s w =>
    s.block w (w 4) (fun l => match s.fwReason l with
      | some r => .refused r 0
      | none => .done (s.nvmPut (fwBase (w 3)) l) [fwSvnOf l])))

/-- NVMWRITE (R471). -/
def execNvmwrite (ch : Fin 9) (s : State) : Res :=
  .next (s.runCall ch 0x29 (blockUsed ++ [allBits, allBits]) (fun s w =>
    let o := w 3
    if o % 512 != 0 || w 4 % 512 != 0 || 0x1800000 ≤ o || slotEnd o < o + w 4 then .refused 0x0B 0
    else s.block w (w 4) (fun l => .done (s.nvmPut o l) [])))

/-- DEBUG (R429). -/
def execDebugCall (ch : Fin 9) (s : State) : Res :=
  .next (s.runCall ch 0x30 blockUsed (fun s w =>
    s.block w 240 (fun l =>
      let tok := l.take 48
      let slot := (tok.getD 9 0).toNat
      let key := bytesBE ((l.drop 48).take 96)
      let expiry := bytesLE ((tok.drop 16).take 6)
      if ((tok.drop 10).take 6 ++ tok.drop 22).any (· != 0) then .refused 0x0A 0
      else if 3 < slot || !s.keyOk slot key then .refused 0x0D 0
      else if !ecdsaOk key (sha384 tok) (bytesBE (l.drop 144)) then .refused 0x0C 0
      else if !s.flag .pbStat 0 30 || expiry ≤ s.ht.rtcSec.toNat || bytesLE (tok.take 8) != Config.devid.toNat then .refused 0x0F 0
      else .done { s with ht := { s.ht with
        dbg := s.ht.dbg ++ [⟨tok.getD 8 0, BitVec.ofNat 2 slot, BitVec.ofNat 48 expiry⟩] } } [])))

/-- DEBUGEND (R429). -/
def execDebugend (ch : Fin 9) (s : State) : Res :=
  .next (s.runCall ch 0x31 [] (fun s _ => .done { s with ht := { s.ht with dbg := [] } } []))

/-- DEBUG_TOKEN_EXPIRY (R429). -/
def execDebugTokenExpiry (s : State) : Res :=
  .next { s with ht := { s.ht with dbg := s.ht.dbg.filter (fun d => decide (s.ht.rtcSec.toNat < d.expiry.toNat)) } }

/-! ## Tenancy calls (R240-R244, R426) -/

/-- 64-bit little-endian words. -/
def words64 (l : List Byte) : List Nat := (pieces 8 l.length l).map bytesLE

/-- A vector as a call names it: its header and items, or the refusal. The block holds as many words as its header counts. -/
def State.vector (s : State) (w : Nat → Nat) (k : Nat → List Nat → Verdict) : Verdict :=
  s.block w 8 (fun h =>
    let hdr := bytesLE h
    let n := bits hdr 12 0
    if n == 0 || 4096 < n then .refused 1 0
    else s.block w (8 * (n + 1)) (fun l => k hdr ((words64 l).drop 1)))

/-- What is wrong with the header of a vector that names an admitted tenant: FORMAT, or STATE (R426). -/
def State.addHeader (s : State) (hdr : Nat) : Option Nat :=
  if bits hdr 50 13 != 0 || 511 < bits hdr 63 54 then some 1
  else match s.tn.adm.rd (bits hdr 63 54) none with
    | none => some 0x0F
    | some v => if v.cls.toNat != bits hdr 53 52 || v.sealed != bit hdr 51 then some 0x0F else none

/-- ADMIT (R240, R242). -/
def execAdmitTenant (ch : Fin 9) (s : State) : Res :=
  .next (s.runCall ch 0x01 blockUsed (fun s w => s.vector w (fun hdr items =>
    match s.judgeVector false hdr items with
    | some (r, i) => .refused r i
    | none => .waits (s.admitVector hdr items) (.commits (itemGroves items)) [0])))

/-- Add items to an admitted vector (R244). -/
def State.extendItems (s : State) (t : Nat) (v : AVec) (items : List Nat) : State :=
  let new := v.items ++ items.map (BitVec.ofNat 64)
  let all := new.map (·.toNat)
  let tag := BitVec.ofNat 10 t
  let s := { s with tn := { s.tn with adm := s.tn.adm.wr t none (some { v with items := new }) } }
  let s := forEach (items.filter (fun w => itKind w == 9)) s (State.grantItem tag all)
  let s := forEach (items.filter (fun w => itKind w != 9)) s (State.grantItem tag all)
  forEach (itemGroves items) s (fun g s => s.askCommit g)

/-- EXTEND (R244). -/
def execExtend (ch : Fin 9) (s : State) : Res :=
  .next (s.runCall ch 0x02 blockUsed (fun s w => s.vector w (fun hdr items =>
    let t := bits hdr 63 54
    match s.addHeader hdr, s.tn.adm.rd t none with
    | some r, _ => .refused r 0
    | none, some v => match s.judgeAdded t v items with
      | some (r, i) => .refused r i
      | none => .waits (s.extendItems t v items) (.commits (itemGroves items)) [0]
    | none, none => .refused 0x0F 0)))

/-- The place of the first item that is not granted, each granted item standing for one of the list. -/
def notGranted (granted : List Nat) (i : Nat) : List Nat → Option Nat
  | [] => none
  | w :: r => if granted.contains w then notGranted (granted.erase w) (i + 1) r else some i

/-- What refuses a RELEASE (R244, R426): its reason and index. -/
def State.releaseBad (s : State) (hdr : Nat) (items : List Nat) : Option (Nat × Nat) :=
  let t := bits hdr 63 54
  let old := s.itemsOf t
  let j : Judging := ⟨t, bit hdr 51, false, 0, old ++ items, []⟩
  let at' (r : Nat) (bad : Nat → Bool) : Option (Nat × Nat) :=
    (items.findIdx? bad).map (fun i => (r, i + 1))
  if bits hdr 50 13 != 0 || 511 < t then some (1, 0)
  else firstSome id [
      at' 1 (fun w => !itemClean w || (itKind w == 15 && !bit hdr 51)),
      at' 2 (fun w => itKind w != 1 && s.rangeBad j w),
      (notGranted old 1 items).map (fun i => (0x0F, i)),
      if items.any (fun w => itKind w == 8) && (items.length != old.length || s.usedBy (BitVec.ofNat 10 t) != 0)
        then some (0x0F, ((items.findIdx? (fun w => itKind w == 8)).map (· + 1)).getD 0) else none]

/-- Whether a pending shadow writes a resource that an item grants (R493). -/
def shadowOf (w : Nat) (h : GShadow) : Bool :=
  let T := h.tile.toNat
  let i := h.idx.toNat
  let g := T / 64
  match h.kind.toNat, itKind w with
  | 0, 2 => itTile w == T && bit w (30 + i)
  | 3, 2 => itTile w == T && bit w (15 + i)
  | 2, 1 => itTile w == T && i / 16 == bits w 45 44 && bit w (i % 16)
  | 4, 5 => itGrove w == g && 24 + bits w 51 49 == T % 64
  | 7, 6 => itGrove w == g && bit w i
  | 6, 6 => itGrove w == g && bit w (i / 5)
  | 8, 6 => itGrove w == g && (List.range 4).any (fun k => bit w (4 * i + k))
  | 5, 7 => itGrove w == g && i / 32 == bits w 51 50 && bit w (i % 32)
  | _, _ => false

/-- RELEASE (R244): pending shadows that lie in what is released are dropped (R493). -/
def execReleaseCall (ch : Fin 9) (s : State) : Res :=
  .next (s.runCall ch 0x03 blockUsed (fun s w => s.vector w (fun hdr items =>
    match s.releaseBad hdr items with
    | some (r, i) => .refused r i
    | none =>
      let t := bits hdr 63 54
      let s := s.dropShadows (fun h => h.org.owner.toNat == t && items.any (fun w => shadowOf w h))
      .waits (s.releaseItems t items) (.commits (itemGroves items)) [0])))

/-- Whether a granted item is the one that an item of a REGRANT replaces. -/
def sameGrant (new old : Nat) : Bool :=
  itKind new == itKind old && match itKind new with
  | 8 => true
  | 10 => itBough new == itBough old && itWhich new == itWhich old
  | 12 => itSrc new == itSrc old && itDst new == itDst old && itPrio new == itPrio old
  | _ => false

/-- What heartwood writes for a replaced item (R426). -/
def State.regrantItem (tag : Tag) (all : List Nat) (w : Nat) (s : State) : State :=
  let s := if itKind w = 12 then s.dropInj (itSrc w) tag (itDst w) (itPrio w) else s
  State.grantItem tag all w s

/-- REGRANT (R426): judged with each new item in place of the one it replaces. -/
def execRegrant (ch : Fin 9) (s : State) : Res :=
  .next (s.runCall ch 0x05 blockUsed (fun s w => s.vector w (fun hdr items =>
    let t := bits hdr 63 54
    let tag := BitVec.ofNat 10 t
    let old := s.itemsOf t
    let new := old.map (fun o => (items.reverse.find? (fun i => sameGrant i o)).getD o)
    let place (i : Nat) : Nat := match new[i]? with
      | some x => ((items.findIdx? (· == x)).map (· + 1)).getD 0
      | none => 0
    if bits hdr 50 13 != 0 || 511 < t then .refused 1 0
    else match items.findIdx? (fun i => !([8, 10, 12].contains (itKind i)) || !itemClean i), s.tn.adm.rd t none with
      | some i, _ => .refused 1 (i + 1)
      | none, none => .refused 0x0F 0
      | none, some v =>
        let bare := forEach (items.filter (fun i => itKind i == 12)) s (fun i s => s.dropInj (itSrc i) tag (itDst i) (itPrio i))
        match items.findIdx? (fun i => !old.any (sameGrant i)),
            bare.judgeItems ⟨t, v.sealed, false, new.length, new, s.othersOf t⟩ with
        | some i, _ => .refused 0x0F (i + 1)
        | none, some (r, i) => .refused r (place i)
        | none, none =>
          let s := { s with tn := { s.tn with adm := s.tn.adm.wr t none (some { v with items := new.map (BitVec.ofNat 64) }) } }
          .done (forEach items s (State.regrantItem tag new)) [])))

/-- VREAD (R426): the vector's 64-bit words, as many as w5 allows. -/
def execVread (ch : Fin 9) (s : State) : Res :=
  .next (s.runCall ch 0x06 [0x1FF, 0, allBits, 0xFF, allBits] (fun s w =>
    let t := w 1
    match s.tn.adm.rd t none with
    | none => .refused 0x0F 0
    | some v =>
      let hdr := t * 2 ^ 54 + v.cls.toNat * 2 ^ 52 + b2n v.sealed * 2 ^ 51 + v.items.length
      let ws := (hdr :: v.items.map (·.toNat)).take (w 5)
      match sramBlock (w 3 + w 4 * 2 ^ 32) (8 * ws.length) with
      | none => .refused 0x0B 0
      | some a => .done (s.sramPut a (ws.flatMap (toLE 8))) [ws.length]))

/-! ## Tenant reset (R548) -/

/-- A tenant's cells, queues and buckets (R199, R224, step 2 of R548): its open packets end, its cells are in line to be freed, its
queues are empty. -/
def State.tenantCells (s : State) (t : Nat) : State :=
  let tag := BitVec.ofNat 10 t
  let others (l : List (List Handle × Nat)) : List (List Handle × Nat) :=
    (l.map (fun c => (c.1.filter (fun h => (s.link h).owner != tag), c.2))).filter (fun c => !c.1.isEmpty)
  let s := forEach (s.cx.inp.map (·.1)) s (fun p s =>
    forEach ((s.cin p).pkts.filter (fun k => k.tag == tag)) s (fun k s => s.dropPkt p k .aborted k.closed.isNone))
  let cells := (s.cx.link.filter (fun e => e.2.owner == tag && e.2.st != .free)).map (fun e => BitVec.ofNat 20 e.1)
  let s := { s with cx := { s.cx with
    inp := s.cx.inp.map (fun (e : Nat × CellInSt) => (e.1, { e.2 with freeing := others e.2.freeing }))
    outp := s.cx.outp.map (fun (e : Nat × CellOutSt) => (e.1, { e.2 with
      slot := e.2.slot.filter (fun x => x.2.tag != tag), cur := e.2.cur.filter (fun o => o.tag != tag)
      freeing := others e.2.freeing }))
    tfree := s.cx.tfree.wr t [] cells } }
  let gone := (List.range 32).flatMap (fun k => s.qe.pkts.rd (32 * t + k) [])
  let s := (s.meterAdd t 4 gone.length).meterAdd t 5 (gone.map (·.len)).sum
  let s := { s with qe := { s.qe with pkts := s.qe.pkts.clr (32 * t) (32 * t + 32) } }
  let s := { s with cx := { s.cx with
    inp := s.cx.inp.filter (fun (e : Nat × CellInSt) => decide (e.2 ≠ cellInZero)), outp := s.cx.outp.filter (fun (e : Nat × CellOutSt) => decide (e.2 ≠ cellOutZero)) } }
  let s := forEach ((List.range 32).map (32 * t + ·)) s (fun q s => s.levelAct (.queue q) .zero)
  let boughs := (s.itemsOf t).filterMap (fun w => if itKind w == 9 then some (itBough w) else none)
  forEach boughs s (fun b s =>
    let s := forEach [Bucket.cir b, Bucket.pir b] s (fun k s => s.levelAct k .zero)
    { s with qe := { s.qe with
      deficit := s.qe.deficit.filter (fun e => !(e.1 / 4096 == 256 + b || (e.1 / 4096 < 256 && e.1 % 4096 == b)))
      ptr := s.qe.ptr.filter (fun e => e.1 != 256 + b) } })

/-- Steps 1 and 2 of a tenant reset (R548). -/
def State.tenantReset (s : State) (t : Nat) : State :=
  let tag := BitVec.ofNat 10 t
  let s := s.dropShadows (fun h => h.org.owner == tag)
  let s := match s.vfOf tag with
    | some v => s.vfReset v
    | none => s
  let s := forEach [84, 85, 86, 87, 88] s (fun ni s => s.resetRequester ni (fun q => q.tag == tag))
  s.tenantCells t

/-- TRESET (R548). -/
def execTreset (ch : Fin 9) (s : State) : Res :=
  .next (s.runCall ch 0x04 [0x1FF] (fun s w =>
    let t := w 1
    if !s.admitted (BitVec.ofNat 10 t) then .refused 0x0F 0
    else .waits (s.tenantReset t) (.tenantRun (BitVec.ofNat 10 t) (itemGroves (s.itemsOf t)) none) []))

/-- A stage without the words of one tag. -/
def Stage.without (x : Stage) (tag : Tag) : Stage := { x with q := x.q.filter (fun w => w.2.tag != tag) }

def stageZero' : Stage := ⟨[], 0, 0⟩

/-- Step 3 of R548 in grove g: the tenant's words and state go, its resources are held, and their stages are set. -/
def State.tenantGrove (s : State) (g t : Nat) : State :=
  let tag := BitVec.ofNat 10 t
  let items := s.itemsOf t
  let here (n : Nat) (l : Tbl Stage) : Tbl Stage :=
    (l.map (fun e => if e.1 / n == g then (e.1, e.2.without tag) else e)).filter (fun e => decide (e.2 ≠ stageZero'))
  let s := { s with sw := { s.sw with stage := here 4096 s.sw.stage, outp := here 256 s.sw.outp } }
  let rings := (groveRings g).filter (fun k => bits (s.ringRec (k / 16) (k % 16)) 191 182 == t)
  let fifos := (groveFifos g).filter (fun F => s.ffOwner g (F % 8) == t)
  let mcs := (groveMcs g).filter (fun k => s.mcOwner g (k % 32) == t)
  let groups := (items.filter (fun w => itKind w == 2 && itTile w / 64 == g)).flatMap (fun w =>
    (ones 15 (bits w 29 15)).map (fun n => (itTile w, n)))
  let s := forEach mcs (forEach fifos (forEach rings (forEach groups s State.zeroGroup) State.holdRing) State.holdFifo) State.holdMc
  let s := forEach [2 * g, 2 * g + 1] s (fun p s =>
    let c := s.cin p
    s.setCin p { c with mpend := c.mpend.filter (fun m => m.1 != tag), skip := c.skip.filter (· != tag) })
  { s with gr := { s.gr with staged := s.gr.staged ++ [⟨g, s.fc, none, some tag, false, rings, fifos, mcs⟩] } }

/-- TENANT_RESET_RELEASE (R548 step 3): in the first fc of the first pass after step 2 has finished, or at once in a powered grove
that has not passed RUN. -/
def execTenantResetRelease (g : Fin 64) (t : Fin 512) (s : State) : Res :=
  .next (match s.ht.wait with
  | some w => match w.what with
    | .tenantRun tag gs (some since) =>
      if tag.toNat == t.val && gs.contains g.val && decide (since ≤ s.fc) && s.powered g.val && !s.closed g.val
          && (!s.running g.val || s.fld .tlGphase g.val 5 0 == 0) then
        { s.tenantGrove g.val t.val with ht := { s.ht with wait := some { w with
          what := .tenantRun tag (gs.filter (· != g.val)) (some since) } } }
      else s
    | _ => s
  | none => s)

/-! ## Completion of calls that wait -/

/-- Whether what a call waits for has come (R240, R539, R541, R548). -/
def State.waitOver (s : State) : CallUntil → Bool
  | .commits gs => gs.all (fun g => !s.flag .tlGcal g 31 || !s.powered g || s.closed g)
  | .tenantRun t gs since => since.isSome && gs.all (fun g => !s.powered g || s.closed g)
      && !s.gr.staged.any (fun x => x.tenant == some t && s.powered x.grove && !s.closed x.grove)
  | .domain d on => s.powered d == on && (!on || !s.pw.restoring.rd d false)

/-- A call that waits completes when what it waits for has come; step 2 of a tenant reset is found finished (R548). -/
def State.settleCalls (s : State) : State :=
  match s.ht.wait with
  | none => s
  | some w =>
    let w : CallWait := match w.what with
      | .tenantRun t gs none => if (s.cx.tfree.rd t.toNat []).isEmpty then { w with what := .tenantRun t gs (some s.fc) } else w
      | _ => w
    if s.waitOver w.what then { s with ht := { s.ht with wait := none } }.respondCall w.ch.val 0 0 w.rsp
    else { s with ht := { s.ht with wait := some w } }

/-! ## The real-time clock (R430, R434) -/

/-- The clock at its nominal rate: one 32.768 kHz period is 48,828.125 fc (log entry 75). VIN refills the bank's cell (R430, log entry
107). -/
def State.tickRtc (s : State) : State :=
  let s := if s.flag .pbStat 0 29 && s.ht.lowUntil ≤ s.fc then s.setBit .pbStat 0 29 false else s
  if (s.fc + 1) * 32768 / 1600000000 == s.fc * 32768 / 1600000000 then s
  else
    let n := s.ht.rtcSec.toNat * 32768 + s.ht.rtcSub.toNat + 1
    { s with ht := { s.ht with rtcSec := BitVec.ofNat 48 (n / 32768), rtcSub := BitVec.ofNat 15 (n % 32768) } }

/-- RTC_READ_LATCH (R433, R434): a read of PB_RTCL, by a canopy core or heartwood. -/
def execRtcReadLatch (p : Party) (s : State) : Res :=
  .next (match p with
  | .heartwood | .core _ =>
    let sec := s.ht.rtcSec.toNat
    let s := ((s.setReg .pbRtcl 0 (BitVec.ofNat 32 sec)).setReg .pbRtch 0 (BitVec.ofNat 32 (sec / 2 ^ 32))).setReg .pbRtcsub 0
      (BitVec.ofNat 32 s.ht.rtcSub.toNat)
    s.ans .ok [s.reg .pbRtcl 0]
  | _ => s.ans .unmapped [0])

end Sys2Proof.Machine
end

