-- ==== Sys2Proof/Machine/Loader.lean ====
section
/-! DEFINITION. Images, loading, start-up and readback (R436-R477): sessions, the commands of an image, the release stages,
failures, the watchdog, readback, and the configuration registers. -/

namespace Sys2Proof.Machine

/-! ## The controller's registers and words -/

/-- The controller's state (R456). -/
def State.cfState (s : State) : Nat := s.fld .cfStat 0 31 28
def State.setCfState (s : State) (v : Nat) : State := s.setFld .cfStat 0 31 28 v

def State.setLoad (s : State) (l : Option Load) : State := { s with cf := { s.cf with load := l } }
def State.setSess (s : State) (x : Option Session) : State :=
  { (s.setBit .cfStat 0 27 x.isSome) with cf := { s.cf with sess := x } }

/-- SOURCE of R465. -/
def portCode : CfgPort → Nat
  | .scp => 1
  | .pcp => 2
  | .bar2 => 3

def srcCode : LoadSrc → Nat
  | .host p => portCode p
  | .nvm _ _ => 0

def LoadSrc.seed : LoadSrc → Bool
  | .nvm _ b => b
  | .host _ => false

/-- The seed image (R464): the one at the address in PB1. -/
def State.nvmSrc (s : State) (a : Nat) : LoadSrc := .nvm a (a == (s.reg .pb 1).toNat)

/-! ## Failure (R463-R465) -/

/-- A failure found before a load began (R462, R465): only the primary fields of PB3 change. -/
def State.failBefore (s : State) (src : LoadSrc) (cause : Nat) : State :=
  (s.setReg .pb 3 (BitVec.ofNat 32 (cause * 2 ^ 24 + srcCode src * 2 ^ 14 + s.fld .pb 3 7 0))).setLoad none

/-- Entry to SAFE (R464, R537): no grove runs, no tenant is admitted, the domains go off. -/
def State.enterSafe (s : State) : State :=
  let s := forEach ((s.tn.adm.filter (fun e => e.1 < 512)).map (·.1)) s (fun t s => s.releaseItems t (s.itemsOf t))
  let s := { s with tn := { s.tn with adm := s.tn.adm.filter (fun e => decide (512 ≤ e.1)) } }
  let s := { (forEach (List.range 64) s (fun g s => s.setBit .tlGphase g 7 false)).allOff with ln := { s.ln with txOn := false } }
  let s := { s with gp := { s.gp with held := true } }
  (((s.setReg .cfImgsvn 0 0).setReg .cfWdog 0 0).setBit .cfStat 0 21 false).setCfState 7

/-- An operator graft file's session ends before its file has come (R484). -/
def State.endGraftSession (s : State) (st reason : Nat) : State :=
  match s.cf.sess with
  | some ⟨_, .graft _, _⟩ => (s.ogDone st reason).setSess none
  | _ => s

/-- The load of the seed image in FALLBACK (R464). -/
def State.seedLoad (s : State) : Load := { newLoad (.nvm (s.reg .pb 1).toNat true) false with fallback := true }

/-- A failure after a load began, or of an image that ran (R463-R466): the cause is recorded, and FALLBACK or SAFE entered. -/
def State.failStarted (s : State) (src : LoadSrc) (fromSafe : Bool) (cause reason : Nat) : State :=
  let seed := src.seed
  let pb3 := cause * 2 ^ 24 + reason * 2 ^ 16 + srcCode src * 2 ^ 14
  let s := if (s.cf.load.map (·.fallback)).getD false then s.setFld .pb 3 7 0 cause
    else s.setReg .pb 3 (BitVec.ofNat 32 (pb3 + (if seed then cause else 0)))
  let s := (s.count .cfLoads 0 15 0 1).endGraftSession Status.denied.code 0x0F
  let s := { (((s.setBit .cfStat 0 23 false).setBit .cfStat 0 24 false).setSess none) with cf := { s.cf with
    sess := none, load := none, runSrc := none, wdogAt := 0 } }
  if seed || fromSafe then s.enterSafe
  else { s.setCfState 6 with cf := { s.cf with load := some s.seedLoad } }

/-- The load in progress fails with a cause of R463, and for CHECK a reason. -/
def State.failLoad (s : State) (cause reason : Nat) : State :=
  match s.cf.load with
  | none => s
  | some l => if l.started then s.failStarted l.src l.fromSafe cause reason else (s.failBefore l.src cause).setSess none

/-- LOAD_FAIL (R464): the causes that no other command finds, an uncorrectable NVM read and an overrun of SCP input. -/
def execLoadFail (cause : BitVec 8) (s : State) : Res :=
  .next (match s.cf.load with
  | none => s
  | some l => match l.src, cause.toNat with
    | .nvm _ _, 0x0F => if l.started && !l.ended then s.failLoad 0x0F 0 else s
    | .host .scp, 0x11 => if l.started && !l.ended then s.failLoad 0x11 0 else s
    | _, _ => s)

/-! ## Sessions (R453, R454, R463) -/

/-- Words that reach a port: on BAR2 they are those at the front of its stream, which loses them; none where they are not. -/
def State.portWords (s : State) (port : CfgPort) (ws : List Word) : Option State :=
  match port with
  | .bar2 => if s.hi.bar2.take ws.length == ws then some { s with hi := { s.hi with bar2 := s.hi.bar2.drop ws.length } } else none
  | _ => some s

/-- The first word of a readback request (R467). -/
def readbackMagic : Nat := 0x42524B53

/-- Whether PCP_READY is high: no other port's session is open (R453, R454). -/
def State.pcpReady (s : State) : Bool := s.cf.sess.all (fun x => x.port == .pcp)

/-- SESSION_START (R454): a MAGIC or a readback word opens a session at an idle controller. A word for another port than the
session's is discarded and counted on SCP, withheld on PCP, and discarded as DENIED on BAR2; other words that find the controller idle are discarded and counted. -/
def execSessionStart (port : CfgPort) (w : Word) (s : State) : Res :=
  .next (match s.cf.sess with
  | some x =>
    if x.port == port then
      if x.kind == .skip then match s.portWords port [w] with
        | some s => s.setSess (some { x with last := s.fc })
        | none => s
      else s
    else if port == .pcp && !s.pcpReady then s
    else match port with
      | .scp | .pcp => s.count .cfDisc 0 31 0 1
      | .bar2 => match s.portWords .bar2 [w] with
        | some s => s.hostDone .pf0 .denied
        | none => s
  | none => match s.portWords port [w] with
    | none => s
    | some s =>
      let open' (k : SessKind) : State := (s.setFld .cfStat 0 26 25 (portCode port)).setSess (some ⟨port, k, s.fc⟩)
      if w.toNat == readbackMagic && s.cfState != 0 then open' .readback
      else if w.toNat == hMagic && s.cf.load.isNone && [1, 5, 7].contains s.cfState then open' .image
      else s.count .cfDisc 0 31 0 1)

/-- HEADER_CHECK (R437, R438, R463): the words after MAGIC up to the last key block of a host image. A failed check is answered at
once and the rest of the session discarded; otherwise the load may begin. The header of an operator graft file is judged with the file
(R479); in SERVICE the file is then received, elsewhere the session ends with DENIED and STATE (R484). -/
def execHeaderCheck (ws : List Word) (s : State) : Res :=
  let h := BitVec.ofNat 32 hMagic :: ws.take 15
  let keys := ws.drop 15
  .next (match s.cf.sess with
  | some ⟨port, .image, _⟩ =>
    if s.cf.load.isSome || ws.length != 15 + 20 * hNkb h then s
    else match s.portWords port ws with
      | none => s
      | some s => if hGraft h then
          if s.cfState != 5 then (s.ogDone Status.denied.code 0x0F).setSess (some ⟨port, .skip, s.fc⟩)
          else (if s.fld .cfOgstat 0 31 30 == 2 then s else s.setReg .cfOgstat 0 0x40000000).setSess
            (some ⟨port, .graft (BitVec.ofNat 32 hMagic :: ws), s.fc⟩)
        else
        let bad (c : Nat) : State := (s.failBefore (.host port) c).setSess (some ⟨port, .skip, s.fc⟩)
        match s.headerCause h keys, unwrapKey h keys with
        | some c, _ => bad c
        | none, none => bad 3
        | none, some key => (s.setSess (some ⟨port, .image, s.fc⟩)).setLoad (some { newLoad (.host port) (s.cfState == 7) with
            ready := true, hdr := h, keys := keys, ckey := key })
  | _ => s)

/-- SESSION_TIMEOUT (R463): no word for 100 ms. -/
def execSessionTimeout (s : State) : Res :=
  .next (match s.cf.sess with
  | none => s
  | some x =>
    if s.fc < x.last + 160000000 then s
    else match x.kind with
      | .image => match s.cf.load with
        | some _ => s.failLoad 0x0A 0
        | none => (s.failBefore (.host x.port) 0x0A).setSess none
      | .graft _ => s.endGraftSession Status.timeout.code 0
      | .skip => if x.port == .scp then s else s.setSess none
      | .readback => s.setSess none)

/-- SCP_TRUNCATION (R454): SCP_CS_N rises before the session's end. -/
def execScpTruncation (s : State) : Res :=
  .next (match s.cf.sess with
  | some ⟨.scp, .image, _⟩ => match s.cf.load with
    | some _ => s.failLoad 0x0B 0
    | none => (s.failBefore (.host .scp) 0x0B).setSess none
  | some ⟨.scp, .graft _, _⟩ => s.endGraftSession Status.aborted.code 0
  | some ⟨.scp, _, _⟩ => s.setSess none
  | _ => s)

/-! ## Loads from NVM (R461, R462) -/

/-- NVM_PREVERIFY (R462): the image of a load from NVM is read and verified before anything changes. -/
def execNvmPreverify (eccBad : Bool) (s : State) : Res :=
  .next (match s.cf.load with
  | some l => match l.src with
    | .nvm a _ =>
      if l.ready then s
      else match s.nvmCause a eccBad with
        | some c =>
          if s.cfState == 6 then s.failStarted l.src l.fromSafe c 0
          else if s.cfState == 0 then -- AUTOBOOT: no image runs, and the seed is tried (R457, R464)
            if l.src.seed then s.failStarted l.src l.fromSafe c 0
            else { (s.failBefore l.src c).setCfState 6 with cf := { s.cf with
              load := some s.seedLoad } }
          else s.failBefore l.src c
        | none =>
          let h := s.nvmWords a 16
          let keys := s.nvmWords (a + 64) (hKeyWords h)
          s.setLoad (some { l with ready := true, hdr := h, keys := keys, ckey := (unwrapKey h keys).getD 0 })
    | .host _ => s
  | none => s)

/-! ## The start of a full load (R451, R459) -/

/-- The register names that the start of a full load resets: those of tiles, switch, lattice, FIFOs, queues, and what an image
writes of lanes and the NoC (R451, R544). -/
def loadResets : List RegName :=
  [.tlGcal, .tlGphase, .tlGcalact, .tlGfault, .tlCal, .tlGrp, .tlWin, .swGbark, .swGpar, .swIn, .ltMcown, .ltIsown,
   .ffOwn, .ffThr, .ffStat, .ffDrop, .ffPar,
   .cxEcc, .cxLost, .cxIndrop, .cxQuota, .cxFloor, .cxTerr, .cxTnobuf,
   .qeQcfg, .qeQrate, .qeQburst, .qeQlvl, .qeBcfg, .qeBcir, .qeBcburst, .qeBpir, .qeBpburst, .qeBclvl, .qeBplvl,
   .qePcfg, .qePrate, .qeHcfg, .qeHmax, .qeHbin,
   .lnCfg, .lnIen, .lnTxeq, .lnRxdly, .lnTxdly, .lnRawfill, .lnPymach, .lnPymacl, .lnPys, .lnPyg, .lnStat,
   .ncRteL, .ncRteH, .ncInjA, .ncInjB, .cfGpcnt, .cfGpdisc]

/-- The cell exchange at the start of a full load (R199): every cell FREE with the owner of its last allocation (R175), request counters and
pointers kept. -/
def CellB.atLoad (x : CellB) : CellB :=
  { x with link := (x.link.map (fun e => (e.1, { linkZero with owner := e.2.owner }))).filter (fun e => decide (e.2 ≠ linkZero)), inp := (x.inp.map (fun e => (e.1, { cellInZero with cnt := e.2.cnt }))).filter (fun e => decide (e.2 ≠ cellInZero))
           outp := [], recs := [], above := false, tfree := [] }

/-- Everything that a full load's start returns to its cold-reset value (R451): admissions end with it. -/
def State.loadState (s : State) : State :=
  let s := (s.dropShadows (fun _ => true)).resetRegs loadResets
  let s := { s with
    act := []
    tl := TileB.zero, sw := SwitchB.zero, lt := { LatticeB.zero with pinIn := s.lt.pinIn }, ff := FifoB.zero, cx := s.cx.atLoad
    qe := { QueueB.zero with refill := s.qe.refill, refillAt := s.qe.refillAt }
    tn := TenantB.zero
    ln := { LaneB.zero with live := s.ln.live }
    nc := { s.nc with route := [], level := [], newMode := none }
    cf := { s.cf with cap := RingTbls.zero, capped := [], outDone := false, wenGrove := [], runSrc := none, wdogAt := 0 } }
  let files := s.gr.files
  let s := { s with gr := { s.gr with sh := [], req := [], staged := [], files := [], port := [], cmds := [] } }
  let s := forEach files s (fun f s => s.fileDone f.vf Status.aborted.code 0)
  forEach (List.range 16) s (fun g s => s.setBit .lnGcfg g 31 false)

/-- FULL_LOAD_START (R451, R459, R537): no call is RUNNING (R545), the image has passed what is checked before. -/
def execFullLoadStart (s : State) : Res :=
  .next (match s.cf.load with
  | some l =>
    if !l.ready || l.started || s.ht.wait.isSome then s
    else
      let service := s.cfState == 5
      let s := (s.loadState).pinsAtLoad service
      let s := s.setReg .cfStat 0 (BitVec.ofNat 32 ((if s.cfState == 6 then 6 else 2) * 2 ^ 28 + b2n s.cf.sess.isSome * 2 ^ 27
        + srcCode l.src * 2 ^ 25))
      let s := ((s.setReg .cfImgsvn 0 0).setReg .cfWdog 0 0).count .cfLoads 0 31 16 1
      let s := forEach (List.range 3) s (fun k s => (s.setReg .pwDompwr k 0xFFFFFFFF).setReg .pwDomfen k 0)
      { s.setLoad (some { l with started := true }) with pw := { s.pw with
        fenceAsk := [], draining := [], closeAt := [], restoring := [], offAt := [], runNext := [], railBad := [] } }
  | none => s)

/-! ## Commands (R440-R445) -/

/-- A load whose commands are arriving (R457). -/
def State.commanding (s : State) : Option Load :=
  match s.cf.load with
  | some l => if l.started && !l.ended && (s.cfState == 2 || s.cfState == 6) then some l else none
  | none => none

/-- The next words of an image, which a port delivers or the NVM holds, as the load takes them: with the time of a host session's
last word renewed. -/
def State.nextWords (s : State) (l : Load) (pos : Nat) (ws : List Word) : Option State :=
  match l.src with
  | .nvm a _ => if s.nvmWords (a + 4 * pos) ws.length == ws then some s else none
  | .host p => (s.portWords p ws).map (fun s => s.setSess (some ⟨p, .image, s.fc⟩))

/-- What a command does: fail the load with a cause and reason, or go on with the load changed. -/
inductive CmdEnd where
  | fail (cause reason : Nat)
  | go (s : State) (l : Load)

/-- FORMAT. -/
def CmdEnd.format : CmdEnd := .fail 5 0

/-- A command of an image (R440, R441): its words are the next ones of the section and spell operation `op`; a reserved operation,
a section that does not begin with SET_DEVICE or that runs past its END fails with FORMAT. Then its own effect. -/
def State.loadCommand (s : State) (op : Nat) (ws : List Word) (body : State → Load → (Nat → Nat) → List Word → CmdEnd) : State :=
  match s.commanding with
  | none => s
  | some l =>
    let pos := l.cipher.length
    let total := hLength l.hdr / 4
    let plain := plainWords l.hdr l.ckey (4 * pos) ws
    let w0 := plain.getD 0 0
    let w (i : Nat) : Nat := (plain.getD i 0).toNat
    let code := bits w0.toNat 31 28
    if ws.isEmpty || (code != op && code < 9) || (code < 9 && cmdLen w0 != some ws.length) then s
    else match s.nextWords l (16 + hKeyWords l.hdr + pos) ws with
      | none => s
      | some s =>
        let l := { l with cipher := l.cipher ++ ws }
        if 9 ≤ code || total < pos + ws.length || (code != 8 && total ≤ pos + ws.length) || ((code == 5) == l.setDev) then s.failLoad 5 0
        else
          let l := if code == 7 then l else { l with crc := crcRun polyC l.crc (wordsBytes plain), checked := l.checked && code == 8 }
          match body s l w plain with
          | .fail c r => s.failLoad c r
          | .go s l => s.setLoad (some l)

/-- NOP. -/
def execNopCmd (ws : List Word) (s : State) : Res :=
  .next (s.loadCommand 0 ws (fun s l w _ => if w 0 = 0 then .go s l else .format))

/-- The registers of a grove's macrocells take their INIT, with an image's records (R138). -/
def State.initMcs (s : State) (g : Nat) : State :=
  forEach (List.range 32) s (fun m s => s.setRst fun x => { x with mcq := x.mcq.wr (32 * g + m) false (bit (s.mcRec g m) 29) })

/-- Write one frame of an image (R441, R443, R446, R452): its address is valid and it has the frame's size, a vector's by the COUNT of its
header, and its place in the order of kind 6 frames is judged. -/
def loadFrame (a : Nat) (d : List Word) (s : State) (l : Load) : CmdEnd :=
  let k := fKind a
  let port := k == 6 && fSub a == 0
  let vec := isVector a
  if frameWords a (bits (d.getD 0 0).toNat 12 0) != some d.length || (port && !s.tn.adm.isEmpty) || (vec && 2 ≤ l.phase) then .format
  else match s.putFrame a d with
    | (some (c, r), _) => .fail c r
    | (none, s) => .go (if k == 3 && fSub a == 2 then s.initMcs (fGrove a) else s) { l with
        phase := if vec then max l.phase 1 else if k != 6 then 2 else l.phase
        opVec := l.opVec || (vec && bits (d.getD 1 0).toNat 31 22 == 0x200) }

/-- FRAME_WRITE. -/
def execFrameWrite (ws : List Word) (s : State) : Res :=
  .next (s.loadCommand 1 ws (fun s l w p =>
    if bits (w 0) 27 14 != 0 then .format
    else match loadFrame (w 1) (p.drop 2) s l with
      | .go s l => .go s { l with prev := some (BitVec.ofNat 32 (w 1), p.drop 2) }
      | e => e))

/-- Write the previous frame's data to one more address (R443). -/
def repeatOne (a : Word) (d : List Word) (e : CmdEnd) (b : Nat) : CmdEnd :=
  match e with
  | .fail c r => .fail c r
  | .go s l => if fKind b != fKind a.toNat || isVector b || frameWords b 0 != some d.length then .format else loadFrame b d s l

/-- FRAME_REPEAT (R443). -/
def execFrameRepeat (ws : List Word) (s : State) : Res :=
  .next (s.loadCommand 2 ws (fun s l w p =>
    match l.prev with
    | none => .format
    | some (a, d) =>
      if bits (w 0) 26 16 != 0 || bits (w 0) 15 0 == 0 || isVector a.toNat then .format
      else (repeatAddrs p).foldl (repeatOne a d) (.go s l)))

/-- FRAME_FILL (R443). -/
def execFrameFill (ws : List Word) (s : State) : Res :=
  .next (s.loadCommand 3 ws (fun s l w p =>
    match fillWords (w 1) (p.getD 2 0) with
    | none => .format
    | some d =>
      if bits (w 0) 27 0 != 0 then .format
      else match loadFrame (w 1) d s l with
        | .go s l => .go s { l with prev := some (BitVec.ofNat 32 (w 1), d) }
        | e => e))

/-- MEMORY_WRITE (R445): the image data area is the second half of canopy SRAM. -/
def execMemoryWrite (ws : List Word) (s : State) : Res :=
  .next (s.loadCommand 4 ws (fun s l w p =>
    let n := bits (w 0) 13 0
    if bits (w 0) 27 14 != 0 || n == 0 || w 1 % 4 != 0 || 4194304 < w 1 + 4 * n then .format
    else .go (s.sramPut (0x400000 + w 1) (wordsBytes (p.drop 2))) { l with phase := 2 }))

/-- SET_DEVICE (R442): FAM is written, a new NoC mode is asked for, PLLs and supplies are noted. -/
def execSetDevice (ws : List Word) (s : State) : Res :=
  .next (s.loadCommand 5 ws (fun s l w _ =>
    let mode := bits (w 1) 31 16
    let supply := bits (w 3) 15 0
    if bits (w 0) 27 0 != 0 || bits (w 1) 15 0 != 0 || bits mode 14 13 == 3 || (bit mode 11 && bits mode 14 13 != 2)
        || bits mode 10 8 != 0 || bits (w 3) 31 16 != 0 || (List.range 4).any (fun b => decide (6 < bits supply (4 * b + 3) (4 * b)))
    then .format
    else
      let s := forEach (List.range 16) s (fun g s =>
        if s.flag .lnGcfg g 31 == bit (w 2) g then s else (s.setBit .lnGcfg g 31 (bit (w 2) g)).setBit .lnGcfg g 30 false)
      let m := BitVec.ofNat 32 (mode * 2 ^ 16)
      .go (if s.reg .ncMode 0 == m then s else { s with nc := { s.nc with newMode := some m } })
        { l with setDev := true, pllen := bits (w 2) 31 16, supply := supply }))

/-- RELEASE_ORDER (R440, R441). -/
def execReleaseOrder (ws : List Word) (s : State) : Res :=
  .next (s.loadCommand 6 ws (fun s l w _ =>
    let o := [bits (w 0) 5 4, bits (w 0) 3 2, bits (w 0) 1 0]
    if bits (w 0) 27 6 != 0 || l.ordered || !([0, 1, 2].all o.contains) then .format
    else .go s { l with ordered := true, order := o, gap1 := bits (w 1) 15 0, gap2 := bits (w 1) 31 16 }))

/-- CHECKPOINT (R444). -/
def execCheckpoint (ws : List Word) (s : State) : Res :=
  .next (s.loadCommand 7 ws (fun s l w p =>
    if bits (w 0) 27 0 != 0 then .format
    else if p.getD 1 0 != ~~~l.crc then .fail 4 0
    else .go s { l with crc := 0xFFFFFFFF, checked := true }))

/-- Whether some grove's FIFO records break the consumption rule across tiles (R162). -/
def State.fifoTakenBad (s : State) : Bool :=
  (List.range 64).any s.takenBad

/-- END (R441, R450): after a CHECKPOINT, exactly at the end of the section; the operator's vector must have come. -/
def execEndCmd (ws : List Word) (s : State) : Res :=
  .next (s.loadCommand 8 ws (fun s l w _ =>
    if w 0 != 0x80000000 || !l.checked || l.cipher.length * 4 != hLength l.hdr then .format
    else if !l.opVec || s.fifoTakenBad || s.outTabBad s.gp.pinTab s.gp.outTab then .fail 12 1
    else .go s { l with ended := true }))

/-- RECORD_WRITE (R480, R481): a command of graft files, which GRAFT_CHECK judges whole (R482). In a full image its operation is
reserved, and the load fails with FORMAT. -/
def execRecordWrite (ws : List Word) (s : State) : Res := .next (s.loadCommand 9 ws (fun s l _ _ => .go s l))

/-- IMAGE_VERIFY (R439, R457): the words after the section have come; the device goes on to LOCK, or the load fails. -/
def execImageVerify (ws : List Word) (s : State) : Res :=
  .next (match s.cf.load with
  | none => s
  | some l =>
    if !l.started || !l.ended || !(s.cfState == 2 || s.cfState == 6) || ws.length != hTailWords l.hdr then s
    else match s.nextWords l (16 + hKeyWords l.hdr + hLength l.hdr / 4) ws with
      | none => s
      | some s => match s.sigCause l.hdr l.keys l.cipher ws l.ckey with
        | some c => s.failLoad c 0
        | none => ((s.setSess none).setLoad (some { l with lockBy := s.fc + 16000000 })).setCfState 3)

/-! ## Release (R457-R460) -/

/-- PLL_LOCK_WAIT (R457): the taproot PLL and those of PLLEN are locked, or 10 ms have passed. -/
def execPllLockWait (s : State) : Res :=
  .next (match s.cf.load with
  | none => s
  | some l =>
    if s.cfState != 3 then s
    else if s.flag .ckStat 0 31 && (List.range 16).all (fun g => !bit l.pllen g || s.flag .lnGcfg g 30) then
      (s.setLoad (some { l with relAt := s.fc + 1, relStep := 0 })).setCfState 4
    else if l.lockBy ≤ s.fc then s.failLoad 0x0D 0
    else s)

/-- The load whose next stage is `k`, when that stage is due (R457). -/
def State.stageDue (s : State) (k : Nat) : Option Load :=
  match s.cf.load with
  | some l => if s.cfState == 4 && l.order[l.relStep]? == some k && decide (l.relAt ≤ s.fc) then some l else none
  | none => none

/-- A stage has been taken: when the next is due. -/
def State.stageTaken (s : State) (l : Load) : State :=
  s.setLoad (some { l with relStep := l.relStep + 1, relAt := s.fc + (if l.relStep = 0 then l.gap1 else if l.relStep = 1 then l.gap2 else 1) })

/-- The route table and injection entries that an image has placed come into force (R317, R345, R458). -/
def State.nocAtOut (s : State) : State :=
  let of (n : RegName) : List Nat := (s.regs.filter (fun (e : Nat × Word) => e.1 % 256 == n.ctorIdx && bit e.2.toNat 31)).map (fun e => e.1 / 256)
  let s := forEach (of .ncRteH) s (fun k s =>
    let r := BitVec.ofNat 42 ((s.reg .ncRteL k).toNat + s.fld .ncRteH k 9 0 * 2 ^ 32)
    { s with nc := { s.nc with route := s.nc.route.wr k 0 r } })
  forEach (of .ncInjA) s (fun k s => s.injInForce k)

/-- OUT (R458). -/
def execStageOut (s : State) : Res :=
  .next (match s.stageDue 0 with
  | none => s
  | some l =>
    let s := (s.nocAtOut).pinsAtOut l.supply
    { s with cf := { s.cf with outDone := true }, ln := { s.ln with txOn := true } }.stageTaken l)

/-- WEN (R458), in every grove. -/
def execStageWen (s : State) : Res :=
  .next (match s.stageDue 1 with
  | none => s
  | some l => { s with cf := { s.cf with wenGrove := (List.range 64).map (fun g => (g, true)) } }.stageTaken l)

/-- RUN (R43, R458), in every grove: macrocells take their INIT, and each grove's first pass begins in the next fc. -/
def execStageRun (s : State) : Res :=
  .next (match s.stageDue 2 with
  | none => s
  | some l => { s with pw := { s.pw with runNext := (List.range 64).map (fun g => (g, true)) } }.stageTaken l)

/-- The release ends (R457, R460, R466): at the first 200 MHz edge after the last stage's fc DONE rises and the watchdog is armed. -/
def State.tickRelease (s : State) : State :=
  match s.cf.load with
  | none => s
  | some l =>
    if s.cfState != 4 || l.relStep < 3 || s.fc < l.relAt || s.fc % 8 != 0 then s
    else
      let wd := hWdog l.hdr
      let s := s.setReg .cfStat 0 (BitVec.ofNat 32 (5 * 2 ^ 28 + b2n s.cf.sess.isSome * 2 ^ 27 + srcCode l.src * 2 ^ 25 + 2 ^ 24
        + (if wd = 0 then 0 else 2 ^ 23) + 2 ^ 22 + b2n (hLock l.hdr) * 2 ^ 21))
      let s := (s.setReg .cfImgsvn 0 (BitVec.ofNat 32 (hSvn l.hdr))).setReg .cfWdog 0 (BitVec.ofNat 32 (wd * 2 ^ 16))
      { s with cf := { s.cf with load := none, runSrc := some l.src, runSafe := l.fromSafe, wdogAt := s.fc + wd * 1600000 } }

/-! ## Watchdog and RELOAD (R461, R466, R476) -/

/-- WATCHDOG_EXPIRY (R466). -/
def execWatchdogExpiry (s : State) : Res :=
  .next (if s.cfState == 5 && s.flag .cfStat 0 23 && decide (s.cf.wdogAt ≤ s.fc) then
      match s.cf.runSrc with
      | some src => s.failStarted src s.cf.runSafe 0x0E 0
      | none => s
    else s)

/-- A write of a configuration register (R461, R466, R476). -/
def State.writeCf (s : State) (p : Party) (n : RegName) (w : Word) : State :=
  if n != .cfCtl then s.plainWrite p n 0 w
  else
    let j := s.judgeW p .cfCtl 0 (fun _ _ => true) w
    if bit j.acts 31 && (!([1, 5, 7].contains s.cfState) || s.cf.load.isSome || s.cf.sess.isSome) then s.ans .denied []
    else
      let s := s.land .cfCtl 0 j
      let s := if bit j.acts 29 then s.setBit .cfStat 0 23 false else s
      if bit j.acts 31 then
        let a := if s.flag .cfCtl 0 30 then (s.reg .pb 1).toNat else 0
        s.setLoad (some (newLoad (s.nvmSrc a) (s.cfState == 7)))
      else s

/-- WDCLR and RELOAD: writes of CF_CTL. -/
def execWdclr (p : Party) (w : Word) (s : State) : Res := .next (s.writeCf p .cfCtl w)
def execReload (p : Party) (w : Word) (s : State) : Res := .next (s.writeCf p .cfCtl w)

/-- A configuration register as read (R475-R477, R501). -/
def State.readCf (s : State) (n : RegName) : Word :=
  match n with
  | .cfStat => BitVec.ofNat 32 (setBits (s.reg .cfStat 0).toNat 15 0 (min s.cf.reply.length 0xFFFF))
  | .cfWdog => BitVec.ofNat 32 (setBits (s.reg .cfWdog 0).toNat 15 0
      (if s.flag .cfStat 0 23 then (s.cf.wdogAt - s.fc) / 1600000 else 0))
  | .cfCtl => BitVec.ofNat 32 (setBits (setBits (s.reg .cfCtl 0).toNat 31 31 0) 29 29 0)
  | n => s.reg n 0

/-! ## Operator graft files (R484) -/

/-- The words of a graft file that a session has brought (R484). -/
def SessKind.got : SessKind → Option (List Word)
  | .image => some [BitVec.ofNat 32 hMagic]
  | .graft ws => some ws
  | _ => none

/-- OPERATOR_GRAFT_SESSION (R484): the words of an operator's graft file after MAGIC, or after its header, up to its SIG. In SERVICE the file is staged
and joins heartwood's queue; elsewhere the session ends with DENIED and STATE. -/
def execOperatorGraftSession (ws : List Word) (s : State) : Res :=
  .next (match s.cf.sess.bind (fun x => x.kind.got.map (fun got => (x.port, got ++ ws))) with
  | some (port, file) =>
    if s.cf.load.isSome || !hGraft (file.take 16) || file.length != hTotal (file.take 16) then s
    else match s.portWords port ws with
      | none => s
      | some s =>
        let s := s.setSess none
        if s.cfState != 5 then s.ogDone Status.denied.code 0x0F
        else if s.flag .htStat 0 31 then s.ogDone Status.fenced.code 0
        else if s.fld .cfOgstat 0 31 30 == 2 then s.ogDone Status.nobuf.code 0
        else
          let s := s.setReg .cfOgstat 0 0x80000000
          { s with gr := { s.gr with opStage := file } }.queueCall .opGraft
  | _ => s)

/-! ## Readback (R467-R470) -/

/-- Whether a tag is a tenant's. -/
def isTenant (o : Nat) : Bool := decide (o < 0x200)

/-- Whether a ring's contents are masked (R470). -/
def State.ringMasked (s : State) (T r : Nat) : Bool := isTenant (rOwner (s.ringRec T r)) && !rRback (s.ringRec T r)

/-- A frame of kind 0 as readback shows it (R470). -/
def State.rbCfg (s : State) (T : Nat) : Nat :=
  let x := s.cfgFrame T
  let rings := (cfgRings x).zipIdx.map (fun (v, r) => if s.ringMasked T r then v / 2 ^ 180 * 2 ^ 180 else v)
  let sels := (cfgSels x).zipIdx.map (fun (v, o) => match s.recvOwner T o with
    | some w => if isTenant w then 63 else v
    | none => v)
  packBits 192 rings + 2 ^ 3072 * packBits 6 sels + x / 2 ^ 3324 * 2 ^ 3324

/-- A frame of kind 1 from a capture, masked (R448, R470). -/
def State.rbTile (s : State) (T : Nat) : Nat :=
  let ring (r : Nat) : Nat := if s.ringMasked T r then 0 else ringState s.cf.cap (ringKey T r)
  let idx (n : Nat) : Nat :=
    let own := s.actFld .tlGrp (16 * T + n) 31 22
    let open' := (ones 16 (s.actFld .tlGrp (16 * T + n) 15 0)).all (fun r => rRback (s.ringRec T r))
    if own == 0x200 || (isTenant own && open') then (s.cf.cap.sidx.rd (16 * T + n) 0).toNat else 0
  packBits 560 ((List.range 16).map ring) + 2 ^ 8960 * packBits 4 ((List.range 15).map idx)

/-- Whether a word of tile memory lies in a tenant ring's window (R470). -/
def State.wordMasked (s : State) (T w : Nat) : Bool :=
  (List.range 16).any (fun r => isTenant (rOwner (s.ringRec T r)) && s.inWindow T r w)

/-- The bytes of 64 words of tile memory (R446, R470). -/
def State.rbMem (s : State) (T w : Nat) : List Word :=
  bytesWords ((List.range 64).flatMap (fun i => toBE 3 (if s.wordMasked T (w + i) then 0 else s.tmem T (w + i))))

/-- Whether macrocell m may be read back: the operator's, nobody's, or a tenant's with RBACK 1 (R141, R470). -/
def State.mcShown (s : State) (g m : Nat) : Bool := !isTenant (s.mcOwner g m) || bit (s.mcRec g m) 12

/-- Whether a lattice record is shown (R470). -/
def State.latShown (s : State) (g k i v : Nat) : Bool :=
  match k with
  | 5 => !isTenant (s.isOwner g i)
  | 6 => s.mcShown g (i / 5)
  | 7 => s.mcShown g i
  | 8 => s.mcShown g (4 * i + 3)
  | 9 => match s.decodeOwner g v with
    | some o => !isTenant o
    | none => true
  | _ => true

/-- A lattice frame as readback shows it. -/
def State.rbLat (s : State) (g sub : Nat) : Nat :=
  let (_, _, w) := latShape sub
  packBits w ((latRecords sub (s.latFrame g sub)).map (fun (k, i, v) => if s.latShown g k i v then v else 0))

/-- Captured Q of a grove (R467). -/
def State.rbQ (s : State) (g : Nat) : Nat :=
  maskOf ((List.range 32).map (fun m => s.mcShown g m && s.cf.cap.mcq.rd (32 * g + m) false))

/-- Words of the frame an address names for readback (R467). -/
def rbWords (a : Nat) : Option Nat :=
  if fKind a == 3 && fSub a == 0x100 && fTile a == 0 then some 1
  else if isVector a then none else frameWords a 0

/-- A frame as readback returns it (R470); `n` is its length in words. -/
def State.rbFrame (s : State) (a n : Nat) : List Word :=
  let g := fGrove a
  let two (x y : RegName) (k cnt : Nat) : List Word := (List.range cnt).flatMap (fun i => [s.reg x (k + i), s.reg y (k + i)])
  match fKind a with
  | 0 => toWords n (s.rbCfg (fT a))
  | 1 => toWords n (s.rbTile (fT a))
  | 2 => s.rbMem (fT a) (fSub a)
  | 3 => toWords n (if fSub a == 0x100 then s.rbQ g else s.rbLat g (fSub a))
  | 4 => if fSub a = 0 then (List.range 8).flatMap (fun j => laneRegs.map (fun r => s.reg r (8 * g + j)))
    else two .lnPys .lnPyg (256 * g) 256
  | 7 => match fSub a with
    | 0 => (List.range 64).map (s.reg .gpPcfg)
    | 1 => (List.range 160).map (s.reg .gpFsel)
    | _ => [s.reg .gpOut 0, s.reg .gpOut 1, s.reg .gpOe 0, s.reg .gpOe 1]
  | _ => List.replicate n 0

/-- A capture of grove g (R469): its ring state, steering indices and macrocell Q. -/
def State.capture (g : Nat) (s : State) : State :=
  let cp {α : Type} (n : Nat) (old new : Tbl α) : Tbl α :=
    old.filter (fun e => e.1 / n < g) ++ new.filter (fun e => e.1 / n == g) ++ old.filter (fun e => g < e.1 / n)
  let x := s.tl.rst
  let c := s.cf.cap
  { s with cf := { s.cf with
    cap := ⟨cp 8192 c.d x.d, cp 4096 c.acc x.acc, cp 4096 c.p x.p, cp 4096 c.base x.base, cp 4096 c.len x.len, cp 1024 c.fl x.fl,
            cp 1024 c.sidx x.sidx, cp 32 c.mcq x.mcq⟩
    capped := s.cf.capped.wr g false true } }

/-- READBACK (R467-R470): the three words after the request's first; the reply goes back on the port that asked, on SCP in nibbles after
one of 0x5 (R468). -/
def execReadback (ws : List Word) (s : State) : Res :=
  .next (match s.cf.sess with
  | some ⟨port, .readback, _⟩ =>
    if ws.length != 3 then s
    else match s.portWords port ws with
      | none => s
      | some s =>
        let w (i : Nat) : Nat := (ws.getD i 0).toNat
        let n := bits (w 1) 15 0
        let addrs := (List.range n).map (fun k => (w 0 + k * w 2) % 2 ^ 32)
        let len := rbWords (w 0)
        let bad := bits (w 1) 30 16 != 0 || n == 0 || s.loading
          || addrs.any (fun a => (rbWords a).isNone || rbWords a != len || fKind a != fKind (w 0))
        let s := if !bad && bit (w 1) 31 then
            forEach ((List.range 64).filter (fun g => addrs.any (fun a =>
              fGrove a == g && (fKind a == 1 || (fKind a == 3 && fSub a == 0x100))))) s State.capture
          else s
        let frames := if bad then [] else addrs.flatMap (fun a => s.rbFrame a (len.getD 0))
        let out := if bad then [BitVec.ofNat 32 Status.denied.code] else 0 :: frames ++ [crc32c (wordsBytes frames)]
        let s := s.setSess none
        match port with
        | .bar2 => { s with cf := { s.cf with reply := s.cf.reply ++ out } }
        | .pcp => { s with line := out.map (·.toNat) }
        | .scp => { s with line := 5 :: (wordsBytes out).flatMap (fun b => [b.toNat / 16, b.toNat % 16]) }
  | _ => s)

end Sys2Proof.Machine
end

