-- ==== Sys2Proof/Machine/Serial.lean ====
section
/-! DEFINITION. The serial ports (R517-R521, R528). -/

namespace Sys2Proof.Machine

/-- Where a port's queues stand: UART 0, SPI 1, two-wire 2, MDIO 3. -/
def serKey (k : SerialKind) (n : Nat) : Nat := 16 * (match k with | .uart => 0 | .spi => 1 | .twoWire => 2 | .mdio => 3) + n

/-- Configuration, data and status registers of a port. -/
def serCfg : SerialKind → RegName
  | .uart => .spUcfg | .spi => .spScfg | .twoWire => .spTcfg | .mdio => .spMcfg

def serStat : SerialKind → RegName
  | .uart => .spUstat | .spi => .spSstat | .twoWire => .spTstat | .mdio => .spMstat

/-- How many ports of a kind there are. -/
def serCount : SerialKind → Nat
  | .uart | .spi => 4 | .twoWire => 8 | .mdio => 2

def State.txq (s : State) (k : SerialKind) (n : Nat) : List (BitVec 16) := s.gp.txq.rd (serKey k n) []
def State.rxq (s : State) (k : SerialKind) (n : Nat) : List (BitVec 16) := s.gp.rxq.rd (serKey k n) []
def State.setTxq (s : State) (k : SerialKind) (n : Nat) (l : List (BitVec 16)) : State :=
  { s with gp := { s.gp with txq := s.gp.txq.wr (serKey k n) [] l } }
def State.setRxq (s : State) (k : SerialKind) (n : Nat) (l : List (BitVec 16)) : State :=
  { s with gp := { s.gp with rxq := s.gp.rxq.wr (serKey k n) [] l } }

def State.serOn (s : State) (k : SerialKind) (n : Nat) : Bool := n < serCount k && s.flag (serCfg k) n 31

/-- Set a sticky event bit (R517). -/
def State.serSet (s : State) (k : SerialKind) (n b : Nat) : State := s.setBit (serStat k) n b true

/-- The event bits of a port, levels and sticky bits (R517). -/
def State.serEvents (s : State) (k : SerialKind) (n : Nat) : Nat :=
  let sticky := s.fld (serStat k) n 7 0
  let av := !(s.rxq k n).isEmpty
  match k with
  | .uart | .spi => setBits (setBits sticky 7 7 (b2n (decide ((s.txq k n).length ≤ 16)))) 6 6 (b2n av)
  | .twoWire => setBits (setBits sticky 7 7 (b2n ((s.txq k n).isEmpty && !s.gp.inXfer.rd n false))) 6 6 (b2n av)
  | .mdio => setBits sticky 7 7 (b2n (s.gp.mdio.rd n none).isSome)

/-- The event bits with a 1 in IEN (R517, R528): bits 7:1, 7:3, 7:2 and 7:4 have enables. -/
def State.serEnabled (s : State) (k : SerialKind) (n : Nat) : Nat :=
  match k with
  | .uart => s.fld .spUcfg n 26 20 * 2
  | .spi => s.fld .spScfg n 20 16 * 8
  | .twoWire => s.fld .spTcfg n 28 23 * 4
  | .mdio => s.fld .spMcfg n 29 26 * 16

/-- The level of a port's event source (R517). -/
def State.serAsserts (s : State) (k : SerialKind) (n : Nat) : Bool := s.serEvents k n &&& s.serEnabled k n != 0

/-- A status register as read (R528). -/
def State.serStatReg (s : State) (k : SerialKind) (n : Nat) : Word :=
  BitVec.ofNat 32 ((if k == .mdio then b2n (s.gp.mdio.rd n none).isSome else (s.txq k n).length) * 2 ^ 16
    + (s.rxq k n).length * 2 ^ 8 + s.serEvents k n)

/-- EN is cleared: the port stops at once (R517). -/
def State.serStop (s : State) (k : SerialKind) (n : Nat) : State :=
  let s := (s.setTxq k n []).setRxq k n []
  { s with gp := match k with
    | .uart => s.gp
    | .spi => { s.gp with spiCs := s.gp.spiCs.wr n 0 0 }
    | .twoWire => { s.gp with inXfer := s.gp.inXfer.wr n false false, skipTo := s.gp.skipTo.wr n false false }
    | .mdio => { s.gp with mdio := s.gp.mdio.wr n none none } }

/-- A write of a configuration register. CSHOLD written 0 lets go of a chip select with nothing to send (R519). -/
def State.writeSerCfg (s : State) (p : Party) (k : SerialKind) (n : Nat) (w : Word) : State :=
  let s := s.plainWrite p (serCfg k) n w
  if !s.flag (serCfg k) n 31 then s.serStop k n
  else if k == .spi && !s.flag .spScfg n 25 && (s.txq k n).isEmpty then { s with gp := { s.gp with spiCs := s.gp.spiCs.wr n 0 0 } }
  else s

/-- A write that queues a byte (R517): 64 wait at most. -/
def State.serQueue (s : State) (k : SerialKind) (n : Nat) (w : Word) : State :=
  if !s.serOn k n then s
  else if 64 ≤ (s.txq k n).length then s.serSet k n (if k == .uart then 1 else 3)
  else s.setTxq k n (s.txq k n ++ [w.setWidth 16 &&& 0xFF])

/-- A write of a two-wire command (R517, R520). While the port discards up to a STOP, the command is discarded. -/
def State.twQueue (s : State) (n : Nat) (w : Word) : State :=
  let op := bits w.toNat 10 8
  if !s.serOn .twoWire n then s
  else if s.gp.skipTo.rd n false then
    if op = 5 then { s with gp := { s.gp with skipTo := s.gp.skipTo.wr n false false } } else s
  else if op = 0 || 5 < op || 32 ≤ (s.txq .twoWire n).length then s.serSet .twoWire n 3
  else s.setTxq .twoWire n (s.txq .twoWire n ++ [BitVec.ofNat 16 (bits w.toNat 10 0)])

/-- A write of an MDIO command (R517, R521). -/
def State.mdioQueue (s : State) (n : Nat) (w : Word) : State :=
  if !s.serOn .mdio n then s
  else if (s.gp.mdio.rd n none).isSome then s.serSet .mdio n 4
  else if !bit w.toNat 31 && (bits w.toNat 30 29 == 0 || bits w.toNat 30 29 == 3) then s.serSet .mdio n 4
  else { s with gp := { s.gp with mdio := s.gp.mdio.wr n none (some w) } }

/-- A write of a serial port register (R525, R528). -/
def State.writeSer (s : State) (p : Party) (n : RegName) (i : Nat) (w : Word) : State :=
  match p with
  | .tenant _ => s.barkAns 0
  | _ =>
    let judged := s.judgeW p n i (fun _ _ => true) w
    let act (f : State → State) : State :=
      let s := s.land n i judged
      if judged.byWriter then s else f s
    match n with
    | .spUcfg => s.writeSerCfg p .uart i w
    | .spScfg => s.writeSerCfg p .spi i w
    | .spTcfg => s.writeSerCfg p .twoWire i w
    | .spMcfg => s.writeSerCfg p .mdio i w
    | .spUdata => act (fun s => s.serQueue .uart i w)
    | .spSdata => act (fun s => s.serQueue .spi i w)
    | .spTcmd => act (fun s => s.twQueue i w)
    | .spMcmd => act (fun s => s.mdioQueue i w)
    | _ => s.plainWrite p n i w

/-- A read of a receive data register takes one byte (R517). -/
def State.serTake (s : State) (k : SerialKind) (n : Nat) : Word × State :=
  match s.rxq k n with
  | [] => (0, s)
  | b :: r => (BitVec.ofNat 32 (2 ^ 31 + bits b.toNat 9 8 * 2 ^ 29 + bits b.toNat 7 0), s.setRxq k n r)

/-- A serial port register as read, and what the read does. -/
def State.readSer (s : State) (n : RegName) (i : Nat) : Word × State :=
  match n with
  | .spUdata => s.serTake .uart i
  | .spSdata => s.serTake .spi i
  | .spTdata => s.serTake .twoWire i
  | .spUstat => (s.serStatReg .uart i, s)
  | .spSstat => (s.serStatReg .spi i, s)
  | .spTstat => (s.serStatReg .twoWire i, s)
  | .spMstat => (s.serStatReg .mdio i, s)
  | .spTcmd | .spMcmd => (0, s)
  | _ => (s.reg n i, s)

/-- SERIAL_RECEIVE_READ (R517): of the MDIO port, its SP_MDATAn. -/
def execSerialReceiveRead (p : Party) (k : SerialKind) (n : Fin 8) (s : State) : Res :=
  .next (match p with
  | .tenant _ => s.barkAns 1
  | _ =>
    if serCount k ≤ n.val then s.ans .unmapped [0]
    else match k with
      | .mdio => s.ans .ok [s.reg .spMdata n.val]
      | _ => let (w, s) := s.serTake k n.val; s.ans .ok [w])

/-- Store a received byte, or lose it with the overflow bit where the port has one (R517). -/
def State.serStore (s : State) (k : SerialKind) (n : Nat) (b : BitVec 16) : State :=
  if (if k == .twoWire then 32 else 64) ≤ (s.rxq k n).length then
    match k with
    | .uart => s.serSet k n 5
    | .spi => s.serSet k n 4
    | _ => s
  else s.setRxq k n (s.rxq k n ++ [b])

/-! ## UART (R518) -/

/-- The parity bit of a byte under PAR 01 even or 10 odd. -/
def parityBit (par b : Nat) : Bool := oddOnes 8 b != (par == 2)

/-- UART_TRANSMIT (R518): the bits sent go on the line, the start bit first. -/
def State.uartSend (s : State) (n : Nat) : State :=
  if !s.serOn .uart n || (s.flag .spUcfg n 27 && s.fnIn (12 + n) false) then s
  else match s.txq .uart n with
    | [] => s
    | b :: r =>
      let par := s.fld .spUcfg n 30 29
      let s := s.setTxq .uart n r
      { s with line := 0 :: (List.range 8).map (fun i => b2n (bit b.toNat i))
          ++ (if par = 0 then [] else [b2n (parityBit par b.toNat)]) ++ List.replicate (if s.flag .spUcfg n 28 then 2 else 1) 1 }

def execUartTransmit (n : Fin 4) (s : State) : Res := .next (s.uartSend n.val)

/-- UART_RECEIVE (R518): a byte with its parity and stop bits as they are on the line. An RX input at its idle 1 sees no start bit. -/
def State.uartTake (s : State) (n : Nat) (byte : Byte) (parity stop : Bool) : State :=
  if !s.serOn .uart n || !s.fnSees (8 + n) then s
  else
    let b := (s.fnTakesBits (8 + n) true byte).toNat
    let parity := s.fnTakes (8 + n) true parity
    let stop := s.fnTakes (8 + n) true stop
    let par := s.fld .spUcfg n 30 29
    if b = 0 && !stop && (par = 0 || !parity) then s.serSet .uart n 2
    else
      let perr := par != 0 && parity != parityBit par b
      let s := if stop then s else s.serSet .uart n 4
      let s := if perr then s.serSet .uart n 3 else s
      s.serStore .uart n (BitVec.ofNat 16 (b2n (!stop) * 2 ^ 9 + b2n perr * 2 ^ 8 + b))

def execUartReceive (n : Fin 4) (byte : Byte) (parity stop : Bool) (s : State) : Res :=
  .next (s.uartTake n.val byte parity stop)

/-! ## SPI (R519) -/

/-- SPI_TRANSFER (R519): one byte each way; the chip selects during it and the byte sent go on the line. -/
def State.spiByte (s : State) (n : Nat) (miso : Byte) : State :=
  if !s.serOn .spi n then s
  else match s.txq .spi n with
    | [] => s
    | b :: r =>
      let cs := BitVec.ofNat 4 (2 ^ s.fld .spScfg n 27 26)
      let s := (s.setTxq .spi n r).serStore .spi n ((s.fnTakesBits (24 + n) false miso).setWidth 16)
      let s := if r.isEmpty then s.serSet .spi n 5 else s
      let after := if r.isEmpty && !s.flag .spScfg n 25 then 0 else cs
      { s with line := [cs.toNat, b.toNat], gp := { s.gp with spiCs := s.gp.spiCs.wr n 0 after } }

def execSpiTransfer (n : Fin 4) (miso : Byte) (s : State) : Res := .next (s.spiByte n.val miso)

/-! ## Two-wire (R520) -/

/-- The command at the head of a two-wire port, when it is of one of these operations. -/
def State.twHead (s : State) (n : Nat) (ops : List Nat) : Option (Nat × Nat) :=
  if !s.serOn .twoWire n then none
  else match s.txq .twoWire n with
    | c :: _ => if ops.contains (bits c.toNat 10 8) then some (bits c.toNat 10 8, bits c.toNat 7 0) else none
    | [] => none

def State.twPop (s : State) (n : Nat) : State := s.setTxq .twoWire n ((s.txq .twoWire n).drop 1)

def State.setXfer (s : State) (n : Nat) (v : Bool) : State := { s with gp := { s.gp with inXfer := s.gp.inXfer.wr n false v } }

/-- Commands from the first STOP on. -/
def fromStop (l : List (BitVec 16)) : List (BitVec 16) := l.dropWhile (fun c => bits c.toNat 10 8 != 5)

/-- START (R520). -/
def State.twStart (s : State) (n : Nat) : State :=
  match s.twHead n [1] with
  | none => s
  | some _ =>
    if !s.gp.inXfer.rd n false && (!s.fnIn (44 + n) true || !s.fnIn (52 + n) true) then
      let s := s.serSet .twoWire n 2
      match fromStop (s.txq .twoWire n) with
      | _ :: r => s.setTxq .twoWire n r
      | [] => { s.setTxq .twoWire n [] with gp := { (s.setTxq .twoWire n []).gp with skipTo := s.gp.skipTo.wr n false true } }
    else { (s.twPop n).setXfer n true with line := [1] }

def execTwStart (n : Fin 8) (s : State) : Res := .next (s.twStart n.val)

/-- WRITE (R520): without an acknowledge the commands up to the next STOP go, and that STOP, or one of the port's own, follows. -/
def State.twWrite (s : State) (n : Nat) (ack : Bool) : State :=
  match s.twHead n [2] with
  | none => s
  | some (_, b) =>
    let nack := s.fnTakes (52 + n) true (!ack)
    let s := { s.twPop n with line := [2, b] }
    if !nack then s
    else
      let s := s.serSet .twoWire n 5
      match fromStop (s.txq .twoWire n) with
      | [] => { (s.setTxq .twoWire n []).setXfer n false with line := [2, b, 5] }
      | l => s.setTxq .twoWire n l

def execTwWrite (n : Fin 8) (ack : Bool) (s : State) : Res := .next (s.twWrite n.val ack)

/-- READ (R520): with op 3 the byte is acknowledged, with op 4 not. -/
def State.twRead (s : State) (n op : Nat) (b : Byte) : State :=
  match s.twHead n [op] with
  | none => s
  | some _ =>
    let b := s.fnTakesBits (52 + n) true b
    { (s.twPop n).serStore .twoWire n (b.setWidth 16) with line := [op, b.toNat] }

def execTwReadAck (n : Fin 8) (byte : Byte) (s : State) : Res := .next (s.twRead n.val 3 byte)
def execTwReadNack (n : Fin 8) (byte : Byte) (s : State) : Res := .next (s.twRead n.val 4 byte)

/-- STOP (R520). -/
def State.twStop (s : State) (n : Nat) : State :=
  match s.twHead n [5] with
  | none => s
  | some _ => { (s.twPop n).setXfer n false with line := [5] }

def execTwStop (n : Fin 8) (s : State) : Res := .next (s.twStop n.val)

/-- STRETCH_TIMEOUT (R520): a target has held SCL low for longer than STRTMO. -/
def State.twStretch (s : State) (n : Nat) : State :=
  if s.serOn .twoWire n && s.fld .spTcfg n 15 0 != 0 && s.gp.inXfer.rd n false then
    ((s.setTxq .twoWire n []).setXfer n false).serSet .twoWire n 4
  else s

def execStretchTimeout (n : Fin 8) (s : State) : Res := .next (s.twStretch n.val)

/-! ## MDIO (R521) -/

/-- The 32 bits of a frame after the preamble, as a host sends them: start, operation, addresses; turnaround and data for a write. Clause 45
codes a read 0b11 and a read with post-increment 0b10 on the wire (log entry 138). -/
def mdioHead (w : Nat) : Nat :=
  let op := bits w 30 29
  let code := if bit w 31 && op = 2 then 3 else if bit w 31 && op = 3 then 2 else op
  (if bit w 31 then 0 else 1) * 2 ^ 30 + code * 2 ^ 28 + bits w 25 21 * 2 ^ 23 + bits w 20 16 * 2 ^ 18

/-- MDIO_FRAME (R521): `drives` says that the station drives 0 in a read's turnaround. -/
def State.mdioFrame (s : State) (n : Nat) (drives : Bool) (rdata : BitVec 16) : State :=
  match s.gp.mdio.rd n none with
  | none => s
  | some w =>
    let op := bits w.toNat 30 29
    let read := op == 2 || (bit w.toNat 31 && op == 3)
    let s := { s with
      gp := { s.gp with mdio := s.gp.mdio.wr n none none }
      line := [b2n (!s.flag .spMcfg n 30), mdioHead w.toNat + (if read then 0 else 2 ^ 17 + bits w.toNat 15 0)] }
    let s := if !read then s
      else if !s.fnTakes (62 + n) true (!drives) then s.setReg .spMdata n ((s.fnTakesBits (62 + n) true rdata).setWidth 32)
      else (s.serSet .mdio n 5).setReg .spMdata n 0xFFFF
    s.serSet .mdio n 6

def execMdioFrame (n : Fin 2) (drives : Bool) (rdata : BitVec 16) (s : State) : Res := .next (s.mdioFrame n.val drives rdata)

/-! ## Resets (R522) -/

/-- Serial ports, timers and pattern units at their reset values; OUT and OE of cores' pins 0 (R522: canopy reset). -/
def State.periphReset (s : State) : State :=
  let s := s.resetRegs [.gpPmskl, .gpPmskh, .gpPvall, .gpPvalh, .gpPctl, .gpTcfg, .gpTper, .gpTcmp, .gpTcnt, .gpTcap, .gpTstat,
    .spUcfg, .spUdata, .spUstat, .spScfg, .spSdata, .spSstat, .spTcfg, .spTcmd, .spTdata, .spTstat, .spMcfg, .spMcmd, .spMdata, .spMstat]
  { s with gp := { s.gp with txq := [], rxq := [], inXfer := [], skipTo := [], spiCs := [], mdio := [], presc := [], per := [], cmp := [],
                             prsc := [], capPrev := [], patHit := 0, timerAt := [] } }

/-- The pins and peripherals at a canopy reset (R522). -/
def State.pinsCanopyReset (s : State) : State :=
  let s := forEach ((List.range 64).filter (fun n => 1 ≤ s.pinOwner n && s.pinOwner n ≤ 8)) s (fun n s =>
    (s.setBit .gpOut (n / 32) (n % 32) false).setBit .gpOe (n / 32) (n % 32) false)
  s.periphReset

end Sys2Proof.Machine
end

