-- ==== Sys2Proof/Machine/Resets.lean ====
section
/-! DEFINITION. Taproot clocks and references (R529-R532), resets (R535, R536, R543-R549), and the test state (R542). -/

namespace Sys2Proof.Machine

/-! ## The taproot PLL and its references (R529-R532, R552) -/

/-- A record of the taproot: CLOCK, block CK_, to the operator and heartwood (R530, R532, R558); the spec states no CODE and no
DETAIL for it, which are free (log entry 3). -/
def State.tellClock (s : State) : State :=
  let (c, s) := s.freeCode
  let (d, s) := s.freeWord
  s.sendRec (.both opTag) (mkRec 6 opTag 15 c d.toNat)

/-- REFOK has fallen while REF_IN is selected: the PLL goes into holdover (R532). -/
def State.holdover (s : State) : State :=
  (((s.setBit .ckStat 0 28 true).setBit .ckStat 0 27 false).setBit .ckStat 0 1 true).tellClock

/-- A write of CK_REFCFG (R531): a change of SEL, and any write in holdover, starts a slew to the reference named. With another FREQ the
reference in range of the old one is out of range, and what OFFSET reads is free (R532, log entry 3); a write that selects it besides finds
REFOK falling while SEL is 1, and the PLL goes into holdover (log entry 111). -/
def State.writeRefcfg (s : State) (p : Party) (w : Word) : State :=
  let j := s.judgeW p .ckRefcfg 0 (fun _ _ => true) w
  let sel := s.flag .ckRefcfg 0 31
  let new := bit j.val 31
  if !p.isOp then (match p with
    | .tenant _ => s.barkAns 0
    | _ => s.plainWrite p .ckRefcfg 0 w)
  else if (new && !s.flag .ckStat 0 30) || (sel && bits j.val 30 29 != s.fld .ckRefcfg 0 30 29) then s.ans .denied []
  else
    let off := s.flag .ckStat 0 30 && bits j.val 30 29 != s.fld .ckRefcfg 0 30 29
    let s := s.land .ckRefcfg 0 j
    let s := if off then
        let (v, s) := s.freeWord
        (s.setBit .ckStat 0 30 false).setFld .ckRefppm 0 15 0 v.toNat
      else s
    if off && new then (s.setBit .ckStat 0 29 true).holdover
    else if new != sel || s.flag .ckStat 0 28 then
      ((s.setBit .ckStat 0 28 false).setBit .ckStat 0 27 true).setBit .ckStat 0 29 new
    else s

/-- REFERENCE_SELECT (R531). -/
def execReferenceSelect (p : Party) (w : Word) (s : State) : Res := .next (s.writeRefcfg p w)

/-- SLEW_DONE (R531). -/
def execSlewDone (s : State) : Res := .next (s.setBit .ckStat 0 27 false)

/-- REFERENCE_LOSS (R532): REFOK falls; while REF_IN is selected the PLL goes into holdover. What OFFSET then reads depends on why
REFOK fell, and is free (log entry 3). -/
def execReferenceLoss (s : State) : Res :=
  .next (if !s.flag .ckStat 0 30 then s
  else
    let (v, s) := s.freeWord
    let s := (s.setBit .ckStat 0 30 false).setFld .ckRefppm 0 15 0 v.toNat
    if s.flag .ckRefcfg 0 31 then s.holdover else s)

/-- REFERENCE_RETURN (R532, R552): REF_IN lies within 100 ppm of FREQ, in units of 1/64 ppm. -/
def execReferenceReturn (ppm : BitVec 16) (s : State) : Res :=
  .next (if s.flag .ckStat 0 30 || 6400 < ppm.toInt || ppm.toInt < -6400 then s
    else (s.setBit .ckStat 0 30 true).setFld .ckRefppm 0 15 0 ppm.toNat)

/-- PLL_LOCK_LOSS (R530): the clocks and the time base keep running. -/
def execPllLockLoss (s : State) : Res :=
  .next (if s.flag .ckStat 0 31 then ((s.setBit .ckStat 0 31 false).setBit .ckStat 0 2 true).tellClock else s)

/-- TAPROOT_RELOCK (R530). -/
def execTaprootRelock (s : State) : Res := .next (s.setBit .ckStat 0 31 true)

/-! ## Cold and warm reset (R535, R536, R543-R546) -/

/-- The registers that every reset keeps: the persistent bank's (R430, R544). -/
def bankRegs : List RegName := [.pb, .pbRtcl, .pbRtch, .pbRtcsub, .pbMono, .pbStat]

/-- The registers that a warm reset keeps besides: clock registers (R551), the time base's (R544), and counts since cold reset
(R204, R477), and the banks' supplies, which R502 has a cold reset alone take away (log entry 139). -/
def warmRegs : List RegName := bankRegs ++
  [.ckRefcfg, .ckStat, .ckRefppm, .msTbcmd, .msTbincr, .msTbrsh, .msTbrsl, .msTbrns, .msTbrfr, .msTbwsh, .msTbwsl, .msTbwns, .msTbwfr,
   .msPpsish, .msPpsisl, .msPpsins, .msPpsifr, .msPpscfg, .msPpsdly, .msRclk, .cxKeygen, .cfLoads, .gpBank]

/-- The entries of the register table that belong to some names. -/
def keptRegs (l : List RegName) (t : Tbl Word) : Tbl Word := t.filter (fun e => l.any (fun n => e.1 % 256 == n.ctorIdx))

/-- What outlives every reset besides registers: fuses, keys, the clock and MONO, and the NVM (R544). -/
def State.kept (old : State) (s : State) : State :=
  { s with
    pending := old.pending, answer := old.answer, free := old.free
    ht := { s.ht with keys := old.ht.keys, tkeys := old.ht.tkeys, monoNvm := old.ht.monoNvm, rtcSec := old.ht.rtcSec, rtcSub := old.ht.rtcSub,
                      lossNew := old.ht.lossNew, lowUntil := old.ht.lowUntil }
    cf := { s.cf with nvm := old.cf.nvm } }

/-- The source of the last cold or warm reset (R550, R553). -/
def State.setSource (s : State) (kind detail : Nat) : State :=
  s.setReg .pwRstsrc 0 (BitVec.ofNat 32 (kind * 2 ^ 28 + detail % 16 * 2 ^ 24))

/-- The device without power, or as it leaves cold reset in fc 0 (R535, R536). -/
def State.coldState (s : State) (off : Bool) (kind : Nat) : State :=
  let x := s.kept State.reset
  let x := { x with regs := x.regs ++ keptRegs bankRegs s.regs, pw := { x.pw with cold := off } }
  { x with regs := x.regs.foldl (fun (t : Tbl Word) (e : Nat × Word) => (t.del e.1).ins e.1 e.2) [] }.setSource kind 0

/-- The persistent bank when power comes back (R430, R431, R434): whether it fell below its retention level, the time its clock counted
meanwhile, how full its cell is, when within 8 h it holds 30 days' charge again, and what it ran from came from outside, and are free (log entry 107). -/
def State.bankReturns (s : State) : State :=
  let (w, s) := s.freeWord
  let (d, s) := s.freeWord
  let (c, s) := s.freeWord
  let low := w.getLsbD 1
  let s := if w.getLsbD 0 then
      { s.resetRegs bankRegs with ht := { s.ht with rtcSec := 0, rtcSub := 0, lossNew := true } }.setBit .pbStat 0 31 true
    else { s with ht := { s.ht with rtcSec := s.ht.rtcSec + d.setWidth 48, rtcSub := (w >>> 3).setWidth 15 } }
  let s := { s with ht := { s.ht with lowUntil := s.fc + c.toNat % 28800 * 1600000000 } }
  (s.setBit .pbStat 0 29 low).setBit .pbStat 0 28 (w.getLsbD 2)

/-- COLD_RESET (R535): VIN has qualified; what took the power away, if anything did, is the recorded source. -/
def execColdReset (s : State) : Res :=
  .next (if s.pw.cold then s.bankReturns.coldState false (s.fld .pwRstsrc 0 31 28) else s.coldState false 1)

/-- SUPPLY_FAILURE (R536): everything but the persistent bank loses its power; pads and lanes fall silent and DONE is low. -/
def execSupplyFailure (k : SupplyFault) (s : State) : Res :=
  .next (if s.pw.cold then s else s.coldState true (match k with
    | .vin => 1
    | .rail => 2))

/-- A warm reset starts (R544, R546), to last until `until'` at the least. The refill counter of R218 is put to 0 here and counts on while
the reset lasts: the model's choice (log entry 141). -/
def State.warmStart (s : State) (until' : Nat) (thermal : Bool) (kind detail : Nat) : State :=
  let x := s.kept State.reset
  { x with
    fc := s.fc
    regs := keptRegs warmRegs s.regs
    tb := s.tb
    cx := { x.cx with key := s.cx.key }
    pw := { x.pw with warm := some ⟨s.fc, until', thermal⟩ } }.setSource kind detail

/-- The rank of a warm trigger among those of one fc (R545): thermal trips, the lowest sensor first, RST_N, PW_RSTCTL. -/
def warmRank (kind detail : Nat) : Nat := if kind == 5 then detail else if kind == 3 then 16 else 17

/-- A warm trigger (R543, R545): one that comes while a warm reset lasts is absorbed, but that it can prolong it, and of those of one
fc the first in rank is recorded: thermal trip, RST_N, PW_RSTCTL. -/
def State.warmTrigger (s : State) (until' : Nat) (thermal : Bool) (kind detail : Nat) : State :=
  if s.pw.cold then s
  else match s.pw.warm with
    | none => s.warmStart until' thermal kind detail
    | some x =>
      let old := warmRank (s.fld .pwRstsrc 0 31 28) (s.fld .pwRstsrc 0 27 24)
      let s := { s with pw := { s.pw with warm := some { x with until' := max x.until' until', thermal := x.thermal || thermal } } }
      if x.start == s.fc && warmRank kind detail < old then s.setSource kind detail else s

/-! ## Level sources of the dispatcher (R303, R405, R516, R517) -/

/-- The sources that assert while a condition holds: lanes with an enabled sticky bit, serial ports with an enabled event bit, timers with an
enabled flag. -/
def State.levelsUp (s : State) : List Nat :=
  let set (n : RegName) : List Nat := (s.regs.filter (fun e => e.1 % 256 == n.ctorIdx)).map (fun e => e.1 / 256)
  let ser (k : SerialKind) (base : Nat) : List Nat := ((set (serCfg k)).filter (s.serAsserts k)).map (base + ·)
  ((set .lnIen).filter (fun j => s.fld .lnStat j 7 0 &&& s.fld .lnIen j 7 0 != 0)).map (512 + ·)
    ++ ser .uart 664 ++ ser .spi 668 ++ ser .twoWire 672 ++ ser .mdio 680
    ++ ((set .gpTcfg).filter (fun n => (s.flag .gpTstat n 0 && s.flag .gpTcfg n 29) || (s.flag .gpTstat n 1 && s.flag .gpTcfg n 28))).map (682 + ·)

/-- Each such source asserts in every fc, which adds nothing while its bit is pending or about to be (R23). -/
def State.tickLevels (s : State) : State :=
  forEach s.levelsUp s (fun e s => if s.pending? e || s.dp.asserting.any (fun x => x.1 == e) then s else s.assertSrc e)

/-- The dispatcher leaves reset: sources that are held asserted set their bits in the first dc (R405): the level sources, a mailbox response
that is ready (713), and operator records that wait (714). -/
def State.reassert (s : State) : State :=
  let held := s.levelsUp ++ (if (List.range 8).any (fun c => s.chan c == 3) then [713] else []) ++ (if s.ht.oerr.isEmpty then [] else [714])
  { s with dp := { s.dp with asserting := held.map (fun e => (e, (s.fc + 2) / 2 * 2)) } }

/-! ## Canopy reset (R547) -/

/-- The canopy is reset (R547): its source is recorded, its firmware verified and loaded again, and the cores released. A halted
heartwood does neither, and the cores stay held. -/
def State.canopyReset (s : State) (kind detail : Nat) : State :=
  let s := (s.dispReset s.fc).pinsCanopyReset.reassert
  let s := { s with dp := { s.dp with tcm := [], icache := [], fbuf := [], coresHeld := true, csr := [], umode := [], resv := [], busq := [],
                                      cpoison := s.dp.cpoison } }
  let s := s.resetRequester 84 (fun _ => true)
  let s := forEach ((List.range 8).filter (fun c => s.chan c == 1)) s (fun c s => s.setChan c 0)
  let s := { s with ht := { s.ht with callq := s.ht.callq.filter (fun x => match x.2 with
    | .chan n => n.val == 8
    | _ => true) } }
  if s.flag .htStat 0 31 then s
  else ((s.setFld .pb 2 31 24 (kind * 16 + detail % 16))).loadCanopy

/-- DETAIL of a reset that a write of PW_RSTCTL asks for (R550). -/
def issuerCode : Party → Nat
  | .core n => n.val
  | _ => 15

/-- A write of PW_RSTCTL (R553). -/
def State.writeRstctl (s : State) (p : Party) (w : Word) : State :=
  match p with
  | .tenant _ => s.barkAns 0
  | .heartwood => s.plainWrite p .pwRstctl 0 w
  | _ =>
    let n := w.toNat
    if bits n 31 24 != 0xA5 || bit n 1 == bit n 0 then s.deniedAlarm 0
    else
      let s := s.ans .ok []
      if s.pw.warm.isSome then s
      else if bit n 1 then s.warmTrigger (s.fc + 16000) false 4 (issuerCode p)
      else s.canopyReset 6 (issuerCode p)

/-- WARM_RESET (R543, R545): RST_N low for a time, or a write of PW_RSTCTL. Whether a low of 0.5 µs to 1 µs counts is free (log
entry 8). The reset lasts 10 µs, or until RST_N rises. -/
def execWarmReset (tr : WarmTrigger) (s : State) : Res :=
  .next (match tr with
  | .rstN ns =>
    if 1000 ≤ ns then s.warmTrigger (s.fc + max 16000 ((ns - 1000) * 8 / 5)) false 3 0
    else if 500 ≤ ns && Config.shortLowResets s.free then { s with free := s.free + 1 }.warmTrigger (s.fc + 16000) false 3 0
    else if 500 ≤ ns then { s with free := s.free + 1 } else s
  | .write p w => s.writeRstctl p w)

/-- WARM_RESET_END (R543): heartwood may boot. The dispatcher starts counting anew (R405). -/
def execWarmResetEnd (s : State) : Res :=
  .next (match s.pw.warm with
  | some x => if x.until' ≤ s.fc && !x.thermal then (State.dispReset { s with pw := { s.pw with warm := none } } s.fc).reassert else s
  | none => s)

/-- CANOPY_RESET (R547): a write of PW_RSTCTL. -/
def execCanopyReset (p : Party) (w : Word) (s : State) : Res := .next (s.writeRstctl p w)

/-- REBUILD (R404): heartwood resumes a frozen dispatcher, or resets the canopy where it cannot. A halted one does nothing (R414). -/
def execRebuild (tableOk selfTestOk : Bool) (s : State) : Res :=
  .next (if !s.frozen || s.flag .htStat 0 31 then s
    else if tableOk && selfTestOk then s.rebuilt
    else s.canopyReset 7 (s.fld .dpFstat 0 3 0))

/-! ## Thermal trip (R549) -/

/-- THERMAL_TRIP (R549). -/
def execThermalTrip (sensor : Fin 16) (s : State) : Res := .next (s.warmTrigger (s.fc + 16000) true 5 sensor.val)

/-- THERMAL_HOLD_END (R549). -/
def execThermalHoldEnd (s : State) : Res :=
  .next (match s.pw.warm with
  | some x => { s with pw := { s.pw with warm := some { x with thermal := false } } }
  | none => s)

/-- Whether the thermal hold lasts. -/
def State.thermalHold (s : State) : Bool := (s.pw.warm.map (·.thermal)).getD false

/-- FAULT_N is driven low (R563). -/
def State.faultLow (s : State) : Bool := s.flag .msFatal 0 0 || s.flag .htStat 0 31 || s.thermalHold

/-! ## The test state (R542) -/

/-- Whether the debug module of a canopy core answers on JTAG (R428, R429). -/
def State.debugOpen (s : State) (n : Nat) : Bool := s.ht.dbg.any (fun d => d.mask.getLsbD n && decide (s.ht.rtcSec.toNat < d.expiry.toNat))

/-- TAP_INSTRUCTION (R542); the debug module answers while a token is in force for its core, and the TAP holds no such instruction
otherwise (R428). -/
def execTapInstruction (i : TapInstr) (s : State) : Res :=
  .next (match i with
  | .debug n => { (if s.debugOpen n.val then s.ans .ok [] else s) with pw := { s.pw with test := if s.debugOpen n.val then i else .bypass } }
  | _ => { s with pw := { s.pw with test := if s.cfState == 1 || s.cfState == 7 then i else .bypass } })

end Sys2Proof.Machine
end

