-- ==== Sys2Proof/Machine/Faults.lean ====
section
/-! DEFINITION. Fault handling and device measurement (R554-R577): where error records go, event sources becoming pending, the NoC
alarm, canopy memory errors, the scrubber's safe values, sensors and meters. -/

namespace Sys2Proof.Machine

/-! ## Events (R23, R394) -/

/-- EVENT_PENDING (R23, R394): the assertions of source `e` that are due set its pending bit. -/
def execEventPending (e : Fin 2048) (s : State) : Res :=
  let due (x : Nat × Nat) : Bool := x.1 == e.val && decide (x.2 ≤ s.fc)
  .next (if s.dp.asserting.any due then
      { s with dp := { s.dp with asserting := s.dp.asserting.filter (fun x => !due x) } }.setPend e.val true
    else s)

/-! ## Error records (R557-R561) -/

/-- Heartwood's private log keeps the newest 1,024 records (R557); a halted heartwood keeps none (R414). -/
def State.heartLog (s : State) (r : BitVec 64) : State :=
  if s.flag .htStat 0 31 then s
  else
    let l := s.ht.log ++ [r]
    { s with ht := { s.ht with log := l.drop (l.length - 1024) } }

/-- A record enters the operator error record queue, or waits for room until the fc ends (R559). -/
def State.operatorErr (s : State) (r : BitVec 64) : State :=
  if 256 ≤ s.ht.oerr.length then { s with ht := { s.ht with olate := s.ht.olate ++ [r] } }
  else { s with ht := { s.ht with oerr := s.ht.oerr ++ [r] } }.assertSrc 714

/-- A removal makes room for the first record that found the queue full in this fc (R358, R559). -/
def State.operatorTake (s : State) : State :=
  let s' := { s with ht := { s.ht with oerr := s.ht.oerr.drop 1 ++ s.ht.olate.take 1, olate := s.ht.olate.drop 1 } }
  if s.ht.olate.isEmpty then s' else s'.assertSrc 714

/-- The records of a domain enter its queue together; a tenant's, when they do not all fit its VF's queue, are all discarded when the fc
ends, unless a removal of this fc makes room for them (R557, R358, R561). -/
def State.domainErr (s : State) (t : Tag) (rs : List (BitVec 64)) : State :=
  if t = opTag then forEach rs s (fun r s => s.operatorErr r)
  else if t = noTag || !s.admitted t then forEach rs s (fun r s => s.heartLog r)
  else match s.vfOf t with
    | none => s
    | some v =>
      if 1 < rs.length && 64 < (s.hi.verr.rd v []).length + rs.length then
        { s with hi := { s.hi with vlate := s.hi.vlate.up v [] (· ++ [rs]) } }
      else forEach rs s (fun r s => s.vfErr v r)

/-- Whether a record opens a report of a reduction to a tenant, which is of three records (R561). -/
def opensReport (d : RecDest) (r : BitVec 64) : Bool :=
  match d with
  | .domain t => t != opTag && bits r.toNat 63 56 == 4 && bits r.toNat 39 32 == 1
  | _ => false

/-- ERROR_RECORD_ENQUEUE (R557): the oldest record on its way reaches those it is addressed to (R558). -/
def execErrorRecordEnqueue (s : State) : Res :=
  .next (match s.ht.recs with
  | [] => s
  | (d, r) :: rest =>
    let n := if opensReport d r then 2 else 0
    let more := (rest.take n).map (fun (x : RecDest × BitVec 64) => x.2)
    let s := { s with ht := { s.ht with recs := rest.drop n } }
    match d with
    | .domain t => s.domainErr t (r :: more)
    | .heartwood => s.heartLog r
    | .both t => if t = opTag || (t != noTag && s.admitted t) then (s.domainErr t [r]).heartLog r else s.heartLog r)

/-- OPERATOR_ERROR_READ (R559): a read of MS_OERRH. -/
def execOperatorErrorRead (p : Party) (s : State) : Res :=
  .next (match p with
  | .tenant _ => s.barkAns 1
  | _ => match s.ht.oerr with
    | [] => s.ans .ok [0]
    | r :: _ => s.operatorTake.ans .ok [(r >>> 32).setWidth 32])

/-! ## The NoC fatal alarm (R562) -/

/-- NOC_FATAL_REPORT (R562): a halted heartwood does nothing (R414). -/
def execNocFatalReport (s : State) : Res :=
  .next (if !s.nc.alarm || s.flag .htStat 0 31 then s
    else
      let r := mkRec 8 opTag 7 6 0
      let s := (s.setBit .msFatal 0 0 true).sendRec (if s.ht.fatalTold then .heartwood else .both opTag) r
      { s with nc := { s.nc with alarm := false }, ht := { s.ht with fatalTold := true } })

/-! ## Canopy memories (R565) -/

/-- An uncorrectable error that core n meets at an address: the access faults, the source asserts and the operator is told. Canopy
SRAM keeps the mark on the word until it is written. -/
def State.canopyError (s : State) (n addr : Nat) : State :=
  let sram := decide (sramBase ≤ addr) && decide (addr < sramBase + sramSize)
  let s := if sram then { s with dp := { s.dp with cpoison := s.dp.cpoison.wr ((addr - sramBase) / 4) false true } } else s
  ((s.assertSrc (if sram then 712 else 704 + n)).tellOp 10 0x12 6 (addr / 256)).ans .poison []

/-- CANOPY_ECC_ERROR (R565): the load or fetch, made at `pc`, raises its access fault in the core. -/
def execCanopyEccError (n : Fin 8) (addr : BitVec 40) (fetch : Bool) (pc : BitVec 64) (s : State) : Res :=
  .next ((s.canopyError n.val addr.toNat).coreTrap n.val (if fetch then 1 else 5) addr.toNat pc.toNat)

/-! ## The scrubber (R566) -/

/-- A term, macrocell or quad record of grove g is lost: until it is rewritten, the macrocells it serves output 0 (R566). -/
def State.replaceLat (s : State) (k g i mark : Nat) : State :=
  let s := s.putRec k (64 * g) i 0
  { s with lt := { s.lt with dead := s.lt.dead.wr mark false true } }

/-- The grove of an entry, its owner, the block it lies in, and what its safe value is (R556, R566). Of a lattice record that is no
macrocell's, the macrocells it serves output 0: that of a term, the four of a quad; a slot selects constant 0, and a decode or line is
disabled (log entry 120). -/
def State.scrubbed (s : State) (e : ScrubEntry) : Nat × Nat × Nat × State :=
  match e with
  | .ring g t r =>
    let k := ringKey (tileIx g.val t.val) r.val
    (g.val, rOwner (s.ringRec (tileIx g.val t.val) r.val), 0,
      { s with tl := { s.tl with recs := s.tl.recs.up k recReset (fun w => BitVec.ofNat 192 (setBits w.toNat 181 181 0)) } })
  | .select g t o =>
    let T := tileIx g.val t.val
    (g.val, s.swOwner T (s.sw.sel.rd (64 * T + o.val) 63).toNat, 1,
      { s with sw := { s.sw with sel := s.sw.sel.wr (64 * T + o.val) 63 63 } })
  | .owner g t i =>
    let k := 64 * tileIx g.val t.val + i.val
    (g.val, s.swOwner (tileIx g.val t.val) i.val, 1, (s.setBoth .swIn k 31 22 0x3FF).setBoth .swIn k 11 11 0)
  | .calendar g t e =>
    let T := tileIx g.val t.val
    (g.val, s.actFld .tlGrp (16 * T + s.calEntry T e.val) 31 22, 0,
      s.setBoth .tlCal (8 * T + e.val / 8) (4 * (e.val % 8) + 3) (4 * (e.val % 8)) 15)
  | .group g t n =>
    let k := 16 * tileIx g.val t.val + n.val
    (g.val, s.actFld .tlGrp k 31 22, 0, (s.setBoth .tlGrp k 15 0 0).setBoth .tlGrp k 31 22 0x3FF)
  | .window g t r =>
    (g.val, rOwner (s.ringRec (tileIx g.val t.val) r.val), 0, s.setBoth .tlWin (16 * tileIx g.val t.val + r.val) 27 16 0)
  | .mcOwner g m => (g.val, s.mcOwner g.val m.val, 2, s.setBoth .ltMcown (32 * g.val + m.val) 31 22 0x3FF)
  | .isOwner g i => (g.val, s.isOwner g.val i.val, 2, s.setBoth .ltIsown (96 * g.val + i.val) 31 22 0x3FF)
  | .macrocell g m =>
    (g.val, s.mcOwner g.val m.val, 2,
      (s.replaceLat 7 g.val m.val (deadMc g.val m.val)).zeroMc (32 * g.val + m.val))
  | .slot g i => (g.val, s.isOwner g.val i.val, 2, { s with lt := { s.lt with isel := s.lt.isel.wr (96 * g.val + i.val) 0 0x7FF } })
  | .term g n => (g.val, s.mcOwner g.val (n.val / 5), 2, (s.replaceLat 6 g.val n.val (deadTerm g.val n.val)).zeroMc (32 * g.val + n.val / 5))
  | .quad g q =>
    (g.val, s.mcOwner g.val (4 * q.val + 3), 2,
      forEach (List.range 4) (s.replaceLat 8 g.val q.val (deadQuad g.val q.val)) (fun k s => s.zeroMc (32 * g.val + 4 * q.val + k)))
  | .decode g k =>
    let d := s.sdRec g.val k.val
    (g.val, s.swOwner (tileIx g.val (bits d 15 10)) (bits d 9 4), 2, s.putRec 9 (64 * g.val) k.val 0)
  | .line g k => (g.val, opTag.toNat, 2, s.putRec 10 (64 * g.val) k.val 0)
  | .fifoRec g f =>
    (g.val, s.ffOwner g.val f.val, 3,
      { s with ff := { s.ff with recd := s.ff.recd.up (8 * g.val + f.val) 0 (fun w => BitVec.ofNat 32 (setBits w.toNat 31 30 3)) } })

/-- SCRUB (R566): an entry with an uncorrectable error takes its safe value, and its owner and heartwood are told (R558); the spec
states no CODE and no DETAIL, which are free (log entry 3). The memories of a grove without power hold nothing to scrub. -/
def execScrub (e : ScrubEntry) (s : State) : Res :=
  let (g, own, block, s') := s.scrubbed e
  .next (if !s.powered g then s
    else
      let (c, s') := s'.freeCode
      let (d, s') := s'.freeWord
      s'.sendRec (.both (BitVec.ofNat 10 own)) (mkRec 1 (BitVec.ofNat 10 own) block c d.toNat))

/-! ## Sensors (R568-R570, R576) -/

/-- The domains a voltage sensor's rail feeds, as far as they are among CD0 to CD95 (R570). -/
def railDomains (v : Nat) : List Nat :=
  if 1 ≤ v && v ≤ 4 then (List.range 64).filter (fun g => g / 32 == (v - 1) / 2 && g % 8 / 4 == (v - 1) % 2)
  else if 5 ≤ v && v ≤ 12 then (List.range 4).map (fun k => 64 + 4 * ((v - 5) % 4) + k)
  else if v == 13 || v == 14 then (List.range 8).map (fun k => 80 + 8 * (v - 13) + k)
  else []

/-- What a voltage sensor reads: 0 while every domain on its rail is unpowered (R568). -/
def State.voltSeen (s : State) (v x : Nat) : Nat :=
  if !(railDomains v).isEmpty && (railDomains v).all (fun d => !s.powered d) then 0 else x

/-- A sample compared as its sensor's units are: temperatures signed, voltages unsigned (R568). -/
def sampleVal (signed : Bool) (x : Nat) : Int := if signed then sgn 16 x else ((x % 65536 : Nat) : Int)

/-- Whether a sample lies within [LO, HI]. -/
def inLimits (signed : Bool) (lim x : Nat) : Bool :=
  decide (sampleVal signed (bits lim 15 0) ≤ sampleVal signed x) && decide (sampleVal signed x ≤ sampleVal signed (bits lim 31 16))

/-- One sensor's sample (R568, R569). -/
def State.sample (s : State) (signed : Bool) (i x : Nat) : State :=
  let (val, lim, mm, alm, src, num) :=
    if signed then (RegName.msTemp, RegName.msTlim, RegName.msTmm, RegName.msTalm, 752 + i, i)
    else (RegName.msVolt, RegName.msVlim, RegName.msVmm, RegName.msValm, 768 + i, 16 + i)
  let x := x % 65536
  let l := (s.reg lim i).toNat
  let alarm := inLimits signed l (s.fld val i 15 0) && !inLimits signed l x
  let (lo, hi) := (s.fld mm i 15 0, s.fld mm i 31 16)
  let lo := if s.ms.mmRestart || decide (sampleVal signed x < sampleVal signed lo) then x else lo
  let hi := if s.ms.mmRestart || decide (sampleVal signed hi < sampleVal signed x) then x else hi
  let s := (s.setReg val i (BitVec.ofNat 32 x)).setReg mm i (BitVec.ofNat 32 (hi * 65536 + lo))
  if alarm then
    let (c, s) := s.freeCode
    ((s.setBit alm 0 i true).assertSrc src).tellOp 7 8 c (x * 65536 + num)
  else s

/-- SENSOR_SAMPLE (R568, R569): the CODE of an alarm's record is not stated, and is free (log entry 3). -/
def execSensorSample (temps volts : List (BitVec 16)) (s : State) : Res :=
  let s := forEach (temps.take 16).zipIdx s (fun x s => s.sample true x.2 x.1.toNat)
  let s := forEach (volts.take 24).zipIdx s (fun x s => s.sample false x.2 (s.voltSeen x.2 x.1.toNat))
  .next { s with ms := { s.ms with mmRestart := false } }

/-- A write of the sensor and alarm registers (R576): MMCLR restarts the minima and maxima with the next sample. -/
def State.writeMs (s : State) (p : Party) (n : RegName) (i : Nat) (w : Word) : State :=
  match p with
  | .tenant _ => s.barkAns 0
  | _ =>
    let j := s.judgeW p n i (fun _ _ => true) w
    let s := s.land n i j
    if n = .msSctl && bit j.acts 31 then { s with ms := { s.ms with mmRestart := true } } else s

/-- MMCLR (R576). -/
def execMmclr (p : Party) (w : Word) (s : State) : Res := .next (s.writeMs p .msSctl 0 w)

/-! ## Meters (R571, R572) -/

/-- Whether a party reads the meters of a domain (R572). -/
def metersSeen (p : Party) (d : Nat) : Bool :=
  match p with
  | .tenant t => t.val == d
  | _ => true

/-- A read of a meter's low register, which latches its high register (R572). -/
def State.readMeter (s : State) (p : Party) (k : Nat) : State :=
  if !metersSeen p (k / 8) then s.barkAns 1
  else
    let v := s.ms.meter.rd k 0
    (s.setReg .meterHi k ((v >>> 32).setWidth 32)).ans .ok [v.setWidth 32]

/-- METER_READ_LATCH (R572). -/
def execMeterReadLatch (p : Party) (d : Fin 513) (m : Fin 6) (s : State) : Res := .next (s.readMeter p (8 * d.val + m.val))

end Sys2Proof.Machine
end

