-- ==== Sys2Proof/Machine/Access.lean ====
section
/-! DEFINITION. Accesses: where each block's registers lie (R60, R66, R121, R144, R164, R201, R225, R301, R308, R341, R406, R433,
R435, R474, R499, R525, R551, R574), who reads and writes them (R12), and what a canopy core's access does (R25-R27,
R377-R380). -/

namespace Sys2Proof.Machine

/-! ## Maps -/

/-- One part of a map: instance i below `count` at base + i·stride; each register of an instance with its place there, its name, and
its index m·i + a given as m and a. -/
structure MapRow where
  base : Nat
  stride : Nat
  count : Nat
  regs : List (Nat × RegName × Nat × Nat)

/-- The register at an offset, if any. -/
def lookup (rows : List MapRow) (off : Nat) : Option RegId :=
  firstSome (fun (r : MapRow) =>
    if r.base ≤ off && off < r.base + r.stride * r.count then
      firstSome (fun (x : Nat × RegName × Nat × Nat) =>
        if x.1 == (off - r.base) % r.stride then some ⟨x.2.1, x.2.2.1 * ((off - r.base) / r.stride) + x.2.2.2⟩ else none) r.regs
    else none) rows

/-- Registers at steps of 4 within each of `count` instances, with the same index. -/
def block (base stride count a : Nat) (names : List RegName) : MapRow :=
  ⟨base, stride, count, names.zipIdx.map (fun (n, k) => (4 * k, n, 1, a))⟩

/-- `count` instances of one register at steps of 4. -/
def many (base count a : Nat) (n : RegName) : MapRow := ⟨base, 4, count, [(0, n, 1, a)]⟩

/-- `k` registers of one name within an instance, from a place in it. -/
def run (place k : Nat) (n : RegName) (mul a : Nat) : List (Nat × RegName × Nat × Nat) :=
  (List.range k).map (fun i => (place + 4 * i, n, mul, a + i))

/-- A grove's window (R60, R66, R121, R144, R164). -/
def groveMap (g : Nat) : List MapRow :=
  [block 0 16 1 g [.tlGcal, .tlGphase, .tlGcalact, .tlGfault],
   ⟨0x100000, 0x400, 64, run 0 8 .tlCal 8 (512 * g) ++ run 0x40 15 .tlGrp 16 (1024 * g) ++ run 0x80 16 .tlWin 16 (1024 * g)
     ++ run 0xC0 16 .tlRst 16 (1024 * g) ++ run 0x100 2 .tlSidx 2 (128 * g)⟩,
   block 0x500000 8 1 g [.swGbark, .swGpar],
   ⟨0x510000, 0x100, 64, run 0 46 .swIn 64 (4096 * g)⟩,
   many 0x600000 32 (32 * g) .ltMcown, many 0x600100 96 (96 * g) .ltIsown, many 0x600300 1 g .ltOut,
   block 0x700000 0x40 8 (8 * g) [.ffOwn, .ffCfg, .ffThr, .ffCtl, .ffFill, .ffStat, .ffDrop, .ffPar]]

/-- A lane group's window (R301). -/
def laneMap (g : Nat) : List MapRow :=
  [many 0 1 g .lnGcfg,
   ⟨0x1000, 0x100, 8, ([RegName.lnCfg, .lnStat, .lnIen, .lnTrain, .lnTxeq, .lnRxdly, .lnTxdly, .lnRawfill, .lnTxtsh, .lnTxtsl,
       .lnTxtsn, .lnTxtsf, .lnEyectl].zipIdx.map (fun (n, k) => (4 * k, n, 1, 8 * g)))
     ++ run 0x34 3 .lnEye 3 (24 * g)
     ++ ([RegName.lnPyl, .lnPymach, .lnPymacl, .lnCntctl].zipIdx.map (fun (n, k) => (0x40 + 4 * k, n, 1, 8 * g)))
     ++ run 0x80 32 .lnCnt 32 (256 * g)⟩,
   block 0x8000 0x10 256 (256 * g) [.lnPys, .lnPyg, .lnPyc, .lnPyd]]

/-- The measurement block (R308, R574). -/
def msMap : List MapRow :=
  [block 0 8 1 0 [.msTbcmd, .msTbincr], block 0x10 16 1 0 [.msTbrsh, .msTbrsl, .msTbrns, .msTbrfr],
   block 0x20 16 1 0 [.msTbwsh, .msTbwsl, .msTbwns, .msTbwfr], block 0x30 16 1 0 [.msPpsish, .msPpsisl, .msPpsins, .msPpsifr],
   block 0x40 8 1 0 [.msPpscfg, .msPpsdly], many 0x48 2 0 .msRclk,
   block 0x100 12 1 0 [.msOerrl, .msOerrh, .msOerrcnt],
   block 0x110 20 1 0 [.msAlarm, .msFatal, .msSctl, .msTalm, .msValm],
   many 0x200 16 0 .msTemp, many 0x240 16 0 .msTlim, many 0x280 16 0 .msTmm,
   many 0x300 24 0 .msVolt, many 0x380 24 0 .msVlim, many 0x400 24 0 .msVmm,
   ⟨0x80000, 0x100, 513, (List.range 6).flatMap (fun m => [(8 * m, .meterLo, 8, m), (8 * m + 4, .meterHi, 8, m)])⟩]

/-- The clock, power and reset block (R551). -/
def ckMap : List MapRow :=
  [block 0 12 1 0 [.ckRefcfg, .ckStat, .ckRefppm], many 0x100 3 0 .pwDompwr, many 0x110 3 0 .pwDomfen,
   block 0x200 8 1 0 [.pwRstctl, .pwRstsrc]]

/-- The configuration block (R341, R474, R499). -/
def cfMap : List MapRow :=
  [block 0 32 1 0 [.cfId, .cfStat, .cfCtl, .cfWdog, .cfImgsvn, .cfLoads, .cfDisc, .cfNvmwin],
   block 0x100 12 1 0 [.cfOgstat, .cfGpcnt, .cfGpdisc], block 0xF00000 8 1 0 [.ncMode, .ncCprio]]

/-- The heartwood mailbox (R435). -/
def htMap : List MapRow :=
  [⟨0, 0x100, 9, run 0 8 .htReq 8 0 ++ run 0x20 8 .htRsp 8 0 ++ [(0x40, .htCtl, 1, 0), (0x44, .htSt, 1, 0)]⟩, many 0x1000 1 0 .htStat]

/-- The cell exchange (R201). -/
def cxMap : List MapRow :=
  [block 0 20 1 0 [.cxStat, .cxFill, .cxEcc, .cxLost, .cxKeygen], many 0x100 16 0 .cxBank, many 0x400 128 0 .cxIndrop,
   block 0x10000 0x20 513 0 [.cxQuota, .cxFloor, .cxUsed, .cxTerr, .cxTnobuf]]

/-- The queue engine (R225). -/
def qeMap : List MapRow :=
  [block 0x100000 0x20 16384 0 [.qeQcfg, .qeQrate, .qeQburst, .qeQlvl, .qeQpkt, .qeQcell],
   block 0x200000 0x20 2048 0 [.qeBcfg, .qeBcir, .qeBcburst, .qeBpir, .qeBpburst, .qeBclvl, .qeBplvl],
   block 0x300000 0x10 128 0 [.qePcfg, .qePrate],
   ⟨0x400000, 0x80, 64, [(0, .qeHcfg, 1, 0), (4, .qeHmax, 1, 0)] ++ run 0x40 16 .qeHbin 16 0⟩]

/-- The peripheral hub (R525). -/
def hubMap : List MapRow :=
  [⟨0, 0x38, 1, [RegName.gpOut, .gpOe, .gpSet, .gpClr, .gpTgl, .gpIn].zipIdx.flatMap (fun (n, k) => run (8 * k) 2 n 0 0)
     ++ [(0x30, .gpDeny, 0, 0), (0x34, .gpBank, 0, 0)]⟩,
   many 0x100 64 0 .gpPcfg, many 0x400 160 0 .gpFsel,
   block 0x800 0x20 8 0 [.gpPmskl, .gpPmskh, .gpPvall, .gpPvalh, .gpPctl],
   block 0xA00 0x20 8 0 [.gpTcfg, .gpTper, .gpTcmp, .gpTcnt, .gpTcap, .gpTstat],
   block 0x1000 0x20 4 0 [.spUcfg, .spUdata, .spUstat], block 0x1100 0x20 4 0 [.spScfg, .spSdata, .spSstat],
   block 0x1200 0x20 8 0 [.spTcfg, .spTcmd, .spTdata, .spTstat], block 0x1400 0x20 2 0 [.spMcfg, .spMcmd, .spMdata, .spMstat]]

/-- The dispatcher (R406). -/
def dpMap : List MapRow :=
  [block 0 28 1 0 [.dpCtl, .dpTicklen, .dpTnow, .dpLosttick, .dpFstat, .dpTrnom, .dpDlmiss],
   ⟨0x1000, 0x100, 8, ([RegName.dpTake, .dpCcmd, .dpCarg0, .dpCarg1, .dpCres, .dpCwake, .dpCbus].zipIdx.map
     (fun (n, k) => (4 * k, n, 1, 0))) ++ [(0x20, .dpCstat, 1, 0), (0x24, .dpCload, 1, 0)]⟩,
   block 0x10000 8 1024 0 [.dpThra, .dpThrb], many 0x20000 256 0 .dpSem, many 0x20400 256 0 .dpEg, many 0x20800 64 0 .dpEvpend,
   many 0x21000 2048 0 .dpEvb, many 0x30000 1 0 .dpTrstat, block 0x30008 8 1 0 [.dpTrl, .dpTrh]]

/-- The open part of the persistent bank (R433). -/
def pbMap : List MapRow := [many 0 16 48 .pb, block 0x40 20 1 0 [.pbRtcl, .pbRtch, .pbRtcsub, .pbMono, .pbStat]]

/-! ## The dispatcher's registers (R386, R389, R401, R407) -/

/-- The state an outcome goes on to. -/
def resState (r : Res) (s : State) : State :=
  match r with
  | .next t => t
  | _ => s

/-- A write of DP_CCMDn (R389, R391): the operation its OP names, or DENIED for a reserved one. -/
def State.ccmd (s : State) (n : Fin 8) (w : Word) : State :=
  let obj : BitVec 10 := w.setWidth 10
  match bits w.toNat 31 26 with
  | 0x01 => resState (execCreate n obj noUpset s) s
  | 0x02 => resState (execDestroy n obj noUpset s) s
  | 0x03 => resState (execSetprio n obj noUpset s) s
  | 0x04 => resState (execSetaff n obj noUpset s) s
  | 0x05 => resState (execWakeThread n obj noUpset s) s
  | 0x08 => resState (execYieldThread n obj noUpset s) s
  | 0x09 => resState (execExitThread n obj noUpset s) s
  | 0x0A => resState (execDelay n obj noUpset s) s
  | 0x0B => resState (execDelayto n obj noUpset s) s
  | 0x0C => resState (execSetdl n obj noUpset s) s
  | 0x0D => resState (execClrdl n obj noUpset s) s
  | 0x10 => resState (execSemtake n obj noUpset s) s
  | 0x11 => resState (execSemgive n obj noUpset s) s
  | 0x12 => resState (execSeminit n obj noUpset s) s
  | 0x18 => resState (execEgset n obj noUpset s) s
  | 0x19 => resState (execEgclr n obj noUpset s) s
  | 0x1A => resState (execEgwait n obj (bit w.toNat 25) (bit w.toNat 24) noUpset s) s
  | 0x20 => resState (execEvwait n obj noUpset s) s
  | 0x21 => resState (execEvbind n obj noUpset s) s
  | 0x22 => resState (execEvclr n obj noUpset s) s
  | _ => s.command n.val noUpset (fun _ _ => .refused .denied)

/-- The registers that only their own core reaches (R407). -/
def coreRegs : List RegName := [.dpTake, .dpCcmd, .dpCarg0, .dpCarg1, .dpCres, .dpCwake, .dpCbus]

/-- A write of a dispatcher register (R406, R407). -/
def State.writeDp (s : State) (p : Party) (n : RegName) (i : Nat) (w : Word) : State :=
  let own : Bool := match p with
    | .core m => m.val == i
    | _ => false
  match p with
  | .tenant _ | .pf0 => s.ans .unmapped []
  | _ =>
    if coreRegs.contains n then
      if !own then s.deniedAlarm 0
      else if n = .dpCcmd then { s.ccmd (Fin.ofNat 8 i) w with answer := ⟨.ok, []⟩ }
      else s.plainWrite p n i w
    else if [RegName.dpTrstat, .dpTrl, .dpTrh].contains n && !s.traceReader p then s.deniedAlarm 0
    else s.plainWrite p n i w

/-- A read of a dispatcher register (R386, R401, R407, R408). -/
def State.readDpFor (s : State) (p : Party) (n : RegName) (i : Nat) : State :=
  match p with
  | .tenant _ | .pf0 => s.ans .unmapped [0]
  | .heartwood =>
    if n = .dpTake then s.ans .ok [0]
    else if coreRegs.contains n then s.deniedAlarm 1
    else if n = .dpTrh then resState (execTraceRead p s) s
    else if n = .dpDlmiss then resState (execDlmissRead p s) s
    else s.ans .ok [s.readDp n i]
  | .core m =>
    if coreRegs.contains n then
      if m.val != i then s.deniedAlarm 1
      else if n = .dpTake then
        let t := resState (execTake m noUpset s) s
        t.ans .ok (if (t.coreSt i).held then [] else [t.reg .dpTake i])
      else s.ans .ok [s.readDp n i]
    else if [RegName.dpTrstat, .dpTrl, .dpTrh].contains n && !s.traceReader p then s.deniedAlarm 1
    else if n = .dpTrh then resState (execTraceRead p s) s
    else if n = .dpDlmiss then resState (execDlmissRead p s) s
    else s.ans .ok [s.readDp n i]

/-! ## The persistent bank (R432, R433) -/

/-- Whether a party reaches a register of the bank: PB0 to PB47 are heartwood's, the open part the cores' too. -/
def pbReach (p : Party) (n : RegName) (i : Nat) : Bool :=
  match p with
  | .heartwood => true
  | .core _ => n != .pb || decide (48 ≤ i)
  | _ => false

def State.writePb (s : State) (p : Party) (n : RegName) (i : Nat) (w : Word) : State :=
  if pbReach p n i then s.plainWrite p n i w else s.ans .unmapped []

def State.readPb (s : State) (p : Party) (n : RegName) (i : Nat) : State :=
  if !pbReach p n i then s.ans .unmapped [0]
  else if n = .pbRtcl then resState (execRtcReadLatch p s) s
  else s.ans .ok [s.reg n i]

/-! ## Any register -/

/-- Heartwood alone reaches a tile's registers and owner entries; any other access is DENIED and raises the alarm (R61, R121). -/
def State.onlyHeart (s : State) (p : Party) (reads : Nat) (x : State) : State := if p == .heartwood then x else s.deniedAlarm reads

/-- A tenant's access to a register that only heartwood and the operator reach (R27). -/
def State.noTenant (s : State) (p : Party) (reads : Nat) (x : State) : State :=
  match p with
  | .tenant _ => s.barkAns reads
  | _ => x

/-- The NoC's tables are reached by heartwood alone, through its private control space (R340). -/
def State.onlyTable (s : State) (p : Party) (reads : Nat) (x : State) : State :=
  if p == .heartwood then x else s.ans .unmapped (List.replicate reads 0)

/-- A write of one register (R12), judged as its block lays down. -/
def State.writeReg (s : State) (p : Party) (r : RegId) (w : Word) : State :=
  let i := r.idx
  if r.name.count ≤ i then s.ans .unmapped []
  else match r.name with
    | .tlCal | .tlGrp | .tlWin | .tlRst | .tlSidx | .swIn => s.onlyHeart p 0 (s.plainWrite p r.name i w)
    | .tlGcal => s.writeGcal p i w
    | .tlGphase | .tlGcalact | .tlGfault | .swGbark | .swGpar | .ltMcown | .ltIsown | .ltOut | .ncMode | .ncCprio
    | .ckStat | .ckRefppm | .pwDompwr | .pwDomfen | .pwRstsrc | .meterLo | .meterHi => s.noTenant p 0 (s.plainWrite p r.name i w)
    | .ffOwn | .ffCfg | .ffThr | .ffCtl | .ffFill | .ffStat | .ffDrop | .ffPar => s.writeFf p r.name i w
    | .cxStat | .cxFill | .cxEcc | .cxLost | .cxKeygen | .cxBank | .cxIndrop | .cxQuota | .cxFloor | .cxUsed | .cxTerr
    | .cxTnobuf => s.writeCx p r.name i w
    | .qeQcfg | .qeQrate | .qeQburst | .qeQlvl | .qeQpkt | .qeQcell | .qeBcfg | .qeBcir | .qeBcburst | .qeBpir | .qeBpburst
    | .qeBclvl | .qeBplvl | .qePcfg | .qePrate | .qeHcfg | .qeHmax | .qeHbin => s.writeQe p r.name i w
    | .lnGcfg | .lnCfg | .lnStat | .lnIen | .lnTrain | .lnTxeq | .lnRxdly | .lnTxdly | .lnRawfill | .lnTxtsh | .lnTxtsl
    | .lnTxtsn | .lnTxtsf | .lnEyectl | .lnEye | .lnPyl | .lnPymach | .lnPymacl | .lnCntctl | .lnCnt | .lnPys | .lnPyg
    | .lnPyc | .lnPyd | .msRclk => s.writeLn p r.name i w
    | .msTbcmd | .msTbincr | .msTbrsh | .msTbrsl | .msTbrns | .msTbrfr | .msTbwsh | .msTbwsl | .msTbwns | .msTbwfr
    | .msPpsish | .msPpsisl | .msPpsins | .msPpsifr | .msPpscfg | .msPpsdly => s.writeTb p r.name i w
    | .ncRteL => s.onlyTable p 0 (s.plainWrite p r.name i w)
    | .ncRteH => s.writeRteH p (i / 128) (i % 128) w
    | .ncInjA => s.onlyTable p 0 (s.plainWrite p r.name i w)
    | .ncInjB => s.writeInjB p (84 + i / 2048) (i % 2048) w
    | .hiPfcfg | .hiPfstat | .hiPfevt | .hiH2cd | .hiH2cdb | .hiC2hd | .hiC2hdb | .hiMbst | .hiOpdb | .hiVid | .hiVstat
    | .hiVopdb | .hiVevcfg | .hiVerrcnt | .hiVerrl | .hiVerrh | .hiVfev | .hiQsqbl | .hiQsqbh | .hiQcqbl | .hiQcqbh
    | .hiQcfg | .hiQsqt | .hiQcqh | .hiQstat | .hiGctl | .hiGstat | .hiGrcv | .hiVbsel | .hiVhsel | .hiMsix
    | .hiPba => s.writeHi p r.name i w
    | .dpCtl | .dpTicklen | .dpTnow | .dpLosttick | .dpFstat | .dpTrnom | .dpDlmiss | .dpTake | .dpCcmd | .dpCarg0 | .dpCarg1
    | .dpCres | .dpCwake | .dpCbus | .dpCstat | .dpCload | .dpThra | .dpThrb | .dpSem | .dpEg | .dpEvpend | .dpEvb | .dpTrstat
    | .dpTrl | .dpTrh => s.writeDp p r.name i w
    | .htReq | .htRsp | .htCtl | .htSt | .htStat => s.writeHt p r.name i w
    | .pb | .pbRtcl | .pbRtch | .pbRtcsub | .pbMono | .pbStat => s.writePb p r.name i w
    | .cfId | .cfStat | .cfCtl | .cfWdog | .cfImgsvn | .cfLoads | .cfDisc | .cfNvmwin | .cfOgstat | .cfGpcnt | .cfGpdisc =>
      s.noTenant p 0 (s.writeCf p r.name w)
    | .ckRefcfg => s.writeRefcfg p w
    | .pwRstctl => s.writeRstctl p w
    | .gpOut | .gpOe | .gpSet | .gpClr | .gpTgl | .gpIn | .gpDeny | .gpBank | .gpPcfg | .gpFsel | .gpPmskl | .gpPmskh | .gpPvall
    | .gpPvalh | .gpPctl | .gpTcfg | .gpTper | .gpTcmp | .gpTcnt | .gpTcap | .gpTstat => s.writeGp p r.name i w
    | .spUcfg | .spUdata | .spUstat | .spScfg | .spSdata | .spSstat | .spTcfg | .spTcmd | .spTdata | .spTstat | .spMcfg
    | .spMcmd | .spMdata | .spMstat => s.writeSer p r.name i w
    | .msOerrl | .msOerrh | .msOerrcnt | .msAlarm | .msFatal | .msSctl | .msTalm | .msValm | .msTemp | .msTlim | .msTmm
    | .msVolt | .msVlim | .msVmm => s.writeMs p r.name i w

/-- REGISTER_WRITE (R12). -/
def execRegisterWrite (p : Party) (r : RegId) (w : Word) (s : State) : Res := .next (s.writeReg p r w)

/-- MS_OERRL and MS_OERRCNT, and the other registers of measurement, as read (R575, R576). -/
def State.readMs (s : State) (n : RegName) (i : Nat) : Word :=
  match n with
  | .msOerrl => match s.ht.oerr with
    | r :: _ => r.setWidth 32
    | [] => 0
  | .msOerrcnt => BitVec.ofNat 32 (min 65535 (s.fld .msOerrcnt 0 31 16 + s.ht.olate.length) * 65536 + s.ht.oerr.length)
  | _ => s.reg n i

/-- A read of one register (R12, R27), with what reading it does. -/
def State.readReg (s : State) (p : Party) (r : RegId) : State :=
  let i := r.idx
  let plain (w : Word) : State := s.noTenant p 1 (s.ans .ok [w])
  if r.name.count ≤ i then s.ans .unmapped [0]
  else match r.name with
    | .tlCal | .tlGrp | .tlWin | .swIn => s.onlyHeart p 1 (s.ans .ok [s.reg r.name i])
    | .tlRst => s.onlyHeart p 1 (s.ans .ok [s.rstReg i])
    | .tlSidx => s.onlyHeart p 1 (s.ans .ok [s.sidxReg (i / 2) (i % 2)])
    | .tlGcal | .tlGphase | .tlGcalact | .tlGfault | .swGbark | .swGpar | .ltIsown | .ncMode | .ncCprio | .ckRefcfg | .ckStat
    | .ckRefppm | .pwDompwr | .pwDomfen | .pwRstctl | .pwRstsrc => plain (s.reg r.name i)
    | .ltMcown => plain (s.mcownReg i)
    | .ltOut => plain (s.ltOutReg p i)
    | .ffOwn | .ffCfg | .ffThr | .ffCtl | .ffFill | .ffStat | .ffDrop | .ffPar =>
      if (s.ffWriter p i).isNone then s.barkAns 1 else s.ans .ok [s.readFf r.name i]
    | .cxStat | .cxFill | .cxEcc | .cxLost | .cxKeygen | .cxBank | .cxIndrop | .cxQuota | .cxFloor | .cxUsed | .cxTerr
    | .cxTnobuf => if cxReads p r.name i then s.ans .ok [s.readCx r.name i] else s.barkAns 1
    | .qeQcfg | .qeQrate | .qeQburst | .qeQlvl | .qeQpkt | .qeQcell | .qeBcfg | .qeBcir | .qeBcburst | .qeBpir | .qeBpburst
    | .qeBclvl | .qeBplvl | .qePcfg | .qePrate | .qeHcfg | .qeHmax | .qeHbin =>
      if s.qeReads p r.name i then s.ans .ok [s.readQe r.name i] else s.barkAns 1
    | .lnGcfg | .lnCfg | .lnStat | .lnIen | .lnTrain | .lnTxeq | .lnRxdly | .lnTxdly | .lnRawfill | .lnTxtsh | .lnTxtsl
    | .lnTxtsn | .lnTxtsf | .lnEyectl | .lnEye | .lnPyl | .lnPymach | .lnPymacl | .lnCntctl | .lnCnt | .lnPys | .lnPyg
    | .lnPyc | .lnPyd => plain (s.readLn r.name i)
    | .msTbcmd | .msTbincr | .msTbrsh | .msTbrsl | .msTbrns | .msTbrfr | .msTbwsh | .msTbwsl | .msTbwns | .msTbwfr
    | .msPpsish | .msPpsisl | .msPpsins | .msPpsifr | .msPpscfg | .msPpsdly | .msRclk => plain (s.reg r.name i)
    | .ncRteL | .ncRteH | .ncInjA | .ncInjB => s.onlyTable p 1 (s.ans .ok [s.reg r.name i])
    | .hiPfcfg | .hiPfstat | .hiPfevt | .hiH2cd | .hiH2cdb | .hiC2hd | .hiC2hdb | .hiMbst | .hiOpdb | .hiVid | .hiVstat
    | .hiVopdb | .hiVevcfg | .hiVerrcnt | .hiVerrl | .hiVerrh | .hiVfev | .hiQsqbl | .hiQsqbh | .hiQcqbl | .hiQcqbh
    | .hiQcfg | .hiQsqt | .hiQcqh | .hiQstat | .hiGctl | .hiGstat | .hiGrcv | .hiVbsel | .hiVhsel | .hiMsix
    | .hiPba => s.hiWord p false (some r) 0
    | .dpCtl | .dpTicklen | .dpTnow | .dpLosttick | .dpFstat | .dpTrnom | .dpDlmiss | .dpTake | .dpCcmd | .dpCarg0 | .dpCarg1
    | .dpCres | .dpCwake | .dpCbus | .dpCstat | .dpCload | .dpThra | .dpThrb | .dpSem | .dpEg | .dpEvpend | .dpEvb | .dpTrstat
    | .dpTrl | .dpTrh => s.readDpFor p r.name i
    | .htReq | .htRsp | .htCtl | .htSt | .htStat => plain (s.reg r.name i)
    | .pb | .pbRtcl | .pbRtch | .pbRtcsub | .pbMono | .pbStat => s.readPb p r.name i
    | .cfId | .cfStat | .cfCtl | .cfWdog | .cfImgsvn | .cfLoads | .cfDisc | .cfNvmwin | .cfOgstat | .cfGpcnt | .cfGpdisc =>
      plain (s.readCf r.name)
    | .gpOut | .gpOe | .gpSet | .gpClr | .gpTgl | .gpIn | .gpDeny | .gpBank | .gpPcfg | .gpFsel | .gpPmskl | .gpPmskh | .gpPvall
    | .gpPvalh | .gpPctl | .gpTcfg | .gpTper | .gpTcmp | .gpTcnt | .gpTcap | .gpTstat => plain (s.readGp p r.name i)
    | .spUcfg | .spUdata | .spUstat | .spScfg | .spSdata | .spSstat | .spTcfg | .spTcmd | .spTdata | .spTstat | .spMcfg
    | .spMcmd | .spMdata | .spMstat => s.noTenant p 1 (let (w, t) := s.readSer r.name i; t.ans .ok [w])
    | .msOerrh => resState (execOperatorErrorRead p s) s
    | .meterLo => s.readMeter p i
    | .meterHi => if metersSeen p (i / 8) then s.ans .ok [s.reg .meterHi i] else s.barkAns 1
    | .msOerrl | .msOerrcnt | .msAlarm | .msFatal | .msSctl | .msTalm | .msValm | .msTemp | .msTlim | .msTmm | .msVolt
    | .msVlim | .msVmm => plain (s.readMs r.name i)

/-- One word of an access to a block, given the register it falls on. -/
def State.regWord (p : Party) (write : Bool) (map : List MapRow) (off : Nat) (w : Word) (s : State) : State :=
  match lookup map off with
  | none => s.ans .unmapped (if write then [] else [0])
  | some r => if write then s.writeReg p r w else s.readReg p r

/-! ## A canopy core's accesses (R25-R27, R377-R379) -/

/-- The dispatcher records the status of an access that does not complete OK (R379, R409). -/
def State.busDone (s : State) (n : Nat) (st : Status) : State :=
  if st = .ok then s else (s.count .dpCbus n 31 16 1).setFld .dpCbus n 3 0 st.code

/-- An access to registers: 4 or 8 bytes, as one or two words, the lower address first; 1 or 2 bytes of a register are DENIED, and where no
register lies the access is UNMAPPED (R26, R378). -/
def State.busRegs (s : State) (n : Fin 8) (map : List MapRow) (off : Nat) (a : Access) : State :=
  if a.len = 4 || a.len = 8 then
    s.eachWord (fun o w s =>
      let s := State.regWord (.core n) a.write map o w s
      s.busDone n.val s.answer.status) off (accWords a)
  else
    let st : Status := if (lookup map (off / 4 * 4)).isSome then .denied else .unmapped
    (s.ans st (if a.write then [] else [0])).busDone n.val st

/-- Byte `k` of a word memory. -/
def memByte (t : Tbl Word) (k : Nat) : Byte := BitVec.ofNat 8 (bits (t.rd (k / 4) 0).toNat (8 * (k % 4) + 7) (8 * (k % 4)))

/-- A word memory with bytes written from place k on. -/
def memPut (t : Tbl Word) (k : Nat) (l : List Byte) : Tbl Word :=
  l.zipIdx.foldl (fun t (b, i) => t.up ((k + i) / 4) 0 (fun w =>
    BitVec.ofNat 32 (setBits w.toNat (8 * ((k + i) % 4) + 7) (8 * ((k + i) % 4)) b.toNat))) t

/-- The bytes that a write moves. -/
def accBytes (a : Access) : List Byte := (wordsBytes a.data).take a.len

/-- The canopy SRAM and TCM bytes at an address of a core (R25); outside them, none. -/
inductive CoreMem where
  | sram (o : Nat)
  | tcm (o : Nat)
  deriving DecidableEq, Repr

def coreMem (x : Nat) : Option CoreMem :=
  if sramBase ≤ x && x < sramBase + sramSize then some (.sram (x - sramBase))
  else if 0x20000000 ≤ x && x < 0x20800000 && x % 0x100000 < 0x20000 then some (.tcm (0x20000 * ((x - 0x20000000) / 0x100000) + x % 0x100000))
  else none

def State.memRead (s : State) (m : CoreMem) (len : Nat) : List Byte :=
  match m with
  | .sram o => s.sramBytes o len
  | .tcm o => (List.range len).map (fun i => memByte s.dp.tcm (o + i))

/-- A store to canopy SRAM or a TCM ends the reservations on what it writes. -/
def State.memWrite (s : State) (m : CoreMem) (l : List Byte) : State :=
  match m with
  | .sram o => s.sramPut o l
  | .tcm o => State.breakResv { s with dp := { s.dp with tcm := memPut s.dp.tcm o l } }
      (0x20000000 + 0x100000 * (o / 0x20000) + o % 0x20000) l.length

/-- Whether a read meets a word whose error stands marked (R565). -/
def State.memBad (s : State) (m : CoreMem) (len : Nat) : Bool :=
  match m with
  | .sram o => s.sramPoison o len
  | .tcm _ => false

/-- A load, store or atomic access of canopy SRAM or a TCM (R377, R378, R565): a read that meets a mark raises its access fault, SC writes
where its core's reservation stands, and an AMO answers what it read. -/
def State.busMem (s : State) (n : Nat) (pc : Nat) (op : CoreOp) (m : CoreMem) (a : Access) : State :=
  let w := 8 * a.len
  let old := s.memRead m a.len
  let fault (cause : Nat) : State := (s.canopyError n a.addr).coreTrap n cause a.addr pc
  match op with
  | .lr =>
    if s.memBad m a.len then fault 5 else (s.setResv n (some (a.addr / 8))).ans .ok (bytesWords old)
  | .sc =>
    if s.dp.resv.rd n none = some (a.addr / 8) then ((s.memWrite m (accBytes a)).setResv n none).ans .ok [0]
    else (s.setResv n none).ans .ok [1]
  | .amo f =>
    if s.memBad m a.len then fault 7
    else (s.memWrite m (toLE a.len (amoVal f w (bytesLE old) (bytesLE (accBytes a))))).ans .ok (bytesWords old)
  | _ =>
    if a.write then (s.memWrite m (accBytes a)).ans .ok []
    else if s.memBad m a.len then fault 5
    else s.ans .ok (bytesWords old)

/-- A read of the boot ROM alias, whose contents the spec does not give (log entry 9); a write is refused (R21). -/
def State.busRom (s : State) (n : Nat) (a : Access) : State :=
  if a.write then (s.ans .denied []).busDone n .denied
  else s.ans .ok (bytesWords ((List.range a.len).map (fun i =>
    BitVec.ofNat 8 (bits (Config.bootRom ((a.addr + i) / 4)).toNat (8 * ((a.addr + i) % 4) + 7) (8 * ((a.addr + i) % 4))))))

/-- Whether a node window holds memory or a FIFO's data window at an offset, and no register. -/
def windowMemory (node off : Nat) : Bool :=
  (decide (node < 64) && (decide (0x400000 ≤ off) && decide (off < 0x480000) || decide (0x710000 ≤ off) && decide (off < 0x718000)))
    || decide (80 ≤ node) && decide (node < 84) || node == 90

/-- The accesses that a core's access to a node window is made of: 8 bytes of registers are two words, the lower address first (R378). -/
def busPieces (a : Access) (node off : Nat) : List Access :=
  if a.len = 8 && !windowMemory node off then
    [{ a with len := 4, data := a.data.take 1 }, { a with addr := a.addr + 4, len := 4, data := a.data.drop 1 }]
  else [a]

/-- Whether the hub can perform a register access in this fc: an edge falls in it, and the hub has made none at it (R512). -/
def State.hubFree (s : State) : Bool := s.fc % 8 = 0 && s.gp.accAt != s.fc + 1

/-- The hub performs an access at this edge. -/
def State.hubTake (s : State) : State := { s with gp := { s.gp with accAt := s.fc + 1 } }

/-- Whether an address lies in the hub's registers (R525). -/
def inHub (x : Nat) : Bool := x / 0x1000000 == 0x32

/-- Whether an earlier device access of a core has not completed: it waits or is under way at NI 84, is held for a wake, or waits
behind another (R377). -/
def State.coreBusy (s : State) (n : Fin 8) : Bool :=
  (s.nocWait 84).any (fun q => q.who == .core n) || (s.nocOut 84).any (fun o => o.req.who == .core n && !o.dead)
    || s.nc.directs.any (fun h => h.bus && h.party == .core n)

/-- A core's access to a device region (R25, R378, R379). -/
def State.busDevice (s : State) (n : Fin 8) (b : BusAcc) : State :=
  let a := b.acc
  let x := a.addr
  if 0x0100000000 ≤ x && x < 0x0180000000 then
    s.nocSubmit 84 (s.accReq a (.core n) opTag 0 ((x - 0x0100000000) / 0x1000000) (x % 0x1000000))
  else if 0x0200000000 ≤ x && x < 0x020C000000 then
    let a := { a with addr := x - 0x0200000000 }
    let s' := s.directBy (.core n) a b.health true
    if (s.directHeld a.addr a.len).isSome then s' else s'.busDone n.val s'.answer.status
  else match x / 0x1000000 with
    | 0x30 => s.busRegs n dpMap (x % 0x1000000) a
    | 0x31 => s.busRegs n htMap (x % 0x1000000) a
    | 0x32 => s.hubTake.busRegs n hubMap (x % 0x1000000) a
    | 0x33 => s.busRegs n ckMap (x % 0x1000000) a
    | 0x34 => s.busRegs n msMap (x % 0x1000000) a
    | 0x35 => s.busRegs n cfMap (x % 0x1000000) a
    | 0x36 => s.busRegs n pbMap (x % 0x1000000) a
    | _ => (s.ans .unmapped (if a.write then [] else [0])).busDone n.val .unmapped

/-- The device accesses of a core that wait are performed in program order, up to one that does not complete at once (R377); one to the hub
waits for an edge (R512). -/
def State.busNext (n : Fin 8) (fuel : Nat) (s : State) : State :=
  match fuel, s.dp.busq.rd n.val [] with
  | fuel + 1, b :: r =>
    if s.coreBusy n || (inHub b.acc.addr && !s.hubFree) then s
    else State.busNext n fuel ({ s with dp := { s.dp with busq := s.dp.busq.wr n.val [] r } }.busDevice n b)
  | _, _ => s

/-- A device access of a core has completed: its next ones follow. -/
def State.busGo (s : State) (n : Fin 8) : State := State.busNext n (s.dp.busq.rd n.val []).length s

/-- The device accesses that a load or store is made of, behind those that wait (R377, R378). -/
def State.busQueue (s : State) (n : Fin 8) (a : Access) (x : UnitHealth) : State :=
  let pieces := if 0x0100000000 ≤ a.addr && a.addr < 0x0180000000
    then busPieces a ((a.addr - 0x0100000000) / 0x1000000) (a.addr % 0x1000000)
    else if inHub a.addr then busPieces a 91 (a.addr % 0x1000000) else [a]
  State.busGo { s with dp := { s.dp with busq := s.dp.busq.up n.val [] (· ++ pieces.map (⟨·, x⟩)) } } n

/-- Every core's device accesses that wait for an edge of the hub, as an fc begins (R512). -/
def State.tickBus (s : State) : State := forEach (List.range 8) s (fun n s => s.busGo (Fin.ofNat 8 n))

/-- The exception that a load, store or atomic access raises before it reaches anything: misaligned, kept out by PMP, or atomic outside
canopy SRAM and the TCMs (R376, R378). -/
def State.busTrap (s : State) (n : Nat) (op : CoreOp) (a : Access) : Option Nat :=
  let atomic := op != .plain
  let store := a.write || op == .sc || (match op with
    | .amo _ => true
    | _ => false)
  if a.addr % a.len != 0 then some (if store then 6 else 4)
  else if !s.pmpOk n a.addr a.len store then some (if store then 7 else 5)
  else if atomic && ((coreMem a.addr).isNone || a.len < 4) then some 7
  else none

/-- A core's load, store or atomic access (R25, R27, R376-R379). -/
def State.busAccess (s : State) (n : Fin 8) (pc : Nat) (op : CoreOp) (a : Access) (x : UnitHealth) : State :=
  if !([1, 2, 4, 8].contains a.len) then s
  else match s.busTrap n.val op a with
    | some c => s.coreTrap n.val c a.addr pc
    | none =>
      match coreMem a.addr with
      | some m => s.busMem n.val pc op m a
      | none =>
        if a.addr < 0x10000 then s.busRom n.val a
        else if a.addr < 0x30000000 then (s.ans .unmapped (if a.write then [] else [0])).busDone n.val .unmapped
        else s.busQueue n a x

/-- What a core does (R376-R379): its accesses, its CSRs, and the exceptions it takes. -/
def State.coreDoes (s : State) (n : Fin 8) (pc : Nat) (op : CoreOp) (a : Access) (x : UnitHealth) : State :=
  match op with
  | .csrRead c =>
    if s.csrReach n.val c.toNat false then s.ans .ok (bytesWords (toLE 8 (s.csrRead n.val c.toNat))) else s.coreTrap n.val 2 0 pc
  | .csrWrite c v => if s.csrReach n.val c.toNat true then s.csrWrite n.val c.toNat v.toNat else s.coreTrap n.val 2 0 pc
  | .illegal => s.coreTrap n.val 2 0 pc
  | .mret => if s.inU n.val then s.coreTrap n.val 2 0 pc else s.coreRet n.val
  | .interrupt => if s.irqTaken n.val then s.coreTrap n.val (2 ^ 63 + 11) 0 pc else s
  | _ => s.busAccess n pc op a x

/-- CORE_BUS_ACCESS (R379): cores that are held in reset make none. -/
def execCoreBusAccess (n : Fin 8) (c : CoreAt) (op : CoreOp) (a : Access) (x : UnitHealth) (s : State) : Res :=
  .next (if s.dp.coresHeld then s
    else (s.setCsr n.val 0xB02 (s.csrRaw n.val 0xB02 + c.retired)).coreDoes n c.pc.toNat op a x)

/-- FENCE_I (R380). -/
def execFenceI (n : Fin 8) (s : State) : Res :=
  .next { s with dp := { s.dp with icache := s.dp.icache.del n.val, fbuf := s.dp.fbuf.del n.val } }

end Sys2Proof.Machine
end

