-- ==== Sys2Proof/Machine/Dma.lean ====
section
/-! DEFINITION. The DMA queue pairs (R361-R369): descriptors, host data, chunks and completion entries. Queue pair q of VF v stands at
8v+q. -/

namespace Sys2Proof.Machine

/-! ## Descriptors (R362, R363) -/

/-- The eight words of a descriptor. -/
def descOf (ws : List Word) : Desc :=
  let w (i : Nat) : Nat := (ws.getD i 0).toNat
  ⟨BitVec.ofNat 64 (w 1 * 2 ^ 32 + w 0), bits (w 2) 20 0, BitVec.ofNat 4 (bits (w 3) 31 28), BitVec.ofNat 28 (bits (w 3) 27 0),
    bit (w 4) 31, BitVec.ofNat 16 (bits (w 4) 15 0)⟩

/-- Whether a reserved field of a descriptor is non-zero. -/
def descReserved (ws : List Word) : Bool :=
  let w (i : Nat) : Nat := (ws.getD i 0).toNat
  bits (w 2) 31 21 != 0 || bits (w 4) 30 16 != 0 || w 5 != 0 || w 6 != 0 || w 7 != 0
    || (if bits (w 3) 31 28 ≤ 2 then bits (w 3) 16 0 != 0 else bits (w 3) 15 11 != 0)

def Desc.fifo (d : Desc) : Bool := d.op.toNat == 1 || d.op.toNat == 2
/-- Whether the descriptor moves data from the host. -/
def Desc.hostRead (d : Desc) : Bool := d.op.toNat == 1 || d.op.toNat == 3
/-- Words of an entry, by the W field. -/
def Desc.w (d : Desc) : Nat := match bits d.target.toNat 18 17 with
  | 0 => 1 | 1 => 2 | 2 => 3 | _ => 6
def Desc.word (d : Desc) : Nat := bits d.target.toNat 10 0

/-- Whether a descriptor is refused before anything moves (R363). A LEN outside 4 to 1,048,576 is refused with them
(log entry 20). -/
def descBad (ws : List Word) : Bool :=
  let d := descOf ws
  descReserved ws || !(1 ≤ d.op.toNat && d.op.toNat ≤ 4) || d.haddr.toNat % 4 != 0 || d.len < 4 || 1048576 < d.len
    || (if d.fifo then d.len % (4 * d.w) != 0 else d.len % 4 != 0 || 2047 < d.word + d.len / 4 - 1)

/-- Bytes of the next chunk when `done` are moved (R363). -/
def Desc.chunk (d : Desc) (done : Nat) : Nat :=
  if d.fifo then min (d.len - done) (256 / (4 * d.w) * (4 * d.w))
  else min (d.len - done) (256 - (4 * d.word + done) % 256)

/-- Where the next chunk goes: node and offset (R60, R164, R363). -/
def Desc.place (d : Desc) (done : Nat) : Nat × Nat :=
  let t := d.target.toNat
  if d.fifo then (bits t 27 22, 0x710000 + bits t 21 19 * 0x1000)
  else (bits t 27 22, 0x400000 + bits t 21 16 * 0x2000 + 4 * d.word + done)

/-! ## Progress of a pair -/

/-- Whether host data for the next chunk is at hand. -/
def DmaSt.fed (x : DmaSt) (d : Desc) : Bool := !d.hostRead || decide (d.chunk x.done ≤ 4 * x.hostWords.length)

/-- What a pair does between chunks: it has ended, waits for host data, or has a chunk ready. -/
def DmaSt.onward (x : DmaSt) (d : Desc) (fc : Nat) : DmaSt :=
  if d.len ≤ x.done then { x with st := .ended .ok }
  else if x.fed d then { x with st := .ready, since := fc }
  else { x with st := .hostData }

/-- Whether the submission ring of a pair holds work and its completion ring has room (R361). -/
def State.pairWork (s : State) (k : Nat) : Bool := s.fld .hiQstat k 23 12 != s.fld .hiQsqt k 11 0
def State.pairRoom (s : State) (k : Nat) : Bool :=
  (s.fld .hiQstat k 11 0 + 1) % 2 ^ s.fld .hiQcfg k 24 21 != s.fld .hiQcqh k 11 0

/-- Base address of a ring. -/
def State.ringBase (s : State) (lo hi : RegName) (k : Nat) : Nat := (s.reg hi k).toNat * 2 ^ 32 + s.fld lo k 31 12 * 4096

/-- Pairs that wait for host memory: each has a non-posted request outstanding (R346). -/
def State.hostReads (s : State) : Nat := (s.hi.dma.filter (fun (e : Nat × DmaSt) => e.2.st == .fetching || e.2.st == .hostData)).length

/-- DESCRIPTOR_FETCH (R361): the pair asks host memory for the descriptor at SQHEAD, whose address goes on the line. -/
def execDescriptorFetch (v : Fin 512) (q : Fin 8) (s : State) : Res :=
  .next (
    let k := 8 * v.val + q.val
    if (s.boundTag v.val).isSome && s.flag .hiQcfg k 31 && !s.flag .hiQstat k 30 && !s.dmaBusy k && s.pairWork k && s.pairRoom k
        && decide (s.hostReads < nonPostedMax) then
      let x := s.dma k
      { s.setDma k { x with st := .fetching, desc := none, done := 0, hostWords := [], entryOff := false } with
        line := [s.ringBase .hiQsqbl .hiQsqbh k + 32 * s.fld .hiQstat k 23 12] }
    else s)

/-- A failed fetch halts the pair (R366). -/
def State.pairHalt (s : State) (v q : Nat) (st : Status) : State :=
  let k := 8 * v + q
  let s := s.setDma k { s.dma k with st := .idle, entryOff := false }
  let s := (s.setBit .hiQstat k 30 true).setFld .hiQstat k 29 26 st.code
  match s.boundTag v with
  | some t => s.tellOwner 3 t 9 st.code q
  | none => s

/-- HOST_COMPLETION (R361, R364, R366): host memory answers the descriptor fetch or the data read the pair waits for. -/
def State.hostAnswer (s : State) (v q : Nat) (a : HostAnswer) : State :=
  let k := 8 * v + q
  let x := s.dma k
  match x.st, a with
  | .fetching, .data ws =>
    let d := descOf ws
    if descBad ws then s.setDma k { x with desc := some d, st := .ended .denied }
    else s.setDma k (({ x with desc := some d }).onward d s.fc)
  | .fetching, .poisoned _ => s.pairHalt v q .poison
  | .fetching, .unsupported => s.pairHalt v q .aborted
  | .fetching, .timeout => s.pairHalt v q .timeout
  | .hostData, .unsupported => s.setDma k { x with st := .ended .aborted }
  | .hostData, .timeout => s.setDma k { x with st := .ended .timeout }
  | .hostData, .data ws | .hostData, .poisoned ws =>
    match x.desc with
    | none => s
    | some d =>
      let bad := match a with
        | .poisoned _ => true
        | _ => false
      -- no more than 4 KB ahead, nor beyond the descriptor
      let room := min 1024 ((d.len - x.done) / 4) - x.hostWords.length
      s.setDma k (({ x with hostWords := x.hostWords ++ (ws.take room).map (fun w => (bad, w)) }).onward d s.fc)
  | _, _ => s

def execHostCompletion (v : Fin 512) (q : Fin 8) (a : HostAnswer) (s : State) : Res := .next (s.hostAnswer v.val q.val a)

/-! ## Chunks (R364, R368, R369) -/

/-- Whether the tenant of a pair is sealed. -/
def State.sealedPair (s : State) (k : Nat) : Bool :=
  match s.boundTag (k / 8) with
  | some t => ((s.tn.adm.rd t.toNat none).map (·.sealed)).getD false
  | none => false

/-- Pairs with a chunk in flight. -/
def State.chunksOut (s : State) : List Nat := (s.hi.dma.filter (fun (e : Nat × DmaSt) => e.2.st == .chunkOut)).map (·.1)

/-- Whether an in-flight slot is free for a pair: 64 in all, 8 of them for sealed pairs alone. -/
def State.slotFree (s : State) (k : Nat) : Bool :=
  let out := s.chunksOut
  decide (out.length < 64) && (s.sealedPair k || decide ((out.filter (fun k => !s.sealedPair k)).length < 56))

/-- The pair whose chunk the engine starts in this fc, and whether its round robin goes on from there: in a reserved position of the wheel the
oldest of its tenant's, which leaves the round robin alone, else the next in turn. -/
def State.nextChunk (s : State) : Option (Nat × Bool) :=
  let ready := s.hi.dma.filter (fun (e : Nat × DmaSt) => e.2.st == .ready && s.slotFree e.1 && (s.boundTag (e.1 / 8)).isSome)
  let mine := match s.tn.wheelDma.rd (s.wheelPos 256) none with
    | some t => ready.filter (fun (e : Nat × DmaSt) => s.boundTag (e.1 / 8) == some t)
    | none => []
  match mine with
  | e :: r => some ((r.foldl (fun (b : Nat × DmaSt) e => if e.2.since < b.2.since then e else b) e).1, false)
  | [] => match ready.filter (fun e => s.hi.dmaRr ≤ e.1) ++ ready with
    | e :: _ => some (e.1, true)
    | [] => none

/-- DMA_CHUNK (R364, R368). -/
def State.startChunk (s : State) (v q : Nat) : State :=
  let k := 8 * v + q
  let x := s.dma k
  if s.hi.dmaAt = s.fc + 1 then s
  else match s.nextChunk, x.desc, s.boundTag v with
    | some (k', turn), some d, some t =>
      if k' != k then s else
      let n := d.chunk x.done / 4
      let (node, off) := d.place x.done
      let data := if d.hostRead then x.hostWords.take n else []
      let r := s.reqOf (.dma ⟨v % 512, Nat.mod_lt _ (by decide)⟩ ⟨q % 8, Nat.mod_lt _ (by decide)⟩) t (s.fld .hiQcfg k 30 29) node
        d.hostRead off n (data.map (·.2)) (data.any (·.1)) false
      let s := s.setDma k { x with st := .chunkOut, hostWords := if d.hostRead then x.hostWords.drop n else [] }
      ({ s with hi := { s.hi with dmaRr := if turn then k + 1 else s.hi.dmaRr, dmaAt := s.fc + 1 } }).nocSubmit 87 r
    | _, _, _ => s

def execDmaChunk (v : Fin 512) (q : Fin 8) (s : State) : Res := .next (s.startChunk v.val q.val)

/-- The response to a chunk reaches its pair (R364). Data bound for the host is written there. -/
def State.chunkDone (s : State) (k : Nat) (st : Status) (data : List Word) : State :=
  let x := s.dma k
  match x.st, x.desc with
  | .chunkOut, some d =>
    if st = .ok then
      let n := d.chunk x.done
      let s := if d.hostRead then s
        else { s with hi := { s.hi with hostWr := (d.haddr + BitVec.ofNat 64 x.done, data) :: s.hi.hostWr } }
      s.setDma k (({ x with done := x.done + n }).onward d s.fc)
    else s.setDma k { x with st := .ended st }
  | _, _ => s

/-! ## Completion entries (R365, R367) -/

/-- The four words of a completion entry. -/
def entryWords (done sqhead : Nat) (cookie : BitVec 16) (phase : Bool) (st : Status) : List Word :=
  [BitVec.ofNat 32 (bits done 20 0), BitVec.ofNat 32 (cookie.toNat * 2 ^ 16 + sqhead), BitVec.ofNat 32 (b2n phase * 128 + st.code), 0]

/-- COMPLETION_WRITE (R365). A disabled pair's entry is discarded when the ring has no room (R367). -/
def State.completion (s : State) (v q : Nat) : State :=
  let k := 8 * v + q
  let x := s.dma k
  match x.st, x.desc with
  | .ended st, some d =>
    let idle := { x with st := DmaPhase.idle, desc := none, done := 0, hostWords := [], entryOff := false }
    if x.entryOff then s.setDma k idle
    else if !s.pairRoom k then (if s.flag .hiQcfg k 31 then s else s.setDma k idle)
    else
      let sq := (s.fld .hiQstat k 23 12 + 1) % 2 ^ s.fld .hiQcfg k 28 25
      let cq := s.fld .hiQstat k 11 0
      let cq' := (cq + 1) % 2 ^ s.fld .hiQcfg k 24 21
      let addr := s.ringBase .hiQcqbl .hiQcqbh k + 16 * cq
      let s := { s with hi := { s.hi with
        hostWr := (BitVec.ofNat 64 addr, entryWords x.done sq d.cookie x.phase st) :: s.hi.hostWr } }
      let s := (s.setFld .hiQstat k 23 12 sq).setFld .hiQstat k 11 0 cq'
      let s := s.setDma k { idle with phase := if cq' = 0 then !x.phase else x.phase }
      if d.irq && s.flag .hiQcfg k 17 && (s.boundTag v).isSome then s.signalVec (v + 1) (s.fld .hiQcfg k 20 18) else s
  | _, _ => s

def execCompletionWrite (v : Fin 512) (q : Fin 8) (s : State) : Res := .next (s.completion v.val q.val)

end Sys2Proof.Machine
end

