-- ==== Sys2Proof/Machine/NocEnd.lean ====
section
/-! DEFINITION. The ends of the network on chip: issue and local refusal (R319, R326-R331), what each target node does with a request
(R320, R321, R336), responses reaching their requesters (R326, R334, R335), held FIFO accesses (R160), wakes (R337) and the
status records of node 88 (R183). -/

namespace Sys2Proof.Machine

/-! ## Requesters (R311, R326, R334, R335) -/

/-- A request of the party that made it completes with a status and the words read; a status other than OK and POISON brings zeros
(R314). -/
def State.completeReq (s : State) (q : NocReq) (st : Status) (data : List Word) : State :=
  let ws := if q.write then [] else if st == .ok || st == .poison then data.take q.words else List.replicate q.words 0
  match q.who with
  | .core n => ((s.ans st ws).busDone n.val st).busGo n
  | .pf0 => (s.ans st ws).hostDone .pf0 st
  | .vf v => (s.ans st ws).hostDone (.vf v) st
  | .dma v p => s.chunkDone (8 * v.val + p.val) st ws
  | .cells => s
  | .heartwood | .config => s.ans st ws

/-- A source NI refuses the first waiting request that it must (R319), or issues the request that may go next; while a change of mode
waits, none is issued (R442). -/
def State.issue (s : State) (ni : Nat) : State :=
  let w := s.nocWait ni
  match firstSome (fun (x : NocReq × Nat) => (s.localRefusal ni x.1).map (fun st => (x.1, x.2, st))) w.zipIdx with
  | some (q, k, st) => (s.setWait ni (w.eraseIdx k)).completeReq q st []
  | none =>
    if s.nc.newMode.isSome then s
    else match s.nextIssue ni with
      | some (k, sealed) => match w[k]? with
        | some q => (s.setWait ni (w.eraseIdx k)).nocSend ni q sealed
        | none => s
      | none => s

/-- NOC_REQUEST_ISSUE (R326). -/
def execNocRequestIssue (ni : Fin 5) (s : State) : Res := .next (s.issue (84 + ni.val))

/-- A response reaches its source NI: credit and reservation return, and its requester, if it still waits, has its answer (R326, R334,
R335, R338). -/
def State.responseIn (s : State) (node : Nat) : State :=
  match s.nc.arrived.rd node [] with
  | [] => s
  | r :: rest =>
    if s.fc < r.fc then s
    else
      let s := { s with nc := { s.nc with arrived := s.nc.arrived.wr node [] rest } }
      match (s.nocOut node).find? (fun o => o.txid == r.hdr.txid) with
      | none => s
      | some o =>
        let s := s.setOut node ((s.nocOut node).filter (fun x => x.txid != r.hdr.txid))
        if o.dead then s
        else s.completeReq o.req (if r.hdr.status == .ok && r.psn then .poison else r.hdr.status) r.data

/-- NOC_RESPONSE_ARRIVE (R326). -/
def execNocResponseArrive (ni : Fin 5) (s : State) : Res := .next (s.responseIn (84 + ni.val))

/-- NOC_TIMEOUT (R335): the reservation is released and the credit kept. -/
def execNocTimeout (ni : Fin 5) (txid : BitVec 8) (s : State) : Res :=
  let node := 84 + ni.val
  .next (match (s.nocOut node).find? (fun o => o.txid == txid && !o.dead) with
  | some o =>
    if (o.sent.map (fun t => decide (t + 1048576 ≤ s.fc))).getD false then
      (s.setOut node ((s.nocOut node).map (fun x => if x.txid == txid then { x with dead := true } else x))).completeReq o.req .timeout []
    else s
  | none => s)

/-! ## Targets (R320, R321) -/

/-- Who makes a request, as its header tells (R311): at node 84 its source NI knows which core it was. -/
def State.partyOf (s : State) (h : Hdr) : Party :=
  if h.htw then .heartwood
  else if h.tag.toNat < 512 then .tenant (Fin.ofNat 512 h.tag.toNat)
  else if h.src.toNat == 84 then
    match (s.nocOut 84).find? (fun o => o.txid == h.txid) with
    | some o => match o.req.who with
      | .core n => .core n
      | _ => .core 0
    | none => .core 0
  else .pf0

/-- Whether a tag reaches a tile-memory word: it lies in the window of a ring of that owner (R42). -/
def State.tileReach (s : State) (T : Nat) (tag : Tag) (w : Nat) : Bool :=
  (List.range 16).any (fun r =>
    let (b, l) := s.window T r
    rOwner (s.ringRec T r) == tag.toNat && decide (b ≤ w) && decide (w < b + l))

/-- Read words, of which some cannot be trusted: those take free values (log entry 3), and the read completes POISON. -/
def State.readWords (s : State) (ws : List (Bool × Word)) (mask : Word) : State :=
  let (out, s) := ws.foldl (fun (x : List Word × State) (b : Bool × Word) =>
    if b.1 then
      let (v, s) := x.2.freeWord
      (x.1 ++ [v &&& mask], s)
    else (x.1 ++ [b.2], x.2)) ([], s)
  s.ans (if ws.any (·.1) then .poison else .ok) out

/-- The FIFO whose data window an offset lies in (R164). -/
def fifoAt (g off : Nat) : Option Nat :=
  if 0x710000 ≤ off && off < 0x718000 then some (8 * g + (off - 0x710000) / 0x1000) else none

/-- The checks of R160 in order; none when the access may move entries. The window of a consumed FIFO, of which the rule says only that
it has no ends (R148), answers UNMAPPED like one whose end is a tap (log entry 134). -/
def State.fifoRefusal (s : State) (F : Nat) (h : Hdr) : Option Status :=
  let r := s.fifoRec F
  if s.ffOwner (F / 8) (F % 8) != h.tag.toNat then some .bark
  else if fifoConsumed r || !(bit r (if h.isWrite then 27 else 26)) then some .unmapped
  else if h.words % fifoW r != 0 then some .denied
  else none

/-- Whether an access to a FIFO's data window must still be held (R160). -/
def State.fifoWaits (s : State) (F : Nat) (h : Hdr) : Bool :=
  (s.fifoRefusal F h).isNone
    && (if h.isWrite then !s.fifoOpen F else !s.fifoNocReady F (h.words / fifoW (s.fifoRec F)))

/-- Whether a target NI answers FENCED for its domain: draining, fenced, off, or restored in this fc,
or restored and not yet in the fc after its stage RUN (R336, R337, R541). -/
def State.targetFenced (s : State) (node : Nat) : Bool :=
  match domainOfNode node with
  | some d => s.fencedOff d || s.atStart.flag .pwDomfen (d / 32) (d % 32)
      || s.gr.staged.any (fun x => x.grove == d && x.org.isNone && x.tenant.isNone)
      || (s.fld .cfStat 0 31 28 == 5 && s.pw.runNext.rd d false)
  | none => false

/-- Canopy SRAM through node 80 + k (R25, R27, R565). -/
def State.sramAccess (s : State) (k off : Nat) (q : TReq) : State :=
  let n := q.hdr.words
  let o := 0x200000 * k + off
  if q.hdr.tag != opTag then s.barkAns (if q.hdr.isWrite then 0 else n)
  else if 0x200000 ≤ off then s.ans .unmapped []
  else if q.hdr.isWrite then (s.sramPut o (wordsBytes q.data)).ans .ok []
  else s.readWords ((List.range n).map (fun i => (s.sramPoison (o + 4 * i) 4, s.dp.csram.rd (o / 4 + i) 0))) 0xFFFFFFFF#32

/-- The NVM's window (R473). -/
def State.nvmAccess (s : State) (off : Nat) (q : TReq) : State :=
  let n := q.hdr.words
  let a := s.fld .cfNvmwin 0 0 0 * 0x1000000 + off
  if q.hdr.tag != opTag then s.barkAns (if q.hdr.isWrite then 0 else n)
  else if q.hdr.isWrite || 0x1E00000 ≤ a then s.ans .denied []
  else s.ans .ok (s.nvmWords a n)

/-- The registers of the bridge that the canopy reaches (R350); a tenant's tag reaches none here (R27). -/
def State.bridgeWord (p : Party) (write : Bool) (off : Nat) (w : Word) (s : State) : State :=
  s.noTenant p (if write then 0 else 1) (s.hiWord p write (pfReg off) w)

/-- What a request moves one unit after another: the words of tile memory from a word on or the entries of a FIFO, one an fc (R160, R321),
and the registers of the hub, one an edge (R512). -/
inductive Moved where
  | tile (T w0 : Nat)
  | fifo (F : Nat)
  | hub (off : Nat)
  deriving DecidableEq, Repr

/-- What a request to a node moves one unit an fc, when it passes the checks of its block (R42, R160). -/
def State.moves (s : State) (node : Nat) (h : Hdr) : Option Moved :=
  let off := h.addr.toNat
  if node = 91 then some (.hub off)
  else if node < 64 && 0x400000 ≤ off && off < 0x480000 then
    let T := 64 * node + (off - 0x400000) / 0x2000
    let w0 := off % 0x2000 / 4
    if h.htw || (List.range h.words).all (fun i => s.tileReach T h.tag (w0 + i)) then some (.tile T w0) else none
  else match (if node < 64 then fifoAt node off else none) with
    | some F => if (s.fifoRefusal F h).isNone then some (.fifo F) else none
    | none => none

/-- The answer of a target before anything is served (R320, R336). -/
def State.turnedAway (s : State) (node : Nat) (q : TReq) : Option Status :=
  if s.targetFenced node then some .fenced
  else if q.hdr.isWrite && q.abt then some .aborted
  else if q.hdr.isWrite && q.psn then some .poison
  else none

/-- What a target node does at once with a request whose worm it holds (R320): the answer is left in `answer`. What it moves one unit an fc
is not done here, but its refusals are. -/
def State.perform (s : State) (node : Nat) (q : TReq) : State :=
  let off := q.hdr.addr.toNat
  let wr := q.hdr.isWrite
  let p := s.partyOf q.hdr
  let ws := if wr then q.data.take q.hdr.words else List.replicate q.hdr.words 0
  let zeros := if wr then 0 else q.hdr.words
  let regs (map : List MapRow) : State := s.eachWord (State.regWord p wr map) off ws
  match s.turnedAway node q with
  | some st => s.ans st []
  | none =>
    if node < 64 then
      if 0x400000 ≤ off && off < 0x480000 then s.barkAns zeros
      else match fifoAt node off with
        | some F => match s.fifoRefusal F q.hdr with
          | some .bark => s.barkAns zeros
          | some st => s.ans st (List.replicate zeros 0)
          | none => s
        | none => regs (groveMap node)
    else if node < 80 then regs (laneMap (node - 64))
    else if node < 84 then s.sramAccess (node - 80) off q
    else match node with
      | 84 => if 0x800000 ≤ off then s.eachWord (State.regWord p wr msMap) (off - 0x800000) ws else regs ckMap
      | 85 => regs htMap
      | 86 => regs cfMap
      | 87 => s.eachWord (State.bridgeWord p wr) off ws
      | 88 => regs cxMap
      | 89 => regs qeMap
      | 90 => s.nvmAccess off q
      | 91 => regs hubMap
      | _ => s.ans .unmapped []

/-! ## Service (R160, R321) -/

/-- Move the next unit of the request in service, where its end lets it move in this fc (R31, R96, R160). -/
def State.svcUnit (s : State) (v : Svc) (m : Moved) : Option (Svc × State) :=
  let i := v.done
  let v := { v with done := i + 1 }
  match m with
  | .tile T w0 =>
    if v.req.hdr.isWrite then some (v, s.setTmem T (w0 + i) ((v.req.data.getD i 0).setWidth 24))
    else
      let s := if v.upset.contains i then { s with tl := { s.tl with bad := s.tl.bad.wr (2048 * T + w0 + i) false true } } else s
      some ({ v with got := v.got ++ [(s.tileBad T (w0 + i), BitVec.ofNat 32 (s.tmemWas T (w0 + i)))] }, s)
  | .fifo F =>
    let w := v.req.hdr.words / v.units
    if v.req.hdr.isWrite then (s.fifoNocPut F ((v.req.data.drop (w * i)).take w)).map (fun s => (v, s))
    else (s.fifoNocGive F ((List.range w).filter (fun k => v.upset.contains (w * i + k)))).map (fun (ws, s) =>
      ({ v with got := v.got ++ ws.map (fun x => (false, x)) }, s))
  | .hub off =>
    if !s.hubFree then none
    else
      let s := State.regWord (s.partyOf v.req.hdr) v.req.hdr.isWrite hubMap (off + 4 * i) (v.req.data.getD i 0) s.hubTake
      some ({ v with got := v.got ++ s.answer.data.map (fun x => (false, x)), st := if v.st = .ok then s.answer.status else v.st }, s)

/-- What the request in service at a node moves. -/
def Svc.moved (node : Nat) (v : Svc) : Option Moved :=
  let off := v.req.hdr.addr.toNat
  if node = 91 then some (.hub off)
  else if 0x400000 ≤ off && off < 0x480000 then some (.tile (64 * node + (off - 0x400000) / 0x2000) (off % 0x2000 / 4))
  else (fifoAt node off).map .fifo

def State.setSvc (s : State) (node : Nat) (v : Option Svc) : State :=
  { s with nc := { s.nc with svc := s.nc.svc.wr node none v } }

/-- One fc of the request in service at a node: its next unit moves; in the fc after its last, its response is injected (R160, R321). -/
def State.svcMove (node : Nat) (s : State) : State :=
  match s.nc.svc.rd node none with
  | none => s
  | some v =>
    if v.done = v.units then
      let s := (s.setSvc node none).readWords (if v.req.hdr.isWrite then [] else v.got) 0x00FFFFFF#32
      let s := if v.st = .ok then s else s.ans v.st s.answer.data
      s.respond node v.req s.answer.status s.answer.data
    else match (v.moved node).bind (s.svcUnit v) with
      | some (v, s) => s.setSvc node (some v)
      | none => s

/-- The FIFO an arrived request is for. -/
def fifoOf (node : Nat) (q : TReq) : Option Nat := if node < 64 then fifoAt node q.hdr.addr.toNat else none

/-- Whether the next request of a node must still be held by its FIFO (R160). -/
def State.heldByFifo (s : State) (node : Nat) (q : TReq) : Bool :=
  (s.turnedAway node q).isNone && (match fifoOf node q with
    | some F => s.fifoWaits F q.hdr
    | none => false)

/-- Which request of a queue is served next (R321, R331), none while one is in service: a sealed one, else the oldest, from the fc after
its tail arrived. -/
def State.nextServe (s : State) (node : Nat) : Option Nat :=
  if (s.nc.svc.rd node none).isSome then none
  else
    let l := ((s.nc.tq.rd node []).zipIdx).filter (fun (x : TReq × Nat) => decide (x.1.fc < s.fc))
    match (l.filter (fun x => x.1.hdr.sealed)) ++ l with
    | x :: _ => some x.2
    | [] => none

/-- A request leaves its queue answered with what `f` does; without a valid entry for its requester it is discarded (R315). -/
def State.serveAt (s : State) (node k : Nat) (f : TReq → State → State) : State :=
  match (s.nc.tq.rd node [])[k]? with
  | none => s
  | some q =>
    let s := { s with nc := { s.nc with tq := s.nc.tq.up node [] (fun l => l.eraseIdx k) } }
    if !s.rteLive node q.hdr.src.toNat then s
    else
      let s := f q s
      s.respond node q s.answer.status s.answer.data

/-- A request of a queue enters service: what moves one unit an fc moves its first, and anything else is done and answered. -/
def State.beginServe (s : State) (node k : Nat) (upset : List Nat) : State :=
  match (s.nc.tq.rd node [])[k]? with
  | none => s
  | some q =>
    match if (s.turnedAway node q).isNone && s.rteLive node q.hdr.src.toNat then s.moves node q.hdr else none with
    | some m =>
      let units := match m with
        | .tile _ _ => q.hdr.words
        | .fifo F => q.hdr.words / fifoW (s.fifoRec F)
        | .hub _ => q.hdr.words
      let s := { s with nc := { s.nc with tq := s.nc.tq.up node [] (fun l => l.eraseIdx k) } }
      State.svcMove node (s.setSvc node (some ⟨q, units, 0, upset, [], .ok⟩))
    | none => s.serveAt node k (fun q s => s.perform node q)

/-- NOC_SERVE (R320, R321): a target NI takes its next request; one that its FIFO holds keeps it waiting, and the later ones behind it (R160).
`upset` counts the words of the access that are found bad. -/
def execNocServe (node : Fin 92) (upset : List Nat) (s : State) : Res :=
  .next (match s.nextServe node.val with
  | some k =>
    if (((s.nc.tq.rd node.val [])[k]?).map (s.heldByFifo node.val)).getD false then s else s.beginServe node.val k upset
  | none => s)

/-- FIFO_NOC_TIMEOUT (R160): an access that FIFO g.f still holds 65,536 fc after its arrival completes TIMEOUT, and so does one in service
whose remaining entries have not come by then. -/
def execFifoNocTimeout (g : Fin 64) (f : Fin 8) (s : State) : Res :=
  let F := 8 * g.val + f.val
  let late (q : TReq) : Bool := fifoOf g.val q == some F && decide (q.fc + 65536 < s.fc)
  .next (match s.nc.svc.rd g.val none with
  | some v =>
    if late v.req && v.done < v.units && ((v.moved g.val).bind (s.svcUnit v)).isNone then (s.setSvc g.val none).respond g.val v.req .timeout []
    else s
  | none => match ((s.nc.tq.rd g.val []).zipIdx).filter (fun x => late x.1 && s.heldByFifo g.val x.1) with
    | x :: _ => s.serveAt g.val x.2 (fun _ s => s.ans .timeout [])
    | [] => s)

/-! ## Status records (R182, R183) -/

/-- The words of a status record as node 88 writes them: whole entries of the FIFO, with IDLE after word 1. -/
def statusWords (w : Nat) (r : StatusRec) : List Word :=
  [BitVec.ofNat 32 (codeCTRL * 2 ^ 24 + r.w0.toNat), BitVec.ofNat 32 (codeCTRL * 2 ^ 24 + r.w1.toNat)]
    ++ List.replicate (w - 2) (BitVec.ofNat 32 (codeIDLE * 2 ^ 24))

/-- The request that carries a status record. -/
def State.recReq (s : State) (tag : Tag) (r : StatusRec) : NocReq :=
  let g := r.port / 2
  let ws := statusWords (fifoW (s.fifoRec (8 * g + r.stf))) r
  s.reqOf .cells tag 0 g true (0x710000 + r.stf * 0x1000) ws.length ws false r.woken

/-- The oldest waiting record of a tag as a request. -/
def State.firstRec (s : State) (tag : Tag) : Option NocReq := ((s.cx.recs.rd tag.toNat []).head?).map (s.recReq tag)

/-- Whether a record's request has the credit and reservation, and its domain the power, to go (R326, R337). -/
def State.recFit (s : State) (q : NocReq) : Bool := s.nc.newMode.isNone && !s.heldForWake q && s.creditOk 88 q

/-- The tag whose record goes in this fc's reserved position of NI 88, before any other (R331). -/
def State.sealedRec (s : State) : Option Tag :=
  match s.sealTurn 88 with
  | some t => match s.firstRec t with
    | some q => if (s.localRefusal 88 q).isNone && s.recFit q then some t else none
    | none => none
  | none => none

/-- STATUS_RECORD_SEND (R183): the oldest waiting record of a tag is sent when credit and bucket allow, or in a reserved position of its
domain, or discarded when its tag has no entry. A record that NI 88 refuses for want of a route is lost like it. -/
def execStatusRecordSend (tag : Tag) (s : State) : Res :=
  .next (match s.cx.recs.rd tag.toNat [] with
  | [] => s
  | r :: rest =>
    let q := s.recReq tag r
    let gone := { s with cx := { s.cx with recs := s.cx.recs.wr tag.toNat [] rest } }
    if (s.localRefusal 88 q).isSome then gone.count .cxTerr (domOf tag) 31 0 1
    else match s.sealedRec with
      | some t => if t = tag then gone.nocSend 88 q true else s
      | none => if s.recFit q && s.bucketOk 88 q then gone.nocSend 88 q false else s)

/-! ## Wakes (R337) -/

/-- The NI at which a party's access to the direct window is held (R311, R337). -/
def niOf : Party → Nat
  | .core _ => 84
  | .heartwood => 85
  | .pf0 | .tenant _ => 87

/-- The requests of a source NI, in the order it may look at them: those that wait, and at node 88 the first record of each tag. -/
def State.niRequests (s : State) (ni : Nat) : List NocReq :=
  if ni = 88 then s.cx.recs.filterMap (fun e => s.firstRec (BitVec.ofNat 10 e.1)) else s.nocWait ni

/-- The domains for which a source NI holds requests or direct accesses. -/
def State.heldDomains (s : State) (ni : Nat) : List Nat :=
  ((s.niRequests ni).filterMap (fun q => if s.heldForWake q then domainOfNode q.dst else none))
    ++ (s.nc.directs.filter (fun h => niOf h.party = ni)).filterMap (fun h => s.directHeld h.acc.addr h.acc.len)

/-- DOMAIN_WAKE (R337): a source NI asks for the wake of the first powered-down domain for which it holds a request and which is not
asked yet. A stamp of 0 says that an earlier wait for the domain is over. -/
def execDomainWake (ni : Fin 5) (s : State) : Res :=
  .next (match firstSome (fun d => if (s.nc.wake.rd d none).getD 0 = 0 then some d else none) (s.heldDomains (84 + ni.val)) with
  | some d => { s with nc := { s.nc with wake := s.nc.wake.wr d none (some (s.fc + 1)) } }
  | none => s)

/-- A held access to the direct window is delivered (R337). -/
def State.deliverDirect (h : HeldDirect) (s : State) : State :=
  let s := s.direct h.party.tag h.acc.write h.acc.addr h.acc.len h.acc.data h.health
  match h.party with
  | .core n => if h.bus then (s.busDone n.val s.answer.status).busGo n else s
  | _ => s

/-- WAKE_DELIVERY (R337): the requests held for a domain may go once it is ready, or 32,000 fc after it was asked. -/
def execWakeDelivery (d : Fin 96) (s : State) : Res :=
  .next (match s.nc.wake.rd d.val none with
  | some t =>
    if s.powered d.val || (t != 0 && decide (t + 31999 ≤ s.fc)) then
      let mark (l : List NocReq) : List NocReq :=
        l.map (fun q => if domainOfNode q.dst == some d.val && s.heldForWake q then { q with woken := true } else q)
      let recs := s.cx.recs.map (fun e => (e.1, e.2.map (fun (r : StatusRec) => if r.port / 2 = d.val then { r with woken := true } else r)))
      let mine (h : HeldDirect) : Bool := s.directHeld h.acc.addr h.acc.len == some d.val || (s.directHeld h.acc.addr h.acc.len).isNone
      let s' := forEach [84, 85, 86, 87] s (fun ni s => s.setWait ni (mark (s.nocWait ni)))
      let s' := { s' with cx := { s'.cx with recs := recs }
                          nc := { s'.nc with directs := s'.nc.directs.filter (fun h => !mine h)
                                             wake := s'.nc.wake.wr d.val none (if s.powered d.val then none else some 0) } }
      forEach (s.nc.directs.filter mine) s' State.deliverDirect
    else s
  | none => s)

/-- What one fc brings to the network's ends: flits enter their routers, and requests in service move on (R160, R321, R323). -/
def State.tickNoc (s : State) : State :=
  let s := forEach (s.nc.svc.map (·.1)) s State.svcMove
  forEach (s.nc.niq.map (·.1)) s State.niMove

end Sys2Proof.Machine
end

