-- ==== Sys2Proof/Machine/Clocks.lean ====
section
/-! DEFINITION. The fabric clock and the passing of one fc (R7, R534): what happens in every fc whatever is commanded. -/

namespace Sys2Proof.Machine

/-- The fill thresholds of the FIFOs are judged as a new fc begins (R156). -/
def State.tickFifo (F : Nat) (s : State) : State :=
  let x := s.fifo F
  let thr := s.fld .ffThr F 15 0
  let n := x.q.length
  if thr = 0 || n < thr || thr ≤ (s.fifoWas F).q.length then s
  else
    let s := s.setBit .ffStat F 2 true
    let own := s.ffOwner (F / 8) (F % 8)
    if own == 0x200 then s.assertSrc F
    else if own < 0x200 then s.vfFifoEvent (BitVec.ofNat 10 own) F else s

/-- Phase counters advance and wrap; a grove that took RUN in the fc before starts its first pass (R43). -/
def State.tickPhase (s : State) (start : Tbl Bool) : State :=
  let s := forEach ((List.range 64).filter s.running) s (fun g s =>
    let n := s.fld .tlGphase g 5 0 + 1
    s.setFld .tlGphase g 5 0 (if s.fld .tlGcalact g 6 0 ≤ n then 0 else n))
  forEach (start.map (·.1)) s (fun g s => (s.setFld .tlGphase g 5 0 0).setBit .tlGphase g 7 true)

/-- The fc ends: records for the operator that found no room are discarded and counted (R358, R559). -/
def State.operatorDrop (s : State) : State :=
  let n := s.ht.olate.length
  { (if n = 0 then s else s.count .msOerrcnt 0 31 16 n) with ht := { s.ht with olate := [] } }

/-- One fc passes (log entry 2): the clock advances; results due land, passes and lattice decodes move on, and whatever the blocks do
at every fc is done. -/
def passFc (s : State) : State :=
  if s.pw.cold then s
  else
    let held := s.thermalHold
    let s := (if held then s else s.tickTime).vfErrDrop.operatorDrop.tickRtc
    let s := { s with fc := s.fc + 1, qe := { s.qe with refill := if held then s.qe.refill else (s.qe.refill + 1) % 256 } }
    let s := s.noteTime (if held then 0 else (s.reg .msTbincr 0).toNat)
    let start := s.pw.runNext
    let s := { s with pw := { s.pw with runNext := [] }, lt := { s.lt with sdNow := s.lt.sdNext, sdNext := [] } }
    let s := (s.tickPhase start).landAll
    let s := (forEach (s.ff.st.map (·.1)) s State.tickFifo).beginFc
    let s := s.tickFence.tickNoc.tickBus
    let s := forEach (s.ln.rx.map (·.1)) s State.presentRow
    let s := if s.dp.nextTick ≤ s.fc && !held then s.tickBoundary else s
    let s := if s.preOut then s else s.tickGraftPort
    (s.tickPower.settleGrafts.settleCalls.tickRelease).tickLevels

end Sys2Proof.Machine
end

