-- ==== Sys2Proof/Machine/Dispatch.lean ====
section
/-! DEFINITION. The dispatch: one arm per command of the table, each a call of the command's meaning. -/

namespace Sys2Proof.Machine

def exec (i : Instr) (s : State) : Host.Outcome State Fault Refusal :=
  match i with
  | .tileSlot g t upset => Sys2Proof.Machine.execTileSlot g t upset s
  | .tlGcalCommit p g w => Sys2Proof.Machine.execTlGcalCommit p g w s
  | .shadowCommit g => Sys2Proof.Machine.execShadowCommit g s
  | .latticeEvaluate g => Sys2Proof.Machine.execLatticeEvaluate g s
  | .barkCheck g t src upset => Sys2Proof.Machine.execBarkCheck g t src upset s
  | .stageTransfer g t o => Sys2Proof.Machine.execStageTransfer g t o s
  | .fifoWrite g f upset => Sys2Proof.Machine.execFifoWrite g f upset s
  | .fifoRead g f upset line => Sys2Proof.Machine.execFifoRead g f upset line s
  | .flush p g f => Sys2Proof.Machine.execFlush p g f s
  | .fifoNocTimeout g f => Sys2Proof.Machine.execFifoNocTimeout g f s
  | .cellInBeat p => Sys2Proof.Machine.execCellInBeat p s
  | .bankGrant => Sys2Proof.Machine.execBankGrant s
  | .packetComplete p => Sys2Proof.Machine.execPacketComplete p s
  | .cellWrite b => Sys2Proof.Machine.execCellWrite b s
  | .chainFree src => Sys2Proof.Machine.execChainFree src s
  | .statusRecordSend tag => Sys2Proof.Machine.execStatusRecordSend tag s
  | .cellOutBeat p line => Sys2Proof.Machine.execCellOutBeat p line s
  | .cellRead b health => Sys2Proof.Machine.execCellRead b health s
  | .directWindowAccess p a x => Sys2Proof.Machine.execDirectWindowAccess p a x s
  | .queueSelect p bad => Sys2Proof.Machine.execQueueSelect p bad s
  | .bucketRefill => Sys2Proof.Machine.execBucketRefill s
  | .forgive p r w => Sys2Proof.Machine.execForgive p r w s
  | .queueAttach p q w => Sys2Proof.Machine.execQueueAttach p q w s
  | .boughChange p b w => Sys2Proof.Machine.execBoughChange p b w s
  | .histogramClear p h w => Sys2Proof.Machine.execHistogramClear p h w s
  | .laneEnable p j w => Sys2Proof.Machine.execLaneEnable p j w s
  | .pllLockChange g lock => Sys2Proof.Machine.execPllLockChange g lock s
  | .calibrationDone j => Sys2Proof.Machine.execCalibrationDone j s
  | .lockChange j lock align => Sys2Proof.Machine.execLockChange j lock align s
  | .receiveFrame j f => Sys2Proof.Machine.execReceiveFrame j f s
  | .rawReceive j u ago rot => Sys2Proof.Machine.execRawReceive j u ago rot s
  | .transmitFrame j beats lane rot upset => Sys2Proof.Machine.execTransmitFrame j beats lane rot upset s
  | .rawTransmit j due upset => Sys2Proof.Machine.execRawTransmit j due upset s
  | .trainingStart p j w => Sys2Proof.Machine.execTrainingStart p j w s
  | .trainingEnd j result taps => Sys2Proof.Machine.execTrainingEnd j result taps s
  | .eyeStart p j w => Sys2Proof.Machine.execEyeStart p j w s
  | .eyeDone j m0 m1 m2 => Sys2Proof.Machine.execEyeDone j m0 m1 m2 s
  | .laneCounterSnap p j w => Sys2Proof.Machine.execLaneCounterSnap p j w s
  | .timeBaseSet p w => Sys2Proof.Machine.execTimeBaseSet p w s
  | .timeBaseAdj p w => Sys2Proof.Machine.execTimeBaseAdj p w s
  | .timeBaseSnap p w => Sys2Proof.Machine.execTimeBaseSnap p w s
  | .ppsOutPulse rise => Sys2Proof.Machine.execPpsOutPulse rise s
  | .ppsInCapture => Sys2Proof.Machine.execPpsInCapture s
  | .helloSend j => Sys2Proof.Machine.execHelloSend j s
  | .helloReceive j f => Sys2Proof.Machine.execHelloReceive j f s
  | .helloTimeout j => Sys2Proof.Machine.execHelloTimeout j s
  | .creditSend j => Sys2Proof.Machine.execCreditSend j s
  | .creditReceive j f => Sys2Proof.Machine.execCreditReceive j f s
  | .creditReturn j upset => Sys2Proof.Machine.execCreditReturn j upset s
  | .pyrilDataSend j beats rot upset => Sys2Proof.Machine.execPyrilDataSend j beats rot upset s
  | .pyrilDataReceive j f pay => Sys2Proof.Machine.execPyrilDataReceive j f pay s
  | .nocRequestIssue ni => Sys2Proof.Machine.execNocRequestIssue ni s
  | .flitForward resp r out upset => Sys2Proof.Machine.execFlitForward resp r out upset s
  | .nocServe node upset => Sys2Proof.Machine.execNocServe node upset s
  | .nocResponseArrive ni => Sys2Proof.Machine.execNocResponseArrive ni s
  | .nocTimeout ni txid => Sys2Proof.Machine.execNocTimeout ni txid s
  | .nocBucketRefill => Sys2Proof.Machine.execNocBucketRefill s
  | .fenceReq d => Sys2Proof.Machine.execFenceReq d s
  | .domainWake ni => Sys2Proof.Machine.execDomainWake ni s
  | .wakeDelivery d => Sys2Proof.Machine.execWakeDelivery d s
  | .routeEntryWrite p ni d w => Sys2Proof.Machine.execRouteEntryWrite p ni d w s
  | .injectionEntryWrite p ni n w => Sys2Proof.Machine.execInjectionEntryWrite p ni n w s
  | .nocModeSwitch => Sys2Proof.Machine.execNocModeSwitch s
  | .hostBarAccess f a => Sys2Proof.Machine.execHostBarAccess f a s
  | .configStreamWrite len ws => Sys2Proof.Machine.execConfigStreamWrite len ws s
  | .h2cDoorbell p n => Sys2Proof.Machine.execH2cDoorbell p n s
  | .c2hDoorbell p n => Sys2Proof.Machine.execC2hDoorbell p n s
  | .vopdbDoorbell v w => Sys2Proof.Machine.execVopdbDoorbell v w s
  | .vfErrorRead v => Sys2Proof.Machine.execVfErrorRead v s
  | .vfFifoEventRead v => Sys2Proof.Machine.execVfFifoEventRead v s
  | .errorRecordEnqueue => Sys2Proof.Machine.execErrorRecordEnqueue s
  | .submissionTail v q w => Sys2Proof.Machine.execSubmissionTail v q w s
  | .descriptorFetch v q => Sys2Proof.Machine.execDescriptorFetch v q s
  | .dmaChunk v q => Sys2Proof.Machine.execDmaChunk v q s
  | .completionWrite v q => Sys2Proof.Machine.execCompletionWrite v q s
  | .queuePairEnable v q w => Sys2Proof.Machine.execQueuePairEnable v q w s
  | .queuePairDisable v q w => Sys2Proof.Machine.execQueuePairDisable v q w s
  | .graftOpen v w => Sys2Proof.Machine.execGraftOpen v w s
  | .graftDataWrite v ws => Sys2Proof.Machine.execGraftDataWrite v ws s
  | .graftCommitWrite v w => Sys2Proof.Machine.execGraftCommitWrite v w s
  | .graftCancel v w => Sys2Proof.Machine.execGraftCancel v w s
  | .graftSubmissionTimeout v => Sys2Proof.Machine.execGraftSubmissionTimeout v s
  | .graftCheck => Sys2Proof.Machine.execGraftCheck s
  | .vfFunctionLevelReset v => Sys2Proof.Machine.execVfFunctionLevelReset v s
  | .pf0Reset => Sys2Proof.Machine.execPf0Reset s
  | .take n u => Sys2Proof.Machine.execTake n u s
  | .create n obj u => Sys2Proof.Machine.execCreate n obj u s
  | .destroy n obj u => Sys2Proof.Machine.execDestroy n obj u s
  | .setprio n obj u => Sys2Proof.Machine.execSetprio n obj u s
  | .setaff n obj u => Sys2Proof.Machine.execSetaff n obj u s
  | .wakeThread n obj u => Sys2Proof.Machine.execWakeThread n obj u s
  | .yieldThread n obj u => Sys2Proof.Machine.execYieldThread n obj u s
  | .exitThread n obj u => Sys2Proof.Machine.execExitThread n obj u s
  | .delay n obj u => Sys2Proof.Machine.execDelay n obj u s
  | .delayto n obj u => Sys2Proof.Machine.execDelayto n obj u s
  | .setdl n obj u => Sys2Proof.Machine.execSetdl n obj u s
  | .clrdl n obj u => Sys2Proof.Machine.execClrdl n obj u s
  | .semtake n obj u => Sys2Proof.Machine.execSemtake n obj u s
  | .semgive n obj u => Sys2Proof.Machine.execSemgive n obj u s
  | .seminit n obj u => Sys2Proof.Machine.execSeminit n obj u s
  | .egset n obj u => Sys2Proof.Machine.execEgset n obj u s
  | .egclr n obj u => Sys2Proof.Machine.execEgclr n obj u s
  | .egwait n obj all clr u => Sys2Proof.Machine.execEgwait n obj all clr u s
  | .evwait n obj u => Sys2Proof.Machine.execEvwait n obj u s
  | .evbind n obj u => Sys2Proof.Machine.execEvbind n obj u s
  | .evclr n obj u => Sys2Proof.Machine.execEvclr n obj u s
  | .eventPending e => Sys2Proof.Machine.execEventPending e s
  | .eventDelivery e u => Sys2Proof.Machine.execEventDelivery e u s
  | .tick upset => Sys2Proof.Machine.execTick upset s
  | .wakeExpiry => Sys2Proof.Machine.execWakeExpiry s
  | .deadlineMiss => Sys2Proof.Machine.execDeadlineMiss s
  | .dlmissRead p => Sys2Proof.Machine.execDlmissRead p s
  | .traceRead p => Sys2Proof.Machine.execTraceRead p s
  | .audit upset => Sys2Proof.Machine.execAudit upset s
  | .rebuild tableOk selfTestOk => Sys2Proof.Machine.execRebuild tableOk selfTestOk s
  | .coreBusAccess n c op a x => Sys2Proof.Machine.execCoreBusAccess n c op a x s
  | .heartwoodBoot => Sys2Proof.Machine.execHeartwoodBoot s
  | .comparatorSelfTest flag0 flag1 => Sys2Proof.Machine.execComparatorSelfTest flag0 flag1 s
  | .heartwoodFault cause => Sys2Proof.Machine.execHeartwoodFault cause s
  | .go p ch => Sys2Proof.Machine.execGo p ch s
  | .infoCall ch => Sys2Proof.Machine.execInfoCall ch s
  | .admitTenant ch => Sys2Proof.Machine.execAdmitTenant ch s
  | .extend ch => Sys2Proof.Machine.execExtend ch s
  | .releaseCall ch => Sys2Proof.Machine.execReleaseCall ch s
  | .treset ch => Sys2Proof.Machine.execTreset ch s
  | .regrant ch => Sys2Proof.Machine.execRegrant ch s
  | .vread ch => Sys2Proof.Machine.execVread ch s
  | .tkeyset ch => Sys2Proof.Machine.execTkeyset ch s
  | .tkeyclr ch => Sys2Proof.Machine.execTkeyclr ch s
  | .opkeyprog ch => Sys2Proof.Machine.execOpkeyprog ch s
  | .opkeyrev ch => Sys2Proof.Machine.execOpkeyrev ch s
  | .rollfwd ch => Sys2Proof.Machine.execRollfwd ch s
  | .rekey ch => Sys2Proof.Machine.execRekey ch s
  | .bankCall ch => Sys2Proof.Machine.execBankCall ch s
  | .domainCall ch => Sys2Proof.Machine.execDomainCall ch s
  | .portrate ch => Sys2Proof.Machine.execPortrate ch s
  | .pinown ch => Sys2Proof.Machine.execPinown ch s
  | .trnom ch => Sys2Proof.Machine.execTrnom ch s
  | .bootcfg ch => Sys2Proof.Machine.execBootcfg ch s
  | .pbread ch => Sys2Proof.Machine.execPbread ch s
  | .rtcset ch => Sys2Proof.Machine.execRtcset ch s
  | .fwwrite ch => Sys2Proof.Machine.execFwwrite ch s
  | .nvmwrite ch => Sys2Proof.Machine.execNvmwrite ch s
  | .debugCall ch => Sys2Proof.Machine.execDebugCall ch s
  | .debugend ch => Sys2Proof.Machine.execDebugend ch s
  | .debugTokenExpiry => Sys2Proof.Machine.execDebugTokenExpiry s
  | .rtcReadLatch p => Sys2Proof.Machine.execRtcReadLatch p s
  | .sessionStart port w => Sys2Proof.Machine.execSessionStart port w s
  | .headerCheck ws => Sys2Proof.Machine.execHeaderCheck ws s
  | .nopCmd ws => Sys2Proof.Machine.execNopCmd ws s
  | .frameWrite ws => Sys2Proof.Machine.execFrameWrite ws s
  | .frameRepeat ws => Sys2Proof.Machine.execFrameRepeat ws s
  | .frameFill ws => Sys2Proof.Machine.execFrameFill ws s
  | .memoryWrite ws => Sys2Proof.Machine.execMemoryWrite ws s
  | .setDevice ws => Sys2Proof.Machine.execSetDevice ws s
  | .releaseOrder ws => Sys2Proof.Machine.execReleaseOrder ws s
  | .checkpoint ws => Sys2Proof.Machine.execCheckpoint ws s
  | .endCmd ws => Sys2Proof.Machine.execEndCmd ws s
  | .recordWrite ws => Sys2Proof.Machine.execRecordWrite ws s
  | .imageVerify ws => Sys2Proof.Machine.execImageVerify ws s
  | .loadFail cause => Sys2Proof.Machine.execLoadFail cause s
  | .sessionTimeout => Sys2Proof.Machine.execSessionTimeout s
  | .scpTruncation => Sys2Proof.Machine.execScpTruncation s
  | .pllLockWait => Sys2Proof.Machine.execPllLockWait s
  | .stageOut => Sys2Proof.Machine.execStageOut s
  | .stageWen => Sys2Proof.Machine.execStageWen s
  | .stageRun => Sys2Proof.Machine.execStageRun s
  | .watchdogExpiry => Sys2Proof.Machine.execWatchdogExpiry s
  | .wdclr p w => Sys2Proof.Machine.execWdclr p w s
  | .reload p w => Sys2Proof.Machine.execReload p w s
  | .nvmPreverify eccBad => Sys2Proof.Machine.execNvmPreverify eccBad s
  | .fullLoadStart => Sys2Proof.Machine.execFullLoadStart s
  | .readback ws => Sys2Proof.Machine.execReadback ws s
  | .operatorGraftSession ws => Sys2Proof.Machine.execOperatorGraftSession ws s
  | .graftPortRecord => Sys2Proof.Machine.execGraftPortRecord s
  | .graftPortCommit => Sys2Proof.Machine.execGraftPortCommit s
  | .graftPortDiscard => Sys2Proof.Machine.execGraftPortDiscard s
  | .graftPortCommandDiscard => Sys2Proof.Machine.execGraftPortCommandDiscard s
  | .graftCommit g => Sys2Proof.Machine.execGraftCommit g s
  | .graftWen g => Sys2Proof.Machine.execGraftWen g s
  | .graftRun g => Sys2Proof.Machine.execGraftRun g s
  | .gpioSet p hi w => Sys2Proof.Machine.execGpioSet p hi w s
  | .gpioClear p hi w => Sys2Proof.Machine.execGpioClear p hi w s
  | .gpioToggle p hi w => Sys2Proof.Machine.execGpioToggle p hi w s
  | .patternMatch u => Sys2Proof.Machine.execPatternMatch u s
  | .timerWrap n => Sys2Proof.Machine.execTimerWrap n s
  | .timerCapture n => Sys2Proof.Machine.execTimerCapture n s
  | .uartTransmit n => Sys2Proof.Machine.execUartTransmit n s
  | .uartReceive n byte parity stop => Sys2Proof.Machine.execUartReceive n byte parity stop s
  | .spiTransfer n miso => Sys2Proof.Machine.execSpiTransfer n miso s
  | .twStart n => Sys2Proof.Machine.execTwStart n s
  | .twWrite n ack => Sys2Proof.Machine.execTwWrite n ack s
  | .twReadAck n byte => Sys2Proof.Machine.execTwReadAck n byte s
  | .twReadNack n byte => Sys2Proof.Machine.execTwReadNack n byte s
  | .twStop n => Sys2Proof.Machine.execTwStop n s
  | .stretchTimeout n => Sys2Proof.Machine.execStretchTimeout n s
  | .mdioFrame n drives rdata => Sys2Proof.Machine.execMdioFrame n drives rdata s
  | .serialReceiveRead p k n => Sys2Proof.Machine.execSerialReceiveRead p k n s
  | .referenceSelect p w => Sys2Proof.Machine.execReferenceSelect p w s
  | .slewDone => Sys2Proof.Machine.execSlewDone s
  | .referenceLoss => Sys2Proof.Machine.execReferenceLoss s
  | .pllLockLoss => Sys2Proof.Machine.execPllLockLoss s
  | .coldReset => Sys2Proof.Machine.execColdReset s
  | .supplyFailure k => Sys2Proof.Machine.execSupplyFailure k s
  | .warmReset tr => Sys2Proof.Machine.execWarmReset tr s
  | .warmResetEnd => Sys2Proof.Machine.execWarmResetEnd s
  | .canopyReset p w => Sys2Proof.Machine.execCanopyReset p w s
  | .thermalTrip sensor => Sys2Proof.Machine.execThermalTrip sensor s
  | .thermalHoldEnd => Sys2Proof.Machine.execThermalHoldEnd s
  | .domainReady d => Sys2Proof.Machine.execDomainReady d s
  | .tenantResetRelease g t => Sys2Proof.Machine.execTenantResetRelease g t s
  | .sensorSample temps volts => Sys2Proof.Machine.execSensorSample temps volts s
  | .railFault d => Sys2Proof.Machine.execRailFault d s
  | .canopyEccError n addr fetch pc => Sys2Proof.Machine.execCanopyEccError n addr fetch pc s
  | .scrub e => Sys2Proof.Machine.execScrub e s
  | .nocFatalReport => Sys2Proof.Machine.execNocFatalReport s
  | .operatorErrorRead p => Sys2Proof.Machine.execOperatorErrorRead p s
  | .meterReadLatch p d m => Sys2Proof.Machine.execMeterReadLatch p d m s
  | .mmclr p w => Sys2Proof.Machine.execMmclr p w s
  | .registerWrite p r w => Sys2Proof.Machine.execRegisterWrite p r w s
  | .hubEdge pads => Sys2Proof.Machine.execHubEdge pads s
  | .pgoodChange b good => Sys2Proof.Machine.execPgoodChange b good s
  | .referenceReturn ppm => Sys2Proof.Machine.execReferenceReturn ppm s
  | .taprootRelock => Sys2Proof.Machine.execTaprootRelock s
  | .hostCompletion v q a => Sys2Proof.Machine.execHostCompletion v q a s
  | .tapInstruction t => Sys2Proof.Machine.execTapInstruction t s
  | .fenceI n => Sys2Proof.Machine.execFenceI n s

end Sys2Proof.Machine
end

