-- ==== Sys2Proof/Machine/Step.lean ====
section
/-! DEFINITION. One step of the block: the command at the front of the queue takes effect; on an empty queue one fc passes
(log entry 2). -/

namespace Sys2Proof.Machine

/-- Take the command at the front of the queue and run it on the state with the rest; with no command waiting, one fc of the
fabric clock passes (R7, log entry 2). -/
def step (s : State) : Host.Outcome State Fault Refusal :=
  match s.pending with
  | [] => .next (Sys2Proof.Machine.passFc s)
  | c :: r => Sys2Proof.Machine.exec c { s with pending := r }

/-- The state with the command a word spells put at the front of the queue; unchanged where the word spells none. -/
def State.withFetchWord (s : State) (nbits w : Nat) : State :=
  match decodeTableWord nbits w with
  | some c => { s with pending := c :: s.pending }
  | none => s

end Sys2Proof.Machine
end

