-- ==== Sys2Proof/Safety.lean ====
section
/-! DEFINITION. What statements about runs speak of: outcomes, and the invariants of the state. -/

namespace Sys2Proof.Machine

/-- The outcome goes on, to a state with a property. -/
def Goes (r : Res) (P : State → Prop) : Prop := ∃ t, r = .next t ∧ P t

/-- The state of a tile slot that has taken its one slot of the fc. -/
def State.slotTaken (s : State) (T : Nat) : State :=
  { s with tl := { s.tl with slotAt := s.tl.slotAt.wr T 0 (s.fc + 1) } }

/-- What a tile slot finds: a running powered grove, a slot not yet taken in this fc, calendar entry e below 15 with members,
and ring r its member by the steering index i. -/
def State.slotFinds (s : State) (T e i n r : Nat) : Prop :=
  s.running (T / 64) = true ∧ s.powered (T / 64) = true ∧ s.tl.slotAt.rd T 0 ≠ s.fc + 1
  ∧ s.calEntry T (s.fld .tlGphase (T / 64) 5 0) = e ∧ e ≠ 15
  ∧ n = (ones 16 (s.actFld .tlGrp (16 * T + e) 15 0)).length ∧ n ≠ 0
  ∧ i = s.sidx T e ∧ r = (ones 16 (s.actFld .tlGrp (16 * T + e) 15 0)).getD (i % n) 0

/-- Cell-in port p accepts beats: its grove is powered, open and past WEN, and stage OUT is taken. -/
def State.cellInOpen (s : State) (p : Nat) : Prop :=
  s.powered (p / 2) = true ∧ s.closed (p / 2) = false ∧ s.cf.wenGrove.rd (p / 2) false = true ∧ s.cf.outDone = true

/-- The codes of a route string up to its END, at most `fuel` (R316). -/
def routeCodes (route fuel : Nat) : List Nat :=
  match fuel with
  | 0 => []
  | fuel + 1 => if route % 8 < 4 then route % 8 :: routeCodes (route / 8) fuel else []

/-- The router that route codes lead to from router r. -/
def walkRoute (r : Nat) : List Nat → Option Nat
  | [] => some r
  | c :: l => match linkTo r c with
    | some r' => walkRoute r' l
    | none => none

/-- Core n may issue a command that is judged at once: it is out of reset, does not wait in TAKE, the dispatcher is not frozen, and neither
a tick nor an event's delivery comes before it (R384, R389, R403). -/
def State.cmdOpen (s : State) (n : Nat) : Prop :=
  s.dp.coresHeld = false ∧ (s.coreSt n).held = false ∧ s.frozen = false ∧ s.dp.tickDue = false
  ∧ (s.dp.lastCmd = false ∨ s.nextSource = none)

/-- A core command completes: its effect gives a state with P, its result is written, and the passes end it (R385, R389). -/
def Ends (r : Res) (n : Nat) (st : Status) (ended : Bool) (val : Word) (P : State → Prop) : Prop :=
  ∃ u : State, r = .next ((u.cmdResult n st ended val).passes2) ∧ P u

/-- An operation of the dispatcher itself completes, ended by the passes (R385). -/
def EndsInPasses (r : Res) (P : State → Prop) : Prop := ∃ u : State, r = .next u.passes2 ∧ P u

/-- No thread and no core has changed but what the property says of thread i and core n. -/
def State.othersKept (s u : State) (n i : Nat) : Prop :=
  (∀ j, j ≠ i → u.thr j = s.thr j) ∧ (∀ m, m ≠ n → u.coreSt m = s.coreSt m)

/-- Channel ch's call is the next heartwood takes, with operation code opc and every reserved field 0, and the state of the canopy's
firmware does not restrict it (R421, R423, R426). -/
def State.callStands (s : State) (ch : Fin 9) (opc : Nat) (used : List Nat) : Prop :=
  s.nextCall ch = true ∧ bits (s.reqW ch.val 0) 31 24 = opc ∧ bits (s.reqW ch.val 0) 15 0 = 0
  ∧ (List.range 7).all (fun k => s.reqW ch.val (k + 1) &&& (0xFFFFFFFF ^^^ used.getD k 0) == 0) = true
  ∧ (ch.val = 8 → s.flag .htStat 0 29 = true → [0, 0x20, 0x21, 0x22, 0x28].contains opc = true)

/-- The state in which heartwood judges channel ch's call: it has left the queue. -/
def State.taken (s : State) (ch : Fin 9) : State :=
  { s with ht := { s.ht with callq := s.ht.callq.filter (fun x => x.2 != .chan ch) } }

/-- A call is answered with a status, a reason and result words, from a state with P (R424). -/
def Answers (r : Res) (ch : Fin 9) (st reason : Nat) (res : List Nat) (P : State → Prop) : Prop :=
  ∃ u : State, r = .next (u.respondCall ch.val st reason (res.map (BitVec.ofNat 32))) ∧ P u

/-- A call is judged good and waits before its answer (R240, R539, R541, R548). -/
def WaitsFor (r : Res) (ch : Fin 9) (what : CallUntil) (res : List Nat) (P : State → Prop) : Prop :=
  ∃ t : State, r = .next t ∧ t.chan ch.val = 2 ∧ (∃ old, t.ht.wait = some ⟨ch, what, res.map (BitVec.ofNat 32), old⟩) ∧ P t

/-- The n bytes of a call's argument block, when it lies in canopy SRAM and holds no poisoned word (R423). -/
def State.callBlock (s : State) (ch : Fin 9) (n : Nat) : Option (List Byte) :=
  match sramBlock (s.reqW ch.val 1 + bits (s.reqW ch.val 2) 7 0 * 2 ^ 32) n with
  | some a => if s.sramPoison a n then none else some (s.sramBytes a n)
  | none => none

/-- The resource vector a call names, as its header and items (R238). -/
def State.callVector (s : State) (ch : Fin 9) : Option (Nat × List Nat) :=
  match s.callBlock ch 8 with
  | none => none
  | some h =>
    let n := bits (bytesLE h) 12 0
    if n = 0 ∨ 4096 < n then none
    else (s.callBlock ch (8 * (n + 1))).map (fun l => (bytesLE h, (words64 l).drop 1))

/-- The next words of the load l spell a whole command of operation op, as the plain words say, which fits the section and is SET_DEVICE
exactly when that has not come yet; u is the state once they are taken (R440, R441). -/
def State.cmdStands (s : State) (op : Nat) (ws : List Word) (l : Load) (u : State) (plain : List Word) : Prop :=
  s.commanding = some l ∧ ws ≠ [] ∧ plain = plainWords l.hdr l.ckey (4 * l.cipher.length) ws
  ∧ bits (plain.getD 0 0).toNat 31 28 = op ∧ cmdLen (plain.getD 0 0) = some ws.length
  ∧ s.nextWords l (16 + hKeyWords l.hdr + l.cipher.length) ws = some u
  ∧ l.cipher.length + ws.length ≤ hLength l.hdr / 4 ∧ (op ≠ 8 → l.cipher.length + ws.length < hLength l.hdr / 4)
  ∧ l.setDev = decide (op ≠ 5)

/-- A load with a command's words taken: the CRC runs over all but a CHECKPOINT's, which END must follow (R444). -/
def Load.after (l : Load) (op : Nat) (ws plain : List Word) : Load :=
  let l := { l with cipher := l.cipher ++ ws }
  if op = 7 then l else { l with crc := crcRun polyC l.crc (wordsBytes plain), checked := l.checked && op == 8 }

end Sys2Proof.Machine
end

