-- ==== Sys2Proof/WellFormed.lean ====
section
/-! DEFINITION. Which commands are well formed: operands that can occur. A command that is not gives no meaning of the spec's to its
operands; `exec` treats it like any other (log entry 1). -/

namespace Sys2Proof

open Machine

/-- A register that its table has (R9). -/
def RegId.wf (r : RegId) : Bool := decide (r.idx < r.name.count)

/-- An access of at least one byte, inside the widest address space (R25), with the words of a write and none of a read. -/
def Access.wf (a : Access) : Bool :=
  decide (0 < a.len) && decide (a.addr + a.len ≤ 2 ^ 40) && decide (a.data.length = if a.write then (a.len + 3) / 4 else 0)

/-- A codeword corrects at most 15 symbols of 10 bits each, and no bit when it is uncorrectable (R306). -/
def FecWord.wf (f : FecWord) : Bool :=
  match f.corrected with
  | some n => decide (n.val ≤ f.bits) && decide (f.bits ≤ 10 * n.val)
  | none => decide (f.bits = 0)

/-- A frame has bytes, and codewords that are well formed. -/
def RxFrame.wf (f : RxFrame) : Bool := decide (0 < f.bytes.length) && f.fec.all FecWord.wf

/-- A beat is six words; a codeword's payload 215 words (R280). -/
def RawUnit.wf : RawUnit → Bool
  | .beat ws => decide (ws.length = 6)
  | .codeword ws f => decide (ws.length = 215) && f.wf

/-- No unit is both corrected and bad (R196). -/
def CellHealth.wf (h : CellHealth) : Bool := h.corrected.all (fun u => !(h.bad.contains u))

/-- The same of the units of a direct window access. -/
def UnitHealth.wf (h : UnitHealth) : Bool := h.corrected.all (fun u => !(h.bad.contains u))

/-- How many serial ports of a kind there are (R516). -/
def SerialKind.ports : SerialKind → Nat
  | .uart => 4 | .spi => 4 | .twoWire => 8 | .mdio => 2

/-- Whether a command's operands can occur. -/
def Instr.wf : Instr → Bool
  | .registerWrite _ r _ => r.wf
  | .forgive _ r _ => r.wf && [RegName.qeQrate, .qeBcir, .qeBpir].contains r.name
  | .directWindowAccess _ a x => a.wf && x.wf
  | .hostBarAccess _ a => a.wf
  | .coreBusAccess _ _ _ a x => a.wf && x.wf
  | .receiveFrame _ f => f.wf
  | .helloReceive _ f => f.wf
  | .creditReceive _ f => f.wf
  | .pyrilDataReceive _ f _ => f.wf
  | .rawReceive _ u _ _ => u.wf
  | .cellRead _ h => h.wf
  | .trainingEnd _ r _ => r != 0
  | .configStreamWrite len ws => decide (0 < len) && decide (ws.length = (len + 3) / 4)
  | .graftDataWrite _ ws => decide (0 < ws.length)
  | .headerCheck ws | .nopCmd ws | .frameWrite ws | .frameRepeat ws | .frameFill ws | .memoryWrite ws | .setDevice ws
  | .releaseOrder ws | .checkpoint ws | .endCmd ws | .recordWrite ws | .imageVerify ws | .readback ws
  | .operatorGraftSession ws => decide (0 < ws.length)
  | .nocServe _ upset => upset.all (fun k => decide (k < 64))
  | .heartwoodFault c => decide (1 ≤ c.toNat) && decide (c.toNat ≤ 4)
  | .serialReceiveRead _ k n => decide (n.val < k.ports)
  | .sensorSample t v => decide (t.length = 16) && decide (v.length = 24)
  | .hostCompletion _ _ (.data ws) | .hostCompletion _ _ (.poisoned ws) => decide (0 < ws.length)
  | _ => true

end Sys2Proof
end

