-- ==== Sys2Proof/Certificates/Slice0/Obligations.lean ====
section
/-! DEFINITION. The statements for the provers. Each names the rules it formalises in OBLIGATIONS.json. `Goes r P` says that the
outcome r is a next state with P. -/

open Sys2Proof Sys2Proof.Machine

/-- A step takes the command at the front of the queue and runs it on the state with the queue's rest. -/
def Obligations.StepRunsTheFrontCommand : Prop :=
  ∀ (c : Instr) (l : List Instr) (s : State), s.pending = c :: l → step s = exec c { s with pending := l }

/-- Every command goes on to a next state and leaves the waiting commands as they are. -/
def Obligations.EveryCommandGoesOnAndKeepsTheQueue : Prop :=
  ∀ (c : Instr) (s : State), Goes (exec c s) (fun t => t.pending = s.pending)

/-- The model's choice (log entry 2): with no command waiting, a step is one fc of the fabric clock; its refill counter moves on modulo 256,
but in a thermal hold. -/
def Obligations.IdleStepPassesOneFc : Prop :=
  ∀ s : State, s.pending = [] → s.pw.cold = false →
    Goes (step s) (fun t => t.fc = s.fc + 1 ∧ t.qe.refill = (if s.thermalHold then s.qe.refill else (s.qe.refill + 1) % 256) ∧ t.pending = [])

/-- TILE_SLOT: the ring chosen executes; a member that is not ripe is skipped and the index moves to the next member from the fc after; an
owner fault is counted, and told to heartwood; a ring that waits for a word or for room does nothing. An executing ring whose word unit
gives W without poison puts W in flight, for fc s + 2, to the data register that its DST names and to every output port that OUTSEL gives W,
under its owner's tag; registers, memory and flags change only by landing. -/
def Obligations.TileSlotsExecuteAndPutResultsInFlight : Prop :=
  (∀ (g t : Fin 64) (s : State) (e i n r : Nat), let T := tileIx g.val t.val
     s.slotFinds T e i n r →
     (s.ripe T r = false →
       exec (.tileSlot g t []) s = .next ((s.slotTaken T).steerTo T e (s.fc + 1) ((i % n + 1) % n)))
     ∧ (s.ripe T r = true → rOwner (s.ringRec T r) ≠ s.actFld .tlGrp (16 * T + e) 31 22 →
       Goes (exec (.tileSlot g t []) s) (fun u =>
         u.fld .tlGfault (T / 64) 31 0 = satAdd 32 (s.fld .tlGfault (T / 64) 31 0) 1
         ∧ (∃ rec, u.ht.recs = s.ht.recs ++ [(.heartwood, rec)])
         ∧ u.tl.land = s.tl.land ∧ u.tl.rst = s.tl.rst ∧ u.tl.mem = s.tl.mem))
     ∧ (s.ripe T r = true → rOwner (s.ringRec T r) = s.actFld .tlGrp (16 * T + e) 31 22 →
       s.portsOwned T (s.ringRec T r) (rOwner (s.ringRec T r)) = true →
       (s.canIssue T (s.ringRec T r) = false → exec (.tileSlot g t []) s = .next (s.slotTaken T))
       ∧ (s.canIssue T (s.ringRec T r) = true →
         exec (.tileSlot g t []) s = .next ((s.slotTaken T).execRing T r e i n))))
  ∧ (∀ (s : State) (T r e i n : Nat) (x y m m1 : Opd) (w : WuRes), let rcd := s.ringRec T r
     let z : Slot := ⟨T, r, rcd, x, y, m, m1⟩
     rMemop rcd = 0 →
     x = (if bit (rInsel rcd) 15 then ((s.portWord T (bits (rInsel rcd) 14 13)).map CWord.opd).getD Opd.idle else Opd.idle) →
     y = (if bit (rInsel rcd) 11 then ((s.portWord T (bits (rInsel rcd) 10 9)).map CWord.opd).getD Opd.idle else Opd.idle) →
     m = Opd.idle → m1 = Opd.idle →
     wordUnit (rWuop rcd) (rImm rcd) (z.src s (bits (rWuop rcd) 13 10)) (z.src s (bits (rWuop rcd) 9 6)) (s.flagsOf T r)
       (s.pReg T r (bits (rWuop rcd) 1 0)) = some w → w.w.poison = false →
     let u := s.execRing T r e i n
     (∀ ef ∈ z.wWrites w.w.data, ∃ l ∈ u.tl.land.rd T [], l.due = s.fc + 2 ∧ l.ring.val = r % 16
         ∧ l.tag = BitVec.ofNat 10 (rOwner rcd) ∧ l.eff = ef)
     ∧ (∀ k : Fin 4, outCode (rOutsel rcd) k.val = 1 → ∃ l ∈ u.tl.land.rd T [], l.due = s.fc + 2
         ∧ l.eff = .port k (w.w.cword (BitVec.ofNat 10 (rOwner rcd))))
     ∧ u.tl.rst = s.tl.rst ∧ u.tl.mem = s.tl.mem ∧ u.regs = s.regs ∧ u.act = s.act)

/-- The word unit's sums and differences: W, carry and signed overflow of ADD, ADC, SUB and SBB, and W of the saturating pair. An
accumulator holds the sum modulo 2^56, and the change says that it wrapped exactly when the exact sum lies outside 56 bits; a store divides
by 2^SHIFT to the nearest integer, ties to even, and clips to 24 bits. -/
def Obligations.WordUnitAndAccumulatorArithmetic : Prop :=
  (∀ (var imm bcode pv a b : Nat) (c cond : Bool), a < 2 ^ 24 → b < 2 ^ 24 →
     (∃ o, wuCalc 0x02 var a b imm bcode c cond pv = some o ∧ o.w = (a + b) % 2 ^ 24 ∧ (o.c = true ↔ 2 ^ 24 ≤ a + b)
       ∧ (o.v = true ↔ sgn 24 o.w ≠ sgn 24 a + sgn 24 b))
     ∧ (∃ o, wuCalc 0x03 var a b imm bcode c cond pv = some o ∧ o.w = (a + b + b2n c) % 2 ^ 24
       ∧ (o.c = true ↔ 2 ^ 24 ≤ a + b + b2n c) ∧ (o.v = true ↔ sgn 24 o.w ≠ sgn 24 a + sgn 24 b + b2n c))
     ∧ (∃ o, wuCalc 0x04 var a b imm bcode c cond pv = some o ∧ o.w = (a + 2 ^ 24 - b) % 2 ^ 24 ∧ (o.c = true ↔ a < b)
       ∧ (o.v = true ↔ sgn 24 o.w ≠ sgn 24 a - sgn 24 b))
     ∧ (∃ o, wuCalc 0x05 var a b imm bcode c cond pv = some o ∧ (o.w + b + b2n c) % 2 ^ 24 = a % 2 ^ 24
       ∧ (o.c = true ↔ a < b + b2n c) ∧ (o.v = true ↔ sgn 24 o.w ≠ sgn 24 a - sgn 24 b - b2n c))
     ∧ (∃ o, wuCalc 0x06 var a b imm bcode c cond pv = some o ∧ o.w < 2 ^ 24
       ∧ sgn 24 o.w = max (-(2 ^ 23 : Int)) (min (2 ^ 23 - 1) (sgn 24 a + sgn 24 b))
       ∧ (o.sat = true ↔ sgn 24 o.w ≠ sgn 24 a + sgn 24 b))
     ∧ (∃ o, wuCalc 0x07 var a b imm bcode c cond pv = some o ∧ o.w < 2 ^ 24
       ∧ sgn 24 o.w = max (-(2 ^ 23 : Int)) (min (2 ^ 23 - 1) (sgn 24 a - sgn 24 b))
       ∧ (o.sat = true ↔ sgn 24 o.w ≠ sgn 24 a - sgn 24 b)))
  ∧ ((∀ (v : BitVec 56) (x : Int), (accAct v (.add x)).1 = v + BitVec.ofInt 56 x
       ∧ ((accAct v (.add x)).2 = true ↔ (accAct v (.add x)).1.toInt ≠ v.toInt + x)
       ∧ accAct v (.set x) = (BitVec.ofInt 56 x, false))
   ∧ (∀ (v : BitVec 56) (sh : Nat), let q := roundEven v.toInt sh
       2 * (v.toInt - q * 2 ^ sh) ≤ 2 ^ sh ∧ 2 * (q * 2 ^ sh - v.toInt) ≤ 2 ^ sh
       ∧ (2 * (v.toInt - q * 2 ^ sh) = 2 ^ sh ∨ 2 * (q * 2 ^ sh - v.toInt) = 2 ^ sh → q % 2 = 0)
       ∧ sgn 24 (macStore v sh).1 = max (-(2 ^ 23 : Int)) (min (2 ^ 23 - 1) q)
       ∧ ((macStore v sh).2 = true ↔ sgn 24 (macStore v sh).1 ≠ q)))

/-- TL_GCAL_COMMIT: heartwood's write of COMMIT 1 and a legal CALLEN sets COMMIT, stages CALLEN and notes the fc; a tenant meets BARK, one
alarm and no change of the register. SHADOW_COMMIT: at the first fc of a pass of a running grove, with a commit requested in an earlier fc,
every shadow register of the grove becomes its active copy, no active copy of another grove changes, CALLEN in use is the staged one, and
COMMIT reads 0. -/
def Obligations.CalendarsCommitTogetherAtTheWrap : Prop :=
  (∀ (g : Fin 64) (w : Word) (s : State),
     (bits w.toNat 31 31 = 1 → 1 ≤ bits w.toNat 6 0 → bits w.toNat 6 0 ≤ 64 →
       Goes (exec (.tlGcalCommit .heartwood g w) s) (fun t =>
         t.flag .tlGcal g.val 31 = true ∧ t.fld .tlGcal g.val 6 0 = bits w.toNat 6 0
         ∧ (s.flag .tlGcal g.val 31 = false → t.tl.commitAt.rd g.val 0 = s.fc + 1)
         ∧ t.answer.status = .ok ∧ t.act = s.act ∧ t.ht = s.ht))
     ∧ (∀ n : Fin 512, exec (.tlGcalCommit (.tenant n) g w) s = .next (s.alarm.ans .bark [])))
  ∧ (∀ (g : Fin 64) (s : State), s.regs.rising 0 = true → s.act.rising 0 = true → s.powered g.val = true →
     s.running g.val = true → s.flag .tlGcal g.val 31 = true →
     s.tl.commitAt.rd g.val 0 ≤ s.fc → s.fld .tlGphase g.val 5 0 = 0 →
     Goes (exec (.shadowCommit g) s) (fun t =>
       (∀ p ∈ shadowKinds, ∀ k : Nat, k / p.2 = g.val → t.actv p.1 k = s.reg p.1 k)
       ∧ (∀ p ∈ shadowKinds, ∀ k : Nat, k / p.2 ≠ g.val → t.actv p.1 k = s.actv p.1 k)
       ∧ t.fld .tlGcalact g.val 6 0 = s.fld .tlGcal g.val 6 0 ∧ t.flag .tlGcal g.val 31 = false
       ∧ t.tl.commitAt.rd g.val 0 = 0))

/-- LATTICE_EVALUATE: all 32 outputs and registers of a powered grove follow from the state at the start of the fc; an unpowered grove, or
one already evaluated in this fc, stays as it is. The four modes of a macrocell that is in use, owned and running: combinational, D, T and
latch. D is its sum against XOR terms, Q the register, CE true unless a term of role CE exists and is 0, and reset wins over set. -/
def Obligations.LatticeEvaluatesItsMacrocells : Prop :=
  (∀ (g : Fin 64) (s : State),
     (s.powered g.val = true → s.lt.evalAt.rd g.val 0 ≠ s.fc + 1 →
       Goes (exec (.latticeEvaluate g) s) (fun t =>
         (∀ m : Fin 32, bit (t.lt.out.rd g.val 0).toNat m.val = (s.mcEval g.val m.val (s.latVals g.val)).1
           ∧ t.tl.rst.mcq.rd (32 * g.val + m.val) false = (s.mcEval g.val m.val (s.latVals g.val)).2)
         ∧ t.lt.prev.rd g.val 0 = s.lt.out.rd g.val 0 ∧ t.lt.evalAt.rd g.val 0 = s.fc + 1
         ∧ t.regs = s.regs ∧ t.act = s.act ∧ t.ht = s.ht ∧ t.sw = s.sw))
     ∧ (s.powered g.val = false ∨ s.lt.evalAt.rd g.val 0 = s.fc + 1 → exec (.latticeEvaluate g) s = .next s))
  ∧ (∀ (s : State) (g m : Nat) (vals : List Bool), s.mcConsumed g m = false → s.lt.held.rd (32 * g + m) false = false →
     s.running g = true → let own := s.mcOwner g m
     let rcd := s.mcRec g m
     let q := s.tl.rst.mcq.rd (32 * g + m) false
     let d := s.mcSum g m vals != s.roleOr g own vals m 2
     let st := s.roleOr g own vals m 3
     let rs := s.roleOr g own vals m 4
     let ce := (List.range 5).all (fun j => mcRole rcd j != 5) || s.roleOr g own vals m 5
     let pol := bit rcd 28
     (bits rcd 31 30 = 0 → (s.mcEval g m vals).1 = (d != pol))
     ∧ (bits rcd 31 30 = 1 → s.mcEval g m vals = (q != pol, !rs && (st || (if ce then d else q))))
     ∧ (bits rcd 31 30 = 2 → s.mcEval g m vals = (q != pol, !rs && (st || (q != (ce && d)))))
     ∧ (bits rcd 31 30 = 3 → s.mcEval g m vals = ((if ce then d else q) != pol, !rs && (st || (if ce then d else q)))))

/-- A product term is the AND of the literals set in its mask, and the macrocell whose owner it is evaluated for sees a slot only when the
slot's owner is its own: another slot reads as 0. So a term with no literal is 1, one with both literals of a slot is 0, dedicated term j of
macrocell m is term 5m + j, and slots of another owner tell it nothing. -/
def Obligations.ProductTermsSeeOnlyTheirOwnersSlots : Prop :=
  ∀ (s : State) (g own n : Nat) (vals vals' : List Bool), let mask := (s.lt.pt.rd (160 * g + n) 0).toNat
    let x (i : Nat) : Bool := s.isOwner g i == own && vals.getD i false
    (s.term g own vals n = true ↔ ∀ i, i < 96 → (bit mask (2 * i) = true → x i = true) ∧ (bit mask (2 * i + 1) = true → x i = false))
    ∧ (mask = 0 → s.term g own vals n = true)
    ∧ (∀ i, i < 96 → bit mask (2 * i) = true → bit mask (2 * i + 1) = true → s.term g own vals n = false)
    ∧ ((∀ i, i < 96 → s.isOwner g i = own → vals.getD i false = vals'.getD i false) → s.term g own vals n = s.term g own vals' n)
    ∧ (∀ m role, s.roleOr g (s.mcOwner g m) vals m role = true ↔
      ∃ j, j < 5 ∧ mcRole (s.mcRec g m) j = role ∧ s.term g (s.mcOwner g m) vals (5 * m + j) = true)

/-- BARK_CHECK at an input whose source presents word w in a powered grove: a word whose tag fails the check against the segment's owner
leaves its source (at inputs 0-41 where some output selects the input), is counted, and the first since DROPSEEN was clear is told to
heartwood; a word that passes at inputs 0-41 goes to every output selecting it, when all have room, and leaves its source, and otherwise
stays; at a tile port, 42-45, it stays for the ring. An input 0-41 that no output selects releases no word. A word that fails parity at an
input is replaced by DATA 0, code POISON, under the segment's own tag, counted, and told to that owner. STAGE_TRANSFER: the register stage
of an output presents its oldest word at the input it faces, which judges it as BARK_CHECK does: a word that passes enters every output that
selects the input and leaves the stage. -/
def Obligations.InputsBarkPoisonAndForward : Prop :=
  (∀ (g t : Fin 64) (i : Fin 46) (s : State) (x : Src) (w : CWord), let T := tileIx g.val t.val
     let v := s.gateWord T i.val w
     srcOf T i.val = some x → (s.srcStage x).head s.fc = some w → s.powered g.val = true →
     (srcGrove T i.val = g.val ∨ (s.closed (srcGrove T i.val) = false ∧ s.closed g.val = false)) →
     (barkOk (s.swOwner T i.val) v = false → (i.val < 42 → s.selects T i.val ≠ []) → Goes (exec (.barkCheck g t i false) s) (fun u =>
         u.srcStage x = (s.srcStage x).pop s.fc
         ∧ u.fld .swGbark g.val 31 0 = satAdd 32 (s.fld .swGbark g.val 31 0) 1
         ∧ u.flag .swIn (64 * T + i.val) 0 = true
         ∧ u.ht.recs = s.ht.recs ++ (if s.flag .swIn (64 * T + i.val) 0 then [] else
             [(.heartwood, mkRec 2 (BitVec.ofNat 10 (s.swOwner T i.val)) 1 5 (T * 2 ^ 20 + i.val * 2 ^ 14 + v.tag.toNat))])
         ∧ u.tl = s.tl ∧ u.lt = s.lt))
     ∧ (barkOk (s.swOwner T i.val) v = true → i.val < 42 → s.canTake T i.val = true →
         exec (.barkCheck g t i false) s
           = .next (let u := (s.intoStages T i.val v).decodes T i.val v
               u.setSrc x ((u.srcStage x).pop s.fc)))
     ∧ (barkOk (s.swOwner T i.val) v = true → (i.val < 42 → s.canTake T i.val = false) →
         exec (.barkCheck g t i false) s = .next s)
     ∧ (i.val < 42 → s.selects T i.val = [] → exec (.barkCheck g t i false) s = .next s))
  ∧ (∀ (g t : Fin 64) (i : Fin 46) (s : State) (x : Src) (w : CWord), let T := tileIx g.val t.val
     let p : CWord := parityWord (s.swOwner T i.val)
     srcOf T i.val = some x → (s.srcStage x).head s.fc = some w → s.powered g.val = true → srcGrove T i.val = g.val →
     42 ≤ i.val → barkOk (s.swOwner T i.val) (s.gateWord T i.val p) = true →
     Goes (exec (.barkCheck g t i true) s) (fun u =>
       u.srcStage x = (s.srcStage x).swap p
       ∧ u.fld .swGpar g.val 31 0 = satAdd 32 (s.fld .swGpar g.val 31 0) 1
       ∧ u.ht.recs = s.ht.recs ++ [(.domain (BitVec.ofNat 10 (s.swOwner T i.val)),
           mkRec 1 (BitVec.ofNat 10 (s.swOwner T i.val)) 1 6 (T * 2 ^ 20 + i.val * 2 ^ 14))]))
  ∧ (∀ (g t : Fin 64) (o : Fin 42) (s : State) (T' i : Nat) (w : CWord), let T := tileIx g.val t.val
     let k := 64 * T + o.val
     sinkOf T o.val = some (T', i) → srcOf T' i = some (.stage k) → (s.stageAt k).head s.fc = some w → i < 42 →
     s.powered (T' / 64) = true → srcGrove T' i = T' / 64 →
     barkOk (s.swOwner T' i) (s.gateWord T' i w) = true → s.canTake T' i = true →
     exec (.stageTransfer g t o) s
       = .next (let u := (s.intoStages T' i (s.gateWord T' i w)).decodes T' i (s.gateWord T' i w)
           u.setSrc (.stage k) ((u.stageAt k).pop s.fc)))

/-- FIFO_WRITE at a tap write end that accepts, with an owner's word ready on each of its taps: with room as the fc began, the item is
stored at the tail with its words' tags dropped and leaves its taps; when one entry from full, it is counted as dropped, DROPPED is set, and
it becomes or joins the gap marker at the tail. FIFO_READ at a tap read end: a head entry whose words every tap takes leaves the FIFO, if a
flush of this fc has not emptied it; with none to deliver, a single or double FIFO presents IDLE words and keeps its entries, and a quad
presents nothing. FLUSH by the owner of a FIFO, a tenant or the operator, empties it and marks the next stored entry; a tenant that does not
own it meets BARK, and the operator and heartwood, which the field does not name for it, DENIED, each with one alarm and nothing else; a
FIFO consumed by a lower-numbered one does not change. -/
def Obligations.FifosStoreDeliverAndFlush : Prop :=
  (∀ (g : Fin 64) (f : Fin 8) (s : State) (ws : List CWord), let F := 8 * g.val + f.val
     let T := tileIx g.val (24 + f.val)
     let x := s.fifo F
     fifoConsumed (s.fifoRec F) = false → bit (s.fifoRec F) 27 = false → s.fifoOpen F = true → s.cf.outDone = true →
     (List.range (fifoW (s.fifoRec F))).map (fun k => (s.stageAt (64 * T + (36 + k))).head s.fc) = ws.map some →
     ws.all (barkOk (s.ffOwner g.val f.val)) = true → x.acc ≠ s.fc + 1 → x.flushAt ≠ s.fc + 1 →
     ((s.fifoWas F).q.length < fifoCap (s.fifoRec F) - 1 → Goes (exec (.fifoWrite g f []) s) (fun t =>
       t.fifo F = { x with q := x.q ++ [⟨ws.map (fun w => { w with tag := 0, m := w.m || x.markM }), false, 0, s.fc⟩],
                           acc := s.fc + 1, markM := false }
       ∧ (∀ k < fifoW (s.fifoRec F),
           t.stageAt (64 * T + (36 + k)) = (s.stageAt (64 * T + (36 + k))).pop s.fc)
       ∧ t.regs = s.regs ∧ t.ht = s.ht))
     ∧ (fifoCap (s.fifoRec F) - 1 ≤ (s.fifoWas F).q.length → Goes (exec (.fifoWrite g f []) s) (fun t =>
       t.fld .ffDrop F 31 0 = satAdd 32 (s.fld .ffDrop F 31 0) 1 ∧ t.flag .ffStat F 0 = true
       ∧ (∀ e, x.q.getLast? = some e → e.gap = true → (t.fifo F).q = x.q.dropLast ++
           [⟨gapWords (fifoW (s.fifoRec F)) (min (e.cnt + 1) 0xFFFFFF) ((e.ws.head?.map CWord.m).getD false), true,
             min (e.cnt + 1) 0xFFFFFF, e.fc⟩])
       ∧ ((x.q.getLast?.map FEntry.gap).getD false = false → (t.fifo F).q = x.q ++
           [⟨gapWords (fifoW (s.fifoRec F)) 1 x.markM, true, 1, s.fc⟩]))))
  ∧ (∀ (g : Fin 64) (f : Fin 8) (s : State), let F := 8 * g.val + f.val
     let T := tileIx g.val (24 + f.val)
     let own := s.ffOwner g.val f.val
     fifoConsumed (s.fifoRec F) = false → bit (s.fifoRec F) 26 = false → s.powered g.val = true → (s.fifo F).rel ≠ s.fc + 1 →
     (∀ e, s.fifoHead F = some e →
       ((fifoOuts own [] e.ws).zipIdx.all (fun p => s.wouldTake T (36 + p.2) p.1) = true →
         Goes (exec (.fifoRead g f [] []) s) (fun t =>
           t.fifo F = { s.fifo F with q := if (s.fifo F).flushAt = s.fc + 1 then (s.fifo F).q else (s.fifo F).q.drop 1,
                                      rel := s.fc + 1 } ∧ t.tl = s.tl))
       ∧ ((fifoOuts own [] e.ws).zipIdx.all (fun p => s.wouldTake T (36 + p.2) p.1) = false →
         exec (.fifoRead g f [] []) s = .next s))
     ∧ (s.fifoHead F = none → fifoQuad (s.fifoRec F) = true → exec (.fifoRead g f [] []) s = .next s)
     ∧ (s.fifoHead F = none → fifoQuad (s.fifoRec F) = false →
         Goes (exec (.fifoRead g f [] []) s) (fun t => t.ff = s.ff ∧ t.tl = s.tl)))
  ∧ (∀ (g : Fin 64) (f : Fin 8) (s : State) (p : Party), let F := 8 * g.val + f.val
     ((∃ n : Fin 512, p = .tenant n ∧ s.ffOwner g.val f.val = n.val) ∨ (p.isOp = true ∧ s.ffOwner g.val f.val = 0x200) →
       (fifoConsumed (s.fifoRec F) = false → Goes (exec (.flush p g f) s) (fun t =>
           (t.fifo F).q = [] ∧ (t.fifo F).markM = true ∧ t.answer = ⟨.ok, []⟩
           ∧ (∀ F', F' ≠ F → t.fifo F' = s.fifo F') ∧ t.sw = s.sw ∧ t.ht = s.ht
           ∧ (∀ n i, t.reg n i = s.reg n i)))
       ∧ (fifoConsumed (s.fifoRec F) = true → exec (.flush p g f) s = .next (s.ans .ok [])))
     ∧ (∀ n : Fin 512, p = .tenant n → s.ffOwner g.val f.val ≠ n.val →
         exec (.flush p g f) s = .next (s.alarm.ans .bark []))
     ∧ (p = .heartwood ∨ (p.isOp = true ∧ s.ffOwner g.val f.val ≠ 0x200) → Goes (exec (.flush p g f) s) (fun t =>
         t.answer.status = .denied ∧ t.ff = s.ff
         ∧ t.fld .msAlarm 0 31 0 = satAdd 32 (s.fld .msAlarm 0 31 0) 1)))

/-- CELL_IN_BEAT: a beat that is no command is taken whole, its six words judged in order, or not at all; META is kept for the packet to
come; an SOP word after a META of its tag for a queue of its own tenant, with room in its quota, opens a packet and stages a cell with one
request; DATA of an open packet joins the cell being filled. A command beat at cell-in port p: both words CTRL and of one tag, with no
packet open there and nothing of the tag being discarded. ENQUEUE of a held packet of its own to a queue of its own makes it queued; FREE of
a held packet frees its head at once and puts up the rest to be freed; another domain's packet is refused, counted and alarmed, and stays,
and heartwood alone is told of a foreign FREE. The beat leaves its taps. -/
def Obligations.CellInBeatsAndCommands : Prop :=
  ((∀ (p : Fin 128) (s : State), s.cellInOpen p.val → (s.cinBeat p.val).length = 6 →
     ((s.cinBeat p.val).headD ⟨0, false, 0, 0⟩).code.toNat ≠ codeCTRL →
     (∀ u, (s.cinBeat p.val).foldl (fun o w => o.bind (fun s => s.takeWord p.val w)) (some s) = some u →
       exec (.cellInBeat p) s
         = .next (forEach (cinStages p.val) u (fun k s => s.setSrc (.stage k) ((s.stageAt k).pop s.fc))))
     ∧ ((s.cinBeat p.val).foldl (fun o w => o.bind (fun s => s.takeWord p.val w)) (some s) = none →
       exec (.cellInBeat p) s = .next s))
   ∧ (∀ (s : State) (p : Nat) (tag : Tag) (m : Bool) (d : W24), (s.cin p).cur = none → (s.cin p).skip.contains tag = false →
     (s.cin p).mpend = none →
     s.takeWord p ⟨tag, m, BitVec.ofNat 4 codeMETA, d⟩ = some (s.setCin p { s.cin p with mpend := some (tag, d) }))
   ∧ (∀ (s : State) (p : Nat) (tag : Tag) (m : Bool) (d md : W24), (s.cin p).pkts = [] → (s.cin p).staging = [] →
     (s.cin p).skip.contains tag = false → (s.cin p).mpend = some (tag, md) → metaRes md.toNat = 0 → metaHmode md.toNat = false →
     metaQueue md.toNat / 32 = tag.toNat → s.usedWas tag < s.cellLimit tag → s.cx.tfree.rd tag.toNat [] = [] →
     ∃ u, s.takeWord p ⟨tag, m, BitVec.ofNat 4 codeSOP, d⟩ = some u ∧ (u.cin p).mpend = none
       ∧ (u.cin p).cnt = (s.cin p).cnt + 1
       ∧ (∃ k, (u.cin p).pkts = [k] ∧ k.tag = tag ∧ k.mdat = md ∧ k.cells = [(none, 1)] ∧ k.words = 1 ∧ k.closed = none)
       ∧ (u.cin p).staging.map StCell.ws = [[d]])
   ∧ (∀ (s : State) (p : Nat) (w : CWord) (k : OpenPkt) (x : StCell), (s.cin p).pkts = [k] → (s.cin p).staging = [x] →
     k.closed = none → x.pkt = k.id → x.closed = false → x.ws.length < 63 → k.words < 21845 → w.tag = k.tag →
     w.code.toNat = codeDATA →
     ∃ u, s.takeWord p w = some u ∧ (u.cin p).staging = [{ x with ws := x.ws ++ [w.data] }]
       ∧ (u.cin p).pkts = [{ k with words := k.words + 1, cells := countWord k.cells }]))
  ∧ (∀ (p : Fin 128) (s : State) (w0 w1 : CWord) (l : List CWord), let h : Handle := BitVec.ofNat 20 (bits w0.data.toNat 19 0)
     let q := metaQueue w1.data.toNat
     let tag := w0.tag
     s.cellInOpen p.val → s.cinBeat p.val = w0 :: w1 :: l → l.length = 4 →
     w0.code.toNat = codeCTRL → w1.code.toNat = codeCTRL → w1.tag = tag → (s.cin p.val).cur = none →
     (s.cin p.val).skip.contains tag = false → bit w1.data.toNat 23 = false → metaRes w1.data.toNat = 0 → metaSten w1.data.toNat = false →
     (bits w0.data.toNat 23 20 = 1 → (s.link h).owner = tag → (s.link h).st = .held → q / 32 = tag.toNat →
       Goes (exec (.cellInBeat p) s) (fun t => (t.link h).st = .queued ∧ (t.link h).owner = tag
         ∧ (∃ x ∈ t.qe.pkts.rd q [], x.head = h ∧ x.len = (s.link h).len ∧ x.enq = s.fc ∧ x.port = p.val)
         ∧ (∀ h', h' ≠ h → t.link h' = s.link h') ∧ t.regs = s.regs
         ∧ (∀ k ∈ cinStages p.val, t.stageAt k = (s.stageAt k).pop s.fc)))
     ∧ (bits w0.data.toNat 23 20 = 2 → (s.link h).owner = tag → (s.link h).st = .held →
       Goes (exec (.cellInBeat p) s) (fun t => (t.link h).st = .free ∧ (t.link h).owner = tag ∧ (t.link h).freed = s.fc + 1
         ∧ (t.cin p.val).freeing = queueFree s.fc (s.cin p.val).freeing ((s.chain 342 h).drop 1)
         ∧ (∀ h', h' ≠ h → t.link h' = s.link h')
         ∧ (∀ k ∈ cinStages p.val, t.stageAt k = (s.stageAt k).pop s.fc)))
     ∧ (bits w0.data.toNat 23 20 = 1 ∨ bits w0.data.toNat 23 20 = 2 → (s.link h).owner ≠ tag →
       Goes (exec (.cellInBeat p) s) (fun t => t.cx.link = s.cx.link ∧ t.qe = s.qe
         ∧ t.fld .cxTerr (domOf tag) 31 0 = satAdd 32 (s.fld .cxTerr (domOf tag) 31 0) 1
         ∧ t.fld .cxIndrop p.val 31 0 = satAdd 32 (s.fld .cxIndrop p.val 31 0) 1
         ∧ t.fld .msAlarm 0 31 0 = satAdd 32 (s.fld .msAlarm 0 31 0) 1
         ∧ (∃ l, t.ht.recs = s.ht.recs ++ l ∧ l.map Prod.fst = (if bits w0.data.toNat 23 20 = 2 then [RecDest.heartwood] else []))
         ∧ (∀ k ∈ cinStages p.val, t.stageAt k = (s.stageAt k).pop s.fc))))

/-- BANK_GRANT with one request standing, presented to an online bank: under its quota and with the shared count above zero or a floor to
fill, it takes a cell of that bank that was free, and that cell is its tag's; over its quota it is answered NOBUF, which drops its packet
and counts it. PACKET_COMPLETE: a closed packet whose cells are all granted leaves its port with the length of its words, its cells are
chained, and it is held or joins its queue; INPKT and INBYTE of its domain count it. -/
def Obligations.CellsAreGrantedAndPacketsChained : Prop :=
  (∀ (s : State) (r : Req), s.cx.link.rising 0 = true → s.cx.link.all (fun e => decide (e.1 < 2 ^ 20)) = true →
     s.cx.grantAt ≠ s.fc + 1 → s.requests = [r] → s.online r.bank = true → r.bank < 16 → 0 < s.bankFree r.bank →
     (s.over r.tag r.low = false →
       Goes (exec .bankGrant s) (fun t => t.cx.grantAt = s.fc + 1 ∧ ∃ h : Handle, bankOf h = r.bank
         ∧ (s.link h).taken s.fc = false ∧ (t.link h).owner = r.tag
         ∧ (t.link h).st = (if r.idx = 0 then .assembling else .body) ∧ (∀ h', h' ≠ h → t.link h' = s.link h')
         ∧ (t.cin r.port).staging.map (fun x => (x.pkt, x.idx, x.grant))
             = (s.cin r.port).staging.map (fun x => (x.pkt, x.idx, if x.pkt = r.pkt ∧ x.idx = r.idx then some h else x.grant))
         ∧ t.cx.ptrGrant.rd r.bank 0 = (r.port + 1) % 128))
     ∧ (s.over r.tag r.low = true → (∃ k ∈ (s.cin r.port).pkts, k.id = r.pkt ∧ k.tag = r.tag ∧ metaSten k.mdat.toNat = false) →
       (∀ k ∈ (s.cin r.port).pkts, k.id = r.pkt → k.tag = r.tag ∧ metaSten k.mdat.toNat = false) →
       Goes (exec .bankGrant s) (fun t => t.cx.link = s.cx.link
         ∧ t.fld .cxIndrop r.port 31 0 = satAdd 32 (s.fld .cxIndrop r.port 31 0) 1
         ∧ t.fld .cxTnobuf (domOf r.tag) 31 0 = satAdd 32 (s.fld .cxTnobuf (domOf r.tag) 31 0) 1
         ∧ (t.cin r.port).pkts = (s.cin r.port).pkts.filter (fun k => k.id != r.pkt)
         ∧ (t.cin r.port).staging = (s.cin r.port).staging.filter (fun x => x.pkt != r.pkt))))
  ∧ (∀ (p : Fin 128) (s : State) (k : OpenPkt) (h : Handle) (hs : List Handle) (b : Nat), (s.cin p.val).pkts = [k] →
     k.closed = some b → k.cells.map Prod.fst = (h :: hs).map some → (h :: hs).Nodup → metaSten k.mdat.toNat = false →
     let len := 3 * (k.words - 1) + b
     let d := domOf k.tag
     Goes (exec (.packetComplete p) s) (fun t => (t.cin p.val).pkts = []
       ∧ (t.link h).st = (if metaHmode k.mdat.toNat then .held else .queued) ∧ (t.link h).len = len
       ∧ (t.link h).next = hs.head? ∧ (t.link h).owner = (s.link h).owner
       ∧ (∀ h' ∈ hs, (t.link h').st = .body) ∧ (∀ h', h' ∉ h :: hs → t.link h' = s.link h')
       ∧ (metaHmode k.mdat.toNat = false → ∃ x ∈ t.qe.pkts.rd (metaQueue k.mdat.toNat) [],
           x.head = h ∧ x.len = len ∧ x.cells = hs.length + 1 ∧ x.enq = s.fc)
       ∧ (metaHmode k.mdat.toNat = true → t.qe = s.qe)
       ∧ t.ms.meter.rd (8 * d) 0 = s.ms.meter.rd (8 * d) 0 + 1
       ∧ t.ms.meter.rd (8 * d + 1) 0 = s.ms.meter.rd (8 * d + 1) 0 + BitVec.ofNat 64 len ∧ t.regs = s.regs))

/-- CELL_WRITE: the bank writes the first closed cell granted in it of the port its rotation picks, word for word, with good units, and the
cell leaves the port's staging; every other cell keeps its words. CELL_READ: the bank reads the cell that the port of its rotation waits
for: the packet's next 64 words, or those it has left, become ready, the chain goes on to the cell's next while words are left, and what the
ECC has corrected, in units or in the link, is counted. CELL_OUT_BEAT: the META beat of a packet selected in an earlier fc opens its
delivery and frees the slot; a data beat delivers up to six of the words read; the last one ends the delivery, counts it in OUTPKT and
OUTBYTE, and puts up each cell read to be freed in the next fc; a beat that some tap does not accept changes nothing. STATUS_RECORD_SEND:
the oldest record of a tag whose request NI 88 refuses is discarded and counted in TERR; one whose domain holds this fc's reserved position
leaves in it; one that may go while no position is so taken leaves when its bucket allows; any other stays. -/
def Obligations.CellsAreWrittenReadAndDelivered : Prop :=
  (∀ (b : Fin 16) (s : State) (p : Nat) (x : StCell) (h : Handle), s.cx.wrAt.rd b.val 0 ≠ s.fc + 1 →
     pickPort (s.wheelPort s.tn.wheelIn) (s.cx.ptrWrite.rd b.val 0)
       ((s.cx.inp.filter (fun e => e.2.staging.any (fun x => x.readyFor b.val))).map (·.1)) = some p →
     (s.cin p).staging = [x] → x.closed = true → x.grant = some h → bankOf h = b.val → x.ws.length ≤ 64 →
     Goes (exec (.cellWrite b) s) (fun t => (t.cin p).staging = []
       ∧ (∀ i, i < x.ws.length → t.cx.words.rd (64 * h.toNat + i) 0 = x.ws.getD i 0)
       ∧ (∀ a, a < 64 * h.toNat ∨ 64 * h.toNat + 64 ≤ a → t.cx.words.rd a 0 = s.cx.words.rd a 0)
       ∧ (∀ u, u < 24 → t.cx.badUnit.rd (24 * h.toNat + u) false = false)
       ∧ t.cx.wrAt.rd b.val 0 = s.fc + 1 ∧ t.cx.ptrWrite.rd b.val 0 = (p + 1) % 128 ∧ t.cx.link = s.cx.link ∧ t.regs = s.regs))
  ∧ (∀ (b : Fin 16) (fix : List (Fin 24)) (lf : Bool) (s : State) (p : Nat) (cur : Bool) (o : OutPkt) (h : Handle), s.cx.rdAt.rd b.val 0 ≠ s.fc + 1 →
     pickPort (s.wheelPort s.tn.wheelOut) (s.cx.ptrRead.rd b.val 0)
       ((s.cx.outp.filter (fun e => (s.wantsCell b.val e.2).isSome)).map (·.1)) = some p →
     s.wantsCell b.val (s.cout p) = some (cur, o, h) → s.badUnits h [] = [] →
     let left := wordsOf o.len - (o.sent + o.ready.length)
     Goes (exec (.cellRead b ⟨fix, [], lf, false⟩) s) (fun t =>
       (∃ o', (if cur then (t.cout p).cur = some o' else (t.cout p).slot.map Prod.snd = some o')
         ∧ o'.ready = o.ready ++ (List.range (min 64 left)).map (fun w => some (s.cx.words.rd (64 * h.toNat + w) 0))
         ∧ o'.next = (if left ≤ 64 then none else (s.link h).next) ∧ o'.cellsRead = o.cellsRead ++ [h])
       ∧ t.cx.rdAt.rd b.val 0 = s.fc + 1 ∧ t.cx.ptrRead.rd b.val 0 = (p + 1) % 128
       ∧ t.fld .cxEcc 0 31 16 = satAdd 16 (s.fld .cxEcc 0 31 16) (fix.length + b2n lf)
       ∧ t.cx.link = s.cx.link ∧ t.cx.words = s.cx.words ∧ t.ht = s.ht))
  ∧ ((∀ (p : Fin 128) (line : List (Fin 6)) (s : State) (f : Nat) (o : OutPkt), (s.cout p.val).cur = none → (s.cout p.val).slot = some (f, o) → f < s.fc →
     let beat := beatOf o.tag [⟨o.tag, false, BitVec.ofNat 4 codeMETA, BitVec.ofNat 24 o.queue⟩,
         ⟨o.tag, false, BitVec.ofNat 4 codeMETA, BitVec.ofNat 24 o.len⟩]
     (s.deliver p.val (line.map (·.val)) beat = none → exec (.cellOutBeat p line) s = .next s)
     ∧ (∀ u, s.deliver p.val (line.map (·.val)) beat = some u → Goes (exec (.cellOutBeat p line) s) (fun t =>
         (t.cout p.val).slot = none ∧ (t.cout p.val).cur = some o ∧ (t.cout p.val).slotFree = s.fc + 1
         ∧ t.sw = u.sw ∧ t.lt = u.lt)))
   ∧ (∀ (p : Fin 128) (line : List (Fin 6)) (s : State) (o : OutPkt), (s.cout p.val).cur = some o → o.broken = false →
     let n := min 6 (wordsOf o.len - o.sent)
     let beat := beatOf o.tag ((o.ready.take n).zipIdx.map (fun (w, i) =>
       outWord o.tag o.len (o.sent + i) ((Config.freeWord (s.free + i)).setWidth 24) w))
     (o.ready.length < n → exec (.cellOutBeat p line) s = .next s)
     ∧ (∀ u, n ≤ o.ready.length → s.deliver p.val (line.map (·.val)) beat = some u →
         (o.sent + n < wordsOf o.len → Goes (exec (.cellOutBeat p line) s) (fun t => ∃ o', (t.cout p.val).cur = some o'
           ∧ o'.sent = o.sent + n ∧ o'.ready = o.ready.drop n ∧ t.sw = u.sw ∧ t.ms = s.ms))
         ∧ (o.sent + n = wordsOf o.len → Goes (exec (.cellOutBeat p line) s) (fun t => (t.cout p.val).cur = none
           ∧ (t.cout p.val).freeing = (s.cout p.val).freeing ++ o.cellsRead.map (fun h => ([h], s.fc + 1)) ∧ t.sw = u.sw
           ∧ t.ms.meter.rd (8 * o.tag.toNat + 2) 0 = s.ms.meter.rd (8 * o.tag.toNat + 2) 0 + 1
           ∧ t.ms.meter.rd (8 * o.tag.toNat + 3) 0 = s.ms.meter.rd (8 * o.tag.toNat + 3) 0 + BitVec.ofNat 64 o.len)))))
  ∧ (∀ (tag : Tag) (s : State) (r : StatusRec) (l : List StatusRec), s.cx.recs.rd tag.toNat [] = r :: l →
     let q := s.recReq tag r
     q.dst = r.port / 2 ∧ q.write = true ∧ q.addr = 0x710000 + r.stf * 0x1000 ∧ q.tag = tag
     ∧ q.data = statusWords (fifoW (s.fifoRec (8 * (r.port / 2) + r.stf))) r
     ∧ ((s.localRefusal 88 q).isSome = true → Goes (exec (.statusRecordSend tag) s) (fun t =>
         t.cx.recs.rd tag.toNat [] = l ∧ t.nc = s.nc
         ∧ t.fld .cxTerr (domOf tag) 31 0 = satAdd 32 (s.fld .cxTerr (domOf tag) 31 0) 1))
     ∧ ((s.localRefusal 88 q).isSome = false →
         (s.sealedRec = some tag ∨ (s.sealedRec = none ∧ s.recFit q = true ∧ s.bucketOk 88 q = true) →
           Goes (exec (.statusRecordSend tag) s) (fun t => t.cx.recs.rd tag.toNat [] = l ∧ t.regs = s.regs
             ∧ (t.nocOut 88).length = (s.nocOut 88).length + 1))
         ∧ (s.sealedRec ≠ some tag → (s.sealedRec ≠ none ∨ s.recFit q = false ∨ s.bucketOk 88 q = false) →
           exec (.statusRecordSend tag) s = .next s)))

/-- CHAIN_FREE: of every chain at a port that is due, the first cell becomes free and keeps its last owner, and the rest wait for the next
fc; no other cell changes. Of a tenant under reset one cell per bank is freed. DIRECT_WINDOW_ACCESS: within one cell of the issuer's own tag
that is in use, with units that are good or corrected, a read returns the cell's bytes and a write of whole words changes those bytes of
that cell alone; a correction is counted; any other domain's cell, or a free one, answers BARK with zeros and one alarm, and nothing is
written; a closed or unpowered bank answers FENCED with zeros, or holds the access where it may wake. -/
def Obligations.CellsAreFreedAndReachedByTheirOwner : Prop :=
  ((∀ (p : Fin 128) (s : State), let l := (s.cin p.val).freeing
     Goes (exec (.chainFree (.cellIn p)) s) (fun t =>
       (∀ c ∈ l, c.2 ≤ s.fc → ∀ h, c.1.head? = some h → t.link h = ⟨.free, (s.link h).owner, none, 0, s.fc + 1⟩)
       ∧ (∀ h, (∀ c ∈ l, c.2 ≤ s.fc → c.1.head? ≠ some h) → t.link h = s.link h)
       ∧ (t.cin p.val).freeing
           = (l.map (fun c => if c.2 ≤ s.fc then (c.1.drop 1, s.fc + 1) else c)).filter (fun c => !c.1.isEmpty)
       ∧ t.cx.words = s.cx.words))
   ∧ (∀ (p : Fin 128) (s : State), let l := (s.cout p.val).freeing
     Goes (exec (.chainFree (.cellOut p)) s) (fun t =>
       (∀ c ∈ l, c.2 ≤ s.fc → ∀ h, c.1.head? = some h → t.link h = ⟨.free, (s.link h).owner, none, 0, s.fc + 1⟩)
       ∧ (∀ h, (∀ c ∈ l, c.2 ≤ s.fc → c.1.head? ≠ some h) → t.link h = s.link h)
       ∧ (t.cout p.val).freeing
           = (l.map (fun c => if c.2 ≤ s.fc then (c.1.drop 1, s.fc + 1) else c)).filter (fun c => !c.1.isEmpty)
       ∧ t.cx.words = s.cx.words))
   ∧ (∀ (n : Fin 512) (s : State) (h : Handle), s.cx.tfree.rd n.val [] = [h] →
     s.cx.link.any (fun e => e.1 / 65536 == bankOf h && e.2.owner.toNat == n.val && e.2.freed == s.fc + 1) = false →
     Goes (exec (.chainFree (.tenant n)) s) (fun t => t.link h = ⟨.free, (s.link h).owner, none, 0, s.fc + 1⟩
       ∧ t.cx.tfree.rd n.val [] = [] ∧ (∀ h', h' ≠ h → t.link h' = s.link h'))))
  ∧ (∀ (p : Party) (a : Access) (x : UnitHealth) (s : State), let c := a.addr / 192
     a.len = 4 → a.addr % 4 = 0 → a.addr % 192 + 4 ≤ 192 → a.addr + 4 ≤ 192 * 1048576 → x.bad = [] →
     ((s.directHeld a.addr 4).isSome = true → Goes (exec (.directWindowAccess p a x) s) (fun t =>
         t.nc.directs = s.nc.directs ++ [⟨p, a, x, false⟩] ∧ t.cx = s.cx ∧ t.regs = s.regs))
     ∧ (s.directHeld a.addr 4 = none →
       (s.bankShut c = true → exec (.directWindowAccess p a x) s
         = .next (s.ans .fenced (List.replicate (if a.write then 0 else 1) 0)))
       ∧ (s.bankShut c = false → s.reaches p.tag c = false → exec (.directWindowAccess p a x) s
         = .next (s.barkAns (if a.write then 0 else 1)))
       ∧ (s.bankShut c = false → s.reaches p.tag c = true → s.badUnits (BitVec.ofNat 20 c) [] = [] →
         Goes (exec (.directWindowAccess p a x) s) (fun t => t.cx.link = s.cx.link
           ∧ t.fld .cxEcc 0 31 16 = satAdd 16 (s.fld .cxEcc 0 31 16) (b2n (x.corrected.any (fun j => j.val == a.addr % 192 / 8)))
           ∧ t.fld .cxEcc 0 15 0 = s.fld .cxEcc 0 15 0 ∧ (∀ n i, n ≠ RegName.cxEcc → t.reg n i = s.reg n i)
           ∧ (a.write = false → t.cx = s.cx ∧ t.answer = ⟨.ok,
               [BitVec.ofNat 32 (bytesLE ((List.range 4).map (fun i => s.cellByte c (a.addr % 192 + i))))]⟩)
           ∧ (a.write = true → ∀ w, a.data = [w] → t.answer = ⟨.ok, []⟩
             ∧ (∀ i, i < 4 → t.cellByte c (a.addr % 192 + i) = BitVec.ofNat 8 (w.toNat / 256 ^ i))
             ∧ (∀ c' k, k < 192 → c' ≠ c ∨ (k < a.addr % 192 ∨ a.addr % 192 + 4 ≤ k) → t.cellByte c' k = s.cellByte c' k))))))

/-- QUEUE_SELECT with one bough assigned to a port that may select: in the committed phase, judged by what stood as the fc began, the first
eligible strict-priority queue of the bough gives its head packet to the port's slot; the queue's open bucket, the bough's PIR bucket and
its CIR bucket are debited, each bucket that nothing else has befallen in the fc from its level at the fc's start. A queue whose table entry
is found uncorrectable stops. -/
def Obligations.QueueSelectTakesTheHeadOfAnEligibleQueue : Prop :=
  (∀ (p : Fin 128) (s : State) (b q ptr : Nat) (df : Tbl Nat) (x : Pkt) (l : List Nat), let z := s.atStart
    s.maySelect p.val = true → z.portBoughs p.val = [b] → z.boughEligible true b = true →
    (z.boughQueues b 0 8).filter z.queueEligible = q :: l → z.headPkt q = some x → (s.qe.pkts.rd q []).contains x = true →
    dwrr 780 [b] [b] (fun b => ((z.queuePick p.val b).map (fun x => z.headCost p.val x.1)).getD 0)
      (fun b => 256 * z.fld .qeBcfg b 7 0) (4096 * p.val) (z.qe.ptr.rd p.val 0) z.qe.deficit = some (b, ptr, df) →
    s.qe.day = [] → s.qe.refillAt ≠ s.fc + 1 → (∀ h : Fin 64, s.fld .qeHcfg h.val 31 30 = 0) →
    Goes (exec (.queueSelect p none) s) (fun t => t.qe.pkts.rd q [] = (s.qe.pkts.rd q []).filter (· != x)
      ∧ (∀ q', q' ≠ q → t.qe.pkts.rd q' [] = s.qe.pkts.rd q' [])
      ∧ (t.cout p.val).slot = some (s.fc, ⟨q, BitVec.ofNat 10 (q / 32), x.len, [], 0, some x.head, [], false⟩)
      ∧ t.reg .qeQlvl q = (if z.bOpen (.queue q) then BitVec.ofInt 32 (z.level (.queue q) - z.cost p.val x.len)
          else s.reg .qeQlvl q)
      ∧ t.reg .qeBplvl b = (if z.bOpen (.pir b) then BitVec.ofInt 32 (z.level (.pir b) - z.cost p.val x.len)
          else s.reg .qeBplvl b)
      ∧ t.reg .qeBclvl b = BitVec.ofInt 32 (z.level (.cir b) - z.cost p.val x.len)
      ∧ t.qe.ptr.rd p.val 0 = ptr ∧ t.qe.deficit.rd (4096 * p.val + b) 0 = df.rd (4096 * p.val + b) 0
      ∧ t.qe.sel = s.qe.sel ++ [⟨q, b, p.val, min (s.fc - x.enq) 0xFFFFFFFF⟩] ∧ t.cx.link = s.cx.link))
  ∧ (∀ (p : Fin 128) (q : Fin 16384) (s : State), Goes (exec (.queueSelect p (some q)) s) (fun t =>
      t.flag .qeQcfg q.val 31 = true ∧ (∀ j, j < 31 → bit (t.reg .qeQcfg q.val).toNat j = bit (s.reg .qeQcfg q.val).toNat j)
      ∧ (∃ r, t.ht.recs = s.ht.recs ++ [(.both opTag, r)]) ∧ t.qe = s.qe ∧ t.cx = s.cx))

/-- The deficit round robin ends: over members in rising order, some eligible, with costs a packet can have and at least 256 bytes a
quantum, it answers an eligible member, whose deficit covered its cost and is reduced by it. -/
def Obligations.DeficitRoundRobinAlwaysSelects : Prop :=
  ∀ (members e : List Nat) (cost quantum : Nat → Nat) (base ptr : Nat) (df : Tbl Nat), members.Pairwise (· < ·) →
    (∀ x ∈ e, x ∈ members) → e ≠ [] → (∀ x ∈ e, cost x ≤ 66560) → (∀ x ∈ e, 256 ≤ quantum x) →
    ∃ x df', dwrr (dwrrFuel members) members e cost quantum base ptr df = some (x, x, df') ∧ x ∈ e

/-- BUCKET_REFILL at refill counter 255, the buckets as this fc's debits and writes have left them: every open bucket gains its rate,
clipped at its burst, with the fraction kept below 1 byte and dropped at the clip; a bucket that is not open keeps its level. FORGIVE: the
tenant that owns a queue, writing its QE_QRATE with bit 31, and heartwood, writing a bough's QE_BCIR or QE_BPIR with it, raise a negative
level, after the fc's debits, to 0 and leave any other; another tenant meets BARK. QUEUE_ATTACH: the tenant's write attaches a queue of its
own to a bough of its own; to a bough of another it is refused without an alarm, and BEN and BOUGH keep their values. BOUGH_CHANGE:
heartwood's change of a bough's OWNER or PORT detaches its queues and zeroes its levels. HISTOGRAM_CLEAR: the operator's write of CLEAR
zeroes the 16 bins and the maximum, where no packet was selected in the fc, and leaves every other histogram. -/
def Obligations.QueueRegistersAndBuckets : Prop :=
  (∀ (s : State), s.regs.rising 0 = true → s.qe.refill = 255 → s.qe.refillAt ≠ s.fc + 1 →
     (∀ k : Bucket, s.settled k = (s.level k, s.resid k)) →
     Goes (exec .bucketRefill s) (fun t => t.qe.refillAt = s.fc + 1 ∧ ∀ k : Bucket,
       let f := s.resid k + bits (s.bRate k) 15 0
       let l := s.level k + (bits (s.bRate k) 30 16 + f / 65536 : Nat)
       (s.bOpen k = true → t.level k = min (s.bBurst k : Int) l
         ∧ t.resid k = (if (s.bBurst k : Int) ≤ l then 0 else f % 65536))
       ∧ (s.bOpen k = false → t.level k = s.level k ∧ t.resid k = s.resid k)))
  ∧ ((∀ (n : Fin 512) (q : Fin 16384) (w : Word) (s : State), q.val / 32 = n.val → bits w.toNat 31 31 = 1 →
     Goes (exec (.forgive (.tenant n) ⟨.qeQrate, q.val⟩ w) s) (fun t =>
       (s.qe.refillAt ≠ s.fc + 1 → s.settled (.queue q.val) = (s.level (.queue q.val), s.resid (.queue q.val)) →
         t.level (.queue q.val) = max 0 (s.level (.queue q.val)))
       ∧ (t.bucketDay (.queue q.val)).acts = (s.bucketDay (.queue q.val)).acts ++ [.forgive]
       ∧ t.bRate (.queue q.val) = bits w.toNat 30 0 ∧ t.answer = ⟨.ok, []⟩ ∧ t.qe.pkts = s.qe.pkts))
   ∧ (∀ (b : Fin 2048) (w : Word) (s : State), bits w.toNat 31 31 = 1 →
     Goes (exec (.forgive .heartwood ⟨.qeBcir, b.val⟩ w) s) (fun t =>
       (s.qe.refillAt ≠ s.fc + 1 → s.settled (.cir b.val) = (s.level (.cir b.val), s.resid (.cir b.val)) →
         t.level (.cir b.val) = max 0 (s.level (.cir b.val)))
       ∧ (t.bucketDay (.cir b.val)).acts = (s.bucketDay (.cir b.val)).acts ++ [.forgive]
       ∧ t.level (.pir b.val) = s.level (.pir b.val) ∧ t.bRate (.cir b.val) = bits w.toNat 30 0 ∧ t.answer = ⟨.ok, []⟩)
     ∧ Goes (exec (.forgive .heartwood ⟨.qeBpir, b.val⟩ w) s) (fun t =>
       (s.qe.refillAt ≠ s.fc + 1 → s.settled (.pir b.val) = (s.level (.pir b.val), s.resid (.pir b.val)) →
         t.level (.pir b.val) = max 0 (s.level (.pir b.val)))
       ∧ (t.bucketDay (.pir b.val)).acts = (s.bucketDay (.pir b.val)).acts ++ [.forgive]
       ∧ t.level (.cir b.val) = s.level (.cir b.val) ∧ t.bRate (.pir b.val) = bits w.toNat 30 0 ∧ t.answer = ⟨.ok, []⟩))
   ∧ (∀ (n : Fin 512) (q : Fin 16384) (w : Word) (s : State), q.val / 32 ≠ n.val →
     exec (.forgive (.tenant n) ⟨.qeQrate, q.val⟩ w) s = .next (s.alarm.ans .bark [])))
  ∧ ((∀ (n : Fin 512) (q : Fin 16384) (w : Word) (s : State), q.val / 32 = n.val → bits w.toNat 27 27 = 1 → bits w.toNat 7 0 ≠ 0 →
     (s.fld .qeBcfg (bits w.toNat 26 16) 31 22 = n.val → Goes (exec (.queueAttach (.tenant n) q w) s) (fun t =>
       t.fld .qeQcfg q.val 27 27 = 1 ∧ t.fld .qeQcfg q.val 26 16 = bits w.toNat 26 16
       ∧ t.fld .qeQcfg q.val 7 0 = bits w.toNat 7 0 ∧ t.answer = ⟨.ok, []⟩ ∧ t.qe = s.qe))
     ∧ (s.fld .qeBcfg (bits w.toNat 26 16) 31 22 ≠ n.val → bits (s.reg .qeQcfg q.val).toNat 27 16 ≠ bits w.toNat 27 16 →
       Goes (exec (.queueAttach (.tenant n) q w) s) (fun t =>
         t.fld .qeQcfg q.val 27 16 = s.fld .qeQcfg q.val 27 16 ∧ t.answer = ⟨.denied, []⟩
         ∧ t.reg .msAlarm 0 = s.reg .msAlarm 0)))
   ∧ (∀ (b : Fin 2048) (w : Word) (s : State), s.regs.rising 0 = true →
     (bits w.toNat 31 22 ≤ 0x1FF ∨ bits w.toNat 31 22 = 0x3FF) → bits w.toNat 7 0 ≠ 0 →
     (bits w.toNat 31 22 ≠ s.fld .qeBcfg b.val 31 22 ∨ bits w.toNat 20 14 ≠ s.fld .qeBcfg b.val 20 14) → s.qe.refillAt ≠ s.fc + 1 →
     Goes (exec (.boughChange .heartwood b w) s) (fun t =>
       t.fld .qeBcfg b.val 31 22 = bits w.toNat 31 22 ∧ t.fld .qeBcfg b.val 20 14 = bits w.toNat 20 14
       ∧ (∀ q, s.queueBough q = some b.val → t.queueBough q = none)
       ∧ (∀ q b', b' ≠ b.val → s.queueBough q = some b' → t.queueBough q = some b')
       ∧ t.level (.cir b.val) = 0 ∧ t.level (.pir b.val) = 0 ∧ t.answer = ⟨.ok, []⟩))
   ∧ (∀ (p : Party) (h : Fin 64) (w : Word) (s : State), p.isOp = true → bits w.toNat 11 11 = 1 →
     bits w.toNat 31 30 ≤ 1 → s.qe.sel = [] →
     Goes (exec (.histogramClear p h w) s) (fun t => (∀ k, k < 16 → t.reg .qeHbin (16 * h.val + k) = 0)
       ∧ t.reg .qeHmax h.val = 0 ∧ t.answer = ⟨.ok, []⟩
       ∧ (∀ i, i / 16 ≠ h.val → t.reg .qeHbin i = s.reg .qeHbin i) ∧ (∀ i, i ≠ h.val → t.reg .qeHmax i = s.reg .qeHmax i))))

/-- LANE_ENABLE: the operator's write of EN to a disabled lane that passes every check takes all fields, but a MAXLEN below 64, clears LOCK
and CALDONE of the port's lanes, and a Pyril lane enters DOWN; one that fails a check is refused whole; a change of another field of an
enabled lane is refused whole; a tenant meets BARK. TRAINING_START on an enabled Ethernet lane with a PMD, not training, sets BUSY, and
otherwise a START is refused and BUSY stays; TRAINING_END ends it, OK or FAIL within TMO ms and TIMEOUT after them, writes the taps of every
member lane only when it was OK, and sets TRDONE. EYE_START on a locked lane with no measurement running sets BUSY, and otherwise START is
refused; EYE_DONE writes the three margins, the last two zero on an NRZ lane, clears BUSY and sets EYEDONE. -/
def Obligations.LanesAreEnabledTrainedAndMeasured : Prop :=
  (∀ (p : Party) (j : Fin 128) (w : Word) (s : State),
     (p.isOp = true → s.lnEn j.val = false → bit w.toNat 31 = true →
       (s.enableOk j.val w.toNat = true → Goes (exec (.laneEnable p j w) s) (fun t =>
         t.lnEn j.val = true ∧ t.fld .lnCfg j.val 30 20 = bits w.toNat 30 20
         ∧ (64 ≤ bits w.toNat 13 0 → t.fld .lnCfg j.val 13 0 = bits w.toNat 13 0 ∧ t.answer = ⟨.ok, []⟩)
         ∧ (bits w.toNat 13 0 < 64 → bits w.toNat 13 0 ≠ s.fld .lnCfg j.val 13 0 →
             t.fld .lnCfg j.val 13 0 = s.fld .lnCfg j.val 13 0 ∧ t.answer = ⟨.denied, []⟩)
         ∧ t.flag .lnStat j.val 31 = false ∧ t.flag .lnStat j.val 29 = false ∧ (bit w.toNat 20 = true → t.pySt j.val = 1)
         ∧ (∀ i, i ≠ j.val → t.reg .lnCfg i = s.reg .lnCfg i)))
       ∧ (s.enableOk j.val w.toNat = false → exec (.laneEnable p j w) s = .next (s.ans .denied [])))
     ∧ (p.isOp = true → s.lnEn j.val = true →
         (bits (s.reg .lnCfg j.val).toNat 30 20 ≠ bits w.toNat 30 20 ∨ bits (s.reg .lnCfg j.val).toNat 13 0 ≠ bits w.toNat 13 0) →
         exec (.laneEnable p j w) s = .next (s.ans .denied []))
     ∧ (∀ n : Fin 512, exec (.laneEnable (.tenant n) j w) s = .next (s.alarm.ans .bark [])))
  ∧ ((∀ (p : Party) (j : Fin 128) (w : Word) (s : State), p.isOp = true → bits w.toNat 31 31 = 1 → bits w.toNat 15 0 ≠ 0 →
     (s.trainBad j.val = false → Goes (exec (.trainingStart p j w) s) (fun t => t.flag .lnTrain j.val 30 = true
       ∧ t.fld .lnTrain j.val 15 0 = bits w.toNat 15 0 ∧ t.answer = ⟨.ok, []⟩ ∧ t.reg .lnTxeq j.val = s.reg .lnTxeq j.val))
     ∧ (s.trainBad j.val = true → exec (.trainingStart p j w) s = .next (s.ans .denied [])))
   ∧ (∀ (j : Fin 128) (r : BitVec 2) (taps : List Word) (s : State), s.flag .lnTrain j.val 30 = true → r ≠ 0 →
     let late : Prop := s.ln.trainAt.rd j.val 0 + 1600000 * s.fld .lnTrain j.val 15 0 ≤ s.fc
     ((late ↔ r = 3) → Goes (exec (.trainingEnd j r taps) s) (fun t => t.flag .lnTrain j.val 30 = false
       ∧ t.fld .lnTrain j.val 29 28 = r.toNat
       ∧ (∀ i, i < s.lnK j.val → t.reg .lnTxeq (j.val + i)
           = (if r = 1 then taps.getD i (s.reg .lnTxeq (j.val + i)) else s.reg .lnTxeq (j.val + i)))
       ∧ t.flag .lnStat j.val 5 = true ∧ t.reg .lnCfg j.val = s.reg .lnCfg j.val))
     ∧ (¬(late ↔ r = 3) → exec (.trainingEnd j r taps) s = .next s)))
  ∧ ((∀ (p : Party) (j : Fin 128) (w : Word) (s : State), p.isOp = true → bits w.toNat 31 31 = 1 → bits w.toNat 7 0 ≠ 0 →
     (s.flag .lnEyectl j.val 30 = false → s.flag .lnStat j.val 31 = true → Goes (exec (.eyeStart p j w) s) (fun t =>
       t.flag .lnEyectl j.val 30 = true ∧ t.fld .lnEyectl j.val 7 0 = bits w.toNat 7 0 ∧ t.answer = ⟨.ok, []⟩))
     ∧ (s.flag .lnEyectl j.val 30 = true ∨ s.flag .lnStat j.val 31 = false → Goes (exec (.eyeStart p j w) s) (fun t =>
       t.flag .lnEyectl j.val 30 = s.flag .lnEyectl j.val 30 ∧ t.answer = ⟨.denied, []⟩
       ∧ t.reg .msAlarm 0 = s.reg .msAlarm 0)))
   ∧ (∀ (j : Fin 128) (m0 m1 m2 : Word) (s : State), s.flag .lnEyectl j.val 30 = true →
     Goes (exec (.eyeDone j m0 m1 m2) s) (fun t => t.reg .lnEye (3 * j.val) = m0
       ∧ t.reg .lnEye (3 * j.val + 1) = (if rateFam (s.rateOf j.val) = 1 then 0 else m1)
       ∧ t.reg .lnEye (3 * j.val + 2) = (if rateFam (s.rateOf j.val) = 1 then 0 else m2)
       ∧ t.flag .lnEyectl j.val 30 = false ∧ t.flag .lnStat j.val 2 = true)))

/-- PLL_LOCK_CHANGE, CALIBRATION_DONE and LOCK_CHANGE: the status bit follows the line, a change of a PLL asserts its source, a change of
LOCK or ALIGN of an enabled lane sets its sticky bit, and one that is no change sets none; a Pyril lane that was UP leaves UP when alignment
is lost. LANE_COUNTER_SNAP: the operator's SNAP copies a lane's 32 counters, as they stood when the fc began, into LN_CNT and takes them
from the live ones; other lanes keep both. -/
def Obligations.LaneStatusAndCounters : Prop :=
  ((∀ (g : Fin 16) (lock : Bool) (s : State), s.flag .lnGcfg g.val 30 ≠ lock → Goes (exec (.pllLockChange g lock) s) (fun t =>
     t.flag .lnGcfg g.val 30 = lock ∧ (∃ c, t.dp.asserting = s.dp.asserting ++ [(640 + g.val, c)])
     ∧ t.reg .lnStat = s.reg .lnStat))
   ∧ (∀ (j : Fin 128) (s : State), (s.portOf j.val).isSome = true → Goes (exec (.calibrationDone j) s) (fun t =>
     t.flag .lnStat j.val 29 = true ∧ (∀ b, b < 32 → b ≠ 29 → t.flag .lnStat j.val b = s.flag .lnStat j.val b)))
   ∧ (∀ (j : Fin 128) (l a : Bool) (s : State), (s.portOf j.val).isSome = true → Goes (exec (.lockChange j l a) s) (fun t =>
     t.flag .lnStat j.val 31 = l ∧ t.flag .lnStat j.val 30 = a
     ∧ t.flag .lnStat j.val 7 = (s.flag .lnStat j.val 7 || (s.flag .lnStat j.val 31 != l))
     ∧ t.flag .lnStat j.val 6 = (s.flag .lnStat j.val 6 || (s.flag .lnStat j.val 30 != a))
     ∧ t.pySt j.val = (if s.pySt j.val = 2 ∧ s.flag .lnStat j.val 30 = true ∧ a = false then 1 else s.pySt j.val)))
   ∧ (∀ (j : Fin 128) (l a : Bool) (s : State), s.portOf j.val = none → exec (.lockChange j l a) s = .next s))
  ∧ (∀ (p : Party) (j : Fin 128) (w : Word) (s : State), p.isOp = true → bits w.toNat 31 31 = 1 →
     Goes (exec (.laneCounterSnap p j w) s) (fun t =>
       (∀ i, i < 32 → t.reg .lnCnt (32 * j.val + i) = s.was.live.rd (32 * j.val + i) 0
         ∧ t.ln.live.rd (32 * j.val + i) 0 = s.ln.live.rd (32 * j.val + i) 0 - s.was.live.rd (32 * j.val + i) 0)
       ∧ (∀ k, k / 32 ≠ j.val → t.reg .lnCnt k = s.reg .lnCnt k ∧ t.ln.live.rd k 0 = s.ln.live.rd k 0)
       ∧ t.answer = ⟨.ok, []⟩))

/-- RECEIVE_FRAME on an open watched Ethernet port, of an intact frame that is no MAC control frame, with room in the ingress buffer: a META
beat with the lane and the ingress time of the member that carried it, and then the frame's bytes as one packet, wait for the edge stages,
and RXGOOD counts it; a lane that nothing watches delivers nothing and counts RXUNWATCHED. RAW_RECEIVE on an enabled raw lane: without FEC,
a beat of six words of a locked lane is delivered as DATA words, after a META beat when it is the first since lock; with FEC, a corrected
codeword of a locked lane is delivered as one packet after its META beat. -/
def Obligations.LanesReceiveFramesAndRawWords : Prop :=
  (∀ (j : Fin 128) (f : RxFrame) (s : State), s.rxOpen j.val f = true → s.isPyril j.val f = false → f.fec = [] →
     let i := j.val + f.lane.val % s.lnK j.val
     (s.laneWatched j.val = true → macCtl f.bytes = 0 → s.rxCauses j.val f = [] →
       let body := if s.flag .lnCfg j.val 21 then f.bytes.take (f.bytes.length - 4) else f.bytes
       let bs := metaBeatOf j.val 0 (s.flag .lnStat i 29) (s.ingressTime i f.ago) :: beatsOf (rotWords f.rot (packetWords body))
       bs.length ≤ 1024 * s.lnK j.val - s.rxUsed j.val →
       Goes (exec (.receiveFrame j f) s) (fun t => t.ln.rx.rd j.val [] = s.ln.rx.rd j.val [] ++ rowsOf (s.lnK j.val) bs
         ∧ (t.ln.live.rd (32 * j.val) 0).toNat = satAdd 32 (s.ln.live.rd (32 * j.val) 0).toNat 1
         ∧ t.regs = s.regs ∧ t.sw = s.sw))
     ∧ (s.laneWatched j.val = false → Goes (exec (.receiveFrame j f) s) (fun t => t.ln.rx = s.ln.rx ∧ t.regs = s.regs
         ∧ (t.ln.live.rd (32 * j.val + 3) 0).toNat = satAdd 32 (s.ln.live.rd (32 * j.val + 3) 0).toNat 1)))
  ∧ (∀ (j : Fin 128) (s : State) (ago : Nat) (rot : List Nat) (ws : List W24), s.lnEn j.val = true → s.lnRaw j.val = true → s.groupOn j.val = true →
     s.flag .lnStat j.val 31 = true → s.ln.rxGap.rd j.val 0 = 0 → s.rxUsed j.val + 40 ≤ 1024 →
     (s.flag .lnCfg j.val 26 = false → ws.length = 6 → Goes (exec (.rawReceive j (.beat ws) ago rot) s) (fun t =>
       t.ln.rx.rd j.val [] = s.ln.rx.rd j.val [] ++ (if s.ln.relock.rd j.val false then
             [[metaBeatOf j.val (2 ^ 16) (s.flag .lnStat j.val 29) (s.ingressTime j.val ago)]] else [])
           ++ [[rotWords rot (ws.map (fun w => opWord codeDATA w.toNat))]]
       ∧ t.ln.relock.rd j.val false = false ∧ t.regs = s.regs))
     ∧ (∀ (n : Fin 16) (b : Nat), s.flag .lnCfg j.val 26 = true → s.flag .lnStat j.val 30 = true → ws.length = 215 →
       Goes (exec (.rawReceive j (.codeword ws ⟨some n, b⟩) ago rot) s) (fun t =>
         (t.ln.rx.rd j.val []).length = (s.ln.rx.rd j.val []).length + 37
         ∧ (t.ln.rx.rd j.val [])[(s.ln.rx.rd j.val []).length]?
             = some [metaBeatOf j.val (n.val * 2 ^ 6) (s.flag .lnStat j.val 29) (s.ingressTime j.val ago)]
         ∧ (t.ln.live.rd (32 * j.val) 0).toNat = satAdd 32 (s.ln.live.rd (32 * j.val) 0).toNat 1)))

/-- TRANSMIT_FRAME: a row of one word that opens and ends a frame, with no command word, leaves its stages and waits in the transmit buffer
as a whole frame; the frame at the buffer's head goes out in a later fc: its bytes, padded with zeros to 60 and followed by their FCS, stand
on the line, and TXGOOD counts it. RAW_TRANSMIT without FEC: when a beat is due, the line gets the six oldest words that wait, and fill for
those that are missing, one underrun counted when there is none; a row's data words join those that wait while there is room. -/
def Obligations.LanesSendFramesAndRawWords : Prop :=
  (∀ (j : Fin 128) (n : Nat) (m : Fin 8) (up : List (Fin 48)) (s : State) (w : CWord),
     s.closed (64 + j.val / 8) = false → s.txOpen j.val = true → s.lnK j.val = 1 → s.flag .lnTrain j.val 30 = false →
     codeOpens w.code.toNat = true → codeEnds w.code.toNat = true →
     let x : TxSt := { txZero with q := [⟨0x800000, [w], some true, 0, none⟩] }
     (∀ l, s.txRow j.val up = (some [w :: l], s) → s.tx j.val = txZero → (∀ y ∈ l, y.code.toNat = codeIDLE) →
       64 ≤ s.fld .lnCfg j.val 13 0 →
       Goes (exec (.transmitFrame j n m false up) s) (fun t => t.tx j.val = x ∧ t.line = s.line ∧ t.regs = s.regs
         ∧ (∀ k ∈ laneOuts j.val, t.stageAt k = (s.stageAt k).pop s.fc)))
     ∧ ((∀ k ∈ laneOuts j.val, (s.stageAt k).head s.fc = none) → s.tx j.val = x → s.pyDue j.val = false → 1 ≤ n →
       let b := padTo 60 (wordBytes24 w.data (codeBytes w.code.toNat))
       Goes (exec (.transmitFrame j n m false up) s) (fun t => t.line = (b ++ fcsOf b).map BitVec.toNat
         ∧ (t.ln.live.rd (32 * j.val + 5) 0).toNat = satAdd 32 (s.ln.live.rd (32 * j.val + 5) 0).toNat 1
         ∧ t.tx j.val = txZero ∧ t.regs = s.regs ∧ t.sw = s.sw)))
  ∧ (∀ (j : Fin 128) (up : List (Fin 48)) (s : State), s.closed (64 + j.val / 8) = false →
     s.lnEn j.val = true → s.lnRaw j.val = true → s.groupOn j.val = true → s.ln.txOn = true → s.flag .lnCfg j.val 26 = false →
     (s.lnK j.val = 1 → (∀ k ∈ laneOuts j.val, (s.stageAt k).head s.fc = none) → Goes (exec (.rawTransmit j true up) s) (fun t =>
       let got := (s.tx j.val).ws.take 6
       t.line = got.map (fun w => w.data.toNat) ++ List.replicate (6 - got.length) (s.fld .lnRawfill j.val 23 0)
       ∧ (t.tx j.val).ws = (s.tx j.val).ws.drop 6
       ∧ (t.ln.live.rd (32 * j.val + 6) 0).toNat = satAdd 32 (s.ln.live.rd (32 * j.val + 6) 0).toNat (if got = [] then 1 else 0)))
     ∧ (∀ rows u, s.txRow j.val up = (some rows, u) → (u.tx j.val).used + ((u.tx j.val).ws.length + 5) / 6 + 1 ≤ 1024 →
       Goes (exec (.rawTransmit j false up) s) (fun t => t.line = u.line ∧ t.regs = u.regs
         ∧ (t.tx j.val).ws = (u.tx j.val).ws ++ (rows.flatMap id).filter (fun w => rawTakes w.code.toNat))))

/-- SNAP copies the time base, SET stages the load of the staged value and ADJ its addition or subtraction for the next fc; each is the
operator's, and a tenant meets BARK. In the fc after a SET the time base holds the staged value. PPS_OUT rises when an enabled output's time
base reaches a second plus OFFSET, and falls WIDTH microseconds later; an edge of PPS_IN with capture enabled and the last one read copies
the time base and asserts source 724, and one that finds CAPTURED set is lost. -/
def Obligations.TimeBaseAndPps : Prop :=
  ((∀ (p : Party) (w : Word) (s : State), p.isOp = true →
     (bits w.toNat 31 29 = 4 → Goes (exec (.timeBaseSnap p w) s) (fun t =>
       t.fld .msTbrsh 0 15 0 = s.now16 / sec16 / 2 ^ 32 % 2 ^ 16 ∧ (t.reg .msTbrsl 0).toNat = s.now16 / sec16 % 2 ^ 32
       ∧ (t.reg .msTbrns 0).toNat = s.now16 % sec16 / 65536 ∧ (t.reg .msTbrfr 0).toNat = s.now16 % 65536
       ∧ t.tb = s.tb ∧ t.answer = ⟨.ok, []⟩))
     ∧ (bits w.toNat 31 29 = 2 → Goes (exec (.timeBaseSet p w) s) (fun t => t.tb = { s.tb with setTo := some s.staged, adj := 0 }
       ∧ t.answer = ⟨.ok, []⟩ ∧ t.now32 = s.now32))
     ∧ (bits w.toNat 31 29 = 1 → Goes (exec (.timeBaseAdj p w) s) (fun t =>
       t.tb = { s.tb with adj := s.tb.adj + (if bit w.toNat 28 then -(s.staged : Int) else s.staged) } ∧ t.answer = ⟨.ok, []⟩)))
   ∧ (∀ (n : Fin 512) (w : Word) (s : State), exec (.timeBaseSet (.tenant n) w) s = .next (s.alarm.ans .bark [])
     ∧ exec (.timeBaseAdj (.tenant n) w) s = .next (s.alarm.ans .bark [])
     ∧ exec (.timeBaseSnap (.tenant n) w) s = .next (s.alarm.ans .bark []))
   ∧ (∀ (s : State) (v : Nat), s.tb.setTo = some v → s.tb.adj = 0 → v < 2 ^ 48 * sec32 →
       s.tickTime.now32 = v ∧ s.tickTime.tb.setTo = none))
  ∧ (∀ s : State,
     (s.flag .msPpscfg 0 31 = true → s.atSecond = true →
       exec (.ppsOutPulse true) s = .next { s with tb := { s.tb with ppsOut := true, ppsAt := s.fc } })
     ∧ (s.tb.ppsOut = true → s.tb.ppsAt + 1600 * s.fld .msPpscfg 0 15 0 ≤ s.fc →
       exec (.ppsOutPulse false) s = .next { s with tb := { s.tb with ppsOut := false } })
     ∧ (s.flag .msPpscfg 0 30 = true → s.flag .msTbcmd 0 0 = false → Goes (exec .ppsInCapture s) (fun t =>
       (t.reg .msPpsisl 0).toNat = s.now16 / sec16 % 2 ^ 32 ∧ (t.reg .msPpsins 0).toNat = s.now16 % sec16 / 65536
       ∧ (t.reg .msPpsifr 0).toNat = s.now16 % 65536 ∧ t.flag .msTbcmd 0 0 = true ∧ t.tb = s.tb
       ∧ (∃ c, t.dp.asserting = s.dp.asserting ++ [(724, c)])))
     ∧ (s.flag .msTbcmd 0 0 = true → exec .ppsInCapture s = .next s))

/-- HELLO_SEND at a frame boundary of a lane whose engine is on puts a HELLO frame with the lane's epoch, sequence and streams on the line,
not again for 1,600,000 fc; CREDIT_SEND lists the changed streams, at most 64; both end the change of the streams they list. HELLO_RECEIVE
of a valid HELLO with no entries brings the lane UP with the sender's address, epoch and the fc it was heard in, and a new epoch of a lane
that was UP moves its own epoch on; HELLO_TIMEOUT 4,800,000 fc after the last one takes it DOWN, moves its epoch on and forgets its counts;
CREDIT_RECEIVE on a lane that is not UP changes no credit. PYRIL_DATA_SEND with a whole one-word frame of a stream at the head of the
buffer: in an UP lane with credit it uses one credit and stands on the line; without credit it stays; of a stream that is not the lane's, of
a lane not UP, or with a wrong command, it is discarded and counted in PYTXD. PYRIL_DATA_RECEIVE of an accepted frame counts it as received,
and of a stream that has used its credit counts it as refused and nothing else. -/
def Obligations.PyrilLanesComeUpAndSpendCredit : Prop :=
  (∀ (j : Fin 128) (s : State), s.pyOn j.val = true → s.atBoundary j.val = true →
     ((s.py j.val).first = true ∨ (s.py j.val).helloAt + 1600000 ≤ s.fc → Goes (exec (.helloSend j) s) (fun t =>
       (∃ body, t.line = (s.pyFrame j.val body).map BitVec.toNat ∧ body.length = 10 + 8 * (s.laneStreams j.val).length
         ∧ body.take 1 = [BitVec.ofNat 8 (s.txVer j.val * 16 + 3)] ∧ (body.drop 2).take 2 = toBE 2 (s.fld .lnPyl j.val 15 0)
         ∧ (body.drop 4).take 4 = toBE 4 (s.py j.val).hseq.toNat)
       ∧ (t.py j.val).helloAt = s.fc ∧ (t.py j.val).hseq = (s.py j.val).hseq + 1
       ∧ (∀ k ∈ s.laneStreams j.val, t.ln.changed.rd k false = false) ∧ t.regs = s.regs))
     ∧ ((s.py j.val).first = false → s.fc < (s.py j.val).helloAt + 1600000 → exec (.helloSend j) s = .next s)
     ∧ (let ks := ((s.laneStreams j.val).filter (fun k => s.ln.changed.rd k false)).take 64
        (ks ≠ [] → Goes (exec (.creditSend j) s) (fun t =>
           (∃ body, t.line = (s.pyFrame j.val body).map BitVec.toNat ∧ body.length = 8 + 6 * ks.length
             ∧ body.take 2 = [BitVec.ofNat 8 (s.txVer j.val * 16 + 2), BitVec.ofNat 8 ks.length])
           ∧ (∀ k ∈ ks, t.ln.changed.rd k false = false) ∧ t.regs = s.regs))
        ∧ (ks = [] → exec (.creditSend j) s = .next s)))
  ∧ ((∀ (j : Fin 128) (f : RxFrame) (s : State), s.pyTakes j.val f 3 = true → f.fec = [] → fcsGood f.bytes = true →
     f.pcsError = false → helloValid (pyBody f) = true → be16 (pyBody f) 8 = 0 →
     Goes (exec (.helloReceive j f) s) (fun t => t.pySt j.val = 2 ∧ (t.py j.val).heard = s.fc
       ∧ (t.py j.val).peerEpoch = some (BitVec.ofNat 16 (be16 (pyBody f) 2))
       ∧ (t.py j.val).peerSa = some (BitVec.ofNat 48 (bytesBE ((f.bytes.drop 6).take 6)))
       ∧ t.fld .lnPyl j.val 15 0 = (if s.pySt j.val = 2 ∧ (s.py j.val).peerEpoch ≠ some (BitVec.ofNat 16 (be16 (pyBody f) 2))
           then (s.fld .lnPyl j.val 15 0 + 1) % 2 ^ 16 else s.fld .lnPyl j.val 15 0)))
   ∧ (∀ (j : Fin 128) (s : State), s.pySt j.val = 2 →
     ((s.py j.val).heard + 4800000 ≤ s.fc → Goes (exec (.helloTimeout j) s) (fun t => t.pySt j.val = 1
       ∧ t.fld .lnPyl j.val 15 0 = (s.fld .lnPyl j.val 15 0 + 1) % 2 ^ 16 ∧ t.flag .lnStat j.val 3 = true
       ∧ (∀ k ∈ s.laneStreams j.val, t.ln.sent.rd k 0 = 0 ∧ t.ln.recv.rd k 0 = 0 ∧ t.ln.granted.rd k 0 = 0
           ∧ t.ln.peerGranted.rd k 0 = 0)))
     ∧ (s.fc < (s.py j.val).heard + 4800000 → exec (.helloTimeout j) s = .next s))
   ∧ (∀ (j : Fin 128) (f : RxFrame) (s : State), s.pyTakes j.val f 2 = true → f.fec = [] → fcsGood f.bytes = true →
     f.pcsError = false → 1 ≤ pyVer (pyBody f) → pyVer (pyBody f) ≤ verMax →
     (s.pySt j.val ≠ 2 → exec (.creditReceive j f) s = .next s)
     ∧ (∀ st : Fin 256, s.pySt j.val = 2 → byteAt (pyBody f) 1 = 1 → byteAt (pyBody f) 8 = st.val → s.streamOn j.val st.val = true →
       Goes (exec (.creditReceive j f) s) (fun t =>
         t.ln.peerGranted.rd (streamKey j.val st.val) 0 = BitVec.ofNat 32 (bytesBE (((pyBody f).drop 10).take 4))
         ∧ (∀ k, k ≠ streamKey j.val st.val → t.ln.peerGranted.rd k 0 = s.ln.peerGranted.rd k 0)))))
  ∧ ((∀ (j : Fin 128) (n cmd : Nat) (up : List (Fin 48)) (s : State) (w : CWord), s.txOpen j.val = true → s.lnK j.val = 1 →
     s.flag .lnTrain j.val 30 = false → s.pyDue j.val = false → 1 ≤ n →
     (∀ k ∈ laneOuts j.val, (s.stageAt k).head s.fc = none) →
     s.tx j.val = { txZero with q := [⟨cmd, [w], some true, 0, none⟩] } → bit cmd 0 = true →
     let st := bits cmd 20 13
     let k := streamKey j.val st
     let ok : Prop := pyCmdOk cmd = true ∧ s.streamOn j.val st = true ∧ s.pySt j.val = 2
     (ok → s.avail k ≠ 0 → Goes (exec (.pyrilDataSend j n false up) s) (fun t => t.ln.sent.rd k 0 = s.ln.sent.rd k 0 + 1
       ∧ (∃ body, t.line = (s.pyFrame j.val body).map BitVec.toNat ∧ body.take 2 = [BitVec.ofNat 8 (s.txVer j.val * 16 + 1), BitVec.ofNat 8 st]
         ∧ body.drop 8 = wordBytes24 w.data (codeBytes w.code.toNat)) ∧ t.tx j.val = txZero ∧ t.regs = s.regs))
     ∧ (ok → s.avail k = 0 → exec (.pyrilDataSend j n false up) s = .next s)
     ∧ (¬ok → Goes (exec (.pyrilDataSend j n false up) s) (fun t => t.tx j.val = txZero ∧ t.line = s.line ∧ t.ln.sent = s.ln.sent
       ∧ (t.ln.live.rd (32 * j.val + 29) 0).toNat = satAdd 32 (s.ln.live.rd (32 * j.val + 29) 0).toNat 1)))
   ∧ (∀ (j : Fin 128) (f : RxFrame) (pay : Fin 39) (s : State), let b := pyBody f
     let k := streamKey j.val (byteAt b 1)
     s.rxOpen j.val f = true → s.isPyril j.val f = true → f.fec = [] → pyType b = 1 → pyVer b = 1 → s.pySt j.val = 2 →
     s.streamOn j.val (byteAt b 1) = true →
     ((s.grantedOf k).toNat ≤ (s.ln.recv.rd k 0).toNat → Goes (exec (.pyrilDataReceive j f pay) s) (fun t =>
       t.ln.recv = s.ln.recv ∧ t.ln.rx = s.ln.rx ∧ t.regs = s.regs
       ∧ (t.ln.live.rd (32 * j.val + 28) 0).toNat = satAdd 32 (s.ln.live.rd (32 * j.val + 28) 0).toNat 1))
     ∧ ((s.ln.recv.rd k 0).toNat < (s.grantedOf k).toNat → be16 b 4 / 64 = s.fld .lnPys k 27 18 →
       genOk (s.fld .lnPyg k 23 16) (s.fld .lnPyg k 15 8) (byteAt b 2) = true →
       Goes (exec (.pyrilDataReceive j f pay) s) (fun t => t.ln.recv.rd k 0 = s.ln.recv.rd k 0 + 1 ∧ t.regs = s.regs))))

/-- Operator logic returns credit with a CTRL word of OP 0x1 on member 0 between frames, outside training: COUNT is added to the stream's
GRANTED; a return for a stream that is not enabled or not bound to the lane, or with COUNT 0, is discarded and counted in TXDISC. -/
def Obligations.CreditReturnsAreAddedOrDiscarded : Prop :=
  ∀ (j : Fin 128) (up : List (Fin 48)) (s u : State) (rows : List (List CWord)), let w := (rows.flatMap id).headD opIdle
    let k := streamKey j.val (bits w.data.toNat 19 12)
    let count := bits w.data.toNat 11 0
    s.txOpen j.val = true → s.txRow j.val up = (some rows, u) → u.flag .lnTrain j.val 30 = false → (u.tx j.val).inFrame = false → (u.tx j.val).skip = false →
    w.code.toNat = codeCTRL → bits w.data.toNat 23 20 = 1 →
    (count ≠ 0 → u.streamOn j.val (bits w.data.toNat 19 12) = true → Goes (exec (.creditReturn j up) s) (fun t =>
      t.ln.granted.rd k 0 = u.ln.granted.rd k 0 + BitVec.ofNat 32 count ∧ (∀ k', k' ≠ k → t.ln.granted.rd k' 0 = u.ln.granted.rd k' 0)))
    ∧ ((count = 0 ∨ u.streamOn j.val (bits w.data.toNat 19 12) = false) → (∀ x ∈ (rows.flatMap id).drop 1, x.code.toNat = codeIDLE) →
      Goes (exec (.creditReturn j up) s) (fun t => t.ln.granted = u.ln.granted
        ∧ (t.ln.live.rd (32 * j.val + 7) 0).toNat = satAdd 32 (u.ln.live.rd (32 * j.val + 7) 0).toNat 1))

/-- NOC_REQUEST_ISSUE with one request waiting: one that its source NI must refuse completes at once with that status and goes no further;
one that credit, response space and bucket allow goes to its router, is outstanding, and pays its flits from its tag's bucket; one that they
do not allow waits; in the fc of its domain's reserved position it needs no bucket and pays none. A request that leaves its 256-byte block,
is longer than 64 words, or has no valid injection entry for its tag is refused DENIED by its own NI, and one whose destination has no valid
route UNMAPPED, whoever makes it. -/
def Obligations.NocRequestsAreJudgedAndIssued : Prop :=
  (∀ (ni : Fin 5) (s : State) (q : NocReq), let n := 84 + ni.val
     s.nocWait n = [q] → s.nc.newMode = none →
     (∀ st, s.localRefusal n q = some st →
       exec (.nocRequestIssue ni) s = .next ((s.setWait n []).completeReq q st []))
     ∧ (s.localRefusal n q = none → s.heldForWake q = false → s.underShare n q = true → s.sealTurn n = none →
       (s.creditOk n q = true → s.bucketOk n q = true → Goes (exec (.nocRequestIssue ni) s) (fun t =>
         t.nocWait n = [] ∧ (∃ id, (∀ o ∈ s.nocOut n, o.txid ≠ id) ∧ (t.nocOut n).map (fun o => (o.txid, o.req, o.sealed, o.dead))
             = (s.nocOut n).map (fun o => (o.txid, o.req, o.sealed, o.dead)) ++ [(id, q, false, false)])
         ∧ (∀ k, q.htw = false → s.injEntry n q.tag q.dst q.prio.toNat = some k →
             t.nc.level.rd k 0 = s.nc.level.rd k 0 - (reqFlits q : Nat))
         ∧ (q.htw = true → t.nc.level = s.nc.level) ∧ t.regs = s.regs ∧ t.answer = s.answer))
       ∧ (s.creditOk n q = false ∨ s.bucketOk n q = false → exec (.nocRequestIssue ni) s = .next s))
     ∧ (s.localRefusal n q = none → s.heldForWake q = false → s.underShare n q = true → s.sealTurn n = some q.tag → q.htw = false →
       s.creditOk n q = true → Goes (exec (.nocRequestIssue ni) s) (fun t => t.nocWait n = [] ∧ t.nc.level = s.nc.level
         ∧ (t.nocOut n).length = (s.nocOut n).length + 1 ∧ t.sealTurn n = none ∧ t.regs = s.regs)))
  ∧ (∀ (s : State) (ni : Nat) (q : NocReq),
     (s.rteValid ni q.dst = false → s.localRefusal ni q = some .unmapped)
     ∧ (q.dst < 92 → s.rteLive ni q.dst = true →
         (64 < q.words ∨ q.addr % 4 ≠ 0 ∨ q.addr / 256 ≠ (q.addr + 4 * q.words - 1) / 256 → s.localRefusal ni q = some .denied)
         ∧ (q.addr % 4 = 0 → 1 ≤ q.words → q.addr / 256 = (q.addr + 4 * q.words - 1) / 256 → q.words ≤ 64 → q.htw = false →
             s.injEntry ni q.tag q.dst q.prio.toNat = none → s.localRefusal ni q = some .denied)))

/-- The route that an entry must hold leads from the source's router to the destination's, east and west before north and south, in the
fewest hops; from node 84 to node 37 it is the manual's example. -/
def Obligations.RoutesAreDimensionOrderedAndArrive : Prop :=
  (∀ a b : Nat, a < 92 → b < 92 → let codes := routeCodes (dimRoute a b).toNat 14
    walkRoute (routerOf a) codes = some (routerOf b)
    ∧ codes.length = ((routerOf a % 8 : Int) - routerOf b % 8).natAbs + ((routerOf a / 8 : Int) - (routerOf b / 8 : Nat)).natAbs
    ∧ (codes.Pairwise (fun x y => x % 2 = 0 → y % 2 = 0)))
  ∧ dimRoute 84 37 = 0x3FFFF491249#42 ∧ dimRoute 37 84 = 0x3FFFF0036DB#42

/-- PRIO selects the virtual channel by the table of R324: with SEALVC 1, which requires four channels, channel 3 carries only SEAL flits,
and an image with SEALVC 1 and fewer channels fails with FORMAT. -/
def Obligations.PriorityAndSealSelectTheVirtualChannel : Prop :=
  (∀ (s : State), let vcs := s.fld .ncMode 0 30 29
    (vcs = 0 → s.vcOf 0 false = 0 ∧ s.vcOf 1 false = 0 ∧ s.vcOf 2 false = 1 ∧ s.vcOf 3 false = 1)
    ∧ (vcs = 1 → s.vcOf 0 false = 0 ∧ s.vcOf 1 false = 0 ∧ s.vcOf 2 false = 1 ∧ s.vcOf 3 false = 2)
    ∧ (vcs = 2 → s.flag .ncMode 0 27 = false → ∀ p, p < 4 → s.vcOf p false = p)
    ∧ (vcs = 2 → s.flag .ncMode 0 27 = true → s.vcOf 0 false = 0 ∧ s.vcOf 1 false = 1 ∧ s.vcOf 2 false = 2 ∧ s.vcOf 3 false = 2
        ∧ ∀ p, s.vcOf p true = 3))
  ∧ (∀ (ws p : List Word) (s u : State) (l : Load), s.cmdStands 5 ws l u p → bits (p.getD 0 0).toNat 27 0 = 0 →
    let mode := bits (p.getD 1 0).toNat 31 16
    bit mode 11 = true → bits mode 14 13 ≠ 2 → exec (.setDevice ws) s = .next (u.failLoad 5 0))

/-- FLIT_FORWARD: the flit a router output chooses leaves its buffer and, over a link, stands at the next router in the next fc with its
route moved up by one code when it is a head, and marked when a word of its data cannot be corrected at this router; an output forwards once
in an fc; a head whose header cannot be corrected, or fails its parity, goes with its worm and raises the alarm. NOC_SERVE: the next request
of a target NI leaves its queue, and exactly one response with the status and data of what it did is sent to its source; without a route
there it is discarded unserved; a fenced target answers FENCED and does nothing else; one that its FIFO holds stays. An access to tile
memory moves its first word and stays in service, one word an fc, until its last has moved, and is then answered. -/
def Obligations.RoutersForwardAndTargetsServe : Prop :=
  (∀ (b : Bool) (r : Fin 64) (o : Fin 6) (s : State), let k0 := 8 * (64 * b2n b + r.val) + o.val
     (s.nc.fwd.rd k0 0 = s.fc + 1 → ∀ u, exec (.flitForward b r o u) s = .next s)
     ∧ (∀ (i vc r' : Nat) (f : Flit), s.nc.fwd.rd k0 0 ≠ s.fc + 1 → s.chooseFlit b r.val o.val = some (i, vc, f) → i < 6 → vc < 4 →
       f.vc = vc →
       (o.val < 4 → linkTo r.val o.val = some r' → s.nc.purge.rd (bufKey b r' (entryOf o.val) vc) false = false →
         ∀ u : FlitUpset, (f.head = true → u.double = [] ∧ u.hpar = false) →
         Goes (exec (.flitForward b r o u) s) (fun t =>
           t.nc.rbuf.rd (bufKey b r.val i vc) [] = (s.nc.rbuf.rd (bufKey b r.val i vc) []).drop 1
           ∧ t.nc.rbuf.rd (bufKey b r' (entryOf o.val) vc) [] = s.nc.rbuf.rd (bufKey b r' (entryOf o.val) vc) []
               ++ [(s.fc + 1, if f.head then { f with hdr := f.hdr.shifted } else s.struck f u)]
           ∧ (s.flag .ncMode 0 28 = false → (s.struck f u).psn = (f.psn || !u.double.isEmpty))
           ∧ t.nc.fwd.rd k0 0 = s.fc + 1 ∧ t.nc.alarm = s.nc.alarm ∧ t.regs = s.regs ∧ t.nc.outst = s.nc.outst))
       ∧ (f.head = true → ∀ u : FlitUpset, u.double ≠ [] ∨ u.hpar = true → Goes (exec (.flitForward b r o u) s) (fun t => t.nc.alarm = true
           ∧ t.nc.rbuf.rd (bufKey b r.val i vc) [] = (cutWorm (s.nc.rbuf.rd (bufKey b r.val i vc) [])).1
           ∧ t.nc.ej = s.nc.ej ∧ t.nc.tq = s.nc.tq))))
  ∧ ((∀ (n : Fin 92) (up : List Nat) (s : State) (k : Nat) (q : TReq), s.nextServe n.val = some k → (s.nc.tq.rd n.val [])[k]? = some q →
     let s0 := { s with nc := { s.nc with tq := s.nc.tq.up n.val [] (fun l => l.eraseIdx k) } }
     (s.heldByFifo n.val q = true → exec (.nocServe n up) s = .next s)
     ∧ (s.heldByFifo n.val q = false →
       (s.rteLive n.val q.hdr.src.toNat = false → exec (.nocServe n up) s = .next s0)
       ∧ (s.rteLive n.val q.hdr.src.toNat = true →
         ((s.turnedAway n.val q).isSome = true ∨ s.moves n.val q.hdr = none → let u := s0.perform n.val q
           exec (.nocServe n up) s = .next (u.respond n.val q u.answer.status u.answer.data))
         ∧ (s.targetFenced n.val = true → exec (.nocServe n up) s = .next ((s0.ans .fenced []).respond n.val q .fenced []))
         ∧ (∀ T w0, s.turnedAway n.val q = none → s.moves n.val q.hdr = some (.tile T w0) → Goes (exec (.nocServe n up) s) (fun t =>
             t.nc.tq.rd n.val [] = (s.nc.tq.rd n.val []).eraseIdx k
             ∧ (∃ v, t.nc.svc.rd n.val none = some v ∧ v.req = q ∧ v.units = q.hdr.words ∧ v.done = 1)
             ∧ (q.hdr.isWrite = true → t.tl = (s.setTmem T w0 ((q.data.getD 0 0).setWidth 24)).tl)
             ∧ (q.hdr.isWrite = false → t.tl.mem = s.tl.mem) ∧ t.regs = s.regs)))))
   ∧ (∀ (n : Nat) (s : State) (v : Svc), s.nc.svc.rd n none = some v → v.done = v.units → v.st = .ok → v.req.hdr.isWrite = true →
       State.svcMove n s = ((s.setSvc n none).ans .ok []).respond n v.req .ok []))

/-- NOC_RESPONSE_ARRIVE: a response returns the credit and the reservation of its request and completes it, poisoned data as POISON; one
whose requester no longer waits is absorbed. NOC_TIMEOUT: a request without a response for 1,048,576 fc completes TIMEOUT and its response,
if it comes, will be absorbed. Stated for heartwood's and the configuration controller's requests, whose answer is the access's.
NOC_BUCKET_REFILL at refill counter 255: every valid entry in force gains RATE, clipped at BURST. INJECTION_ENTRY_WRITE: heartwood's write
of a legal pair for which no twin is valid takes effect with its level at BURST; any other party's is UNMAPPED and changes nothing. -/
def Obligations.NocRequestsCompleteAndBucketsRefill : Prop :=
  (∀ (ni : Fin 5) (s : State) (o : Outst), let n := 84 + ni.val
     (∀ (r : NResp) (l : List NResp), s.nc.arrived.rd n [] = r :: l → r.fc ≤ s.fc →
       (s.nocOut n).find? (fun o => o.txid == r.hdr.txid) = some o →
       (o.dead = true → Goes (exec (.nocResponseArrive ni) s) (fun t => t.answer = s.answer
         ∧ t.nocOut n = (s.nocOut n).filter (fun x => x.txid != r.hdr.txid) ∧ t.nc.arrived.rd n [] = l))
       ∧ (o.dead = false → o.req.who = .heartwood ∨ o.req.who = .config → o.req.write = false → r.hdr.status = .ok →
         Goes (exec (.nocResponseArrive ni) s) (fun t =>
           t.answer = ⟨if r.psn then .poison else .ok, r.data.take o.req.words⟩
           ∧ t.nocOut n = (s.nocOut n).filter (fun x => x.txid != r.hdr.txid) ∧ t.nc.arrived.rd n [] = l ∧ t.regs = s.regs)))
     ∧ (∀ id, (s.nocOut n).find? (fun o => o.txid == id && !o.dead) = some o →
       ((∀ t0, o.sent = some t0 → s.fc < t0 + 1048576) → exec (.nocTimeout ni id) s = .next s)
       ∧ (∀ t0, o.sent = some t0 → t0 + 1048576 ≤ s.fc → o.req.who = .heartwood ∨ o.req.who = .config → o.req.write = false →
         Goes (exec (.nocTimeout ni id) s) (fun t => t.answer = ⟨.timeout, List.replicate o.req.words 0⟩
           ∧ t.nocOut n = (s.nocOut n).map (fun x => if x.txid == id then { x with dead := true } else x) ∧ t.regs = s.regs))))
  ∧ ((∀ s : State, s.act.rising 0 = true → s.qe.refill = 255 → s.nc.refillAt ≠ s.fc + 1 →
     Goes (exec .nocBucketRefill s) (fun t => t.nc.refillAt = s.fc + 1 ∧ ∀ k,
       t.nc.level.rd k 0 = (if bit (s.actv .ncInjA k).toNat 31
         then min (s.nc.level.rd k 0 + (s.actFld .ncInjB k 23 15 : Nat)) ((s.actFld .ncInjB k 31 24 : Nat) : Int)
         else s.nc.level.rd k 0)))
   ∧ (∀ (p : Party) (ni : Fin 5) (i : Fin 2048) (w : Word) (s : State), let k := injKey (84 + ni.val) i.val
     (p ≠ .heartwood → exec (.injectionEntryWrite p ni i w) s = .next (s.ans .unmapped []))
     ∧ (p = .heartwood → s.injTwin (84 + ni.val) i.val (s.reg .ncInjA k).toNat = false → s.preOut = false →
       bits w.toNat 31 24 ≠ 0 → 1 ≤ bits w.toNat 23 15 → bits w.toNat 23 15 ≤ 256 →
       Goes (exec (.injectionEntryWrite p ni i w) s) (fun t => t.actv .ncInjA k = s.reg .ncInjA k
         ∧ t.actFld .ncInjB k 31 24 = bits w.toNat 31 24 ∧ t.actFld .ncInjB k 23 15 = bits w.toNat 23 15
         ∧ t.nc.level.rd k 0 = (bits w.toNat 31 24 : Nat) ∧ t.answer = ⟨.ok, []⟩))))

/-- ROUTE_ENTRY_WRITE: heartwood's write of a valid entry with the one accepted route is installed; a valid entry with another route is
DENIED and changes nothing; a CRED above 32 keeps that field alone; another party's write is UNMAPPED. NOC_MODE_SWITCH: the new mode stands
once nothing is in flight, and not before. DOMAIN_WAKE stamps the wait of the first request held for a domain that is off; WAKE_DELIVERY
releases the requests held for it once the domain is on or 32,000 fc have passed. FIFO_NOC_TIMEOUT answers the oldest access that a FIFO has
held for 65,536 fc TIMEOUT, and moves no entry. -/
def Obligations.RouteEntriesModesFencesAndWakes : Prop :=
  ((∀ (p : Party) (ni : Fin 92) (d : Fin 128) (w : Word) (s : State), let k := rteKey ni.val d.val
     let route := (s.reg .ncRteL k).toNat + bits w.toNat 9 0 * 2 ^ 32
     (p ≠ .heartwood → exec (.routeEntryWrite p ni d w) s = .next (s.ans .unmapped []))
     ∧ (p = .heartwood → bit w.toNat 31 = true →
       (routeOk ni.val d.val route = true → s.preOut = false → Goes (exec (.routeEntryWrite p ni d w) s) (fun t =>
         t.rteValid ni.val d.val = true ∧ t.nc.route.rd k 0 = dimRoute ni.val d.val
         ∧ (bits w.toNat 30 25 ≤ 32 → t.rteCred ni.val d.val = bits w.toNat 30 25 ∧ t.answer = ⟨.ok, []⟩)
         ∧ (32 < bits w.toNat 30 25 → bits w.toNat 30 25 ≠ s.rteCred ni.val d.val →
             t.rteCred ni.val d.val = s.rteCred ni.val d.val ∧ t.answer = ⟨.denied, []⟩)))
       ∧ (routeOk ni.val d.val route = false → exec (.routeEntryWrite p ni d w) s = .next (s.ans .denied []))))
   ∧ (∀ (s : State) (w : Word), s.nc.newMode = some w →
     (s.nc.rbuf = [] → s.nc.ej = [] → s.nc.tq = [] → s.nc.svc = [] → s.nc.niq = [] → s.nc.arrived = [] → s.nc.outst.all (fun e => e.2.all (·.dead)) = true →
       Goes (exec .nocModeSwitch s) (fun t => t.reg .ncMode 0 = w ∧ t.nc.newMode = none ∧ t.nc.outst = s.nc.outst))
     ∧ (s.nc.outst.all (fun e => e.2.all (·.dead)) = false → exec .nocModeSwitch s = .next s)))
  ∧ ((∀ (ni : Fin 4) (s : State) (q : NocReq) (d : Nat), s.nocWait (84 + ni.val) = [q] → s.nc.directs = [] → s.heldForWake q = true →
     domainOfNode q.dst = some d → s.nc.wake.rd d none = none →
     exec (.domainWake ⟨ni.val, by omega⟩) s = .next { s with nc := { s.nc with wake := s.nc.wake.wr d none (some (s.fc + 1)) } })
   ∧ (∀ (d : Fin 96) (s : State) (t0 : Nat), s.nc.wake.rd d.val none = some t0 → s.nc.directs = [] →
     (s.powered d.val = true → Goes (exec (.wakeDelivery d) s) (fun t => t.nc.wake.rd d.val none = none ∧ t.regs = s.regs))
     ∧ (s.powered d.val = false → t0 ≠ 0 → t0 + 31999 ≤ s.fc → Goes (exec (.wakeDelivery d) s) (fun t =>
         t.nc.wake.rd d.val none = some 0
         ∧ (∀ ni : Fin 4, ∀ q ∈ t.nocWait (84 + ni.val), domainOfNode q.dst = some d.val → t.heldForWake q = false)))
     ∧ (s.powered d.val = false → s.fc < t0 + 31999 → exec (.wakeDelivery d) s = .next s))
   ∧ (∀ (g : Fin 64) (f : Fin 8) (s : State) (x : TReq) (k : Nat) (l : List (TReq × Nat)),
     s.nc.svc.rd g.val none = none →
     ((s.nc.tq.rd g.val []).zipIdx).filter (fun (x : TReq × Nat) => fifoOf g.val x.1 == some (8 * g.val + f.val)
       && decide (x.1.fc + 65536 < s.fc) && s.heldByFifo g.val x.1) = (x, k) :: l →
     (s.nc.tq.rd g.val [])[k]? = some x → s.rteLive g.val x.hdr.src.toNat = true →
     (let s0 := { s with nc := { s.nc with tq := s.nc.tq.up g.val [] (fun l => l.eraseIdx k) } }
      exec (.fifoNocTimeout g f) s = .next ((s0.ans .timeout []).respond g.val x .timeout []))))

/-- FENCE_REQ of a domain that heartwood is switching off, and that is not fenced or off already, makes it answer FENCED from this fc; any
other changes nothing. As an fc passes, an idle draining domain returns FENCE_ACK, and in the fc after it the boundary of a grove or bank is
closed, its power goes, and the asking is over. DOMAIN_READY of one that heartwood is restoring: power is on, the boundary open, and a
grove's rings are held for its stages. RAIL_FAULT marks the rail and asks a grove or lane group to be fenced, which is told once it is off,
or takes a bank offline and tells it. While a domain is off its grove holds nothing: switching it off leaves its rings, tile memory, FIFOs,
switch stages and phase counter at zero, and no state of another grove changes. -/
def Obligations.DomainsAreFencedAndRestored : Prop :=
  ((∀ (d : Fin 96) (s : State),
     (s.pw.fenceAsk.rd d.val false = true → s.fencedOff d.val = false → Goes (exec (.fenceReq d) s) (fun t => t.fencedOff d.val = true
       ∧ t.pw.draining.rd d.val 0 = s.fc + 1 ∧ t.regs = s.regs ∧ (∀ d', d' ≠ d.val → t.fencedOff d' = s.fencedOff d')))
     ∧ (s.pw.fenceAsk.rd d.val false = false ∨ s.fencedOff d.val = true → exec (.fenceReq d) s = .next s))
   ∧ (∀ (d : Fin 96) (s : State), s.flag .pwDomfen (d.val / 32) (d.val % 32) = false → (80 ≤ d.val ∨ s.nc.svc.rd d.val none = none) →
     let t := State.drain d.val s
     t.flag .pwDomfen (d.val / 32) (d.val % 32) = true ∧ t.closed d.val = false
       ∧ (∀ d' : Fin 96, t.powered d'.val = s.powered d'.val) ∧ t.pw.draining = s.pw.draining)
   ∧ (∀ (d : Fin 96) (s : State), (d.val < 64 ∨ 80 ≤ d.val) → s.flag .pwDomfen (d.val / 32) (d.val % 32) = true →
     let t := State.drain d.val s
     t.closed d.val = true ∧ t.powered d.val = false ∧ t.pw.fenceAsk.rd d.val false = false ∧ t.pw.draining.rd d.val 0 = 0
       ∧ (s.pw.railBad.rd d.val false = true → d.val < 64 → (.both opTag, mkRec 5 opTag 16 1 d.val) ∈ t.ht.recs)
       ∧ (∀ d' : Fin 96, d' ≠ d → t.powered d'.val = s.powered d'.val ∧ t.closed d'.val = s.closed d'.val))
   ∧ (∀ (d : Fin 96) (s : State), s.powered d.val = false → s.pw.restoring.rd d.val false = true →
     Goes (exec (.domainReady d) s) (fun t => t.powered d.val = true ∧ t.closed d.val = false ∧ t.pw.restoring.rd d.val false = false
       ∧ (d.val < 64 → ∀ k, k / 1024 = d.val → t.tl.held.rd k false = true)))
   ∧ (∀ (d : Fin 96) (s : State), s.powered d.val = true → s.pw.railBad.rd d.val false = false →
     s.flag .htStat 0 31 = false →
     Goes (exec (.railFault d) s) (fun t => t.pw.railBad.rd d.val false = true
       ∧ (80 ≤ d.val → (.both opTag, mkRec 5 opTag 16 1 d.val) ∈ t.ht.recs)
       ∧ (d.val < 80 → t.pw.fenceAsk.rd d.val false = true ∧ t.regs = s.regs)
       ∧ (80 ≤ d.val → s.online (d.val - 80) = true → t.online (d.val - 80) = false))))
  ∧ (∀ (s : State) (g : Nat), g < 64 → let t := s.domainOff g
     (∀ k, k / 8192 = g → t.tl.rst.d.rd k 0 = 0) ∧ (∀ k, k / 131072 = g → t.tl.mem.rd k 0 = 0)
     ∧ (∀ F, F / 8 = g → t.fifo F = fifoZero) ∧ (∀ k, k / 4096 = g → t.stageAt k = stageZero)
     ∧ t.running g = false ∧ t.powered g = false
     ∧ (∀ k, k / 8192 ≠ g → t.tl.rst.d.rd k 0 = s.tl.rst.d.rd k 0) ∧ (∀ k, k / 131072 ≠ g → t.tl.mem.rd k 0 = s.tl.mem.rd k 0)
     ∧ (∀ F, F / 8 ≠ g → t.fifo F = s.fifo F) ∧ (∀ k, k / 4096 ≠ g → t.stageAt k = s.stageAt k)
     ∧ (∀ g', g' ≠ g → t.running g' = s.running g'))

/-- REFERENCE_SELECT: the operator's change of SEL, with the reference it names present, starts a slew and ends a holdover, but one that
selects REF_IN with another FREQ begins a holdover; REF_IN absent, or a change of FREQ while it is selected, is DENIED. SLEW_DONE ends the
slew. REFERENCE_LOSS clears REFOK, and while REF_IN is selected enters holdover, ends a slew, sets REFLOSS and tells the operator and
heartwood; REFERENCE_RETURN within 100 ppm sets REFOK and OFFSET. PLL_LOCK_LOSS clears LOCK and sets LOCKLOSS once; TAPROOT_RELOCK sets
LOCK. TAP_INSTRUCTION takes effect in WAIT and SAFE, and elsewhere the TAP holds BYPASS in its place; an access to the debug module of a
core is answered while a token is in force for it, and the TAP holds BYPASS otherwise. -/
def Obligations.ClocksFollowReferenceAndPll : Prop :=
  (∀ (p : Party) (w : Word) (s : State),
     (p.isOp = true → bit w.toNat 31 ≠ s.flag .ckRefcfg 0 31 → (bit w.toNat 31 = true → s.flag .ckStat 0 30 = true) →
       (s.flag .ckRefcfg 0 31 = true → bits w.toNat 30 29 = s.fld .ckRefcfg 0 30 29) →
       Goes (exec (.referenceSelect p w) s) (fun t => let off := s.flag .ckStat 0 30 && bits w.toNat 30 29 != s.fld .ckRefcfg 0 30 29
         let hold := off && bit w.toNat 31
         t.flag .ckRefcfg 0 31 = bit w.toNat 31 ∧ t.flag .ckStat 0 27 = !hold
         ∧ t.flag .ckStat 0 28 = hold ∧ t.flag .ckStat 0 29 = bit w.toNat 31
         ∧ t.flag .ckStat 0 1 = (s.flag .ckStat 0 1 || hold) ∧ t.ht.recs.length = s.ht.recs.length + b2n hold
         ∧ t.flag .ckStat 0 30 = (s.flag .ckStat 0 30 && bits w.toNat 30 29 == s.fld .ckRefcfg 0 30 29) ∧ t.answer = ⟨.ok, []⟩))
     ∧ (p.isOp = true → bit w.toNat 31 = true → s.flag .ckStat 0 30 = false →
       exec (.referenceSelect p w) s = .next (s.ans .denied []))
     ∧ (∀ n : Fin 512, exec (.referenceSelect (.tenant n) w) s = .next (s.alarm.ans .bark []))
     ∧ Goes (exec .slewDone s) (fun t => t.flag .ckStat 0 27 = false ∧ t.flag .ckStat 0 29 = s.flag .ckStat 0 29))
  ∧ (∀ s : State,
     (s.flag .ckStat 0 30 = true → Goes (exec .referenceLoss s) (fun t => t.flag .ckStat 0 30 = false
       ∧ (s.flag .ckRefcfg 0 31 = true → t.flag .ckStat 0 28 = true ∧ t.flag .ckStat 0 27 = false ∧ t.flag .ckStat 0 1 = true
           ∧ t.ht.recs.length = s.ht.recs.length + 1)
       ∧ (s.flag .ckRefcfg 0 31 = false → t.flag .ckStat 0 28 = s.flag .ckStat 0 28 ∧ t.ht.recs = s.ht.recs)))
     ∧ (∀ ppm : BitVec 16, s.flag .ckStat 0 30 = false → -6400 ≤ ppm.toInt → ppm.toInt ≤ 6400 →
       Goes (exec (.referenceReturn ppm) s) (fun t => t.flag .ckStat 0 30 = true ∧ t.fld .ckRefppm 0 15 0 = ppm.toNat))
     ∧ (s.flag .ckStat 0 31 = true → Goes (exec .pllLockLoss s) (fun t => t.flag .ckStat 0 31 = false ∧ t.flag .ckStat 0 2 = true
       ∧ t.ht.recs.length = s.ht.recs.length + 1 ∧ t.tb = s.tb ∧ t.fc = s.fc))
     ∧ (s.flag .ckStat 0 31 = false → exec .pllLockLoss s = .next s)
     ∧ Goes (exec .taprootRelock s) (fun t => t.flag .ckStat 0 31 = true ∧ t.flag .ckStat 0 2 = s.flag .ckStat 0 2))
  ∧ ((∀ (i : TapInstr) (s : State), (∀ n, i ≠ .debug n) → exec (.tapInstruction i) s = .next { s with pw := { s.pw with
     test := if s.cfState = 1 ∨ s.cfState = 7 then i else .bypass } })
   ∧ (∀ (n : Fin 8) (s : State), Goes (exec (.tapInstruction (.debug n)) s) (fun t =>
       ((∃ d ∈ s.ht.dbg, d.mask.getLsbD n = true ∧ s.ht.rtcSec.toNat < d.expiry.toNat) → t.pw.test = .debug n ∧ t.answer = ⟨.ok, []⟩)
       ∧ (¬(∃ d ∈ s.ht.dbg, d.mask.getLsbD n = true ∧ s.ht.rtcSec.toNat < d.expiry.toNat) → t.pw.test = .bypass ∧ t.answer = s.answer)
       ∧ t.dp = s.dp ∧ t.ht = s.ht)))

/-- COLD_RESET and SUPPLY_FAILURE keep the persistent bank, unless it lost its contents without power (which is free, log entry 107), the
fused keys, the tenant keys and the NVM, record the source, and put all else at its reset value: every register, tile, FIFO, cell, queue and
admission. WARM_RESET by RST_N held low for 1 µs or more, or by the operator's keyed write of WARM, keeps the clock registers, the time
base, the persistent bank, the keys and the NVM, zeroes the rest and lasts 16,000 fc or as long as RST_N is low; WARM_RESET_END ends it then
and not before; THERMAL_TRIP starts one that lasts until THERMAL_HOLD_END allows its end. CANOPY_RESET by the operator's keyed write of
CANOPY empties the dispatcher and the canopy's TCM; with heartwood halted the cores stay held; otherwise the source is recorded, and the
cores are released when a firmware copy is valid. A write without the key, or with both or neither bit, is DENIED with one alarm and resets
nothing; a tenant's meets BARK. -/
def Obligations.ResetsKeepWhatTheySay : Prop :=
  (∀ s : State, s.regs.rising 0 = true →
     (Goes (exec .coldReset s) (fun t => t.pw.cold = false ∧ t.fc = 0
       ∧ (s.pw.cold = false → ∀ n i, n ∈ bankRegs → t.reg n i = s.reg n i)
       ∧ (s.pw.cold = true →
           (∀ n i, n ∈ bankRegs → n ≠ .pbStat → t.reg n i = s.reg n i) ∧ t.fld .pbStat 0 31 30 = s.fld .pbStat 0 31 30
           ∨ (∀ n i, n ∈ bankRegs → n ≠ .pbStat → t.reg n i = BitVec.ofNat 32 (n.resetVal i))
             ∧ t.flag .pbStat 0 31 = true ∧ t.flag .pbStat 0 30 = false)
       ∧ (∀ n i, n ∉ bankRegs → n ≠ .pwRstsrc → t.reg n i = State.reset.reg n i)
       ∧ t.fld .pwRstsrc 0 31 28 = (if s.pw.cold then s.fld .pwRstsrc 0 31 28 else 1)
       ∧ t.ht.keys = s.ht.keys ∧ t.ht.tkeys = s.ht.tkeys ∧ t.cf.nvm = s.cf.nvm
       ∧ t.tl = State.reset.tl ∧ t.ff = State.reset.ff ∧ t.cx = State.reset.cx ∧ t.qe = State.reset.qe ∧ t.tn = State.reset.tn
       ∧ t.nc = State.reset.nc ∧ t.dp = State.reset.dp ∧ t.act = State.reset.act))
     ∧ (∀ k, s.pw.cold = false → Goes (exec (.supplyFailure k) s) (fun t => t.pw.cold = true
       ∧ (∀ n i, n ∈ bankRegs → t.reg n i = s.reg n i)
       ∧ (∀ n i, n ∉ bankRegs → n ≠ .pwRstsrc → t.reg n i = State.reset.reg n i)
       ∧ t.fld .pwRstsrc 0 31 28 = (match k with
         | .vin => 1
         | .rail => 2)
       ∧ t.ht.keys = s.ht.keys ∧ t.cf.nvm = s.cf.nvm ∧ t.tl = State.reset.tl ∧ t.cx = State.reset.cx)))
  ∧ ((∀ (s : State) (ns : Nat), s.regs.rising 0 = true → s.pw.cold = false → s.pw.warm = none → 1000 ≤ ns →
     Goes (exec (.warmReset (.rstN ns)) s) (fun t => t.fc = s.fc ∧ t.tb = s.tb
       ∧ t.pw.warm = some ⟨s.fc, s.fc + max 16000 ((ns - 1000) * 8 / 5), false⟩
       ∧ (∀ n i, n ∈ warmRegs → t.reg n i = s.reg n i)
       ∧ (∀ n i, n ∉ warmRegs → n ≠ .pwRstsrc → t.reg n i = BitVec.ofNat 32 (n.resetVal i))
       ∧ t.fld .pwRstsrc 0 31 28 = 3 ∧ t.ht.keys = s.ht.keys ∧ t.cf.nvm = s.cf.nvm ∧ t.cx.key = s.cx.key
       ∧ t.tl = State.reset.tl ∧ t.ff = State.reset.ff ∧ t.qe = State.reset.qe ∧ t.tn = State.reset.tn))
   ∧ (∀ (s : State) (p : Party) (w : Word), p.isOp = true → s.pw.cold = false → s.pw.warm = none → bits w.toNat 31 24 = 0xA5 →
     bit w.toNat 1 = true → bit w.toNat 0 = false → Goes (exec (.warmReset (.write p w)) s) (fun t =>
       t.pw.warm = some ⟨s.fc, s.fc + 16000, false⟩ ∧ t.fld .pwRstsrc 0 31 28 = 4 ∧ t.fld .pwRstsrc 0 27 24 = issuerCode p
       ∧ t.answer = ⟨.ok, []⟩ ∧ t.tl = State.reset.tl))
   ∧ (∀ (s : State) (st u : Nat) (th : Bool), s.pw.warm = some ⟨st, u, th⟩ →
     (u ≤ s.fc → th = false → Goes (exec .warmResetEnd s) (fun t => t.pw.warm = none ∧ t.fc = s.fc ∧ t.tl = s.tl))
     ∧ (s.fc < u ∨ th = true → exec .warmResetEnd s = .next s)
     ∧ Goes (exec .thermalHoldEnd s) (fun t => t.pw.warm = some ⟨st, u, false⟩ ∧ t.regs = s.regs))
   ∧ (∀ (s : State) (n : Fin 16), s.pw.cold = false → s.pw.warm = none → Goes (exec (.thermalTrip n) s) (fun t =>
       t.thermalHold = true ∧ t.pw.warm = some ⟨s.fc, s.fc + 16000, true⟩ ∧ t.fld .pwRstsrc 0 31 28 = 5
       ∧ t.fld .pwRstsrc 0 27 24 = n.val ∧ t.faultLow = true)))
  ∧ (∀ (p : Party) (w : Word) (s : State),
     (p.isOp = true → s.pw.warm = none → bits w.toNat 31 24 = 0xA5 → bit w.toNat 1 = false → bit w.toNat 0 = true →
       Goes (exec (.canopyReset p w) s) (fun t => t.dp.thr = [] ∧ t.dp.bind = [] ∧ t.dp.pend = [] ∧ t.dp.tcm = []
         ∧ t.tl = s.tl ∧ t.ff = s.ff ∧ t.cx = s.cx ∧ t.tn = s.tn
         ∧ (s.flag .htStat 0 31 = true → t.dp.coresHeld = true)
         ∧ (s.flag .htStat 0 31 = false → t.fld .pb 2 31 24 = 6 * 16 + issuerCode p
             ∧ (t.dp.coresHeld = true ↔ s.fwValid 0 = false ∧ s.fwValid 1 = false))))
     ∧ (p.isOp = true → (bits w.toNat 31 24 ≠ 0xA5 ∨ bit w.toNat 1 = bit w.toNat 0) →
       exec (.canopyReset p w) s = .next (s.alarm.ans .denied []) ∧ exec (.warmReset (.write p w)) s = .next (s.alarm.ans .denied []))
     ∧ (∀ n : Fin 512, exec (.canopyReset (.tenant n) w) s = .next (s.alarm.ans .bark [])))

/-- Accesses of functions complete with a status: an unbound VF reads zeros and its writes do nothing; a bound VF reads its tag at HI_VID;
PF0's forwarded window makes a request of the operator at NI 87; an access to local registers that is not whole words is DENIED where it
meets a register and UNMAPPED where it meets none, and a write of the configuration stream that is partial or meets another port's session
is DENIED, each counted in HI_PFSTAT and kept there; the stream's words wait in order. H2C_DOORBELL by PF0 with H2CF 0 sets it and asserts
source 736 + n; C2H_DOORBELL by the canopy with C2HF 0 sets it and signals vector n of PF0; a doorbell of the wrong side, or of a full
mailbox, is DENIED and changes nothing but, of PF0's, the count and status in HI_PFSTAT; a tenant's is DENIED with an alarm. VOPDB_DOORBELL
of a bound VF stores the value in HI_VOPDB and HI_OPDB of its tenant and asserts source 1024 + tenant. -/
def Obligations.HostAccessesAndDoorbells : Prop :=
  ((∀ (v : Fin 512) (a : Access) (s : State), s.boundTag v.val = none → a.addr ≠ 0 →
     exec (.hostBarAccess (.vf v) a) s = .next (s.ans .ok (if a.write then [] else List.replicate (a.len / 4) 0)))
   ∧ (∀ (v : Fin 512) (t : Tag) (s : State), s.boundTag v.val = some t → t.toNat < 512 →
     exec (.hostBarAccess (.vf v) ⟨false, 0, 4, []⟩) s = .next (s.ans .ok [BitVec.ofNat 32 (2 ^ 31 + t.toNat)]))
   ∧ (∀ (a : Access) (s : State), 0x3000000 ≤ a.addr → a.addr < 0x4000000 → Goes (exec (.hostBarAccess .pf0 a) s) (fun t =>
     ∃ q, t.nocWait 87 = s.nocWait 87 ++ [q] ∧ q.tag = opTag ∧ q.dst = s.fld .hiPfcfg 0 31 25 ∧ q.addr = a.addr - 0x3000000
       ∧ q.prio.toNat = s.fld .hiPfcfg 0 1 0 ∧ q.write = a.write ∧ q.data = a.data ∧ t.regs = s.regs))
   ∧ (∀ (a : Access) (s : State), a.addr < 0x1000000 → (a.len % 4 ≠ 0 ∨ a.addr % 4 ≠ 0) →
     let st : Status := if (pfReg (a.addr / 4 * 4)).isNone then .unmapped else .denied
     Goes (exec (.hostBarAccess .pf0 a) s) (fun t => t.answer.status = st
       ∧ t.fld .hiPfstat 0 31 16 = satAdd 16 (s.fld .hiPfstat 0 31 16) 1 ∧ t.fld .hiPfstat 0 3 0 = st.code
       ∧ t.hi = s.hi ∧ t.nc = s.nc))
   ∧ (∀ (len : Nat) (ws : List Word) (s : State),
     (len = 4 * ws.length → s.bar2Shut = false → Goes (exec (.configStreamWrite len ws) s) (fun t => t.hi.bar2 = s.hi.bar2 ++ ws
       ∧ t.answer = ⟨.ok, []⟩ ∧ t.regs = s.regs))
     ∧ (len % 4 ≠ 0 ∨ s.bar2Shut = true → Goes (exec (.configStreamWrite len ws) s) (fun t => t.hi.bar2 = s.hi.bar2
       ∧ t.answer = ⟨.denied, []⟩ ∧ t.fld .hiPfstat 0 31 16 = satAdd 16 (s.fld .hiPfstat 0 31 16) 1))))
  ∧ ((∀ (n : Fin 8) (s : State),
     (s.flag .hiMbst n.val 1 = false → Goes (exec (.h2cDoorbell .pf0 n) s) (fun t => t.flag .hiMbst n.val 1 = true
       ∧ t.flag .hiMbst n.val 0 = s.flag .hiMbst n.val 0 ∧ (∃ c, t.dp.asserting = s.dp.asserting ++ [(736 + n.val, c)])
       ∧ t.answer = ⟨.ok, []⟩ ∧ t.hi = s.hi))
     ∧ (s.flag .hiMbst n.val 1 = true → exec (.h2cDoorbell .pf0 n) s = .next ((s.ans .denied []).hostDone .pf0 .denied))
     ∧ (∀ c, exec (.h2cDoorbell (.core c) n) s = .next (s.ans .denied []))
     ∧ (∀ v, exec (.h2cDoorbell (.tenant v) n) s = .next (s.alarm.ans .denied []))
     ∧ (∀ c, s.flag .hiMbst n.val 0 = false → Goes (exec (.c2hDoorbell (.core c) n) s) (fun t => t.flag .hiMbst n.val 0 = true
       ∧ t.flag .hiMbst n.val 1 = s.flag .hiMbst n.val 1 ∧ t.answer = ⟨.ok, []⟩ ∧ t.dp = s.dp
       ∧ (s.flag .hiMsix (4 * n.val + 3) 0 = false → t.hi.msix = (0, n.val) :: s.hi.msix)
       ∧ (s.flag .hiMsix (4 * n.val + 3) 0 = true → t.flag .hiPba 0 n.val = true ∧ t.hi.msix = s.hi.msix)))
     ∧ (∀ c, s.flag .hiMbst n.val 0 = true → exec (.c2hDoorbell (.core c) n) s = .next (s.ans .denied []))
     ∧ exec (.c2hDoorbell .pf0 n) s = .next ((s.ans .denied []).hostDone .pf0 .denied))
   ∧ (∀ (v : Fin 512) (w : Word) (s : State),
     (∀ tag, s.boundTag v.val = some tag → Goes (exec (.vopdbDoorbell v w) s) (fun t => t.reg .hiVopdb v.val = w
       ∧ t.reg .hiOpdb tag.toNat = w ∧ (∃ c, t.dp.asserting = s.dp.asserting ++ [(1024 + tag.toNat, c)])
       ∧ t.answer = ⟨.ok, []⟩ ∧ t.hi = s.hi ∧ (∀ i, i ≠ tag.toNat → t.reg .hiOpdb i = s.reg .hiOpdb i)))
     ∧ (s.boundTag v.val = none → exec (.vopdbDoorbell v w) s = .next (s.ans .ok []))))

/-- Records reach whom they are addressed to: heartwood's log, the operator's queue with source 714, a bound tenant's queue; one that meets
a full queue waits for a removal of the same fc, at whose end it is lost and counted in LOST or ERRDROP; the three records of a reduction's
report enter together, wait together or are all lost. A read of HI_VERRH, HI_VFEV or MS_OERRH removes the oldest entry, which lets in a
record that waits, and an empty queue or an unbound VF reads 0. VF_FUNCTION_LEVEL_RESET returns the VF's registers to reset, empties its
queues, discards an open submission and leaves a committed one, and every other VF's registers as they are. PF0_RESET does so for PF0 and
every VF, and drops what BAR2 holds. -/
def Obligations.RecordsAreQueuedAndFunctionsReset : Prop :=
  ((∀ (s : State) (r : BitVec 64) (l : List (RecDest × BitVec 64)), s.ht.recs = (.heartwood, r) :: l → s.flag .htStat 0 31 = false →
     Goes (exec .errorRecordEnqueue s) (fun t => t.ht.recs = l ∧ t.ht.log = (s.ht.log ++ [r]).drop (s.ht.log.length + 1 - 1024)
       ∧ t.hi = s.hi ∧ t.regs = s.regs))
   ∧ (∀ (s : State) (r : BitVec 64) (l : List (RecDest × BitVec 64)), s.ht.recs = (.domain opTag, r) :: l →
     (s.ht.oerr.length < 256 → Goes (exec .errorRecordEnqueue s) (fun t => t.ht.recs = l ∧ t.ht.oerr = s.ht.oerr ++ [r]
       ∧ (∃ c, t.dp.asserting = s.dp.asserting ++ [(714, c)]) ∧ t.regs = s.regs))
     ∧ (256 ≤ s.ht.oerr.length → Goes (exec .errorRecordEnqueue s) (fun t => t.ht.recs = l ∧ t.ht.oerr = s.ht.oerr
       ∧ t.ht.olate = s.ht.olate ++ [r] ∧ t.regs = s.regs))
     ∧ s.operatorDrop.fld .msOerrcnt 0 31 16 = satAdd 16 (s.fld .msOerrcnt 0 31 16) s.ht.olate.length ∧ s.operatorDrop.ht.olate = [])
   ∧ (∀ (s : State) (tag : Tag) (v : Nat) (r : BitVec 64) (l : List (RecDest × BitVec 64)), s.ht.recs = (.domain tag, r) :: l →
     tag ≠ opTag → tag ≠ noTag → s.admitted tag = true → s.vfOf tag = some v →
     (opensReport (.domain tag) r = false → (s.hi.verr.rd v []).length < 64 → Goes (exec .errorRecordEnqueue s) (fun t =>
       t.ht.recs = l ∧ t.hi.verr.rd v [] = s.hi.verr.rd v [] ++ [r] ∧ (∀ u, u ≠ v → t.hi.verr.rd u [] = s.hi.verr.rd u [])))
     ∧ (opensReport (.domain tag) r = false → 64 ≤ (s.hi.verr.rd v []).length → Goes (exec .errorRecordEnqueue s) (fun t =>
       t.ht.recs = l ∧ t.hi.verr = s.hi.verr ∧ t.hi.vlate.rd v [] = s.hi.vlate.rd v [] ++ [[r]] ∧ t.regs = s.regs))
     ∧ (∀ l, s.hi.vlate = [(v, l)] → s.vfErrDrop.fld .hiVerrcnt v 23 16 = satAdd 8 (s.fld .hiVerrcnt v 23 16) (l.map List.length).sum
       ∧ s.vfErrDrop.hi.vlate = [])
     ∧ (∀ b c m, l = b :: c :: m → opensReport (.domain tag) r = true →
       ((s.hi.verr.rd v []).length ≤ 61 → Goes (exec .errorRecordEnqueue s) (fun t =>
         t.ht.recs = m ∧ t.hi.verr.rd v [] = s.hi.verr.rd v [] ++ [r, b.2, c.2]))
       ∧ (61 < (s.hi.verr.rd v []).length → Goes (exec .errorRecordEnqueue s) (fun t =>
         t.ht.recs = m ∧ t.hi.verr = s.hi.verr ∧ t.hi.vlate.rd v [] = s.hi.vlate.rd v [] ++ [[r, b.2, c.2]] ∧ t.regs = s.regs))))
   ∧ (∀ (v : Fin 512) (s : State), let q := s.hi.verr.rd v.val []
     let e := s.hi.vfev.rd v.val []
     (s.boundTag v.val = none → exec (.vfErrorRead v) s = .next (s.ans .ok [0]) ∧ exec (.vfFifoEventRead v) s = .next (s.ans .ok [0]))
     ∧ ((s.boundTag v.val).isSome = true →
       Goes (exec (.vfErrorRead v) s) (fun t => t.hi.verr.rd v.val [] = (if q = [] then [] else (admitLate (q.drop 1) (s.hi.vlate.rd v.val [])).1) ∧ t.regs = s.regs
         ∧ t.answer = ⟨.ok, [(match q with
           | r :: _ => (r >>> 32).setWidth 32
           | [] => 0)]⟩)
       ∧ Goes (exec (.vfFifoEventRead v) s) (fun t => t.hi.vfev.rd v.val [] = e.drop 1 ∧ t.regs = s.regs
         ∧ t.answer = ⟨.ok, [(match e with
           | x :: _ => BitVec.ofNat 32 (2 ^ 31 + x.toNat)
           | [] => 0)]⟩)))
   ∧ (∀ (p : Party) (s : State), (∀ r l, s.ht.oerr = r :: l → (∀ n, p ≠ .tenant n) → Goes (exec (.operatorErrorRead p) s) (fun t =>
       t.ht.oerr = l ++ s.ht.olate.take 1 ∧ t.answer = ⟨.ok, [(r >>> 32).setWidth 32]⟩ ∧ t.regs = s.regs))
     ∧ (s.ht.oerr = [] → (∀ n, p ≠ .tenant n) → exec (.operatorErrorRead p) s = .next (s.ans .ok [0]))))
  ∧ ((∀ (v : Fin 512) (s : State), Goes (exec (.vfFunctionLevelReset v) s) (fun t => t.hi.verr.rd v.val [] = []
       ∧ t.hi.vfev.rd v.val [] = [] ∧ (∀ q, q < 8 → t.dma (8 * v.val + q) = dmaZero)
       ∧ (∀ n ∈ vfRegs, t.reg n v.val = BitVec.ofNat 32 (n.resetVal v.val))
       ∧ (∀ n ∈ vfQregs, ∀ q, q < 8 → t.reg n (8 * v.val + q) = BitVec.ofNat 32 (n.resetVal (8 * v.val + q)))
       ∧ (s.gState v.val = 1 ∨ s.gState v.val = 3 → t.gState v.val = 0)
       ∧ (s.gState v.val = 2 → t.gState v.val = 2 ∧ t.hi.gstage.rd v.val [] = s.hi.gstage.rd v.val [])
       ∧ (∀ n ∈ vfRegs, ∀ u, u ≠ v.val → t.reg n u = s.reg n u) ∧ t.ht = s.ht ∧ t.tl = s.tl))
   ∧ (∀ s : State, Goes (exec .pf0Reset s) (fun t => t.hi.bar2 = []
       ∧ (∀ n ∈ [RegName.hiPfcfg, .hiPfstat, .hiPfevt, .hiH2cd, .hiC2hd, .hiMbst, .hiOpdb], ∀ i,
           t.reg n i = BitVec.ofNat 32 (n.resetVal i))
       ∧ (∀ v : Fin 512, t.hi.verr.rd v.val [] = [] ∧ t.hi.vfev.rd v.val [] = [] ∧ t.reg .hiVopdb v.val = 0)
       ∧ t.ht = s.ht ∧ t.tl = s.tl)))

/-- Graft submission of a bound VF: OPEN from idle or done takes a legal LENW, STATE open and 0 words received, or ends NOBUF when the
staging is full; a data write appends its words up to LENW; COMMIT of a complete submission joins heartwood's queue, or ends FENCED when
heartwood is halted; CANCEL of an open one goes idle; 160,000,000 fc after the last write an open one ends TIMEOUT. Each in another state is
DENIED, which HI_VSTAT counts and keeps. -/
def Obligations.GraftSubmissionStates : Prop :=
  ∀ (v : Fin 512) (w : Word) (s : State), (s.boundTag v.val).isSome = true →
    ((s.gState v.val = 0 ∨ s.gState v.val = 3) → 1 ≤ bits w.toNat 19 0 → bits w.toNat 19 0 ≤ 262144 →
      (s.gHeld + bits w.toNat 19 0 ≤ 524288 → Goes (exec (.graftOpen v w) s) (fun t => t.gState v.val = 1
        ∧ t.fld .hiGrcv v.val 19 0 = 0 ∧ t.hi.glen.rd v.val 0 = bits w.toNat 19 0 ∧ t.hi.gstage.rd v.val [] = []
        ∧ t.fld .hiGctl v.val 19 0 = bits w.toNat 19 0 ∧ t.answer = ⟨.ok, []⟩ ∧ t.ht = s.ht))
      ∧ (524288 < s.gHeld + bits w.toNat 19 0 → Goes (exec (.graftOpen v w) s) (fun t => t.gState v.val = 3
        ∧ t.fld .hiGstat v.val 15 12 = 2 ∧ t.answer = ⟨.ok, []⟩ ∧ t.ht = s.ht)))
    ∧ ((s.gState v.val = 1 ∨ s.gState v.val = 2) → exec (.graftOpen v w) s = .next ((s.ans .denied []).hostDone (.vf v) .denied))
    ∧ (∀ ws : List Word, s.gState v.val = 1 → s.hi.glen.rd v.val 0 ≤ 262144 →
      (s.fld .hiGrcv v.val 19 0 + ws.length ≤ s.hi.glen.rd v.val 0 → Goes (exec (.graftDataWrite v ws) s) (fun t =>
        t.fld .hiGrcv v.val 19 0 = s.fld .hiGrcv v.val 19 0 + ws.length ∧ t.hi.gstage.rd v.val [] = s.hi.gstage.rd v.val [] ++ ws
        ∧ t.hi.gtime.rd v.val 0 = s.fc ∧ t.answer = ⟨.ok, []⟩ ∧ t.gState v.val = 1))
      ∧ (s.hi.glen.rd v.val 0 < s.fld .hiGrcv v.val 19 0 + ws.length →
        exec (.graftDataWrite v ws) s = .next ((s.ans .denied []).hostDone (.vf v) .denied)))
    ∧ (s.gState v.val = 1 → s.fld .hiGrcv v.val 19 0 = s.hi.glen.rd v.val 0 →
      (s.flag .htStat 0 31 = false → Goes (exec (.graftCommitWrite v w) s) (fun t => t.gState v.val = 2
        ∧ (s.fc / 8, CallSrc.graft v) ∈ t.ht.callq ∧ t.ht.callq.length = s.ht.callq.length + 1 ∧ t.hi = s.hi ∧ t.answer = ⟨.ok, []⟩))
      ∧ (s.flag .htStat 0 31 = true → Goes (exec (.graftCommitWrite v w) s) (fun t => t.gState v.val = 3
        ∧ t.fld .hiGstat v.val 15 12 = 1 ∧ t.ht = s.ht)))
    ∧ (s.gState v.val ≠ 1 ∨ s.fld .hiGrcv v.val 19 0 ≠ s.hi.glen.rd v.val 0 →
      exec (.graftCommitWrite v w) s = .next ((s.ans .denied []).hostDone (.vf v) .denied))
    ∧ (s.gState v.val = 1 → Goes (exec (.graftCancel v w) s) (fun t => t.gState v.val = 0 ∧ t.hi.gstage.rd v.val [] = []
        ∧ t.hi.glen.rd v.val 0 = 0 ∧ t.answer = ⟨.ok, []⟩))
    ∧ (s.gState v.val ≠ 1 → exec (.graftCancel v w) s = .next ((s.ans .denied []).hostDone (.vf v) .denied))
    ∧ (s.gState v.val = 1 → s.hi.gtime.rd v.val 0 + 160000000 ≤ s.fc → Goes (exec (.graftSubmissionTimeout v) s) (fun t =>
        t.gState v.val = 3 ∧ t.fld .hiGstat v.val 15 12 = 9 ∧ t.hi.gstage.rd v.val [] = [] ∧ t.hi.glen.rd v.val 0 = 0))
    ∧ (s.gState v.val ≠ 1 ∨ s.fc < s.hi.gtime.rd v.val 0 + 160000000 → exec (.graftSubmissionTimeout v) s = .next s)

/-- QUEUE_PAIR_ENABLE of a disabled pair with legal sizes zeroes SQHEAD, CQTAIL, HALT and the pointers and sets the phase; a size out of
range, or a change of an enabled pair's settings, is DENIED; QUEUE_PAIR_DISABLE clears EN. SUBMISSION_TAIL within the ring is taken, and
another is DENIED; HI_VSTAT counts and keeps each refusal. The engine of a pair: DESCRIPTOR_FETCH reads the descriptor at SQHEAD of an
enabled bound pair that has work, room and nothing in hand while fewer than 256 non-posted requests are outstanding; HOST_COMPLETION with a
legal descriptor makes its first chunk ready or asks host data, with a refused one ends it DENIED, and a failed fetch halts the pair with
its status and tells the tenant; DMA_CHUNK sends the chunk whose turn it is as a request of NI 87 under the tenant's tag, and the round
robin goes on behind its pair unless the fc is reserved; COMPLETION_WRITE writes the entry at CQTAIL, moves both pointers, and the phase
turns over at the wrap. -/
def Obligations.QueuePairsMoveDescriptors : Prop :=
  (∀ (v : Fin 512) (q : Fin 8) (w : Word) (s : State), (s.boundTag v.val).isSome = true → let k := 8 * v.val + q.val
     (s.flag .hiQcfg k 31 = false → 4 ≤ bits w.toNat 28 25 → bits w.toNat 28 25 ≤ 12 → 4 ≤ bits w.toNat 24 21 →
       bits w.toNat 24 21 ≤ 12 → Goes (exec (.queuePairEnable v q w) s) (fun t => t.flag .hiQcfg k 31 = true
         ∧ t.fld .hiQcfg k 30 17 = bits w.toNat 30 17 ∧ t.reg .hiQstat k = 0 ∧ t.reg .hiQsqt k = 0 ∧ t.reg .hiQcqh k = 0
         ∧ (t.dma k).phase = true ∧ t.answer = ⟨.ok, []⟩))
     ∧ (s.flag .hiQcfg k 31 = false → (bits w.toNat 28 25 < 4 ∨ 12 < bits w.toNat 28 25 ∨ bits w.toNat 24 21 < 4
         ∨ 12 < bits w.toNat 24 21) → exec (.queuePairEnable v q w) s = .next ((s.ans .denied []).hostDone (.vf v) .denied))
     ∧ (s.flag .hiQcfg k 31 = true → bits w.toNat 30 17 ≠ s.fld .hiQcfg k 30 17 →
       exec (.queuePairEnable v q w) s = .next ((s.ans .denied []).hostDone (.vf v) .denied) ∧ exec (.queuePairDisable v q w) s = .next ((s.ans .denied []).hostDone (.vf v) .denied))
     ∧ (bits w.toNat 30 17 = s.fld .hiQcfg k 30 17 → Goes (exec (.queuePairDisable v q w) s) (fun t => t.flag .hiQcfg k 31 = false
         ∧ t.hi = s.hi ∧ t.reg .hiQstat k = s.reg .hiQstat k ∧ t.answer = ⟨.ok, []⟩))
     ∧ (bits w.toNat 11 0 < 2 ^ s.fld .hiQcfg k 28 25 → Goes (exec (.submissionTail v q w) s) (fun t =>
         t.fld .hiQsqt k 11 0 = bits w.toNat 11 0 ∧ t.answer = ⟨.ok, []⟩ ∧ t.hi = s.hi
         ∧ (∀ i, i ≠ k → t.reg .hiQsqt i = s.reg .hiQsqt i)))
     ∧ (2 ^ s.fld .hiQcfg k 28 25 ≤ bits w.toNat 11 0 → s.fld .hiQsqt k 11 0 ≠ bits w.toNat 11 0 →
         Goes (exec (.submissionTail v q w) s) (fun t => t.fld .hiQsqt k 11 0 = s.fld .hiQsqt k 11 0 ∧ t.answer = ⟨.denied, []⟩)))
  ∧ (∀ (v : Fin 512) (q : Fin 8) (s : State) (tag : Tag), s.boundTag v.val = some tag → let k := 8 * v.val + q.val
     let x := s.dma k
     (s.flag .hiQcfg k 31 = true → s.flag .hiQstat k 30 = false → x.st = .idle →
       (s.fld .hiQstat k 23 12 ≠ s.fld .hiQsqt k 11 0 → s.pairRoom k = true → s.hostReads < 256 → Goes (exec (.descriptorFetch v q) s) (fun t =>
         (t.dma k).st = .fetching ∧ (t.dma k).done = 0
         ∧ t.line = [(s.reg .hiQsqbh k).toNat * 2 ^ 32 + s.fld .hiQsqbl k 31 12 * 4096 + 32 * s.fld .hiQstat k 23 12]
         ∧ t.regs = s.regs))
       ∧ (s.fld .hiQstat k 23 12 = s.fld .hiQsqt k 11 0 ∨ s.pairRoom k = false ∨ 256 ≤ s.hostReads → exec (.descriptorFetch v q) s = .next s))
     ∧ (∀ ws, x.st = .fetching → x.done = 0 → x.hostWords = [] → Goes (exec (.hostCompletion v q (.data ws)) s) (fun t =>
         (t.dma k).desc = some (descOf ws) ∧ t.regs = s.regs
         ∧ (t.dma k).st = (if descBad ws then .ended .denied else if (descOf ws).hostRead then .hostData else .ready)))
     ∧ (x.st = .fetching → Goes (exec (.hostCompletion v q .timeout) s) (fun t => (t.dma k).st = .idle ∧ t.flag .hiQstat k 30 = true
         ∧ t.fld .hiQstat k 29 26 = 9 ∧ t.ht.recs = s.ht.recs ++ [(.domain tag, mkRec 3 tag 9 9 q.val)])
       ∧ Goes (exec (.hostCompletion v q .unsupported) s) (fun t => (t.dma k).st = .idle ∧ t.flag .hiQstat k 30 = true
         ∧ t.fld .hiQstat k 29 26 = 8))
     ∧ (∀ d turn, s.hi.dmaAt ≠ s.fc + 1 → s.nextChunk = some (k, turn) → x.desc = some d → Goes (exec (.dmaChunk v q) s) (fun t =>
         (t.dma k).st = .chunkOut ∧ t.hi.dmaAt = s.fc + 1 ∧ t.hi.dmaRr = (if turn then k + 1 else s.hi.dmaRr) ∧ t.regs = s.regs ∧ ∃ r, t.nocWait 87 = s.nocWait 87 ++ [r]
           ∧ r.tag = tag ∧ r.dst = (d.place x.done).1 ∧ r.addr = (d.place x.done).2 ∧ r.write = d.hostRead
           ∧ r.words = d.chunk x.done / 4 ∧ r.prio.toNat = s.fld .hiQcfg k 30 29))
     ∧ (s.hi.dmaAt = s.fc + 1 ∨ (∀ turn, s.nextChunk ≠ some (k, turn)) → exec (.dmaChunk v q) s = .next s)
     ∧ (∀ st d, x.st = .ended st → x.desc = some d → x.entryOff = false → s.pairRoom k = true →
       s.fld .hiQcfg k 28 25 ≤ 12 → s.fld .hiQcfg k 24 21 ≤ 12 → let sq := (s.fld .hiQstat k 23 12 + 1) % 2 ^ s.fld .hiQcfg k 28 25
         let cq := (s.fld .hiQstat k 11 0 + 1) % 2 ^ s.fld .hiQcfg k 24 21
         Goes (exec (.completionWrite v q) s) (fun t => t.fld .hiQstat k 23 12 = sq ∧ t.fld .hiQstat k 11 0 = cq
           ∧ (t.dma k).st = .idle ∧ (t.dma k).phase = (if cq = 0 then !x.phase else x.phase)
           ∧ t.hi.hostWr = (BitVec.ofNat 64 ((s.reg .hiQcqbh k).toNat * 2 ^ 32 + s.fld .hiQcqbl k 31 12 * 4096
               + 16 * s.fld .hiQstat k 11 0), entryWords x.done sq d.cookie x.phase st) :: s.hi.hostWr)))

/-- NOC_FATAL_REPORT of an active heartwood sets NOCF and sends a record to heartwood, and the first time also to the operator;
CANOPY_ECC_ERROR answers POISON, raises the core's access fault, asserts its source and tells the operator; SCRUB of a powered grove's entry
takes the safe value (RIPE 0, select 63, calendar 15, members none, length 0, owner none; the macrocells of a lost macrocell, term or quad
record output 0; a lost slot, decode or line record gives nothing, log entry 120) and tells the owner and heartwood. SENSOR_SAMPLE stores
each temperature and voltage, a voltage 0 while its rail's domains are all off; a value that leaves its limits sets the sticky bit, asserts
its source and tells the operator; the minima and maxima start again after MMCLR, and take in the sample otherwise. METER_READ_LATCH answers
the low half of the meter and latches the high half; another tenant's meter answers BARK. -/
def Obligations.FaultsSensorsAndMeters : Prop :=
  ((∀ s : State, s.nc.alarm = true → s.flag .htStat 0 31 = false → Goes (exec .nocFatalReport s) (fun t =>
     t.flag .msFatal 0 0 = true ∧ t.nc.alarm = false ∧ t.ht.fatalTold = true
     ∧ t.ht.recs = s.ht.recs ++ [(if s.ht.fatalTold then .heartwood else .both opTag, mkRec 8 opTag 7 6 0)]))
   ∧ (∀ (n : Fin 8) (addr : BitVec 40) (f : Bool) (pc : BitVec 64) (s : State), Goes (exec (.canopyEccError n addr f pc) s) (fun t =>
     t.answer = ⟨.poison, []⟩ ∧ t.regs = s.regs ∧ t.csrRaw n.val 0x342 = (if f then 1 else 5)
     ∧ t.ht.recs = s.ht.recs ++ [(.domain opTag, mkRec 10 opTag 0x12 6 (addr.toNat / 256))]
     ∧ (∃ c, t.dp.asserting = s.dp.asserting
         ++ [(if sramBase ≤ addr.toNat ∧ addr.toNat < sramBase + sramSize then 712 else 704 + n.val, c)])))
   ∧ (∀ (g t : Fin 64) (s : State), s.powered g.val = true → let T := tileIx g.val t.val
     (∀ r : Fin 16, Goes (exec (.scrub (.ring g t r)) s) (fun u => rRipe (u.ringRec T r.val) = false
       ∧ rOwner (u.ringRec T r.val) = rOwner (s.ringRec T r.val) ∧ u.regs = s.regs
       ∧ ∃ x, u.ht.recs = s.ht.recs ++ [(.both (BitVec.ofNat 10 (rOwner (s.ringRec T r.val))), x)]))
     ∧ (∀ o : Fin 42, Goes (exec (.scrub (.select g t o)) s) (fun u => u.sw.sel.rd (64 * T + o.val) 63 = 63 ∧ u.regs = s.regs
       ∧ u.ht.recs.length = s.ht.recs.length + 1))
     ∧ (∀ i : Fin 46, Goes (exec (.scrub (.owner g t i)) s) (fun u => u.fld .swIn (64 * T + i.val) 31 22 = 0x3FF
       ∧ u.swOwner T i.val = 0x3FF ∧ u.ht.recs.length = s.ht.recs.length + 1))
     ∧ (∀ e : Fin 64, Goes (exec (.scrub (.calendar g t e)) s) (fun u => u.calEntry T e.val = 15
       ∧ (∀ e' : Fin 64, e' ≠ e → u.calEntry T e'.val = s.calEntry T e'.val)))
     ∧ (∀ n : Fin 15, Goes (exec (.scrub (.group g t n)) s) (fun u => u.actFld .tlGrp (16 * T + n.val) 15 0 = 0
       ∧ u.actFld .tlGrp (16 * T + n.val) 31 22 = 0x3FF))
     ∧ (∀ r : Fin 16, Goes (exec (.scrub (.window g t r)) s) (fun u => u.actFld .tlWin (16 * T + r.val) 27 16 = 0))
     ∧ (∀ m : Fin 32, Goes (exec (.scrub (.mcOwner g m)) s) (fun u => u.mcOwner g.val m.val = 0x3FF)
       ∧ Goes (exec (.scrub (.macrocell g m)) s) (fun u => u.mcRec g.val m.val = 0
         ∧ u.tl.rst.mcq.rd (32 * g.val + m.val) false = false ∧ ∀ vals, u.mcEval g.val m.val vals = (false, false)))
     ∧ (∀ n : Fin 160, Goes (exec (.scrub (.term g n)) s) (fun u => u.tl.rst.mcq.rd (32 * g.val + n.val / 5) false = false
       ∧ ∀ vals, (u.mcEval g.val (n.val / 5) vals).1 = false ∧ ∀ own, u.term g.val own vals n.val = false))
     ∧ (∀ q : Fin 8, Goes (exec (.scrub (.quad g q)) s) (fun u => u.quadRec g.val q.val = 0
       ∧ ∀ m, m / 4 = q.val → ∀ vals, (u.mcEval g.val m vals).1 = false))
     ∧ (∀ i : Fin 96, Goes (exec (.scrub (.isOwner g i)) s) (fun u => u.isOwner g.val i.val = 0x3FF)
       ∧ Goes (exec (.scrub (.slot g i)) s) (fun u => u.latSlot g.val i.val = false))
     ∧ (∀ k : Fin 16, Goes (exec (.scrub (.decode g k)) s) (fun u => u.sdRec g.val k.val = 0)
       ∧ Goes (exec (.scrub (.line g k)) s) (fun u => u.lineRec g.val k.val = 0))
     ∧ (∀ f : Fin 8, Goes (exec (.scrub (.fifoRec g f)) s) (fun u => bits (u.ff.recd.rd (8 * g.val + f.val) 0).toNat 31 30 = 3))))
  ∧ ((∀ (temps volts : List (BitVec 16)) (s : State), temps.length = 16 → volts.length = 24 →
     Goes (exec (.sensorSample temps volts) s) (fun t =>
       (∀ i : Fin 16, t.fld .msTemp i.val 15 0 = (temps.getD i.val 0).toNat
         ∧ (s.ms.mmRestart = true → (t.reg .msTmm i.val).toNat = 65537 * (temps.getD i.val 0).toNat)
         ∧ t.flag .msTalm 0 i.val = (s.flag .msTalm 0 i.val
             || (inLimits true (s.reg .msTlim i.val).toNat (s.fld .msTemp i.val 15 0)
               && !inLimits true (s.reg .msTlim i.val).toNat (temps.getD i.val 0).toNat)))
       ∧ (∀ i : Fin 24, t.fld .msVolt i.val 15 0 = s.voltSeen i.val (volts.getD i.val 0).toNat
         ∧ t.flag .msValm 0 i.val = (s.flag .msValm 0 i.val
             || (inLimits false (s.reg .msVlim i.val).toNat (s.fld .msVolt i.val 15 0)
               && !inLimits false (s.reg .msVlim i.val).toNat (s.voltSeen i.val (volts.getD i.val 0).toNat))))
       ∧ t.ms.mmRestart = false ∧ t.ms.meter = s.ms.meter))
   ∧ (∀ (p : Party) (w : Word) (s : State), p.isOp = true → bits w.toNat 31 31 = 1 →
     Goes (exec (.mmclr p w) s) (fun t => t.ms.mmRestart = true ∧ t.answer.status = .ok ∧ t.ms.meter = s.ms.meter))
   ∧ (∀ (p : Party) (d : Fin 513) (m : Fin 6) (s : State), let k := 8 * d.val + m.val
     (p.isOp = true ∨ (∃ n, p = .tenant n ∧ n.val = d.val) → Goes (exec (.meterReadLatch p d m) s) (fun t =>
       t.answer = ⟨.ok, [(s.ms.meter.rd k 0).setWidth 32]⟩ ∧ t.reg .meterHi k = ((s.ms.meter.rd k 0) >>> 32).setWidth 32
       ∧ t.ms = s.ms ∧ (∀ k', k' ≠ k → t.reg .meterHi k' = s.reg .meterHi k')))
     ∧ (∀ n : Fin 512, n.val ≠ d.val → exec (.meterReadLatch (.tenant n) d m) s = .next (s.barkAns 1))))

/-- CREATE makes a FREE thread READY with the priority, tag and affinity given; DESTROY frees a thread that is not RUNNING with its
bindings, and the current one as EXIT does; SETPRIO and SETAFF change one field; WAKE readies a waiting thread. A FREE, RUNNING or locked
thread where another is wanted, a reserved bit or an empty affinity is DENIED and changes no thread. The commands of the current thread:
YIELD and a due DELAYTO make it READY, EXIT FREE, DELAY and DELAYTO DELAYED up to a stamp, and each ends its run; SETDL and CLRDL set and
clear its deadline, and the run goes on. A core with no current thread, and a tick count out of range, are DENIED. -/
def Obligations.ThreadCommands : Prop :=
  (∀ (n : Fin 8) (obj : BitVec 10) (ck : DispCheck) (s : State), s.cmdOpen n.val → dispAny ck = false → let i := obj.toNat
     let a := (s.reg .dpCarg0 n.val).toNat
     let b := (s.reg .dpCarg1 n.val).toNat
     let th := s.thr i
     let denied (r : Res) : Prop := Ends r n.val .denied false 0 (fun u => u.dp.thr = s.dp.thr ∧ u.dp.bind = s.dp.bind)
     (s.svcLocked i = false → th.st = .free → bits a 25 20 = 0 → bits b 31 8 = 0 → bits b 7 0 ≠ 0 →
       Ends (exec (.create n obj ck) s) n.val .ok false 0 (fun u => (u.thr i).st = .ready ∧ (u.thr i).prio.toNat = bits a 31 26
         ∧ (u.thr i).tag.toNat = bits a 19 0 ∧ (u.thr i).aff.toNat = bits b 7 0 ∧ (u.thr i).seq = s.dp.seqc + 1
         ∧ (u.thr i).wakeSet = false ∧ (u.thr i).dlSet = false ∧ s.othersKept u 8 i))
     ∧ (s.svcLocked i = true ∨ th.st ≠ .free ∨ bits a 25 20 ≠ 0 ∨ bits b 31 8 ≠ 0 ∨ bits b 7 0 = 0 → denied (exec (.create n obj ck) s))
     ∧ (s.svcLocked i = false → th.st ≠ .free → th.st ≠ .running → (s.coreSt n.val).cur.map Fin.val ≠ some i →
       Ends (exec (.destroy n obj ck) s) n.val .ok false 0 (fun u => u.thr i = thrZero ∧ (∀ e, u.binding e ≠ .thread obj)
         ∧ (∀ e, s.binding e ≠ .thread obj → u.binding e = s.binding e) ∧ s.othersKept u 8 i))
     ∧ (s.svcLocked i = false → th.st ≠ .free → (s.coreSt n.val).cur.map Fin.val = some i →
       Ends (exec (.destroy n obj ck) s) n.val .ok true 0 (fun u => u.thr i = thrZero ∧ (u.coreSt n.val).cur = none
         ∧ s.othersKept u n.val i))
     ∧ (s.svcLocked i = true ∨ th.st = .free ∨ (th.st = .running ∧ (s.coreSt n.val).cur.map Fin.val ≠ some i) →
       denied (exec (.destroy n obj ck) s))
     ∧ (s.svcLocked i = false → th.st ≠ .free → bits a 31 6 = 0 → Ends (exec (.setprio n obj ck) s) n.val .ok false 0 (fun u =>
         (u.thr i).prio.toNat = a ∧ (u.thr i).st = th.st ∧ (u.thr i).aff = th.aff
         ∧ (u.thr i).seq = (if th.st = .ready then s.dp.seqc + 1 else th.seq) ∧ s.othersKept u 8 i))
     ∧ (s.svcLocked i = true ∨ th.st = .free ∨ bits a 31 6 ≠ 0 → denied (exec (.setprio n obj ck) s))
     ∧ (s.svcLocked i = false → th.st ≠ .free → bits b 31 8 = 0 → b ≠ 0 → Ends (exec (.setaff n obj ck) s) n.val .ok false 0 (fun u =>
         u.thr i = { th with aff := BitVec.ofNat 8 b } ∧ s.othersKept u 8 i))
     ∧ (s.svcLocked i = true ∨ th.st = .free ∨ bits b 31 8 ≠ 0 ∨ b = 0 → denied (exec (.setaff n obj ck) s))
     ∧ (th.st.waits = true → Ends (exec (.wakeThread n obj ck) s) n.val .ok false 0 (fun u => (u.thr i).st = .ready
         ∧ (u.thr i).reason = 3 ∧ (u.thr i).wval = 0 ∧ (u.thr i).wakeSet = false ∧ (u.thr i).prio = th.prio ∧ s.othersKept u 8 i))
     ∧ (th.st.waits = false → denied (exec (.wakeThread n obj ck) s)))
  ∧ (∀ (n : Fin 8) (obj : BitVec 10) (ck : DispCheck) (s : State), s.cmdOpen n.val → dispAny ck = false → let b := (s.reg .dpCarg1 n.val).toNat
     let now := s.reg .dpTnow 0
     let denied (r : Res) : Prop := Ends r n.val .denied false 0 (fun u => u.dp.thr = s.dp.thr ∧ u.dp.cores = s.dp.cores)
     (∀ c : Fin 1024, (s.coreSt n.val).cur = some c → let i := c.val
       let off (u : State) : Prop := (u.coreSt n.val).cur = none ∧ (u.coreSt n.val).preq = false ∧ s.othersKept u n.val i
       Ends (exec (.yieldThread n obj ck) s) n.val .ok true 0 (fun u => off u ∧ (u.thr i).st = .ready ∧ (u.thr i).reason = 0
         ∧ (u.thr i).prio = (s.thr i).prio ∧ (u.thr i).seq = s.dp.seqc + 1)
       ∧ Ends (exec (.exitThread n obj ck) s) n.val .ok true 0 (fun u => off u ∧ u.thr i = thrZero)
       ∧ (1 ≤ b → b ≤ 0x7FFFFFFF → Ends (exec (.delay n obj ck) s) n.val .ok true 0 (fun u => off u ∧ (u.thr i).st = .delayed
           ∧ (u.thr i).wakeSet = true ∧ (u.thr i).wake = now + BitVec.ofNat 32 b)
         ∧ Ends (exec (.setdl n obj ck) s) n.val .ok false 0 (fun u => u.dp.cores = s.dp.cores
           ∧ u.thr i = { s.thr i with dl := now + BitVec.ofNat 32 b, dlSet := true, dlOrd := s.dp.ord } ∧ s.othersKept u n.val i))
       ∧ (b = 0 ∨ 0x7FFFFFFF < b → denied (exec (.delay n obj ck) s) ∧ denied (exec (.setdl n obj ck) s))
       ∧ ((now - s.reg .dpCarg1 n.val).toNat < 2 ^ 31 → Ends (exec (.delayto n obj ck) s) n.val .ok true 0 (fun u => off u
           ∧ (u.thr i).st = .ready ∧ (u.thr i).reason = 0))
       ∧ (2 ^ 31 ≤ (now - s.reg .dpCarg1 n.val).toNat → Ends (exec (.delayto n obj ck) s) n.val .ok true 0 (fun u => off u
           ∧ (u.thr i).st = .delayed ∧ (u.thr i).wakeSet = true ∧ (u.thr i).wake = s.reg .dpCarg1 n.val))
       ∧ Ends (exec (.clrdl n obj ck) s) n.val .ok false 0 (fun u => u.dp.cores = s.dp.cores
           ∧ u.thr i = { s.thr i with dlSet := false } ∧ s.othersKept u n.val i))
     ∧ ((s.coreSt n.val).cur = none → denied (exec (.yieldThread n obj ck) s) ∧ denied (exec (.exitThread n obj ck) s)
       ∧ denied (exec (.delay n obj ck) s) ∧ denied (exec (.delayto n obj ck) s) ∧ denied (exec (.setdl n obj ck) s)
       ∧ denied (exec (.clrdl n obj ck) s)))

/-- SEMTAKE takes from a count above 0, refuses a wait of no ticks with TIMEOUT, and otherwise waits; SEMGIVE readies the first waiter, or
counts up to the maximum, and is refused there; SEMINIT sets count and maximum. EGSET sets bits and readies every waiter whose condition
they meet, with the value, and clears their CLR masks; EGCLR clears bits; EGWAIT that is met returns the group and clears its mask when it
asks so, and otherwise waits. -/
def Obligations.SemaphoresAndGroups : Prop :=
  ∀ (n : Fin 8) (obj : BitVec 10) (ck : DispCheck) (s : State), s.cmdOpen n.val → dispAny ck = false → let k := obj.toNat
    let a := s.reg .dpCarg0 n.val
    let b := (s.reg .dpCarg1 n.val).toNat
    let c := s.fld .dpSem k 15 0
    let waits (u : State) (i : Nat) (st : ThState) : Prop := (u.thr i).st = st ∧ (u.thr i).obj = obj ∧ (u.coreSt n.val).cur = none
      ∧ (b ≤ 0x7FFFFFFF → (u.thr i).wakeSet = true ∧ (u.thr i).wake = s.reg .dpTnow 0 + BitVec.ofNat 32 b)
      ∧ s.othersKept u n.val i
    let refused (r : Res) (st : Status) : Prop := Ends r n.val st false 0 (fun u => u.dp.thr = s.dp.thr
      ∧ u.reg .dpSem k = s.reg .dpSem k ∧ u.reg .dpEg k = s.reg .dpEg k)
    (256 ≤ k → refused (exec (.semtake n obj ck) s) .denied ∧ refused (exec (.semgive n obj ck) s) .denied
      ∧ refused (exec (.seminit n obj ck) s) .denied ∧ refused (exec (.egset n obj ck) s) .denied
      ∧ refused (exec (.egclr n obj ck) s) .denied)
    ∧ (k < 256 →
      (∀ i : Fin 1024, (s.coreSt n.val).cur = some i → (b ≤ 0x7FFFFFFF ∨ b = 0xFFFFFFFF) →
        (0 < c → Ends (exec (.semtake n obj ck) s) n.val .ok false (BitVec.ofNat 32 (c - 1)) (fun u => u.fld .dpSem k 15 0 = c - 1
          ∧ u.fld .dpSem k 31 16 = s.fld .dpSem k 31 16 ∧ u.dp.thr = s.dp.thr))
        ∧ (c = 0 → b = 0 → refused (exec (.semtake n obj ck) s) .timeout)
        ∧ (c = 0 → b ≠ 0 → Ends (exec (.semtake n obj ck) s) n.val .ok true 0 (fun u => waits u i.val .waitSem))
        ∧ (∀ all clr, a ≠ 0 →
          (egMet all a (s.reg .dpEg k) = true → Ends (exec (.egwait n obj all clr ck) s) n.val .ok false (s.reg .dpEg k) (fun u =>
            u.reg .dpEg k = (if clr then s.reg .dpEg k &&& ~~~a else s.reg .dpEg k) ∧ u.dp.thr = s.dp.thr))
          ∧ (egMet all a (s.reg .dpEg k) = false → b ≠ 0 → Ends (exec (.egwait n obj all clr ck) s) n.val .ok true 0 (fun u =>
            waits u i.val .waitEg ∧ (u.thr i.val).wmask = a ∧ (u.thr i.val).all = all ∧ (u.thr i.val).clr = clr))
          ∧ (egMet all a (s.reg .dpEg k) = false → b = 0 → refused (exec (.egwait n obj all clr ck) s) .timeout)))
      ∧ (∀ e l, s.waiters .waitSem k = e :: l → Ends (exec (.semgive n obj ck) s) n.val .ok false 0 (fun u => (u.thr e.1).st = .ready
          ∧ (u.thr e.1).reason = 1 ∧ u.reg .dpSem k = s.reg .dpSem k ∧ s.othersKept u 8 e.1))
      ∧ (s.waiters .waitSem k = [] →
        (c < s.fld .dpSem k 31 16 → Ends (exec (.semgive n obj ck) s) n.val .ok false 0 (fun u => u.fld .dpSem k 15 0 = c + 1
          ∧ u.fld .dpSem k 31 16 = s.fld .dpSem k 31 16 ∧ u.dp.thr = s.dp.thr))
        ∧ (s.fld .dpSem k 31 16 ≤ c → refused (exec (.semgive n obj ck) s) .denied)
        ∧ (bits a.toNat 31 16 ≠ 0 → bits a.toNat 15 0 ≤ bits a.toNat 31 16 → Ends (exec (.seminit n obj ck) s) n.val .ok false 0 (fun u =>
          u.reg .dpSem k = a ∧ u.dp.thr = s.dp.thr))
        ∧ (bits a.toNat 31 16 = 0 ∨ bits a.toNat 31 16 < bits a.toNat 15 0 → refused (exec (.seminit n obj ck) s) .denied))
      ∧ (s.waiters .waitSem k ≠ [] → refused (exec (.seminit n obj ck) s) .denied)
      ∧ (let now := s.reg .dpEg k ||| a
         let hit := (s.waiters .waitEg k).filter (fun e => egMet e.2.all e.2.wmask now)
         Ends (exec (.egset n obj ck) s) n.val .ok false 0 (fun u =>
          (∀ e ∈ hit, (u.thr e.1).st = .ready ∧ (u.thr e.1).reason = 1 ∧ (u.thr e.1).wval = now)
          ∧ (∀ j, (∀ e ∈ hit, e.1 ≠ j) → u.thr j = s.thr j)
          ∧ (∀ x : Nat, x < 32 → (u.reg .dpEg k).getLsbD x
              = (now.getLsbD x && hit.all (fun e => !(e.2.clr && e.2.wmask.getLsbD x))))))
      ∧ Ends (exec (.egclr n obj ck) s) n.val .ok false 0 (fun u => u.reg .dpEg k = s.reg .dpEg k &&& ~~~a ∧ u.dp.thr = s.dp.thr))

/-- A timeout of 0 does not wait, one up to 0x7FFF_FFFF is a number of ticks and stamps the thread with TNOW plus it, 0xFFFF_FFFF waits
without limit, and any other value is DENIED: of SEMTAKE of a semaphore at 0, of EGWAIT of a bit that is 0, and of EVWAIT with nothing
pending. -/
def Obligations.TimeoutsAreTicksOrNoneOrNoLimit : Prop :=
  ∀ (n : Fin 8) (obj : BitVec 10) (ck : DispCheck) (i : Fin 1024) (s : State), s.cmdOpen n.val → dispAny ck = false → (s.coreSt n.val).cur = some i →
    (s.thr i.val).wakeSet = false → obj.toNat < 256 → s.fld .dpSem obj.toNat 15 0 = 0 → s.reg .dpEg obj.toNat = 0 → s.reg .dpCarg0 n.val ≠ 0 →
    s.dp.pend = [] → let b := (s.reg .dpCarg1 n.val).toNat
    let holds (c : Instr) : Prop :=
      (b = 0 → Ends (exec c s) n.val .timeout false 0 (fun u => u.dp.thr = s.dp.thr))
      ∧ (1 ≤ b → b ≤ 0x7FFFFFFF → Ends (exec c s) n.val .ok true 0 (fun u => (u.thr i.val).wakeSet = true
          ∧ (u.thr i.val).wake = s.reg .dpTnow 0 + BitVec.ofNat 32 b ∧ (u.coreSt n.val).cur = none))
      ∧ (b = 0xFFFFFFFF → Ends (exec c s) n.val .ok true 0 (fun u => (u.thr i.val).wakeSet = false ∧ (u.coreSt n.val).cur = none))
      ∧ (0x7FFFFFFF < b → b < 0xFFFFFFFF → Ends (exec c s) n.val .denied false 0 (fun u => u.dp.thr = s.dp.thr))
    holds (.semtake n obj ck) ∧ (∀ all clr, holds (.egwait n obj all clr ck)) ∧ holds (.evwait n obj ck)

/-- EVENT_PENDING sets the pending bit of a source whose assertion is due. EVBIND binds a source to a thread that is not FREE, to a group's
bit, or to nothing, and is refused for a reserved source; EVCLR clears a pending bit; EVWAIT returns the lowest pending source bound to its
thread and clears it, or waits. EVENT_DELIVERY of the source whose turn it is clears it and readies its waiting thread with its number, or
sets its group's bit; a check that fails freezes the dispatcher instead. -/
def Obligations.EventSourcesAreBoundPendingAndDelivered : Prop :=
  (∀ (e : Fin 2048) (s : State),
    ((∃ c, (e.val, c) ∈ s.dp.asserting ∧ c ≤ s.fc) → Goes (exec (.eventPending e) s) (fun t => t.pending? e.val = true
      ∧ (∀ x ∈ t.dp.asserting, x ∈ s.dp.asserting ∧ (x.1 = e.val → s.fc < x.2))
      ∧ (∀ e', e' ≠ e.val → t.pending? e' = s.pending? e') ∧ t.regs = s.regs))
    ∧ ((∀ c, (e.val, c) ∈ s.dp.asserting → s.fc < c) → exec (.eventPending e) s = .next s))
  ∧ (∀ (n : Fin 8) (obj : BitVec 10) (ck : DispCheck) (s : State), s.cmdOpen n.val → dispAny ck = false → let a := (s.reg .dpCarg0 n.val).toNat
    let e := bits a 10 0
    let b := (s.reg .dpCarg1 n.val).toNat
    (bit a 29 = false → bits a 23 11 = 0 → srcReserved e = false →
      (bits a 31 30 = 0 → Ends (exec (.evbind n obj ck) s) n.val .ok false 0 (fun u => u.binding e = .none ∧ u.dp.pend = s.dp.pend))
      ∧ (bits a 31 30 = 1 → (s.thr obj.toNat).st ≠ .free → Ends (exec (.evbind n obj ck) s) n.val .ok false 0 (fun u =>
          u.binding e = .thread obj ∧ (∀ e', e' ≠ e → u.binding e' = s.binding e')))
      ∧ (bits a 31 30 = 1 → (s.thr obj.toNat).st = .free → Ends (exec (.evbind n obj ck) s) n.val .denied false 0 (fun u =>
          u.dp.bind = s.dp.bind))
      ∧ (bits a 31 30 = 2 → obj.toNat < 256 → Ends (exec (.evbind n obj ck) s) n.val .ok false 0 (fun u =>
          u.binding e = .group obj (BitVec.ofNat 5 (bits a 28 24)) ∧ (∀ e', e' ≠ e → u.binding e' = s.binding e'))))
    ∧ (srcReserved e = true → Ends (exec (.evbind n obj ck) s) n.val .denied false 0 (fun u => u.dp.bind = s.dp.bind))
    ∧ (bits a 31 11 = 0 → Ends (exec (.evclr n obj ck) s) n.val .ok false 0 (fun u => u.pending? e = false
        ∧ (∀ e', e' ≠ e → u.pending? e' = s.pending? e') ∧ u.dp.thr = s.dp.thr))
    ∧ (bits a 31 11 ≠ 0 → Ends (exec (.evclr n obj ck) s) n.val .denied false 0 (fun u => u.dp.pend = s.dp.pend))
    ∧ (∀ i : Fin 1024, (s.coreSt n.val).cur = some i → s.dp.pend.rising 0 = true → (b ≤ 0x7FFFFFFF ∨ b = 0xFFFFFFFF) →
      let mine (x : Nat) : Prop := s.pending? x = true ∧ s.binding x = .thread (BitVec.ofNat 10 i.val)
      (∀ x, mine x → (∀ y, y < x → ¬ mine y) → Ends (exec (.evwait n obj ck) s) n.val .ok false (BitVec.ofNat 32 x) (fun u =>
          u.pending? x = false ∧ u.dp.thr = s.dp.thr))
      ∧ ((∀ x, ¬ mine x) → b ≠ 0 → Ends (exec (.evwait n obj ck) s) n.val .ok true 0 (fun u => (u.thr i.val).st = .waitEv
          ∧ (u.coreSt n.val).cur = none ∧ s.othersKept u n.val i.val))
      ∧ ((∀ x, ¬ mine x) → b = 0 → Ends (exec (.evwait n obj ck) s) n.val .timeout false 0 (fun u => u.dp.thr = s.dp.thr))))
  ∧ (∀ (e : Fin 2048) (ck : DispCheck) (s : State), s.frozen = false → s.dp.tickDue = false → s.nextSource = some e.val →
    (dispAny ck = true → Goes (exec (.eventDelivery e ck) s) (fun t => t.frozen = true ∧ t.dp.thr = s.dp.thr ∧ t.dp.pend = s.dp.pend))
    ∧ (∀ i, dispAny ck = false → s.binding e.val = .thread i → EndsInPasses (exec (.eventDelivery e ck) s) (fun u => u.pending? e.val = false
      ∧ u.dp.lastSrc = e.val ∧ (u.thr i.toNat).st = .ready ∧ (u.thr i.toNat).reason = 1
      ∧ (u.thr i.toNat).wval = BitVec.ofNat 32 e.val ∧ (∀ j, j ≠ i.toNat → u.thr j = s.thr j)))
    ∧ (∀ g b, dispAny ck = false → s.binding e.val = .group g b → s.waiters .waitEg g.toNat = [] →
      EndsInPasses (exec (.eventDelivery e ck) s) (fun u =>
      u.pending? e.val = false ∧ u.reg .dpEg g.toNat = s.reg .dpEg g.toNat ||| BitVec.ofNat 32 (2 ^ b.toNat)
      ∧ u.dp.thr = s.dp.thr)))
  ∧ (∀ (e : Fin 2048) (ck : DispCheck) (s : State), s.frozen = true ∨ (s.dp.tickDue = false ∧ s.nextSource ≠ some e.val) →
    exec (.eventDelivery e ck) s = .next s)

/-- A TAKE ends the current thread's run, puts it back READY, and leaves the core held with none; while the dispatcher is frozen the core is
held and nothing else changes, and a check that fails freezes it so. The assignment pass gives the first READY thread in order of priority
that some held core may run to the lowest such core, and shows it in DP_TAKE and DP_CWAKE; the passes leave DP_CRES. -/
def Obligations.TakeAndTheAssignmentPass : Prop :=
  (∀ (n : Fin 8) (ck : DispCheck) (s : State),
    (s.cmdOpen n.val → dispAny ck = true → Goes (exec (.take n ck) s) (fun t => t.frozen = true ∧ (t.coreSt n.val).held = true
      ∧ (t.coreSt n.val).cur = (s.coreSt n.val).cur ∧ t.dp.thr = s.dp.thr))
    ∧ (s.cmdOpen n.val → dispAny ck = false → EndsInPasses (exec (.take n ck) s) (fun u => (u.coreSt n.val).held = true ∧ (u.coreSt n.val).cur = none
      ∧ (u.coreSt n.val).preq = false
      ∧ (∀ i, (s.coreSt n.val).cur = some i → (u.thr i.val).st = .ready ∧ (u.thr i.val).reason = 0 ∧ s.othersKept u n.val i.val)
      ∧ ((s.coreSt n.val).cur = none → u.dp.thr = s.dp.thr)))
    ∧ (s.frozen = true → s.dp.coresHeld = false → (s.coreSt n.val).held = false →
      exec (.take n ck) s = .next (s.setCore n.val { s.coreSt n.val with held := true })))
  ∧ (∀ (s t : State), s.dp.thr.rising 0 = true → (∀ e ∈ s.dp.thr, e.1 < 1024) → s.assignOne = some t →
    ∃ e ∈ s.dp.thr, ∃ n, n < 8 ∧ e.2.st = .ready ∧ e.2.aff.getLsbD n = true ∧ (s.coreSt n).held = true ∧ (s.coreSt n).cur = none
      ∧ (∀ m, m < n → (s.coreSt m).held = true → (s.coreSt m).cur = none → e.2.aff.getLsbD m = false)
      ∧ (∀ e' ∈ s.dp.thr, e'.2.st = .ready → e'.2.prio.toNat < e.2.prio.toNat → ∀ m, m < 8 → (s.coreSt m).held = true →
          (s.coreSt m).cur = none → e'.2.aff.getLsbD m = false)
      ∧ (t.thr e.1).st = .running ∧ (t.thr e.1).core.val = n ∧ (t.coreSt n).cur.map Fin.val = some e.1 ∧ (t.coreSt n).held = false
      ∧ t.fld .dpTake n 31 22 = e.1 ∧ t.fld .dpTake n 21 20 = e.2.reason.toNat ∧ t.fld .dpTake n 19 0 = e.2.tag.toNat
      ∧ t.reg .dpCwake n = e.2.wval ∧ s.othersKept t n e.1)
  ∧ (∀ (s : State) (n : Fin 8) (st : Status) (ended : Bool) (val : Word),
    ((s.cmdResult n.val st ended val).passes2.fld .dpCres n.val 3 0 = st.code)
    ∧ ((s.cmdResult n.val st ended val).passes2.fld .dpCres n.val 31 31 = b2n ended))

/-- A due TICK readies every thread whose wake stamp is due and reports and clears every deadline that is due; a check that fails freezes
the dispatcher instead and is kept in DP_FSTAT; so does one met by a core's command, which completes FENCED and changes no thread.
WAKE_EXPIRY and DEADLINE_MISS do so for one thread; AUDIT freezes when it finds an error, at most once a tick. A read of DP_DLMISS or of
DP_TRH removes the oldest entry, and the trace answers only its nominated readers. REBUILD of a frozen dispatcher whose tables are good
clears the freeze and asserts source 715; otherwise it resets the canopy. -/
def Obligations.TicksDeadlinesFaultsAndTheTrace : Prop :=
  (∀ (up : DispCheck) (s : State), s.frozen = false → s.dp.thr.rising 0 = true →
    (dispAny up = false → s.dp.tickDue = true → EndsInPasses (exec (.tick up) s) (fun u => u.dp.tickDue = false
      ∧ (∀ e ∈ s.dp.thr, e.2.wakeSet = true → s.due e.2.wake = true → (u.thr e.1).st = .ready ∧ (u.thr e.1).wakeSet = false
          ∧ (u.thr e.1).reason = (if e.2.st = .delayed then 0 else 2))
      ∧ (∀ e ∈ s.dp.thr, e.2.dlSet = true → s.due e.2.dl = true → (u.thr e.1).dlSet = false)
      ∧ (∀ e ∈ s.dp.thr, (e.2.wakeSet = false ∨ s.due e.2.wake = false) → (e.2.dlSet = false ∨ s.due e.2.dl = false) → u.thr e.1 = e.2)))
    ∧ (dispAny up = true → s.dp.tickDue = true → Goes (exec (.tick up) s) (fun t => t.frozen = true ∧ t.dp.thr = s.dp.thr
      ∧ t.dp.tickDue = false ∧ (up.comp = true → t.flag .dpFstat 0 0 = true) ∧ (up.parity = true → t.flag .dpFstat 0 1 = true)
      ∧ (up.table = true → t.flag .dpFstat 0 2 = true)))
    ∧ (s.dp.tickDue = false → exec (.tick up) s = .next s)
    ∧ (s.dp.audited = false → Goes (exec (.audit up) s) (fun t => t.dp.audited = true ∧ t.dp.thr = s.dp.thr
      ∧ (dispAny up = false → t.frozen = false ∧ t.regs = s.regs) ∧ (dispAny up = true → t.frozen = true ∧ t.flag .dpFstat 0 3 = true)))
    ∧ (s.dp.audited = true → exec (.audit up) s = .next s)
    ∧ (∀ i th, s.dp.thr = [(i, th)] → th.wakeSet = true → s.due th.wake = true → EndsInPasses (exec .wakeExpiry s) (fun u =>
      (u.thr i).st = .ready ∧ (u.thr i).wakeSet = false ∧ (u.thr i).reason = (if th.st = .delayed then 0 else 2)))
    ∧ (∀ i th, s.dp.thr = [(i, th)] → th.dlSet = true → s.due th.dl = true → s.dp.miss.length < 16 →
      Goes (exec .deadlineMiss s) (fun t => t.thr i = { th with dlSet := false } ∧ t.dp.miss = s.dp.miss ++ [BitVec.ofNat 10 i]
        ∧ (∃ c, t.dp.asserting = s.dp.asserting ++ [(716, c)]))))
  ∧ (∀ (n : Fin 8) (obj : BitVec 10) (ck : DispCheck) (s : State), s.cmdOpen n.val → dispAny ck = true →
    ∀ c ∈ ([.create n obj ck, .destroy n obj ck, .setprio n obj ck, .setaff n obj ck, .wakeThread n obj ck, .yieldThread n obj ck,
      .exitThread n obj ck, .delay n obj ck, .delayto n obj ck, .setdl n obj ck, .clrdl n obj ck, .semtake n obj ck, .semgive n obj ck,
      .seminit n obj ck, .egset n obj ck, .egclr n obj ck, .egwait n obj true true ck, .evwait n obj ck, .evbind n obj ck, .evclr n obj ck]
      : List Instr), Goes (exec c s) (fun t => t.frozen = true ∧ t.dp.thr = s.dp.thr ∧ t.fld .dpCres n.val 3 0 = 1
        ∧ (ck.parity = true → t.flag .dpFstat 0 1 = true) ∧ (ck.table = true → t.flag .dpFstat 0 2 = true)))
  ∧ (∀ (p : Party) (s : State), p = .heartwood ∨ (∃ c, p = .core c) →
    Goes (exec (.dlmissRead p) s) (fun t => t.dp.miss = s.dp.miss.drop 1 ∧ t.regs = s.regs ∧ t.answer = ⟨.ok, [match s.dp.miss with
      | i :: _ => BitVec.ofNat 32 (2 ^ 31 + i.toNat)
      | [] => 0]⟩)
    ∧ (s.traceReader p = true → Goes (exec (.traceRead p) s) (fun t => t.dp.trace = s.dp.trace.drop 1 ∧ t.regs = s.regs
      ∧ t.answer.status = .ok))
    ∧ (s.traceReader p = false → exec (.traceRead p) s = .next (s.deniedAlarm 1)))
  ∧ (∀ (a b : Bool) (s : State), s.frozen = true → s.flag .htStat 0 31 = false →
    (a = true → b = true → Goes (exec (.rebuild a b) s) (fun t => t.frozen = false ∧ t.reg .dpFstat 0 = 0
      ∧ (∃ c, (715, c) ∈ t.dp.asserting) ∧ t.tl = s.tl))
    ∧ (a = false ∨ b = false → Goes (exec (.rebuild a b) s) (fun t => t.frozen = false ∧ t.dp.thr = [] ∧ t.tl = s.tl
      ∧ t.fld .pb 2 31 24 = 7 * 16 + s.fld .dpFstat 0 3 0)))

/-- CORE_BUS_ACCESS of cores out of reset: a word written to canopy SRAM reads back and leaves the other words; LR reserves, SC writes where
its reservation stands and not otherwise, and an AMO writes and answers the old value; a node window makes a request of node 84 with the
operator's tag and the core's priority, 8 bytes of registers two in order, once the core's earlier accesses have completed; an address where
nothing lies answers UNMAPPED and is counted in DP_CBUS; a misaligned or refused access, an atomic one outside memory and an absent
instruction take their exception; TNOW reads as it stands; cores held in reset do nothing. FENCE_I empties the core's instruction cache and
fetch buffer alone. -/
def Obligations.CoreAccessesReachTheirRegions : Prop :=
  (∀ (n : Fin 8) (c : CoreAt) (a : Access) (x : UnitHealth) (s : State), s.dp.coresHeld = false → a.len ∈ [1, 2, 4, 8] →
    let does (op : CoreOp) : Res := exec (.coreBusAccess n c op a x) s
    let traps (op : CoreOp) (cause : Nat) : Prop := Goes (does op) (fun t => t.csrRaw n.val 0x342 = cause ∧ t.inU n.val = false
      ∧ t.csrRaw n.val 0x341 = c.pc.toNat / 2 * 2 ∧ t.regs = s.regs ∧ t.nc = s.nc ∧ t.dp.csram = s.dp.csram ∧ t.dp.busq = s.dp.busq)
    (a.addr % a.len ≠ 0 → traps .plain (if a.write then 6 else 4))
    ∧ (a.addr % a.len = 0 → s.pmpOk n.val a.addr a.len a.write = false → traps .plain (if a.write then 7 else 5))
    ∧ (∀ f, a.addr % a.len = 0 → coreMem a.addr = none → traps (.amo f) 7)
    ∧ traps .illegal 2
    ∧ (a.addr % a.len = 0 → (∀ w, s.pmpOk n.val a.addr a.len w = true) →
      (sramBase ≤ a.addr → a.addr + 4 ≤ sramBase + sramSize → a.len = 4 → let k := (a.addr - sramBase) / 4
        let sets (t : State) (w : Word) : Prop := t.dp.csram.rd k 0 = w ∧ t.dp.cpoison.rd k false = false
          ∧ (∀ k', k' ≠ k → t.dp.csram.rd k' 0 = s.dp.csram.rd k' 0) ∧ t.regs = s.regs
        (∀ w, a.data = [w] →
          (a.write = true → Goes (does .plain) (fun t => sets t w ∧ t.answer = ⟨.ok, []⟩))
          ∧ (s.dp.resv.rd n.val none = some (a.addr / 8) → Goes (does .sc) (fun t => sets t w ∧ t.answer = ⟨.ok, [0]⟩))
          ∧ (s.dp.resv.rd n.val none ≠ some (a.addr / 8) → Goes (does .sc) (fun t => t.dp.csram = s.dp.csram ∧ t.answer = ⟨.ok, [1]⟩))
          ∧ (s.sramPoison (4 * k) 4 = false → Goes (does (.amo .add)) (fun t => sets t (s.dp.csram.rd k 0 + w)
            ∧ t.answer = ⟨.ok, [s.dp.csram.rd k 0]⟩)))
        ∧ (s.sramPoison (4 * k) 4 = false →
          (a.write = false → Goes (does .plain) (fun t => t.answer = ⟨.ok, [s.dp.csram.rd k 0]⟩ ∧ t.dp.csram = s.dp.csram))
          ∧ Goes (does .lr) (fun t => t.answer = ⟨.ok, [s.dp.csram.rd k 0]⟩ ∧ t.dp.resv.rd n.val none = some (a.addr / 8))))
      ∧ (0x0100000000 ≤ a.addr → a.addr < 0x0180000000 → let node := (a.addr - 0x0100000000) / 0x1000000
        let off := a.addr % 0x1000000
        (s.coreBusy n = false → s.dp.busq.rd n.val [] = [] → Goes (does .plain) (fun t => t.regs = s.regs
          ∧ (t.dp.busq.rd n.val []).map (·.acc.addr) = (if a.len = 8 ∧ windowMemory node off = false then [a.addr + 4] else [])
          ∧ ∃ q, t.nocWait 84 = s.nocWait 84 ++ [q] ∧ q.tag = opTag ∧ q.who = .core n ∧ q.dst = node ∧ q.addr = off ∧ q.write = a.write
            ∧ q.prio.toNat = s.fld .ncCprio 0 (2 * n.val + 1) (2 * n.val)))
        ∧ (s.coreBusy n = true → Goes (does .plain) (fun t => t.nc = s.nc ∧ t.regs = s.regs
          ∧ (s.dp.busq.rd n.val []).length < (t.dp.busq.rd n.val []).length)))
      ∧ (0x40000000 ≤ a.addr → a.addr < 0x100000000 → s.coreBusy n = false → s.dp.busq.rd n.val [] = [] →
        Goes (does .plain) (fun t => t.answer.status = .unmapped ∧ t.fld .dpCbus n.val 3 0 = 7
          ∧ t.fld .dpCbus n.val 31 16 = satAdd 16 (s.fld .dpCbus n.val 31 16) 1))
      ∧ (a = ⟨false, 0x30000008, 4, []⟩ → s.coreBusy n = false → s.dp.busq.rd n.val [] = [] →
        Goes (does .plain) (fun t => t.answer = ⟨.ok, [s.reg .dpTnow 0]⟩ ∧ t.regs = s.regs))))
  ∧ (∀ (n : Fin 8) (c : CoreAt) (op : CoreOp) (a : Access) (x : UnitHealth) (s : State), s.dp.coresHeld = true →
    exec (.coreBusAccess n c op a x) s = .next s)
  ∧ (∀ (n : Fin 8) (s : State), Goes (exec (.fenceI n) s) (fun t => t.dp.icache.rd n.val [] = [] ∧ t.dp.fbuf.rd n.val [] = []
    ∧ (∀ m, m ≠ n.val → t.dp.icache.rd m [] = s.dp.icache.rd m [] ∧ t.dp.fbuf.rd m [] = s.dp.fbuf.rd m []) ∧ t.regs = s.regs
    ∧ t.dp.csram = s.dp.csram))

/-- GO by a channel's own writer, with the mailbox open and the channel idle or done, makes it pending in heartwood's queue; a busy channel,
a closed mailbox or another party is DENIED and changes nothing; a halted heartwood answers FENCED at once. An answer writes the eight
response words, makes the channel done, and asserts source 713 for a core's; another channel stays. A call whose reserved bits are not 0 is
answered DENIED with reason 0x0A, one that firmware's state restricts with 0x0F, and one whose turn it is not stays. HEARTWOOD_BOOT out of
HTBOOT: both copies of MONO take the greater, the reset is recorded and counted, a new placement key is drawn, the cores are released when a
firmware copy is valid and held otherwise, the mailbox opens, and the controller waits, or with AUTOBOOT takes slot A; after a loss of
retention the recorded state starts from its reset values. A HEARTWOOD_FAULT, or a comparator that misses the injected mismatch, halts it:
the cause is recorded, every pending call is answered FENCED, and its queue is empty. -/
def Obligations.HeartwoodBootsHaltsAndTakesCalls : Prop :=
  ((∀ (p : Party) (ch : Fin 9) (s : State),
     (mailWriter p ch.val = true → s.flag .htStat 0 30 = true → (s.chan ch.val = 0 ∨ s.chan ch.val = 3) →
       (s.flag .htStat 0 31 = false → Goes (exec (.go p ch) s) (fun t => t.chan ch.val = 1 ∧ (s.fc / 8, CallSrc.chan ch) ∈ t.ht.callq
         ∧ t.ht.callq.length = s.ht.callq.length + 1 ∧ t.answer = ⟨.ok, []⟩ ∧ (∀ c, c ≠ ch.val → t.chan c = s.chan c)))
       ∧ (s.flag .htStat 0 31 = true → Answers (exec (.go p ch) s) ch 1 0 [] (fun u => u.ht = s.ht)))
     ∧ (mailWriter p ch.val = true → (s.chan ch.val = 1 ∨ s.chan ch.val = 2 ∨ s.flag .htStat 0 30 = false) →
       exec (.go p ch) s = .next (s.ans .denied []))
     ∧ (mailWriter p ch.val = false → Goes (exec (.go p ch) s) (fun t => t.answer = ⟨.denied, []⟩ ∧ t.ht = s.ht
       ∧ (∀ c, t.chan c = s.chan c) ∧ (p = .heartwood → t.reg .msAlarm 0 = s.alarm.reg .msAlarm 0))))
   ∧ (∀ (s : State) (ch : Fin 9) (st reason : Nat) (res : List Word), st < 16 → reason < 4096 →
     let t := s.respondCall ch.val st reason res
     t.chan ch.val = 3 ∧ t.fld .htRsp (8 * ch.val) 15 12 = st ∧ t.fld .htRsp (8 * ch.val) 11 0 = reason
     ∧ t.fld .htRsp (8 * ch.val) 31 16 = bits (s.reqW ch.val 0) 31 16 ∧ (∀ k, k < 7 → t.reg .htRsp (8 * ch.val + k + 1) = res.getD k 0)
     ∧ (ch.val < 8 → ∃ c, t.dp.asserting = s.dp.asserting ++ [(713, c)]) ∧ (ch.val = 8 → t.dp = s.dp)
     ∧ (∀ c, c ≠ ch.val → t.chan c = s.chan c) ∧ t.ht = s.ht)
   ∧ (∀ (ch : Fin 9) (s : State), s.nextCall ch = true → bits (s.reqW ch.val 0) 31 24 = 0x18 →
     (ch.val = 8 → s.flag .htStat 0 29 = false) → (bits (s.reqW ch.val 0) 15 0 ≠ 0 ∨ s.reqW ch.val 1 ≠ 0 ∨ s.reqW ch.val 7 ≠ 0) →
     Answers (exec (.rekey ch) s) ch 10 0x0A [0] (fun u => u.cx = s.cx ∧ CallSrc.chan ch ∉ u.ht.callq.map Prod.snd))
   ∧ (∀ (s : State), s.nextCall 8 = true → bits (s.reqW 8 0) 31 24 = 0x18 → s.flag .htStat 0 29 = true →
     Answers (exec (.rekey 8) s) 8 10 0x0F [0] (fun u => u.cx = s.cx))
   ∧ (∀ (ch : Fin 9) (s : State), s.nextCall ch = false → exec (.rekey ch) s = .next s)
   ∧ (∀ (ch : Fin 9) (s : State), s.callStands ch 0x18 [] → Answers (exec (.rekey ch) s) ch 0 0 [] (fun u =>
     u.cx.key = Config.randomKey s.free ∧ u.fld .cxKeygen 0 31 0 = satAdd 32 (s.fld .cxKeygen 0 31 0) 1 ∧ u.cx.link = s.cx.link)))
  ∧ ((∀ s : State, s.fld .cfStat 0 31 28 = 0 → s.flag .htStat 0 30 = false → s.flag .htStat 0 31 = false → s.pw.warm = none →
     s.pw.cold = false → let m := max (s.reg .pbMono 0).toNat s.ht.monoNvm.toNat
     Goes (exec .heartwoodBoot s) (fun t => t.flag .htStat 0 30 = true ∧ (t.reg .pbMono 0).toNat = m ∧ t.ht.monoNvm.toNat = m
       ∧ t.fld .pb 2 31 24 = s.fld .pwRstsrc 0 31 24
       ∧ (s.ht.lossNew = false → t.fld .pb 2 15 0 = min (s.fld .pb 2 15 0 + 1) 0xFFFF
         ∧ t.fld .pb 2 23 16 = min (s.fld .pb 2 23 16 + if s.fld .pwRstsrc 0 31 28 = 5 then 1 else 0) 255)
       ∧ (s.ht.lossNew = true → t.fld .pb 2 15 0 = 1 ∧ t.reg .pb 0 = 0 ∧ t.ht.lossNew = false)
       ∧ t.cx.key = Config.randomKey s.free
       ∧ (s.restoreMono.fwValid 0 = false → s.restoreMono.fwValid 1 = false → t.dp.coresHeld = true ∧ t.flag .htStat 0 29 = true
           ∧ t.reg .pb 5 = 0x10000000)
       ∧ (s.restoreMono.fwValid 0 = true ∨ s.restoreMono.fwValid 1 = true → t.dp.coresHeld = false ∧ t.flag .htStat 0 29 = false)
       ∧ (s.flag .pb 0 31 = false ∨ s.ht.lossNew = true → t.fld .cfStat 0 31 28 = 1 ∧ t.cf.load = s.cf.load)
       ∧ (s.flag .pb 0 31 = true → s.ht.lossNew = false → t.fld .cfStat 0 31 28 = 0 ∧ t.cf.load = some (newLoad (.nvm 0 false) false))))
   ∧ (∀ s : State, s.fld .cfStat 0 31 28 ≠ 0 ∨ s.flag .htStat 0 30 = true ∨ s.pw.warm.isSome = true → exec .heartwoodBoot s = .next s)
   ∧ (∀ (c : BitVec 4) (s : State), s.flag .htStat 0 31 = false → 1 ≤ c.toNat → c.toNat ≤ 4 →
     Goes (exec (.heartwoodFault c) s) (fun t => t.flag .htStat 0 31 = true ∧ t.fld .pb 4 31 28 = c.toNat ∧ t.ht.callq = []
       ∧ t.ht.wait = none ∧ t.gr.files = []
       ∧ (∀ ch : Fin 9, s.chan ch.val = 1 ∨ s.chan ch.val = 2 → t.chan ch.val = 3 ∧ t.fld .htRsp (8 * ch.val) 15 12 = 1)))
   ∧ (∀ (a b : Bool) (s : State), exec (.comparatorSelfTest a b) s = (if a && b then .next s else exec (.heartwoodFault 3) s)))

/-- ADMIT and EXTEND of a vector that passes every check enter it, ask the groves it touches to commit, and wait for that; one that fails is
answered DENIED with the reason and place of the first failure and admits nothing. RELEASE takes the items out, and with CELLS the
admission. VREAD writes the vector into canopy SRAM. REGRANT replaces items of the same grant. -/
def Obligations.VectorsAreAdmittedExtendedAndReleased : Prop :=
  ∀ (ch : Fin 9) (s : State) (hdr : Nat) (items : List Nat), s.callVector ch = some (hdr, items) → let t := bits hdr 63 54
    (s.callStands ch 0x01 blockUsed →
      ((s.taken ch).judgeVector false hdr items = none → WaitsFor (exec (.admitTenant ch) s) ch (.commits (itemGroves items)) [0] (fun u =>
        u.tn.adm.rd t none = some ⟨BitVec.ofNat 2 (bits hdr 53 52), bit hdr 51, items.map (BitVec.ofNat 64)⟩
        ∧ (∀ t', t' ≠ t → u.tn.adm.rd t' none = s.tn.adm.rd t' none)
        ∧ (∀ g ∈ itemGroves items, u.flag .tlGcal g 31 = true ∧ u.tl.commitAt.rd g 0 = s.fc + 1)))
      ∧ (∀ r i, (s.taken ch).judgeVector false hdr items = some (r, i) → Answers (exec (.admitTenant ch) s) ch 10 r [i] (fun u => u.tn = s.tn)))
    ∧ (s.callStands ch 0x02 blockUsed →
      (∀ v, s.addHeader hdr = none → s.tn.adm.rd t none = some v → (s.taken ch).judgeAdded t v items = none →
        WaitsFor (exec (.extend ch) s) ch (.commits (itemGroves items)) [0] (fun u =>
          u.tn.adm.rd t none = some { v with items := v.items ++ items.map (BitVec.ofNat 64) }
          ∧ (∀ t', t' ≠ t → u.tn.adm.rd t' none = s.tn.adm.rd t' none)))
      ∧ (∀ v r i, s.addHeader hdr = none → s.tn.adm.rd t none = some v → (s.taken ch).judgeAdded t v items = some (r, i) →
        Answers (exec (.extend ch) s) ch 10 r [i] (fun u => u.tn = s.tn))
      ∧ (∀ r, s.addHeader hdr = some r → Answers (exec (.extend ch) s) ch 10 r [0] (fun u => u.tn = s.tn)))
    ∧ (s.callStands ch 0x03 blockUsed →
      ((s.taken ch).releaseBad hdr items = none → WaitsFor (exec (.releaseCall ch) s) ch (.commits (itemGroves items)) [0] (fun u =>
        (items.any (fun w => itKind w == 8) = true → u.tn.adm.rd t none = none)
        ∧ (items.any (fun w => itKind w == 8) = false → ∀ v, s.tn.adm.rd t none = some v →
          u.tn.adm.rd t none = some { v with items := (leftOf (s.itemsOf t) items).map (BitVec.ofNat 64) })
        ∧ (∀ t', t' ≠ t → u.tn.adm.rd t' none = s.tn.adm.rd t' none)))
      ∧ (∀ r i, (s.taken ch).releaseBad hdr items = some (r, i) → Answers (exec (.releaseCall ch) s) ch 10 r [i] (fun u => u.tn = s.tn)))
    ∧ (s.callStands ch 0x05 blockUsed → bits hdr 50 13 = 0 → t ≤ 511 →
      items.all (fun i => [8, 10, 12].contains (itKind i) && itemClean i) = true →
      (s.tn.adm.rd t none = none → Answers (exec (.regrant ch) s) ch 10 0x0F [0] (fun u => u.tn = s.tn))
      ∧ (∀ v, s.tn.adm.rd t none = some v →
        let new := (s.itemsOf t).map (fun o => (items.reverse.find? (fun i => sameGrant i o)).getD o)
        let bare := forEach (items.filter (fun i => itKind i == 12)) (s.taken ch) (fun i s =>
          s.dropInj (itSrc i) (BitVec.ofNat 10 t) (itDst i) (itPrio i))
        items.all (fun i => (s.itemsOf t).any (sameGrant i)) = true →
        bare.judgeItems ⟨t, v.sealed, false, new.length, new, s.othersOf t⟩ = none →
        Answers (exec (.regrant ch) s) ch 0 0 [] (fun u =>
          u.tn.adm.rd t none = some { v with items := new.map (BitVec.ofNat 64) })))

/-- VREAD writes the header and items of an admitted vector, as many words as asked, into canopy SRAM and answers their number. TRESET of an
admitted tenant empties its queues, puts its cells in line to be freed and waits; TENANT_RESET_RELEASE, in the first fc of a pass, zeroes
and holds the tenant's rings, FIFOs and macrocells of a grove and sets their stages. -/
def Obligations.VectorsAreReadAndTenantsReset : Prop :=
  (∀ (ch : Fin 9) (s : State) (v : AVec) (a : Nat), s.callStands ch 0x06 [0x1FF, 0, allBits, 0xFF, allBits] →
    let t := s.reqW ch.val 1
    s.tn.adm.rd t none = some v →
    let ws := ((t * 2 ^ 54 + v.cls.toNat * 2 ^ 52 + b2n v.sealed * 2 ^ 51 + v.items.length) :: v.items.map BitVec.toNat).take (s.reqW ch.val 5)
    sramBlock (s.reqW ch.val 3 + s.reqW ch.val 4 * 2 ^ 32) (8 * ws.length) = some a →
    Answers (exec (.vread ch) s) ch 0 0 [ws.length] (fun u => u.sramBytes a (8 * ws.length) = ws.flatMap (toLE 8) ∧ u.tn = s.tn
      ∧ u.regs = s.regs))
  ∧ (∀ (ch : Fin 9) (s : State), (s.callStands ch 0x06 [0x1FF, 0, allBits, 0xFF, allBits] → s.tn.adm.rd (s.reqW ch.val 1) none = none →
      Answers (exec (.vread ch) s) ch 10 0x0F [0] (fun u => u.dp = s.dp))
    ∧ (s.callStands ch 0x04 [0x1FF] → s.admitted (BitVec.ofNat 10 (s.reqW ch.val 1)) = false →
      Answers (exec (.treset ch) s) ch 10 0x0F [0] (fun u => u.qe = s.qe ∧ u.cx = s.cx))
    ∧ (s.callStands ch 0x04 [0x1FF] → s.admitted (BitVec.ofNat 10 (s.reqW ch.val 1)) = true → let t := s.reqW ch.val 1
      WaitsFor (exec (.treset ch) s) ch (.tenantRun (BitVec.ofNat 10 t) (itemGroves (s.itemsOf t)) none) [] (fun u =>
        (∀ q, q < 32 → u.qe.pkts.rd (32 * t + q) [] = []) ∧ u.tn = s.tn
        ∧ (s.cx.inp = [] → ∀ e ∈ s.cx.link, e.2.owner = BitVec.ofNat 10 t → e.2.st ≠ .free →
            BitVec.ofNat 20 e.1 ∈ u.cx.tfree.rd t []))))
  ∧ (∀ (g : Fin 64) (t : Fin 512) (s : State) (w : CallWait) (gs : List Nat) (since : Nat), s.ht.wait = some w →
    w.what = .tenantRun (BitVec.ofNat 10 t.val) gs (some since) → g.val ∈ gs → since ≤ s.fc → s.powered g.val = true →
    s.closed g.val = false → (s.running g.val = false ∨ s.fld .tlGphase g.val 5 0 = 0) →
    Goes (exec (.tenantResetRelease g t) s) (fun u =>
      (∀ k, k / 1024 = g.val → rOwner (s.ringRec (k / 16) (k % 16)) = t.val → u.tl.held.rd k false = true
        ∧ (∀ i, i < 8 → u.tl.rst.d.rd (8 * k + i) 0 = 0) ∧ u.tl.rst.fl.rd k flagsZero = flagsZero)
      ∧ (∀ k, k / 1024 = g.val → rOwner (s.ringRec (k / 16) (k % 16)) ≠ t.val →
          u.tl.held.rd k false = s.tl.held.rd k false ∧ (∀ i, i < 8 → u.tl.rst.d.rd (8 * k + i) 0 = s.tl.rst.d.rd (8 * k + i) 0))
      ∧ u.ht.wait = some { w with what := .tenantRun (BitVec.ofNat 10 t.val) (gs.filter (· != g.val)) (some since) }
      ∧ u.gr.staged.length = s.gr.staged.length + 1 ∧ u.tl.recs = s.tl.recs))

/-- TKEYSET stores a point of the curve as the key of a tenant that has none, or whose slot fails its authentication, or that is not
admitted, or on a rotation signed by the old key; TKEYCLR forgets it while the tenant is not admitted. OPKEYPROG programs slot 0 while no
slot is, and another slot on an endorsement; OPKEYREV revokes on an endorsement by another usable slot; a slot programmed is never
programmed again. ROLLFWD raises MONO to a version that the seed's image and the firmware reach. DEBUG takes a signed token of a known clock
and this device beside those in force; DEBUGEND ends all, and an expiry its own. -/
def Obligations.KeysRollForwardAndDebugTokens : Prop :=
  ∀ (ch : Fin 9) (s : State), let t := s.reqW ch.val 3
    (∀ l, s.callStands ch 0x10 (blockUsed ++ [0x1FF, 1]) → s.reqW ch.val 4 = 0 → s.callBlock ch 96 = some l →
      let key := bytesBE l
      (onP384 (keyX key) (keyY key) = true → (s.ht.tkeys.rd t none = none ∨ s.admitted (BitVec.ofNat 10 t) = false) →
        Answers (exec (.tkeyset ch) s) ch 0 0 [] (fun u => u.ht.tkeys.rd t none = some (BitVec.ofNat 768 key)
          ∧ (∀ t', t' ≠ t → u.ht.tkeys.rd t' none = s.ht.tkeys.rd t' none) ∧ u.ht.keys = s.ht.keys))
      ∧ (onP384 (keyX key) (keyY key) = false → Answers (exec (.tkeyset ch) s) ch 10 0x0A [0] (fun u => u.ht.tkeys = s.ht.tkeys))
      ∧ (onP384 (keyX key) (keyY key) = true → (s.ht.tkeys.rd t none).isSome = true → s.admitted (BitVec.ofNat 10 t) = true →
        (Config.slotFails s.free = false → Answers (exec (.tkeyset ch) s) ch 10 0x0F [0] (fun u => u.ht.tkeys = s.ht.tkeys))
        ∧ (Config.slotFails s.free = true → Answers (exec (.tkeyset ch) s) ch 0 0 [] (fun u => u.ht.tkeys.rd t none = some (BitVec.ofNat 768 key)
            ∧ u.ht.recs.length = s.ht.recs.length + 1))))
    ∧ (∀ l old, s.callStands ch 0x10 (blockUsed ++ [0x1FF, 1]) → s.reqW ch.val 4 = 1 → s.callBlock ch 192 = some l →
      let key := bytesBE (l.take 96)
      onP384 (keyX key) (keyY key) = true → s.ht.tkeys.rd t none = some old → s.admitted (BitVec.ofNat 10 t) = true → Config.slotFails s.free = false →
      (ecdsaOk old.toNat (sha384 (toLE 8 Config.devid.toNat ++ toLE 2 t ++ l.take 96)) (bytesBE (l.drop 96)) = true →
        Answers (exec (.tkeyset ch) s) ch 0 0 [] (fun u => u.ht.tkeys.rd t none = some (BitVec.ofNat 768 key)))
      ∧ (ecdsaOk old.toNat (sha384 (toLE 8 Config.devid.toNat ++ toLE 2 t ++ l.take 96)) (bytesBE (l.drop 96)) = false →
        Answers (exec (.tkeyset ch) s) ch 10 0x0C [0] (fun u => u.ht.tkeys = s.ht.tkeys)))
    ∧ (s.callStands ch 0x11 [0, 0, 0x1FF] →
      (s.admitted (BitVec.ofNat 10 t) = false → Answers (exec (.tkeyclr ch) s) ch 0 0 [] (fun u => u.ht.tkeys.rd t none = none
        ∧ (∀ t', t' ≠ t → u.ht.tkeys.rd t' none = s.ht.tkeys.rd t' none)))
      ∧ (s.admitted (BitVec.ofNat 10 t) = true → Answers (exec (.tkeyclr ch) s) ch 10 0x0F [0] (fun u => u.ht.tkeys = s.ht.tkeys)))
    ∧ (∀ l, s.callStands ch 0x12 (blockUsed ++ [0x33]) → s.callBlock ch 240 = some l → let k := bits t 1 0
      let e := bits t 5 4
      let key := (l.drop 48).take 96
      let put (u : State) : Prop := (u.keySlot k).prog = true ∧ (u.keySlot k).hash = BitVec.ofNat 384 (bytesBE (l.take 48))
        ∧ (u.keySlot k).rev = (s.keySlot k).rev ∧ (∀ i, i ≠ k → u.keySlot i = s.keySlot i)
      (k = 0 → e = 0 → (∀ b ∈ l.drop 48, b = 0) → (∀ i, i < 4 → (s.keySlot i).prog = false) →
        Answers (exec (.opkeyprog ch) s) ch 0 0 [] put)
      ∧ (k ≠ 0 → (s.keySlot k).prog = false → s.keyOk e (bytesBE key) = true → endorsed 0x12 k (l.take 48) key (l.drop 144) = true →
        Answers (exec (.opkeyprog ch) s) ch 0 0 [] put)
      ∧ (k ≠ 0 → (s.keySlot k).prog = true → Answers (exec (.opkeyprog ch) s) ch 10 0x0F [0] (fun u => u.ht.keys = s.ht.keys)))
    ∧ (∀ l, s.callStands ch 0x13 (blockUsed ++ [0x33]) → s.callBlock ch 192 = some l → let k := bits t 1 0
      let e := bits t 5 4
      ((s.keySlot k).usable = true → k ≠ e → s.keyOk e (bytesBE (l.take 96)) = true →
        endorsed 0x13 k (List.replicate 48 0) (l.take 96) (l.drop 96) = true →
        Answers (exec (.opkeyrev ch) s) ch 0 0 [] (fun u => u.keySlot k = { s.keySlot k with rev := true }
          ∧ (∀ i, i ≠ k → u.keySlot i = s.keySlot i) ∧ (∀ d, d ∈ u.ht.dbg ↔ d ∈ s.ht.dbg ∧ d.slot.toNat ≠ k)))
      ∧ ((s.keySlot k).usable = false ∨ k = e → Answers (exec (.opkeyrev ch) s) ch 10 0x0D [0] (fun u => u.ht.keys = s.ht.keys)))
    ∧ (s.callStands ch 0x14 [allBits] → let v := s.reqW ch.val 1
      ((s.reg .pbMono 0).toNat < v → v ≤ s.ht.fwSvn.toNat → (∃ n, s.seedSvn = some n ∧ v ≤ n) →
        Answers (exec (.rollfwd ch) s) ch 0 0 [] (fun u => (u.reg .pbMono 0).toNat = v ∧ u.ht.monoNvm.toNat = v))
      ∧ (v ≤ (s.reg .pbMono 0).toNat ∨ s.ht.fwSvn.toNat < v ∨ s.seedSvn = none →
        Answers (exec (.rollfwd ch) s) ch 10 0x0E [0] (fun u => u.reg .pbMono 0 = s.reg .pbMono 0)))
    ∧ (∀ l, s.callStands ch 0x30 blockUsed → s.callBlock ch 240 = some l → let tok := l.take 48
      let slot := (tok.getD 9 0).toNat
      let key := bytesBE ((l.drop 48).take 96)
      let expiry := bytesLE ((tok.drop 16).take 6)
      (∀ b ∈ (tok.drop 10).take 6 ++ tok.drop 22, b = 0) → slot ≤ 3 → s.keyOk slot key = true →
      (ecdsaOk key (sha384 tok) (bytesBE (l.drop 144)) = false → Answers (exec (.debugCall ch) s) ch 10 0x0C [0] (fun u => u.ht.dbg = s.ht.dbg))
      ∧ (ecdsaOk key (sha384 tok) (bytesBE (l.drop 144)) = true →
        (s.flag .pbStat 0 30 = true → s.ht.rtcSec.toNat < expiry → bytesLE (tok.take 8) = Config.devid.toNat →
          Answers (exec (.debugCall ch) s) ch 0 0 [] (fun u =>
            u.ht.dbg = s.ht.dbg ++ [⟨tok.getD 8 0, BitVec.ofNat 2 slot, BitVec.ofNat 48 expiry⟩]))
        ∧ (s.flag .pbStat 0 30 = false ∨ expiry ≤ s.ht.rtcSec.toNat →
          Answers (exec (.debugCall ch) s) ch 10 0x0F [0] (fun u => u.ht.dbg = s.ht.dbg))))
    ∧ (s.callStands ch 0x31 [] → Answers (exec (.debugend ch) s) ch 0 0 [] (fun u => u.ht.dbg = [] ∧ u.ht.keys = s.ht.keys))
    ∧ Goes (exec .debugTokenExpiry s) (fun u => (∀ d, d ∈ u.ht.dbg ↔ d ∈ s.ht.dbg ∧ s.ht.rtcSec.toNat < d.expiry.toNat)
      ∧ u.regs = s.regs)

/-- The other calls: INFO and PBREAD answer what they name; BANK takes a bank on- or offline; DOMAIN asks a fence or a restoration and
waits; PORTRATE sets a rate that covers the grants; PINOWN gives a pin to a party; TRNOM, BOOTCFG and RTCSET set what they name; FWWRITE
writes a good firmware copy and NVMWRITE a block of a slot into the NVM. RTC_READ_LATCH latches the clock. -/
def Obligations.DeviceCallsDoWhatTheyName : Prop :=
  (∀ (ch : Fin 9) (s : State), let c := ch.val
    let w1 := s.reqW c 1
    (s.callStands ch 0x00 [] → ∃ a b, Answers (exec (.infoCall ch) s) ch 0 0 [Config.devid.toNat % 2 ^ 32, Config.devid.toNat / 2 ^ 32, a,
        (s.reg .pbMono 0).toNat, b] (fun u => u.regs = s.regs))
    ∧ (s.callStands ch 0x21 [] → Answers (exec (.pbread ch) s) ch 0 0 ((List.range 6).map (fun i => (s.reg .pb i).toNat))
        (fun u => u.regs = s.regs))
    ∧ (s.callStands ch 0x19 [0x8000000F] → let b := bits w1 3 0
      (s.online b ≠ bit w1 31 → Answers (exec (.bankCall ch) s) ch 0 0 [] (fun u => u.online b = bit w1 31))
      ∧ (s.online b = bit w1 31 → Answers (exec (.bankCall ch) s) ch 10 0x0F [0] (fun u => u.regs = s.regs)))
    ∧ (s.callStands ch 0x1A [0x8000007F] → let d := bits w1 6 0
      (d ≤ 95 → s.fld .cfStat 0 31 28 = 5 →
        (bit w1 31 = true → s.powered d = false → WaitsFor (exec (.domainCall ch) s) ch (.domain d true) []
          (fun u => u.pw.restoring.rd d false = true ∧ u.powered d = false))
        ∧ (bit w1 31 = false → s.powered d = true → s.closed d = false → d < 80 → WaitsFor (exec (.domainCall ch) s) ch (.domain d false) []
          (fun u => u.pw.fenceAsk.rd d false = true ∧ u.powered d = true))
        ∧ (bit w1 31 = false → 80 ≤ d → s.online (d - 80) = true → Answers (exec (.domainCall ch) s) ch 10 0x0F [0] (fun u => u.pw = s.pw)))
      ∧ (s.fld .cfStat 0 31 28 ≠ 5 ∨ s.powered d = bit w1 31 → Answers (exec (.domainCall ch) s) ch 10 0x0F [0] (fun u => u.pw = s.pw)))
    ∧ (s.callStands ch 0x1B [0x7F, 0x7FFFFFFF] →
      (portSum (s.othersOf 1024) w1 ≤ s.reqW c 2 → Answers (exec (.portrate ch) s) ch 0 0 [] (fun u =>
        (u.reg .qePrate w1).toNat = s.reqW c 2 ∧ (∀ i, i ≠ w1 → u.reg .qePrate i = s.reg .qePrate i)))
      ∧ (s.reqW c 2 < portSum (s.othersOf 1024) w1 → Answers (exec (.portrate ch) s) ch 10 4 [0] (fun u => u.regs = s.regs)))
    ∧ (s.callStands ch 0x1C [0xF3F] → let n := bits w1 5 0
      let o := bits w1 11 8
      (o ≤ 9 ∨ o = 15 → s.pinOwner n ≠ 0xA → Answers (exec (.pinown ch) s) ch 0 0 [] (fun u => u.pinOwner n = o
        ∧ u.fld .gpPcfg n 27 18 = 0x3FF ∧ u.flag .gpOut (n / 32) (n % 32) = false ∧ u.flag .gpOe (n / 32) (n % 32) = false
        ∧ (∀ m, m ≠ n → u.pinOwner m = s.pinOwner m)))
      ∧ (9 < o → o ≠ 15 → Answers (exec (.pinown ch) s) ch 10 0x0A [0] (fun u => u.regs = s.regs))
      ∧ (o ≤ 9 → s.pinOwner n = 0xA → Answers (exec (.pinown ch) s) ch 10 0x0F [0] (fun u => u.regs = s.regs)))
    ∧ (s.callStands ch 0x1D [0x80000007] → Answers (exec (.trnom ch) s) ch 0 0 [] (fun u => (u.reg .dpTrnom 0).toNat = w1))
    ∧ (s.callStands ch 0x20 [0x80000000, 0x80000000, allBits] → let w2 := s.reqW c 2
      let w3 := s.reqW c 3
      (bit w2 31 = true → w3 % 512 = 0 → w3 < 0x1800000 → Answers (exec (.bootcfg ch) s) ch 0 0 [] (fun u => (u.reg .pb 0).toNat = w1
          ∧ (u.reg .pb 1).toNat = w3))
      ∧ (bit w2 31 = false → Answers (exec (.bootcfg ch) s) ch 0 0 [] (fun u => (u.reg .pb 0).toNat = w1 ∧ u.reg .pb 1 = s.reg .pb 1))
      ∧ (bit w2 31 = true → (w3 % 512 ≠ 0 ∨ 0x1800000 ≤ w3) → Answers (exec (.bootcfg ch) s) ch 10 0x0B [0] (fun u => u.regs = s.regs)))
    ∧ (s.callStands ch 0x22 [allBits, 0xFFFF] → Answers (exec (.rtcset ch) s) ch 0 0 [] (fun u => u.flag .pbStat 0 30 = true
        ∧ u.ht.rtcSec.toNat = s.reqW c 2 * 2 ^ 32 + w1 ∧ u.ht.rtcSub = 0))
    ∧ (∀ l, s.callStands ch 0x28 (blockUsed ++ [1, allBits]) → s.callBlock ch (s.reqW c 4) = some l →
      (s.fwReason l = none → Answers (exec (.fwwrite ch) s) ch 0 0 [fwSvnOf l] (fun u =>
        u.nvmBytes (fwBase (s.reqW c 3)) l.length = l ∧ u.regs = s.regs))
      ∧ (∀ r, s.fwReason l = some r → Answers (exec (.fwwrite ch) s) ch 10 r [0] (fun u => u.cf = s.cf)))
    ∧ (s.callStands ch 0x29 (blockUsed ++ [allBits, allBits]) → let o := s.reqW c 3
      let n := s.reqW c 4
      (∀ l, o % 512 = 0 → n % 512 = 0 → o < 0x1800000 → o + n ≤ slotEnd o → s.callBlock ch n = some l →
        Answers (exec (.nvmwrite ch) s) ch 0 0 [] (fun u => u.nvmBytes o n = l
          ∧ (∀ a, a < o ∨ o + n ≤ a → u.cf.nvm.rd a 0 = s.cf.nvm.rd a 0) ∧ u.regs = s.regs))
      ∧ (o % 512 ≠ 0 ∨ n % 512 ≠ 0 ∨ slotEnd o < o + n → Answers (exec (.nvmwrite ch) s) ch 10 0x0B [0] (fun u => u.cf = s.cf))))
  ∧ (∀ (p : Party) (s : State), (p = .heartwood ∨ ∃ c, p = .core c) → Goes (exec (.rtcReadLatch p) s) (fun t =>
      (t.reg .pbRtcl 0).toNat = s.ht.rtcSec.toNat % 2 ^ 32 ∧ (t.reg .pbRtch 0).toNat = s.ht.rtcSec.toNat / 2 ^ 32
      ∧ (t.reg .pbRtcsub 0).toNat = s.ht.rtcSub.toNat ∧ t.answer = ⟨.ok, [t.reg .pbRtcl 0]⟩ ∧ t.ht = s.ht))

/-- SESSION_START opens a session for MAGIC at an idle controller in WAIT, SERVICE or SAFE, and for a readback word out of HTBOOT, and
discards and counts any other word that finds it idle. HEADER_CHECK of a good host header makes the load ready; one that fails records its
cause and discards the rest. SESSION_TIMEOUT after 100 ms without a word, and SCP_TRUNCATION, end an image session with causes 0x0A and
0x0B. NVM_PREVERIFY of a good image makes the load ready, and of a bad one outside FALLBACK records its cause and drops it. FULL_LOAD_START
of a ready load, with no call running, counts it, powers every domain, and returns tiles, FIFOs, queues and admissions to cold reset, and
every cell to FREE with its last owner. A load that has started and fails enters FALLBACK with the seed, or SAFE when it was the seed or
began from SAFE, and records the cause; so does the watchdog of a running image. WDCLR disarms it; RELOAD asks a load from slot A or the
seed, and is DENIED while one is pending. -/
def Obligations.SessionsLoadsAndFailures : Prop :=
  ((∀ (port : CfgPort) (w : Word) (s u : State), s.cf.sess = none → s.portWords port [w] = some u →
     (w.toNat = hMagic → s.cf.load = none → (s.cfState = 1 ∨ s.cfState = 5 ∨ s.cfState = 7) → Goes (exec (.sessionStart port w) s) (fun t =>
       t.cf.sess = some ⟨port, .image, s.fc⟩ ∧ t.flag .cfStat 0 27 = true ∧ t.fld .cfStat 0 26 25 = portCode port ∧ t.cfState = s.cfState))
     ∧ (w.toNat = readbackMagic → s.cfState ≠ 0 → Goes (exec (.sessionStart port w) s) (fun t =>
       t.cf.sess = some ⟨port, .readback, s.fc⟩ ∧ t.flag .cfStat 0 27 = true))
     ∧ (w.toNat ≠ hMagic → w.toNat ≠ readbackMagic → Goes (exec (.sessionStart port w) s) (fun t =>
       t.cf.sess = none ∧ t.fld .cfDisc 0 31 0 = satAdd 32 (s.fld .cfDisc 0 31 0) 1)))
   ∧ (∀ (ws : List Word) (s u : State) (port : CfgPort) (f : Nat), s.cf.sess = some ⟨port, .image, f⟩ → s.cf.load = none →
     let h := BitVec.ofNat 32 hMagic :: ws.take 15
     ws.length = 15 + 20 * hNkb h → s.portWords port ws = some u →
     (∀ key, hGraft h = false → s.headerCause h (ws.drop 15) = none → unwrapKey h (ws.drop 15) = some key →
       Goes (exec (.headerCheck ws) s) (fun t => ∃ l, t.cf.load = some l ∧ l.src = .host port ∧ l.hdr = h ∧ l.ckey = key ∧ l.ready = true
         ∧ l.started = false ∧ (l.fromSafe = true ↔ s.cfState = 7) ∧ t.cf.sess = some ⟨port, .image, s.fc⟩ ∧ t.cfState = s.cfState))
     ∧ (∀ c, hGraft h = false → s.headerCause h (ws.drop 15) = some c → Goes (exec (.headerCheck ws) s) (fun t => t.cf.load = none
         ∧ t.fld .pb 3 31 24 = c ∧ t.fld .pb 3 15 14 = portCode port ∧ t.fld .pb 3 7 0 = s.fld .pb 3 7 0
         ∧ t.cf.sess = some ⟨port, .skip, s.fc⟩ ∧ t.tl = s.tl ∧ t.tn = s.tn)))
   ∧ (∀ (s : State) (x : Session), s.cf.sess = some x → s.fc < x.last + 160000000 → exec .sessionTimeout s = .next s)
   ∧ (∀ (s : State) (port : CfgPort) (f : Nat), s.cf.sess = some ⟨port, .image, f⟩ → s.cf.load = none →
     (f + 160000000 ≤ s.fc → Goes (exec .sessionTimeout s) (fun t => t.cf.sess = none ∧ t.flag .cfStat 0 27 = false
       ∧ t.fld .pb 3 31 24 = 0x0A ∧ t.fld .pb 3 15 14 = portCode port))
     ∧ (port = .scp → Goes (exec .scpTruncation s) (fun t => t.cf.sess = none ∧ t.fld .pb 3 31 24 = 0x0B ∧ t.fld .pb 3 15 14 = 1))))
  ∧ ((∀ (s : State) (l : Load) (a : Nat) (sd bad : Bool), s.cf.load = some l → l.src = .nvm a sd → l.ready = false →
     (s.nvmCause a bad = none → Goes (exec (.nvmPreverify bad) s) (fun t => ∃ l', t.cf.load = some l' ∧ l'.ready = true
       ∧ l'.hdr = s.nvmWords a 16 ∧ l'.started = l.started ∧ t.regs = s.regs))
     ∧ (∀ c, s.nvmCause a bad = some c → s.cfState ≠ 6 → s.cfState ≠ 0 → Goes (exec (.nvmPreverify bad) s) (fun t => t.cf.load = none
       ∧ (t.fld .pb 3 31 24 = c % 256) ∧ t.cfState = s.cfState ∧ t.tl = s.tl)))
   ∧ (∀ (s : State) (l : Load), s.cf.load = some l → l.ready = true → l.started = false → s.ht.wait = none →
     s.cx.link.rising 0 = true → Goes (exec .fullLoadStart s) (fun t => t.cf.load = some { l with started := true } ∧ t.cfState = (if s.cfState = 6 then 6 else 2)
       ∧ t.tl = TileB.zero ∧ t.sw = SwitchB.zero ∧ t.ff = FifoB.zero ∧ t.tn = TenantB.zero ∧ t.act = [] ∧ (∀ h, t.link h = { linkZero with owner := (s.link h).owner })
       ∧ t.qe.pkts = [] ∧ (∀ d, d < 96 → t.powered d = true ∧ t.closed d = false) ∧ t.gr.sh = [] ∧ t.gr.files = []
       ∧ t.fld .cfLoads 0 31 16 = satAdd 16 (s.fld .cfLoads 0 31 16) 1 ∧ t.cx.key = s.cx.key ∧ t.ht = s.ht ∧ t.tb = s.tb))
   ∧ (∀ (s : State) (l : Load), s.cf.load = some l → (l.ready = false ∨ l.started = true ∨ s.ht.wait.isSome = true) →
     exec .fullLoadStart s = .next s)
   ∧ (∀ (s : State) (l : Load) (c : BitVec 8), s.cf.load = some l → l.started = true → l.ended = false →
     (l.src = .host .scp ∧ c.toNat = 0x11 ∨ (∃ a sd, l.src = .nvm a sd) ∧ c.toNat = 0x0F) → Goes (exec (.loadFail c) s) (fun t =>
       (l.src.seed = true ∨ l.fromSafe = true → t.cfState = 7 ∧ t.cf.load = none ∧ (∀ g, g < 64 → t.running g = false)
         ∧ (∀ n, n < 512 → t.tn.adm.rd n none = none) ∧ (∀ d, d < 96 → t.powered d = false))
       ∧ (l.src.seed = false → l.fromSafe = false → t.cfState = 6
         ∧ t.cf.load = some s.seedLoad)
       ∧ (l.fallback = false → t.fld .pb 3 31 24 = c.toNat ∧ t.fld .pb 3 15 14 = srcCode l.src)
       ∧ (l.fallback = true → t.fld .pb 3 7 0 = c.toNat ∧ t.fld .pb 3 31 24 = s.fld .pb 3 31 24)
       ∧ t.fld .cfLoads 0 15 0 = satAdd 16 (s.fld .cfLoads 0 15 0) 1 ∧ t.flag .cfStat 0 24 = false ∧ t.cf.sess = none))
   ∧ (∀ (s : State) (src : LoadSrc), s.cfState = 5 → s.flag .cfStat 0 23 = true → s.cf.runSrc = some src →
     (∀ l, s.cf.load = some l → l.fallback = false) → (s.cf.wdogAt ≤ s.fc → Goes (exec .watchdogExpiry s) (fun t => t.fld .pb 3 31 24 = 0x0E ∧ t.flag .cfStat 0 23 = false
       ∧ t.cfState = (if src.seed || s.cf.runSafe then 7 else 6)))
     ∧ (s.fc < s.cf.wdogAt → exec .watchdogExpiry s = .next s))
   ∧ (∀ (p : Party) (w : Word) (s : State), p.isOp = true →
     (bit w.toNat 31 = false → bit w.toNat 29 = true → Goes (exec (.wdclr p w) s) (fun t => t.flag .cfStat 0 23 = false
       ∧ t.flag .cfCtl 0 30 = bit w.toNat 30 ∧ t.cfState = s.cfState ∧ t.answer = ⟨.ok, []⟩ ∧ t.cf = s.cf))
     ∧ (bit w.toNat 31 = true → (s.cfState = 1 ∨ s.cfState = 5 ∨ s.cfState = 7) → s.cf.load = none → s.cf.sess = none →
       Goes (exec (.reload p w) s) (fun t => t.answer = ⟨.ok, []⟩ ∧ t.cfState = s.cfState
         ∧ ∃ l, t.cf.load = some l ∧ l.ready = false ∧ l.src = s.nvmSrc (if bit w.toNat 30 then (s.reg .pb 1).toNat else 0)))
     ∧ (bit w.toNat 31 = true → (s.cf.load.isSome = true ∨ s.cf.sess.isSome = true) →
       exec (.reload p w) s = .next (s.ans .denied []))))

/-- The commands of an image, taken in order under the running CRC: NOP, SET_DEVICE, RELEASE_ORDER, CHECKPOINT, MEMORY_WRITE, FRAME_WRITE,
FRAME_FILL and FRAME_REPEAT have the effects of their names; a reserved bit or a late or unknown frame fails with FORMAT, a wrong CRC with
cause 4; END needs a CHECKPOINT before it, the operator's vector, FIFOs consumed once and outputs of the canopy's pins; RECORD_WRITE, an
operation of graft files, fails a full image. -/
def Obligations.ImageCommandsTakeEffectInOrder : Prop :=
  ∀ (ws : List Word) (s u : State) (l : Load) (p : List Word), let w (i : Nat) : Nat := (p.getD i 0).toNat
    (s.cmdStands 0 ws l u p → exec (.nopCmd ws) s = .next (if w 0 = 0 then u.setLoad (some (l.after 0 ws p)) else u.failLoad 5 0))
    ∧ (s.cmdStands 1 ws l u p → bits (w 0) 27 14 = 0 →
      (fKind (w 1) = 2 → frameWords (w 1) 0 = some (p.length - 2) → Goes (exec (.frameWrite ws) s) (fun t =>
        (∀ i, i < 64 → t.tmem (Machine.fT (w 1)) (fSub (w 1) + i) = bytesBE (((wordsBytes (p.drop 2)).drop (3 * i)).take 3))
        ∧ (∀ k, k < 2048 * Machine.fT (w 1) + fSub (w 1) ∨ 2048 * Machine.fT (w 1) + fSub (w 1) + 64 ≤ k → t.tl.mem.rd k 0 = u.tl.mem.rd k 0)
        ∧ t.cf.load = some { l.after 1 ws p with phase := 2, prev := some (BitVec.ofNat 32 (w 1), p.drop 2) } ∧ t.regs = u.regs))
      ∧ (isVector (w 1) = false → frameWords (w 1) 0 ≠ some (p.length - 2) → exec (.frameWrite ws) s = .next (u.failLoad 5 0))
      ∧ (isVector (w 1) = true → 2 ≤ l.phase → exec (.frameWrite ws) s = .next (u.failLoad 5 0)))
    ∧ (s.cmdStands 3 ws l u p → bits (w 0) 27 0 = 0 →
      (fKind (w 1) = 2 → frameWords (w 1) 0 = some 48 → Goes (exec (.frameFill ws) s) (fun t =>
        (∀ i, i < 64 → t.tmem (Machine.fT (w 1)) (fSub (w 1) + i)
          = bytesBE (((wordsBytes (List.replicate 48 (p.getD 2 0))).drop (3 * i)).take 3))
        ∧ t.cf.load = some { l.after 3 ws p with phase := 2, prev := some (BitVec.ofNat 32 (w 1), List.replicate 48 (p.getD 2 0)) }))
      ∧ (frameWords (w 1) 0 = none ∨ isVector (w 1) = true → exec (.frameFill ws) s = .next (u.failLoad 5 0)))
    ∧ (∀ a d b, s.cmdStands 2 ws l u p → l.prev = some (a, d) → bits (w 0) 26 16 = 0 → bits (w 0) 15 0 = 1 → repeatAddrs p = [b] →
      fKind a.toNat = 2 → fKind b = 2 → d.length = 48 → frameWords b 0 = some 48 → Goes (exec (.frameRepeat ws) s) (fun t =>
        (∀ i, i < 64 → t.tmem (Machine.fT b) (fSub b + i) = bytesBE (((wordsBytes d).drop (3 * i)).take 3))
        ∧ ∃ l', t.cf.load = some l' ∧ l'.prev = some (a, d) ∧ l'.phase = 2))
    ∧ (s.cmdStands 2 ws l u p → l.prev = none → exec (.frameRepeat ws) s = .next (u.failLoad 5 0))
    ∧ (s.cmdStands 4 ws l u p → bits (w 0) 27 14 = 0 → bits (w 0) 13 0 ≠ 0 → w 1 % 4 = 0 → w 1 + 4 * bits (w 0) 13 0 ≤ 4194304 →
      Goes (exec (.memoryWrite ws) s) (fun t =>
        (∀ i, i < bits (w 0) 13 0 → t.dp.csram.rd (0x100000 + w 1 / 4 + i) 0 = p.getD (2 + i) 0)
        ∧ (∀ k, k < 0x100000 + w 1 / 4 ∨ 0x100000 + w 1 / 4 + bits (w 0) 13 0 ≤ k → t.dp.csram.rd k 0 = u.dp.csram.rd k 0)
        ∧ t.cf.load = some { l.after 4 ws p with phase := 2 } ∧ t.tl = u.tl))
    ∧ (s.cmdStands 5 ws l u p → let mode := bits (w 1) 31 16
      bits (w 0) 27 0 = 0 → bits (w 1) 15 0 = 0 → bits mode 14 13 ≠ 3 → (bit mode 11 = true → bits mode 14 13 = 2) → bits mode 10 8 = 0 →
      bits (w 3) 31 16 = 0 → (∀ b, b < 4 → bits (w 3) (4 * b + 3) (4 * b) ≤ 6) → Goes (exec (.setDevice ws) s) (fun t =>
        t.cf.load = some { l.after 5 ws p with setDev := true, pllen := bits (w 2) 31 16, supply := w 3 }
        ∧ (∀ g, g < 16 → t.flag .lnGcfg g 31 = bit (w 2) g)
        ∧ (s.reg .ncMode 0 ≠ BitVec.ofNat 32 (mode * 2 ^ 16) → t.nc.newMode = some (BitVec.ofNat 32 (mode * 2 ^ 16)))
        ∧ t.reg .ncMode 0 = s.reg .ncMode 0))
    ∧ (s.cmdStands 6 ws l u p → bits (w 0) 27 6 = 0 → l.ordered = false →
      let o := [bits (w 0) 5 4, bits (w 0) 3 2, bits (w 0) 1 0]
      exec (.releaseOrder ws) s = .next (if [0, 1, 2].all o.contains then u.setLoad (some { l.after 6 ws p with
        ordered := true, order := o, gap1 := bits (w 1) 15 0, gap2 := bits (w 1) 31 16 }) else u.failLoad 5 0))
    ∧ (s.cmdStands 7 ws l u p → bits (w 0) 27 0 = 0 → exec (.checkpoint ws) s = .next (if p.getD 1 0 = ~~~l.crc
        then u.setLoad (some { l.after 7 ws p with crc := 0xFFFFFFFF, checked := true }) else u.failLoad 4 0))
    ∧ (s.cmdStands 8 ws l u p → w 0 = 0x80000000 → 4 * (l.cipher.length + ws.length) = hLength l.hdr →
      (l.checked = true → l.opVec = true → u.fifoTakenBad = false → u.outTabBad u.gp.pinTab u.gp.outTab = false →
        exec (.endCmd ws) s = .next (u.setLoad (some { l.after 8 ws p with ended := true })))
      ∧ (l.checked = true → (l.opVec = false ∨ u.fifoTakenBad = true ∨ u.outTabBad u.gp.pinTab u.gp.outTab = true) → exec (.endCmd ws) s = .next (u.failLoad 12 1))
      ∧ (l.checked = false → exec (.endCmd ws) s = .next (u.failLoad 5 0)))
    ∧ (s.commanding = some l → ws ≠ [] → p = plainWords l.hdr l.ckey (4 * l.cipher.length) ws → 9 ≤ bits (w 0) 31 28 →
      s.nextWords l (16 + hKeyWords l.hdr + l.cipher.length) ws = some u → exec (.recordWrite ws) s = .next (u.failLoad 5 0))

/-- IMAGE_VERIFY of the words after the section goes on to LOCK when tag, key and signature hold, and else fails with their cause.
PLL_LOCK_WAIT goes on to RELEASE when the taproot PLL and those of PLLEN are locked, and fails with 0x0D after 10 ms. A stage that is due in
the release order opens the outputs, enables writes in every grove, or starts every grove from the next fc, and one that is not due does
nothing; after the last the device is in SERVICE. READBACK of a legal request answers 0, the frames and their CRC-32C on the port that
asked, on SCP in nibbles after one of 0x5, and closes the session; an illegal one answers DENIED alone. A tenant's ring with RBACK 0, and a
word of tile memory in a tenant ring's window, read as zero. -/
def Obligations.ImagesAreReleasedAndReadBack : Prop :=
  ((∀ (ws : List Word) (s u : State) (l : Load), s.cf.load = some l → l.started = true → l.ended = true → (s.cfState = 2 ∨ s.cfState = 6) →
     ws.length = hTailWords l.hdr → s.nextWords l (16 + hKeyWords l.hdr + hLength l.hdr / 4) ws = some u →
     (s.sigCause l.hdr l.keys l.cipher ws l.ckey = none → Goes (exec (.imageVerify ws) s) (fun t => t.cfState = 3 ∧ t.cf.sess = none
       ∧ t.cf.load = some { l with lockBy := s.fc + 16000000 } ∧ t.tl = s.tl ∧ t.tn = s.tn))
     ∧ (∀ c, s.sigCause l.hdr l.keys l.cipher ws l.ckey = some c → exec (.imageVerify ws) s = .next (u.failLoad c 0)))
   ∧ (∀ (s : State) (l : Load), s.cf.load = some l → s.cfState = 3 →
     (s.flag .ckStat 0 31 = true → (∀ g, g < 16 → bit l.pllen g = true → s.flag .lnGcfg g 30 = true) → Goes (exec .pllLockWait s) (fun t =>
       t.cfState = 4 ∧ t.cf.load = some { l with relAt := s.fc + 1, relStep := 0 }))
     ∧ (s.flag .ckStat 0 31 = false → l.lockBy ≤ s.fc → exec .pllLockWait s = .next (s.failLoad 0x0D 0))
     ∧ (s.flag .ckStat 0 31 = false → s.fc < l.lockBy → exec .pllLockWait s = .next s))
   ∧ (∀ (s : State) (l : Load), s.cf.load = some l →
     let due (k : Nat) : Prop := s.cfState = 4 ∧ l.order[l.relStep]? = some k ∧ l.relAt ≤ s.fc
     let gap := if l.relStep = 0 then l.gap1 else if l.relStep = 1 then l.gap2 else 1
     let after : Load := { l with relStep := l.relStep + 1, relAt := s.fc + gap }
     (due 0 → Goes (exec .stageOut s) (fun t => t.cf.outDone = true ∧ t.ln.txOn = true ∧ t.cf.load = some after ∧ t.tl = s.tl))
     ∧ (due 1 → Goes (exec .stageWen s) (fun t => (∀ g, g < 64 → t.cf.wenGrove.rd g false = true) ∧ t.cf.load = some after ∧ t.regs = s.regs))
     ∧ (due 2 → Goes (exec .stageRun s) (fun t => (∀ g, g < 64 → t.pw.runNext.rd g false = true ∧ t.running g = s.running g)
       ∧ t.cf.load = some after ∧ t.regs = s.regs))
     ∧ (¬ due 0 → exec .stageOut s = .next s) ∧ (¬ due 1 → exec .stageWen s = .next s) ∧ (¬ due 2 → exec .stageRun s = .next s)
     ∧ (s.cfState = 4 → l.relStep = 3 → l.relAt ≤ s.fc → s.fc % 8 = 0 → let t := s.tickRelease
       t.cfState = 5 ∧ t.flag .cfStat 0 24 = true ∧ t.cf.load = none ∧ t.cf.runSrc = some l.src
       ∧ (t.flag .cfStat 0 23 = true ↔ hWdog l.hdr ≠ 0) ∧ t.cf.wdogAt = s.fc + hWdog l.hdr * 1600000)))
  ∧ ((∀ (ws : List Word) (s u : State) (port : CfgPort) (f : Nat), s.cf.sess = some ⟨port, .readback, f⟩ → ws.length = 3 →
     s.portWords port ws = some u → let w (i : Nat) : Nat := (ws.getD i 0).toNat
     let out (t : State) (x : List Word) : Prop := t.cf.sess = none ∧ t.flag .cfStat 0 27 = false
       ∧ (port = .bar2 → t.cf.reply = s.cf.reply ++ x) ∧ (port = .pcp → t.line = x.map BitVec.toNat)
       ∧ (port = .scp → t.line = 5 :: (wordsBytes x).flatMap (fun b => [b.toNat / 16, b.toNat % 16]))
     (∀ n, rbWords (w 0) = some n → bits (w 1) 31 16 = 0 → bits (w 1) 15 0 = 1 → s.loading = false →
       Goes (exec (.readback ws) s) (fun t => out t (0 :: s.rbFrame (w 0) n ++ [crc32c (wordsBytes (s.rbFrame (w 0) n))]) ∧ t.tl = s.tl))
     ∧ (bits (w 1) 30 16 ≠ 0 ∨ bits (w 1) 15 0 = 0 ∨ s.loading = true ∨ (rbWords (w 0) = none ∧ bits (w 1) 15 0 = 1) →
       bit (w 1) 31 = false → Goes (exec (.readback ws) s) (fun t => out t [10] ∧ t.tl = s.tl)))
   ∧ (∀ (s : State) (T r : Nat), r < 16 → s.ringMasked T r = true → s.rbTile T / 2 ^ (560 * r) % 2 ^ 560 = 0)
   ∧ (∀ (s : State) (T w i : Nat), i < 64 → s.wordMasked T (w + i) = true →
     bytesBE (((wordsBytes (s.rbMem T w)).drop (3 * i)).take 3) = 0))

/-- GRAFT_CHECK of the file at the head of heartwood's queue: a file that fails is answered DENIED with the first reason and leaves no
shadow; one that passes writes its shadows, all of them, requests a commit in every grove that they touch, and stays COMMITTED until its
releases. Heartwood that is not free takes none. OPERATOR_GRAFT_SESSION stages an operator's file in SERVICE, and elsewhere answers DENIED
with reason 0x0F. The internal graft port takes its commands in order. One that R487 discards whole is counted in CF_GPDISC with the alarm;
a refused one is counted and told to its issuer with the reason; an accepted RECORD becomes a shadow in place of an earlier one of the group
for the same record, a COMMIT requests, in every grove that they touch, the commit of the group's shadows that wait for one, and a DISCARD
drops the group's shadows and no other. GRAFT_COMMIT, in the first fc of a pass from two fcs after the request on, or one in a grove that
does not run, puts the shadows in force, zeroes and holds their rings, and sets the stages; it does nothing when no request of the grove is
due. GRAFT_WEN from c + 16 opens the held FIFOs. GRAFT_RUN, in the first fc of a pass from c + 32 on, lets the held rings and macrocells run
from zero state, but those that a later release still holds, and completes the file with status 0. -/
def Obligations.GraftsAreJudgedCommittedAndReleased : Prop :=
  ((∀ (s : State) (v : Fin 512) (o : Tag) (n : Nat) (r : List (Nat × CallSrc)), s.ht.callq = (n, .graft v) :: r → s.htFree = true →
     s.gState v.val = 2 → s.boundTag v.val = some o →
     let s0 : State := { s with ht := { s.ht with callq := r }, gr := { s.gr with nfile := s.gr.nfile + 1 } }
     let s1 : State := if o = opTag then s0 else (s0.readSlot o.toNat).2
     let org := Origin.file o s.gr.nfile
     (∀ e, s1.judgeGraft org (s.hi.gstage.rd v.val []) = .error e → Goes (exec .graftCheck s) (fun t => t.gState v.val = 3
       ∧ t.fld .hiGstat v.val 15 12 = 10 ∧ t.fld .hiGstat v.val 23 16 = e % 256 ∧ t.gr.sh = s.gr.sh ∧ t.gr.req = s.gr.req ∧ t.tl = s.tl
       ∧ t.lt = s.lt ∧ t.ff = s.ff ∧ t.ht.callq = r))
     ∧ (∀ sh, s1.judgeGraft org (s.hi.gstage.rd v.val []) = .ok sh → shadowGroves sh ≠ [] → (∀ f ∈ s.gr.files, f.groves ≠ []) →
       Goes (exec .graftCheck s) (fun t => t.gr.sh = s.gr.sh ++ sh.map (fun h => { h with asked := some s.fc })
         ∧ t.gr.req = s.gr.req ++ (shadowGroves sh).map (fun g => (⟨org, g, s.fc⟩ : GCommit))
         ∧ t.gr.files = s.gr.files ++ [⟨org, some v, shadowGroves sh, false⟩] ∧ t.gState v.val = 2 ∧ t.tl = s.tl ∧ t.lt = s.lt ∧ t.ff = s.ff
         ∧ t.regs = s.regs ∧ t.ht.callq = r)))
   ∧ (∀ s : State, s.htFree = false → exec .graftCheck s = .next s)
   ∧ (∀ (ws got : List Word) (s u : State) (port : CfgPort) (kind : SessKind) (f : Nat), let file := got ++ ws
     s.cf.sess = some ⟨port, kind, f⟩ → kind.got = some got → s.cf.load = none → hGraft (file.take 16) = true →
     file.length = hTotal (file.take 16) →
     s.portWords port ws = some u →
     (s.cfState = 5 → s.flag .htStat 0 31 = false → s.fld .cfOgstat 0 31 30 ≠ 2 → Goes (exec (.operatorGraftSession ws) s) (fun t =>
       t.reg .cfOgstat 0 = 0x80000000 ∧ t.gr.opStage = file ∧ (s.fc / 8, CallSrc.opGraft) ∈ t.ht.callq ∧ t.cf.sess = none
       ∧ t.gr.sh = s.gr.sh ∧ t.tl = s.tl))
     ∧ (s.cfState ≠ 5 → Goes (exec (.operatorGraftSession ws) s) (fun t => t.fld .cfOgstat 0 31 30 = 3 ∧ t.fld .cfOgstat 0 15 12 = 10
       ∧ t.fld .cfOgstat 0 23 16 = 0x0F ∧ t.cf.sess = none ∧ t.gr = s.gr ∧ t.ht.callq = s.ht.callq))))
  ∧ (∀ (s : State) (ws : List CWord) (r : List (List CWord)), s.gr.cmds = ws :: r →
   let refused (x : Res) (det e : Nat) : Prop := Goes x (fun t => t.gr.cmds = r ∧ t.gr.sh = s.gr.sh ∧ t.gr.req = s.gr.req
     ∧ t.fld .cfGpcnt 0 15 0 = satAdd 16 (s.fld .cfGpcnt 0 15 0) 1 ∧ t.fld .cfGpcnt 0 31 16 = s.fld .cfGpcnt 0 31 16
     ∧ t.ht.recs = s.ht.recs ++ [(.domain (pTag ws), mkRec 2 (pTag ws) 12 10 (det + e))] ∧ t.tl = s.tl ∧ t.lt = s.lt)
   let taken (t : State) : Prop := t.gr.cmds = r ∧ t.fld .cfGpcnt 0 31 16 = satAdd 16 (s.fld .cfGpcnt 0 31 16) 1
     ∧ t.fld .cfGpcnt 0 15 0 = s.fld .cfGpcnt 0 15 0 ∧ t.ht = s.ht ∧ t.tl = s.tl ∧ t.lt = s.lt
   let k := bits (pWord ws 0) 19 16
   let T := bits (pWord ws 1) 23 12
   let i := bits (pWord ws 1) 7 0
   let det := T * 2 ^ 20 + i * 2 ^ 12 + k * 2 ^ 8
   let org := pOrigin ws
   let gs := shadowGroves (s.gr.sh.filter (fun h => h.org == org && h.asked.isNone))
   (portMalformed ws = true → Goes (exec .graftPortCommandDiscard s) (fun t => t.gr.cmds = r ∧ t.gr.sh = s.gr.sh ∧ t.gr.req = s.gr.req
     ∧ t.fld .cfGpdisc 0 31 0 = satAdd 32 (s.fld .cfGpdisc 0 31 0) 1 ∧ t.fld .msAlarm 0 31 0 = satAdd 32 (s.fld .msAlarm 0 31 0) 1 ∧ t.ht = s.ht))
   ∧ (portMalformed ws = false →
     exec .graftPortCommandDiscard s = .next s
     ∧ (∀ e, portBad ws = some e → (pOp ws = 2 → refused (exec .graftPortCommit s) 0 e) ∧ (pOp ws = 3 → refused (exec .graftPortDiscard s) 0 e)
       ∧ (pOp ws = 1 → refused (exec .graftPortRecord s) det e))
     ∧ (portBad ws = none → pOp ws = 1 →
       let view := forEach (s.gr.sh.filter (fun h => h.org == org)) s.popPort (fun h s => s.putRec h.kind.toNat h.tile.toNat h.idx.toNat h.bits)
       let v := (ws.drop 2).foldl (fun a w => a * 2 ^ 24 + w.data.toNat) 0
       (∀ e, view.recReason org k T i v = some e → refused (exec .graftPortRecord s) det e)
       ∧ (view.recReason org k T i v = none → k = 4 → (view.putRec k T i (BitVec.ofNat 192 v)).takenBad (T / 64) = true →
         refused (exec .graftPortRecord s) det 0x24)
       ∧ (view.recReason org k T i v = none → (k = 4 → (view.putRec k T i (BitVec.ofNat 192 v)).takenBad (T / 64) = false) →
         let same (x : GShadow) : Bool := x.org == org && x.kind == BitVec.ofNat 4 k && x.tile == BitVec.ofNat 12 T && x.idx == BitVec.ofNat 8 i
         Goes (exec .graftPortRecord s) (fun t => taken t ∧ t.gr.req = s.gr.req
           ∧ t.gr.sh = s.gr.sh.filter (fun x => !same x) ++ [⟨org, BitVec.ofNat 4 k, BitVec.ofNat 12 T, BitVec.ofNat 8 i, BitVec.ofNat 192 v,
               (s.gr.sh.find? same).bind (·.asked)⟩])))
     ∧ (portBad ws = none → pOp ws = 2 → Goes (exec .graftPortCommit s) (fun t => taken t
       ∧ t.gr.sh = s.gr.sh.map (fun h => if h.org = org ∧ h.asked = none then { h with asked := some s.fc } else h)
       ∧ (∀ x, x ∈ t.gr.req ↔ x ∈ s.gr.req ∨ (∃ g ∈ gs, x = ⟨org, g, s.fc⟩))))
     ∧ (portBad ws = none → pOp ws = 3 → (∀ f ∈ s.gr.files, f.org ≠ org) → Goes (exec .graftPortDiscard s) (fun t => taken t
       ∧ t.gr.sh = s.gr.sh.filter (fun h => h.org != org) ∧ t.gr.files = s.gr.files))))
  ∧ ((∀ (s : State) (g : Fin 64) (h : GShadow) (c : Nat), s.gr.sh = [h] → s.gr.req = [⟨h.org, g.val, c⟩] → h.asked = some c → h.kind = 0 →
     h.tile.toNat / 64 = g.val →
     s.graftDue g.val c = true → let k := 16 * h.tile.toNat + h.idx.toNat
     Goes (exec (.graftCommit g) s) (fun t => t.tl.recs.rd k recReset = h.bits ∧ (∀ j, j ≠ k → t.tl.recs.rd j recReset = s.tl.recs.rd j recReset)
       ∧ t.tl.held.rd k false = true ∧ (∀ j, j ≠ k → t.tl.held.rd j false = s.tl.held.rd j false)
       ∧ (∀ i, i < 8 → t.tl.rst.d.rd (8 * k + i) 0 = 0) ∧ t.tl.rst.fl.rd k flagsZero = flagsZero
       ∧ (∀ j, j < 8 * k ∨ 8 * k + 8 ≤ j → t.tl.rst.d.rd j 0 = s.tl.rst.d.rd j 0) ∧ t.gr.sh = [] ∧ t.gr.req = []
       ∧ t.gr.staged = s.gr.staged ++ [⟨g.val, s.fc, some h.org, none, false, [k], [], []⟩] ∧ t.ff = s.ff ∧ t.lt = s.lt))
   ∧ (∀ (s : State) (g : Fin 64), (∀ x ∈ s.gr.req, x.grove = g.val → s.graftDue g.val x.fc = false) → (∀ f ∈ s.gr.files, f.groves ≠ []) →
     exec (.graftCommit g) s = .next s)
   ∧ (∀ (s : State) (g c : Nat), s.graftDue g c = true ↔ s.powered g = true ∧ ((s.running g = true ∧ s.fld .tlGphase g 5 0 = 0 ∧ c + 2 ≤ s.fc)
     ∨ (s.running g = false ∧ c + 1 ≤ s.fc)))
   ∧ (∀ (s : State) (g : Fin 64) (x : Staged), s.gr.staged = [x] → x.grove = g.val → x.wen = false →
     (x.c + 16 ≤ s.fc → Goes (exec (.graftWen g) s) (fun t => t.gr.staged = [{ x with wen := true }]
       ∧ (∀ F, t.ff.held.rd F false = (s.ff.held.rd F false && !x.fifos.contains F))
       ∧ (x.whole = true → t.cf.wenGrove.rd g.val false = true) ∧ (x.whole = false → t.cf = s.cf) ∧ t.tl = s.tl ∧ t.lt = s.lt))
     ∧ (s.fc < x.c + 16 → exec (.graftWen g) s = .next s))
   ∧ (∀ (s : State) (g : Fin 64) (x : Staged), s.gr.staged = [x] → x.grove = g.val → x.wen = true →
     (x.c + 32 ≤ s.fc → (x.whole = true ∨ (s.running g.val = true ∧ s.fld .tlGphase g.val 5 0 = 0)) →
       Goes (exec (.graftRun g) s) (fun t => t.gr.staged = []
         ∧ (∀ k, t.tl.held.rd k false = (s.tl.held.rd k false && !x.rings.contains k))
         ∧ (∀ m, t.lt.held.rd m false = (s.lt.held.rd m false && !x.mcs.contains m))
         ∧ (∀ k ∈ x.rings, (∀ i, i < 8 → t.tl.rst.d.rd (8 * k + i) 0 = 0) ∧ t.tl.rst.fl.rd k flagsZero = flagsZero)
         ∧ (x.whole = true → t.pw.runNext.rd g.val false = true)
         ∧ (∀ f v, s.gr.files = [f] → x.org = some f.org → f.vf = some v → f.groves = [g.val] → f.fenced = false →
           t.gr.files = [] ∧ t.gState v.val = 3 ∧ t.fld .hiGstat v.val 15 12 = 0)))
     ∧ (s.fc < x.c + 32 → (∀ f ∈ s.gr.files, f.groves ≠ []) → exec (.graftRun g) s = .next s))
   ∧ (∀ (s : State) (g : Fin 64) (x y : Staged), s.gr.staged = [x, y] → x.grove = g.val → x.wen = true → x.c + 32 ≤ s.fc →
     s.running g.val = true → s.fld .tlGphase g.val 5 0 = 0 → (y.wen = false ∨ s.fc < y.c + 32) → Goes (exec (.graftRun g) s) (fun t =>
       t.gr.staged = [y] ∧ (∀ k ∈ y.rings, t.tl.held.rd k false = s.tl.held.rd k false)
       ∧ (∀ m ∈ y.mcs, t.lt.held.rd m false = s.lt.held.rd m false)
       ∧ (∀ k ∈ x.rings, k ∉ y.rings → t.tl.held.rd k false = false))))

/-- GPIO_SET, GPIO_CLEAR and GPIO_TOGGLE change the OUT bits with a 1 that the writer may write, and no other; one that asks for a pin it
may not write completes DENIED and raises GP_DENY and the alarm once; a tenant's is answered BARK and changes no pin. At a hub edge the pads
take the drive that stood before it, GP_IN the samples of two edges before, and the lattice input lines the synchronised pins; a pad that
drives is sampled at its own level; a pattern unit's condition is compared and a rise, or with EDGE 0 each match, asserts its source once; a
timer counts, returns to 0 at its period with WRAP, and an edge of its capture input captures once. PGOOD_CHANGE moves PGOOD of a bank that
runs from its own supply. -/
def Obligations.PinsPatternsAndTimers : Prop :=
  ((∀ (p : Party) (hi : Fin 2) (w : Word) (s : State), (∀ o, p ≠ .tenant o) →
     let mine (b : Nat) : Bool := s.pinWriter p (32 * hi.val + b)
     let keeps (t : State) : Prop := (∀ n i, ¬ (n = .gpOut ∧ i = hi.val) → n ≠ .gpDeny → n ≠ .msAlarm → t.reg n i = s.reg n i)
       ∧ t.gp = s.gp ∧ t.lt = s.lt
       ∧ ((∀ b, b < 32 → w.getLsbD b = true → mine b = true) → t.answer = ⟨.ok, []⟩ ∧ t.reg .gpDeny 0 = s.reg .gpDeny 0
           ∧ t.reg .msAlarm 0 = s.reg .msAlarm 0)
       ∧ ((∃ b, b < 32 ∧ w.getLsbD b = true ∧ mine b = false) → t.answer = ⟨.denied, []⟩
           ∧ t.fld .gpDeny 0 31 0 = satAdd 32 (s.fld .gpDeny 0 31 0) 1 ∧ t.fld .msAlarm 0 31 0 = satAdd 32 (s.fld .msAlarm 0 31 0) 1)
     Goes (exec (.gpioSet p hi w) s) (fun t => keeps t
       ∧ ∀ b, b < 32 → t.flag .gpOut hi.val b = (s.flag .gpOut hi.val b || (w.getLsbD b && mine b)))
     ∧ Goes (exec (.gpioClear p hi w) s) (fun t => keeps t
       ∧ ∀ b, b < 32 → t.flag .gpOut hi.val b = (s.flag .gpOut hi.val b && !(w.getLsbD b && mine b)))
     ∧ Goes (exec (.gpioToggle p hi w) s) (fun t => keeps t
       ∧ ∀ b, b < 32 → t.flag .gpOut hi.val b = (s.flag .gpOut hi.val b != (w.getLsbD b && mine b))))
   ∧ (∀ (o : Fin 512) (hi : Fin 2) (w : Word) (s : State), exec (.gpioSet (.tenant o) hi w) s = .next (s.barkAns 0)
     ∧ exec (.gpioClear (.tenant o) hi w) s = .next (s.barkAns 0) ∧ exec (.gpioToggle (.tenant o) hi w) s = .next (s.barkAns 0)))
  ∧ ((∀ (pads : BitVec 64) (s : State), s.fc % 8 = 0 → s.gp.edgeAt ≠ s.fc + 1 → Goes (exec (.hubEdge pads) s) (fun t =>
     t.reg .gpIn 0 = s.gp.sync2.setWidth 32 ∧ t.reg .gpIn 1 = (s.gp.sync2 >>> 32).setWidth 32 ∧ t.gp.sync2 = s.gp.sync1 ∧ t.gp.sync1 = ((pads &&& ~~~t.gp.padEn) ||| t.gp.padOut)
     ∧ (∀ n, n < 64 → t.gp.padEn.getLsbD n = (s.pinDrive n).1 ∧ t.gp.padOut.getLsbD n = (s.pinDrive n).2)
     ∧ t.line = [t.gp.padEn.toNat, t.gp.padOut.toNat] ∧ (∀ k, k < 32 → t.lt.pinIn.rd k false = t.fnIn (128 + k) false)
     ∧ (∀ n, n < 8 → t.reg .gpTcnt n = (let c := s.reg .gpTcnt n
         if s.flag .gpTcfg n 31 = false ∨ s.gp.timerAt.rd n 0 = s.fc + 1 then c
         else if s.gp.presc.rd n 0 = (s.gp.prsc.rd n 0).toNat ∧ c = s.gp.per.rd n 0 then 0
         else if s.gp.presc.rd n 0 < (s.gp.prsc.rd n 0).toNat then c else c + 1))
     ∧ (∀ u, u < 8 → let c : Bool := ((t.pinsSeen ^^^ ((s.reg .gpPvall u).toNat + (s.reg .gpPvalh u).toNat * 2 ^ 32))
           &&& ((s.reg .gpPmskl u).toNat + (s.reg .gpPmskh u).toNat * 2 ^ 32) == 0) != s.flag .gpPctl u 29
       t.flag .gpPctl u 28 = c
       ∧ t.gp.patHit.getLsbD u = (s.flag .gpPctl u 31 && c && (!s.flag .gpPctl u 30 || !s.flag .gpPctl u 28)))))
   ∧ (∀ (pads : BitVec 64) (s : State), s.fc % 8 ≠ 0 ∨ s.gp.edgeAt = s.fc + 1 → exec (.hubEdge pads) s = .next s)
   ∧ (∀ (u : Fin 8) (s : State),
     (s.gp.patHit.getLsbD u.val = true → Goes (exec (.patternMatch u) s) (fun t => t.gp.patHit.getLsbD u.val = false
       ∧ t.dp.asserting = s.dp.asserting ++ [(656 + u.val, (s.fc + 4) / 2 * 2)] ∧ t.regs = s.regs
       ∧ (∀ v, v ≠ u.val → t.gp.patHit.getLsbD v = s.gp.patHit.getLsbD v)))
     ∧ (s.gp.patHit.getLsbD u.val = false → exec (.patternMatch u) s = .next s))
   ∧ (∀ (n : Fin 8) (s : State),
     let due : Prop := s.fc % 8 = 0 ∧ s.flag .gpTcfg n.val 31 = true ∧ s.gp.timerAt.rd n.val 0 ≠ s.fc + 1
         ∧ s.gp.presc.rd n.val 0 = (s.gp.prsc.rd n.val 0).toNat ∧ s.reg .gpTcnt n.val = s.gp.per.rd n.val 0
     (due → Goes (exec (.timerWrap n) s) (fun t => t.reg .gpTcnt n.val = 0 ∧ t.flag .gpTstat n.val 0 = true ∧ t.gp.presc.rd n.val 0 = 0
       ∧ t.gp.per.rd n.val 0 = s.reg .gpTper n.val ∧ t.gp.cmp.rd n.val 0 = s.reg .gpTcmp n.val
       ∧ (t.gp.prsc.rd n.val 0).toNat = s.fld .gpTcfg n.val 15 0 ∧ (∀ m, m ≠ n.val → t.reg .gpTcnt m = s.reg .gpTcnt m
         ∧ t.gp.per.rd m 0 = s.gp.per.rd m 0)))
     ∧ (¬ due → exec (.timerWrap n) s = .next s))
   ∧ (∀ (n : Fin 8) (s : State), let now := s.fnIn (72 + n.val) false
     let edge := now ≠ s.gp.capPrev.rd n.val false ∧ now ≠ s.flag .gpTcfg n.val 30
     Goes (exec (.timerCapture n) s) (fun t => t.gp.capPrev.rd n.val false = now
       ∧ (edge → s.flag .gpTstat n.val 1 = false → t.reg .gpTcap n.val = s.reg .gpTcnt n.val ∧ t.flag .gpTstat n.val 1 = true)
       ∧ (edge → s.flag .gpTstat n.val 1 = true → t.reg .gpTcap n.val = s.reg .gpTcap n.val ∧ t.flag .gpTstat n.val 2 = true)
       ∧ (¬ edge → t.regs = s.regs) ∧ t.reg .gpTcnt n.val = s.reg .gpTcnt n.val ∧ t.lt = s.lt))
   ∧ (∀ (b : Fin 4) (good : Bool) (s : State),
     (s.fld .gpBank 0 (4 * b.val + 3) (4 * b.val) = 6 → Goes (exec (.pgoodChange b good) s) (fun t => t.flag .gpBank 0 (16 + b.val) = good
       ∧ (∀ c, c < 4 → c ≠ b.val → t.flag .gpBank 0 (16 + c) = s.flag .gpBank 0 (16 + c)) ∧ t.fld .gpBank 0 15 0 = s.fld .gpBank 0 15 0))
     ∧ (s.fld .gpBank 0 (4 * b.val + 3) (4 * b.val) ≠ 6 → exec (.pgoodChange b good) s = .next s)))

/-- UART_TRANSMIT sends the oldest queued byte, start bit first, unless the clear to send of a port with flow control is high; UART_RECEIVE
marks a break, or stores the byte with its errors marked, or loses it with the overflow bit; SPI_TRANSFER moves one byte each way under the
chip select, which stays low after the last with CSHOLD alone. A read of a receive register takes the oldest byte. The two-wire port takes
its commands in order: START takes the bus, or on a busy bus drops the commands up to a STOP with its bit set; WRITE sends a byte, and
without an acknowledge drops the commands up to a STOP, or sends one of its own; READ stores a byte; STOP lets the bus go; a stretch over
the limit drops all. MDIO_FRAME sends the command's frame and stores what a read's station drives, or 0xFFFF with the error bit. -/
def Obligations.SerialPortsMoveBytes : Prop :=
  ((∀ (n : Fin 4) (s : State), let par := s.fld .spUcfg n.val 30 29
     (∀ b r, s.serOn .uart n.val = true → (s.flag .spUcfg n.val 27 = true → s.fnIn (12 + n.val) false = false) → s.txq .uart n.val = b :: r →
       Goes (exec (.uartTransmit n) s) (fun t => t.txq .uart n.val = r ∧ t.rxq .uart n.val = s.rxq .uart n.val
         ∧ t.line = 0 :: (List.range 8).map (fun i => b2n (b.getLsbD i))
             ++ (if par = 0 then [] else [b2n (oddOnes 8 b.toNat != (par == 2))]) ++ List.replicate (if s.flag .spUcfg n.val 28 then 2 else 1) 1
         ∧ t.regs = s.regs))
     ∧ (s.serOn .uart n.val = false ∨ s.txq .uart n.val = [] ∨ (s.flag .spUcfg n.val 27 = true ∧ s.fnIn (12 + n.val) false = true) →
       exec (.uartTransmit n) s = .next s))
   ∧ (∀ (n : Fin 4) (byte : Byte) (pb stop : Bool) (s : State), let par := s.fld .spUcfg n.val 30 29
     let brk := byte = 0 ∧ stop = false ∧ (par = 0 ∨ pb = false)
     let perr := par ≠ 0 ∧ pb ≠ (oddOnes 8 byte.toNat != (par == 2))
     let st (t : State) (k : Nat) : Bool := t.flag .spUstat n.val k
     (s.serOn .uart n.val = false ∨ s.fnSees (8 + n.val) = false → exec (.uartReceive n byte pb stop) s = .next s)
     ∧ (s.serOn .uart n.val = true → s.fnSees (8 + n.val) = true → s.fnLive (8 + n.val) = false →
       Goes (exec (.uartReceive n byte pb stop) s) (fun t => st t 2 = true ∧ t.gp = s.gp))
     ∧ (s.serOn .uart n.val = true → s.fnSees (8 + n.val) = true → s.fnLive (8 + n.val) = true →
       (brk → Goes (exec (.uartReceive n byte pb stop) s) (fun t => st t 2 = true ∧ t.gp = s.gp))
       ∧ (¬ brk → Goes (exec (.uartReceive n byte pb stop) s) (fun t => (st t 4 = true ↔ st s 4 = true ∨ stop = false)
         ∧ (st t 3 = true ↔ st s 3 = true ∨ perr)
         ∧ ((s.rxq .uart n.val).length < 64 → st t 5 = st s 5 ∧ ∃ x, t.rxq .uart n.val = s.rxq .uart n.val ++ [x] ∧ bits x.toNat 7 0 = byte.toNat
             ∧ (x.getLsbD 9 = true ↔ stop = false) ∧ (x.getLsbD 8 = true ↔ perr))
         ∧ (64 ≤ (s.rxq .uart n.val).length → st t 5 = true ∧ t.rxq .uart n.val = s.rxq .uart n.val)))))
   ∧ (∀ (n : Fin 4) (miso : Byte) (s : State), let cs := 2 ^ s.fld .spScfg n.val 27 26
     (∀ b r, s.serOn .spi n.val = true → s.txq .spi n.val = b :: r → Goes (exec (.spiTransfer n miso) s) (fun t => t.txq .spi n.val = r
       ∧ ((s.rxq .spi n.val).length < 64 → t.rxq .spi n.val = s.rxq .spi n.val
           ++ [if s.fnSees (24 + n.val) ∧ s.fnLive (24 + n.val) then BitVec.ofNat 16 miso.toNat else 0])
       ∧ (64 ≤ (s.rxq .spi n.val).length → t.flag .spSstat n.val 4 = true ∧ t.rxq .spi n.val = s.rxq .spi n.val)
       ∧ (r = [] → t.flag .spSstat n.val 5 = true) ∧ t.line = [cs, b.toNat]
       ∧ (t.gp.spiCs.rd n.val 0).toNat = (if r = [] ∧ s.flag .spScfg n.val 25 = false then 0 else cs)))
     ∧ (s.serOn .spi n.val = false ∨ s.txq .spi n.val = [] → exec (.spiTransfer n miso) s = .next s))
   ∧ (∀ (p : Party) (k : SerialKind) (n : Fin 8) (s : State), (∀ o, p ≠ .tenant o) → n.val < serCount k →
     (∀ b r, k ≠ .mdio → s.rxq k n.val = b :: r → Goes (exec (.serialReceiveRead p k n) s) (fun t => t.rxq k n.val = r
       ∧ (∃ w : Word, t.answer = ⟨.ok, [w]⟩ ∧ w.getLsbD 31 = true ∧ bits w.toNat 30 29 = bits b.toNat 9 8 ∧ bits w.toNat 7 0 = bits b.toNat 7 0)
       ∧ t.regs = s.regs))
     ∧ (k ≠ .mdio → s.rxq k n.val = [] → exec (.serialReceiveRead p k n) s = .next (s.ans .ok [0]))
     ∧ (k = .mdio → exec (.serialReceiveRead p k n) s = .next (s.ans .ok [s.reg .spMdata n.val]))))
  ∧ ((∀ (n : Fin 8) (s : State), let q := s.txq .twoWire n.val
     let st (t : State) (k : Nat) : Bool := t.flag .spTstat n.val k
     let inX (t : State) : Bool := t.gp.inXfer.rd n.val false
     let bus := s.fnIn (44 + n.val) true = true ∧ s.fnIn (52 + n.val) true = true
     let sda := s.fnSees (52 + n.val)
     let live := s.fnLive (52 + n.val)
     (∀ x, s.twHead n.val [1] = some x →
       ((inX s = true ∨ bus) → Goes (exec (.twStart n) s) (fun t => t.txq .twoWire n.val = q.drop 1 ∧ inX t = true ∧ t.line = [1] ∧ t.regs = s.regs))
       ∧ (inX s = false → ¬ bus → Goes (exec (.twStart n) s) (fun t => st t 2 = true ∧ t.txq .twoWire n.val = (fromStop q).drop 1 ∧ inX t = false
         ∧ (fromStop q = [] → t.gp.skipTo.rd n.val false = true))))
     ∧ (∀ o b, s.twHead n.val [2] = some (o, b) →
       (∀ ack, sda = true ∧ (live = false ∨ ack = true) →
         Goes (exec (.twWrite n ack) s) (fun t => t.txq .twoWire n.val = q.drop 1 ∧ t.line = [2, b] ∧ t.regs = s.regs ∧ inX t = inX s))
       ∧ (∀ ack, (sda = false ∨ live = true ∧ ack = false) → Goes (exec (.twWrite n ack) s) (fun t => t.txq .twoWire n.val = fromStop (q.drop 1)
         ∧ t.line = [2, b] ++ (if fromStop (q.drop 1) = [] then [5] else []) ∧ st t 5 = true
         ∧ inX t = (inX s && !(fromStop (q.drop 1)).isEmpty))))
     ∧ (∀ (byte : Byte) op x, (op = 3 ∨ op = 4) → s.twHead n.val [op] = some x → sda = true → live = true →
       Goes (exec (if op = 3 then .twReadAck n byte else .twReadNack n byte) s) (fun t => t.txq .twoWire n.val = q.drop 1 ∧ t.line = [op, byte.toNat]
         ∧ t.rxq .twoWire n.val = s.rxq .twoWire n.val ++ (if (s.rxq .twoWire n.val).length < 32 then [byte.setWidth 16] else [])
         ∧ t.regs = s.regs))
     ∧ (∀ (byte : Byte) op x, (op = 3 ∨ op = 4) → s.twHead n.val [op] = some x → (sda = false ∨ live = false) →
       Goes (exec (if op = 3 then .twReadAck n byte else .twReadNack n byte) s) (fun t => t.txq .twoWire n.val = q.drop 1
         ∧ t.line = [op, if sda then 0 else 0xFF] ∧ t.regs = s.regs))
     ∧ (∀ x, s.twHead n.val [5] = some x → Goes (exec (.twStop n) s) (fun t => t.txq .twoWire n.val = q.drop 1 ∧ inX t = false ∧ t.line = [5]
         ∧ t.regs = s.regs))
     ∧ (∀ (byte : Byte) (ack : Bool), (s.twHead n.val [1] = none → exec (.twStart n) s = .next s)
       ∧ (s.twHead n.val [2] = none → exec (.twWrite n ack) s = .next s) ∧ (s.twHead n.val [3] = none → exec (.twReadAck n byte) s = .next s)
       ∧ (s.twHead n.val [4] = none → exec (.twReadNack n byte) s = .next s) ∧ (s.twHead n.val [5] = none → exec (.twStop n) s = .next s))
     ∧ (s.serOn .twoWire n.val = true → s.fld .spTcfg n.val 15 0 ≠ 0 → inX s = true → Goes (exec (.stretchTimeout n) s) (fun t =>
         t.txq .twoWire n.val = [] ∧ inX t = false ∧ st t 4 = true ∧ t.rxq .twoWire n.val = s.rxq .twoWire n.val))
     ∧ (s.fld .spTcfg n.val 15 0 = 0 ∨ inX s = false → exec (.stretchTimeout n) s = .next s))
   ∧ (∀ (n : Fin 2) (drives : Bool) (d : BitVec 16) (s : State),
     (∀ w : Word, s.gp.mdio.rd n.val none = some w →
       let read := w.getLsbD 30 = true ∧ (w.getLsbD 29 = false ∨ w.getLsbD 31 = true)
       Goes (exec (.mdioFrame n drives d) s) (fun t => t.gp.mdio.rd n.val none = none ∧ t.flag .spMstat n.val 6 = true
         ∧ (read → drives = true → s.fnSees (62 + n.val) = true → s.fnLive (62 + n.val) = true → t.reg .spMdata n.val = d.setWidth 32 ∧ t.flag .spMstat n.val 5 = s.flag .spMstat n.val 5)
         ∧ (read → ((s.fnLive (62 + n.val) = true ∧ drives = false) ∨ s.fnSees (62 + n.val) = false) → t.reg .spMdata n.val = 0xFFFF ∧ t.flag .spMstat n.val 5 = true)
         ∧ (¬ read → t.reg .spMdata n.val = s.reg .spMdata n.val ∧ t.flag .spMstat n.val 5 = s.flag .spMstat n.val 5)
         ∧ t.line.length = 2))
     ∧ (s.gp.mdio.rd n.val none = none → exec (.mdioFrame n drives d) s = .next s)))

/-- REGISTER_WRITE judges each field of the register on its own: a field takes the write when the writer is named and its own rule allows
the value; a field that would neither change nor act is not judged; a refused field keeps its value, the access completes DENIED, and the
alarm rises once when a writer was refused. Said of the calendar, group, window and input registers of tiles, which heartwood alone reaches,
and GP_FSEL. A field that a write would neither change nor act on is not judged, whoever writes it: writing to a register of plain fields
the word that it holds completes with status 0 and raises no alarm. -/
def Obligations.RegisterWritesAreJudgedFieldByField : Prop :=
  (∀ (p : Party) (r : RegId) (w : Word) (s : State), let n := r.name
   let i := r.idx
   let tile := n = .tlCal ∨ n = .tlGrp ∨ n = .tlWin ∨ n = .swIn
   let old (f : Field) : Nat := s.fld n i f.hi f.lo
   let new (f : Field) : Nat := bits w.toNat f.hi f.lo
   let judged (f : Field) : Bool := match f.ty with
     | .rw => old f != new f
     | .w1c | .w1s | .wo => new f != 0
     | .wa => true
     | .ro => false
   (i < n.count → ((tile ∧ p = .heartwood) ∨ (n = .gpFsel ∧ ∀ o, p ≠ .tenant o)) → Goes (exec (.registerWrite p r w) s) (fun t =>
     (∀ f ∈ n.fields i, (judged f = false → t.fld n i f.hi f.lo = old f)
       ∧ (judged f = true → (f.names p.writer = false ∨ n.okVal i f.lo (new f) = false) → t.fld n i f.hi f.lo = old f)
       ∧ (f.ty = .rw → f.names p.writer = true → n.okVal i f.lo (new f) = true → t.fld n i f.hi f.lo = new f))
     ∧ ((∃ f ∈ n.fields i, judged f = true ∧ (f.names p.writer = false ∨ n.okVal i f.lo (new f) = false)) → t.answer = ⟨.denied, []⟩)
     ∧ ((∀ f ∈ n.fields i, judged f = true → f.names p.writer = true ∧ n.okVal i f.lo (new f) = true) → t.answer = ⟨.ok, []⟩)
     ∧ ((∃ f ∈ n.fields i, judged f = true ∧ f.names p.writer = false) → t.fld .msAlarm 0 31 0 = satAdd 32 (s.fld .msAlarm 0 31 0) 1)
     ∧ ((∀ f ∈ n.fields i, judged f = true → f.names p.writer = true) → t.reg .msAlarm 0 = s.reg .msAlarm 0)
     ∧ (∀ m j, ¬ (m = n ∧ j = i) → m ≠ .msAlarm → t.reg m j = s.reg m j) ∧ t.act = s.act ∧ t.tl = s.tl ∧ t.gp = s.gp))
   ∧ (i < n.count → tile → p ≠ .heartwood → exec (.registerWrite p r w) s = .next (s.deniedAlarm 0))
   ∧ (n.count ≤ i → exec (.registerWrite p r w) s = .next (s.ans .unmapped [])))
  ∧ (∀ (fs : List Field) (p : Writer) (ok : Nat → Nat → Bool) (w : Nat), (∀ f ∈ fs, f.ty = .rw ∨ f.ty = .ro) →
     judge fs p ok w w = ⟨w, 0, false, false⟩)

/-- Out of cold reset the device is in fc 0 in HTBOOT with every domain off, no grove running, the canopy cores held, nothing admitted, no
cell taken, no frame on a lane and no command waiting; every register stands at the Reset column of its table, but CK_STAT, whose PLL is
locked; and its memories list nothing. -/
def Obligations.ResetLeavesTheTablesValues : Prop :=
  let s := State.reset
  s.fc = 0 ∧ s.cfState = 0 ∧ s.pending = [] ∧ s.dp.coresHeld = true
  ∧ (∀ n i, ¬ (n = .ckStat ∧ i = 0) → s.reg n i = BitVec.ofNat 32 (n.resetVal i)) ∧ s.reg .ckStat 0 = 0x80000000
  ∧ (∀ d, d < 96 → s.powered d = false) ∧ (∀ g, g < 64 → s.running g = false) ∧ (∀ o, s.tn.adm.rd o none = none)
  ∧ s.cx.link = [] ∧ (∀ q, s.qe.pkts.rd q [] = []) ∧ s.gr.sh = [] ∧ s.ht.callq = [] ∧ s.cf.load = none ∧ s.cf.sess = none
  ∧ (∀ T w, s.tmem T w = 0) ∧ (∀ T i, s.tl.recs.rd (16 * T + i) recReset = recReset)
  ∧ s.cf.nvm.wf 0 = true ∧ s.dp.csram.wf 0 = true ∧ s.tl.mem.wf 0 = true

/-- A fused key slot is for ever: no step unprograms a programmed slot, changes its hash, or clears its revocation. -/
def Obligations.NoStepUndoesAFusedKeySlot : Prop :=
  ∀ (s t : State), Machine.step s = .next t → ∀ k, (s.keySlot k).prog = true →
    (t.keySlot k).prog = true ∧ (t.keySlot k).hash = (s.keySlot k).hash ∧ ((s.keySlot k).rev = true → (t.keySlot k).rev = true)

/-- Tile memory, canopy SRAM and the NVM keep their canonical form in every step: addresses strictly rising, and no entry equal to what an
unlisted address reads as. -/
def Obligations.MemoriesKeepTheirCanonicalForm : Prop :=
  ∀ (s t : State), (s.tl.mem.wf 0 = true ∧ s.dp.csram.wf 0 = true ∧ s.cf.nvm.wf 0 = true) → Machine.step s = .next t →
    t.tl.mem.wf 0 = true ∧ t.dp.csram.wf 0 = true ∧ t.cf.nvm.wf 0 = true
end

