-- ==== Sys2Proof/Laws/Tables.lean ====
section
/-! SUPPORT. The laws of sparse tables: a read after a write, and the canonical form. -/

namespace Sys2Proof

namespace Tbl

variable {α : Type}

@[simp] theorem rd_nil (k : Nat) (d : α) : Tbl.rd ([] : Tbl α) k d = d := rfl

theorem rd_cons (e : Nat × α) (r : Tbl α) (k : Nat) (d : α) :
    Tbl.rd (e :: r : Tbl α) k d = if e.1 = k then e.2 else Tbl.rd r k d := rfl

/-- A deleted key reads as the default. -/
theorem rd_del_same (t : Tbl α) (k : Nat) (d : α) : (t.del k).rd k d = d := by
  induction t with
  | nil => rfl
  | cons e r ih =>
    obtain ⟨k', v⟩ := e
    by_cases h : k' = k <;> simp [Tbl.del, rd_cons, h, ih]

/-- Deleting a key leaves every other one. -/
theorem rd_del_other (t : Tbl α) {k k' : Nat} (d : α) (h : k' ≠ k) : (t.del k).rd k' d = t.rd k' d := by
  induction t with
  | nil => rfl
  | cons e r ih =>
    obtain ⟨a, v⟩ := e
    by_cases ha : a = k
    · subst ha; simp [Tbl.del, rd_cons, ih, Ne.symm h]
    · simp [Tbl.del, rd_cons, ha, ih]

/-- Inserting a key leaves every other one. -/
theorem rd_ins_other (t : Tbl α) {k k' : Nat} (v d : α) (h : k' ≠ k) : (t.ins k v).rd k' d = t.rd k' d := by
  induction t with
  | nil => simp [Tbl.ins, rd_cons, Ne.symm h]
  | cons e r ih =>
    obtain ⟨a, w⟩ := e
    by_cases ha : k < a
    · simp [Tbl.ins, rd_cons, ha, Ne.symm h]
    · simp [Tbl.ins, rd_cons, ha, ih]

/-- An inserted key reads as what was inserted, when the table did not list it. -/
theorem rd_ins_del (t : Tbl α) (k : Nat) (v d : α) : ((t.del k).ins k v).rd k d = v := by
  induction t with
  | nil => simp [Tbl.del, Tbl.ins, rd_cons]
  | cons e r ih =>
    obtain ⟨a, w⟩ := e
    by_cases ha : a = k
    · simpa [Tbl.del, ha] using ih
    · by_cases hk : k < a <;> simp [Tbl.del, ha, Tbl.ins, hk, rd_cons, ih]

variable [DecidableEq α]

/-- A read of the key written gives the value written. -/
@[simp] theorem rd_wr_same (t : Tbl α) (k : Nat) (d v : α) : (t.wr k d v).rd k d = v := by
  unfold Tbl.wr
  split
  · next h => rw [rd_del_same, h]
  · exact rd_ins_del t k v d

/-- A write leaves every other key. -/
theorem rd_wr_other (t : Tbl α) {k k' : Nat} (d e v : α) (h : k' ≠ k) : (t.wr k d v).rd k' e = t.rd k' e := by
  unfold Tbl.wr
  split
  · exact rd_del_other t e h
  · rw [rd_ins_other _ _ _ h, rd_del_other _ _ h]

/-- A read after a write, in one line. -/
theorem rd_wr (t : Tbl α) (k k' : Nat) (d v : α) : (t.wr k d v).rd k' d = if k' = k then v else t.rd k' d := by
  by_cases h : k' = k
  · subst h; simp
  · simp [h, rd_wr_other t d d v h]

@[simp] theorem rd_up_same (t : Tbl α) (k : Nat) (d : α) (f : α → α) : (t.up k d f).rd k d = f (t.rd k d) := by
  simp [Tbl.up]

theorem rd_up_other (t : Tbl α) {k k' : Nat} (d e : α) (f : α → α) (h : k' ≠ k) : (t.up k d f).rd k' e = t.rd k' e := by
  simp [Tbl.up, rd_wr_other t d e _ h]

theorem rd_up (t : Tbl α) (k k' : Nat) (d : α) (f : α → α) :
    (t.up k d f).rd k' d = if k' = k then f (t.rd k d) else t.rd k' d := by
  simp [Tbl.up, rd_wr]

end Tbl

/-! ## The canonical form -/

namespace Tbl

variable {α : Type}

theorem rising_weaken (t : Tbl α) {lo lo' : Nat} (h : lo' ≤ lo) (hr : t.rising lo = true) : t.rising lo' = true := by
  cases t with
  | nil => rfl
  | cons e r =>
    obtain ⟨k, v⟩ := e
    simp only [Tbl.rising, Bool.and_eq_true, decide_eq_true_eq] at hr ⊢
    exact ⟨by omega, hr.2⟩

/-- Deleting a key keeps keys rising. -/
theorem rising_del (t : Tbl α) (k lo : Nat) (hr : t.rising lo = true) : (t.del k).rising lo = true := by
  induction t generalizing lo with
  | nil => rfl
  | cons e r ih =>
    obtain ⟨a, v⟩ := e
    simp only [Tbl.rising, Bool.and_eq_true, decide_eq_true_eq] at hr
    by_cases ha : a = k
    · simp only [Tbl.del, ha, if_true]
      exact rising_weaken _ (by omega) (ih _ hr.2)
    · simp only [Tbl.del, ha, if_false, Tbl.rising, Bool.and_eq_true, decide_eq_true_eq]
      exact ⟨hr.1, ih _ hr.2⟩

/-- A table whose keys are rising and that lists no key k keeps them rising when k is put in. -/
theorem rising_ins_del (t : Tbl α) (k : Nat) (v : α) (lo : Nat) (hk : lo ≤ k) (hr : t.rising lo = true) :
    ((t.del k).ins k v).rising lo = true := by
  induction t generalizing lo with
  | nil => simp [Tbl.del, Tbl.ins, Tbl.rising, hk]
  | cons e r ih =>
    obtain ⟨a, w⟩ := e
    simp only [Tbl.rising, Bool.and_eq_true, decide_eq_true_eq] at hr
    by_cases ha : a = k
    · simp only [Tbl.del, ha, if_true]
      exact ih lo hk (rising_weaken _ (by omega) hr.2)
    · simp only [Tbl.del, ha, if_false]
      by_cases hka : k < a
      · simp only [Tbl.ins, hka, if_true, Tbl.rising, Bool.and_eq_true, decide_eq_true_eq]
        exact ⟨hk, by omega, rising_del _ _ _ hr.2⟩
      · simp only [Tbl.ins, hka, if_false, Tbl.rising, Bool.and_eq_true, decide_eq_true_eq]
        exact ⟨hr.1, ih (a + 1) (by omega) hr.2⟩

theorem mem_del {t : Tbl α} {k : Nat} {e : Nat × α} (h : e ∈ t.del k) : e ∈ t := by
  induction t with
  | nil => exact h
  | cons a r ih =>
    obtain ⟨k', v⟩ := a
    by_cases hk : k' = k
    · simp only [Tbl.del, hk, if_true] at h
      exact List.mem_cons_of_mem _ (ih h)
    · simp only [Tbl.del, hk, if_false, List.mem_cons] at h
      rcases h with h | h
      · exact h ▸ List.mem_cons_self
      · exact List.mem_cons_of_mem _ (ih h)

theorem mem_ins {t : Tbl α} {k : Nat} {v : α} {e : Nat × α} (h : e ∈ t.ins k v) : e = (k, v) ∨ e ∈ t := by
  induction t with
  | nil => simpa [Tbl.ins] using h
  | cons a r ih =>
    obtain ⟨k', w⟩ := a
    by_cases hk : k < k'
    · simpa [Tbl.ins, hk] using h
    · simp only [Tbl.ins, hk, if_false, List.mem_cons] at h
      rcases h with h | h
      · exact .inr (h ▸ List.mem_cons_self)
      · rcases ih h with h | h
        · exact .inl h
        · exact .inr (List.mem_cons_of_mem _ h)

/-- Dropping a range of keys keeps keys rising. -/
theorem rising_filter (t : Tbl α) (p : Nat × α → Bool) (lo : Nat) (h : t.rising lo = true) :
    Tbl.rising (t.filter p) lo = true := by
  induction t generalizing lo with
  | nil => rfl
  | cons e r ih =>
    obtain ⟨k, v⟩ := e
    simp only [Tbl.rising, Bool.and_eq_true, decide_eq_true_eq] at h
    by_cases hp : p (k, v) = true
    · simp only [List.filter_cons, hp, if_true, Tbl.rising, Bool.and_eq_true, decide_eq_true_eq]
      exact ⟨h.1, ih _ h.2⟩
    · simp only [List.filter_cons, hp, if_false, Bool.false_eq_true]
      exact rising_weaken _ (by omega) (ih _ h.2)

variable [DecidableEq α]

/-- A write keeps the canonical form. -/
theorem wf_wr (t : Tbl α) (k : Nat) (d v : α) (h : t.wf d = true) : (t.wr k d v).wf d = true := by
  simp only [Tbl.wf, Bool.and_eq_true, List.all_eq_true, decide_eq_true_eq] at h ⊢
  unfold Tbl.wr
  split
  · exact ⟨rising_del _ _ _ h.1, fun e he => h.2 e (mem_del he)⟩
  · next hv =>
    refine ⟨rising_ins_del _ _ _ _ (Nat.zero_le _) h.1, fun e he => ?_⟩
    rcases mem_ins he with he | he
    · simpa [he] using hv
    · exact h.2 e (mem_del he)

/-- A change of one key keeps the canonical form. -/
theorem wf_up (t : Tbl α) (k : Nat) (d : α) (f : α → α) (h : t.wf d = true) : (t.up k d f).wf d = true :=
  wf_wr t k d _ h

/-- Dropping a range of keys keeps the canonical form. -/
theorem wf_clr (t : Tbl α) (d : α) (lo hi : Nat) (h : t.wf d = true) : (t.clr lo hi).wf d = true := by
  simp only [Tbl.wf, Bool.and_eq_true, List.all_eq_true, decide_eq_true_eq] at h ⊢
  exact ⟨rising_filter _ _ _ h.1, fun e he => h.2 e (List.mem_of_mem_filter he)⟩

end Tbl

end Sys2Proof
end

