-- ==== Sys2Proof/Laws/State.lean ====
section
/-! SUPPORT. What each shared operation on State changes and leaves: reads after writes of the register file, and one lemma for the
fields each operation keeps. -/

namespace Sys2Proof.Machine

/-! ## Bits -/

theorem bits_lt (n hi lo : Nat) : bits n hi lo < 2 ^ (hi + 1 - lo) := Nat.mod_lt _ (Nat.two_pow_pos _)

theorem b2n_le (b : Bool) : b2n b ≤ 1 := by cases b <;> decide

theorem b2n_true : b2n true = 1 := rfl

theorem b2n_false : b2n false = 0 := rfl

/-- A number is what stands below a bit, the field from there, and what stands above it. -/
theorem split_bits (n lo w : Nat) : n = n % 2 ^ lo + 2 ^ lo * (n / 2 ^ lo % 2 ^ w) + 2 ^ (lo + w) * (n / 2 ^ (lo + w)) := by
  have h1 := Nat.mod_add_div n (2 ^ lo)
  have h2 := Nat.mod_add_div (n / 2 ^ lo) (2 ^ w)
  rw [Nat.div_div_eq_div_mul, ← Nat.pow_add] at h2
  calc n = n % 2 ^ lo + 2 ^ lo * (n / 2 ^ lo) := h1.symm
    _ = n % 2 ^ lo + 2 ^ lo * (n / 2 ^ lo % 2 ^ w + 2 ^ w * (n / 2 ^ (lo + w))) := by rw [h2]
    _ = _ := by rw [Nat.pow_add]; ring

/-- A field set is what is then read from it. -/
theorem bits_setBits (n hi lo v : Nat) : bits (setBits n hi lo v) hi lo = v % 2 ^ (hi + 1 - lo) := by
  unfold setBits bits
  set w := hi + 1 - lo
  have h := split_bits n lo w
  have hl : n % 2 ^ lo < 2 ^ lo := Nat.mod_lt _ (Nat.two_pow_pos _)
  have e : n - n / 2 ^ lo % 2 ^ w * 2 ^ lo + v % 2 ^ w * 2 ^ lo
      = n % 2 ^ lo + 2 ^ lo * (v % 2 ^ w + 2 ^ w * (n / 2 ^ (lo + w))) := by
    have : n - n / 2 ^ lo % 2 ^ w * 2 ^ lo = n % 2 ^ lo + 2 ^ (lo + w) * (n / 2 ^ (lo + w)) := by
      rw [Nat.mul_comm (n / 2 ^ lo % 2 ^ w) (2 ^ lo)]
      omega
    rw [this, Nat.pow_add]; ring
  rw [e, Nat.add_mul_div_left _ _ (Nat.two_pow_pos _), Nat.div_eq_of_lt hl, Nat.zero_add, Nat.add_mul_mod_self_left,
    Nat.mod_mod]

/-! ## The register file -/

theorem ctorIdx_lt (n : RegName) : n.ctorIdx < 256 := by cases n <;> decide

theorem ctorIdx_inj {n m : RegName} (h : n.ctorIdx = m.ctorIdx) : n = m := by
  have e := congrArg RegName.ofNat h
  rwa [RegName.ofNat_ctorIdx, RegName.ofNat_ctorIdx] at e

/-- Each register has a place of its own in the register file. -/
theorem regKey_inj {n m : RegName} {i j : Nat} (h : n.key i = m.key j) : n = m ∧ i = j := by
  have a := ctorIdx_lt n
  have b := ctorIdx_lt m
  simp only [RegName.key] at h
  exact ⟨ctorIdx_inj (by omega), by omega⟩

@[simp] theorem State.reg_setReg_same (s : State) (n : RegName) (i : Nat) (w : Word) : (s.setReg n i w).reg n i = w := by
  simp [State.reg, State.setReg]

theorem State.reg_setReg_other (s : State) (n m : RegName) (i j : Nat) (w : Word) (h : m.key j ≠ n.key i) :
    (s.setReg n i w).reg m j = s.reg m j := by
  simp [State.reg, State.setReg, Tbl.rd_wr_other _ _ _ _ h]

/-- A register of another name is left. -/
theorem State.reg_setReg_name (s : State) {n m : RegName} (i j : Nat) (w : Word) (h : m ≠ n) :
    (s.setReg n i w).reg m j = s.reg m j :=
  State.reg_setReg_other s n m i j w (fun e => h (regKey_inj e).1)

/-- A register of the same name and another index is left. -/
theorem State.reg_setReg_index (s : State) (n : RegName) {i j : Nat} (w : Word) (h : j ≠ i) :
    (s.setReg n i w).reg n j = s.reg n j := by
  apply State.reg_setReg_other
  simp only [RegName.key]
  omega

@[simp] theorem State.actv_setActv_same (s : State) (n : RegName) (i : Nat) (w : Word) : (s.setActv n i w).actv n i = w := by
  simp [State.actv, State.setActv]

/-- An answer changes the answer alone. -/
@[simp] theorem State.ans_frame (s : State) (st : Status) (ws : List Word) :
    (s.ans st ws).pending = s.pending ∧
    (s.ans st ws).line = s.line ∧
    (s.ans st ws).free = s.free ∧
    (s.ans st ws).fc = s.fc ∧
    (s.ans st ws).regs = s.regs ∧
    (s.ans st ws).act = s.act ∧
    (s.ans st ws).tl = s.tl ∧
    (s.ans st ws).sw = s.sw ∧
    (s.ans st ws).lt = s.lt ∧
    (s.ans st ws).ff = s.ff ∧
    (s.ans st ws).cx = s.cx ∧
    (s.ans st ws).qe = s.qe ∧
    (s.ans st ws).tn = s.tn ∧
    (s.ans st ws).ln = s.ln ∧
    (s.ans st ws).tb = s.tb ∧
    (s.ans st ws).nc = s.nc ∧
    (s.ans st ws).hi = s.hi ∧
    (s.ans st ws).dp = s.dp ∧
    (s.ans st ws).ht = s.ht ∧
    (s.ans st ws).cf = s.cf ∧
    (s.ans st ws).gr = s.gr ∧
    (s.ans st ws).gp = s.gp ∧
    (s.ans st ws).pw = s.pw ∧
    (s.ans st ws).ms = s.ms ∧
    (s.ans st ws).was = s.was :=
  ⟨rfl, rfl, rfl, rfl, rfl, rfl, rfl, rfl, rfl, rfl, rfl, rfl, rfl, rfl, rfl, rfl, rfl, rfl, rfl, rfl, rfl, rfl, rfl, rfl, rfl⟩

/-- A register write changes the register file alone. -/
@[simp] theorem State.setReg_frame (s : State) (n : RegName) (i : Nat) (w : Word) :
    (s.setReg n i w).pending = s.pending ∧
    (s.setReg n i w).answer = s.answer ∧
    (s.setReg n i w).line = s.line ∧
    (s.setReg n i w).free = s.free ∧
    (s.setReg n i w).fc = s.fc ∧
    (s.setReg n i w).act = s.act ∧
    (s.setReg n i w).tl = s.tl ∧
    (s.setReg n i w).sw = s.sw ∧
    (s.setReg n i w).lt = s.lt ∧
    (s.setReg n i w).ff = s.ff ∧
    (s.setReg n i w).cx = s.cx ∧
    (s.setReg n i w).qe = s.qe ∧
    (s.setReg n i w).tn = s.tn ∧
    (s.setReg n i w).ln = s.ln ∧
    (s.setReg n i w).tb = s.tb ∧
    (s.setReg n i w).nc = s.nc ∧
    (s.setReg n i w).hi = s.hi ∧
    (s.setReg n i w).dp = s.dp ∧
    (s.setReg n i w).ht = s.ht ∧
    (s.setReg n i w).cf = s.cf ∧
    (s.setReg n i w).gr = s.gr ∧
    (s.setReg n i w).gp = s.gp ∧
    (s.setReg n i w).pw = s.pw ∧
    (s.setReg n i w).ms = s.ms ∧
    (s.setReg n i w).was = s.was :=
  ⟨rfl, rfl, rfl, rfl, rfl, rfl, rfl, rfl, rfl, rfl, rfl, rfl, rfl, rfl, rfl, rfl, rfl, rfl, rfl, rfl, rfl, rfl, rfl, rfl, rfl⟩

/-- A field write changes the register file alone. -/
@[simp] theorem State.setFld_frame (s : State) (n : RegName) (i hi lo v : Nat) :
    (s.setFld n i hi lo v).pending = s.pending ∧
    (s.setFld n i hi lo v).answer = s.answer ∧
    (s.setFld n i hi lo v).line = s.line ∧
    (s.setFld n i hi lo v).free = s.free ∧
    (s.setFld n i hi lo v).fc = s.fc ∧
    (s.setFld n i hi lo v).act = s.act ∧
    (s.setFld n i hi lo v).tl = s.tl ∧
    (s.setFld n i hi lo v).sw = s.sw ∧
    (s.setFld n i hi lo v).lt = s.lt ∧
    (s.setFld n i hi lo v).ff = s.ff ∧
    (s.setFld n i hi lo v).cx = s.cx ∧
    (s.setFld n i hi lo v).qe = s.qe ∧
    (s.setFld n i hi lo v).tn = s.tn ∧
    (s.setFld n i hi lo v).ln = s.ln ∧
    (s.setFld n i hi lo v).tb = s.tb ∧
    (s.setFld n i hi lo v).nc = s.nc ∧
    (s.setFld n i hi lo v).hi = s.hi ∧
    (s.setFld n i hi lo v).dp = s.dp ∧
    (s.setFld n i hi lo v).ht = s.ht ∧
    (s.setFld n i hi lo v).cf = s.cf ∧
    (s.setFld n i hi lo v).gr = s.gr ∧
    (s.setFld n i hi lo v).gp = s.gp ∧
    (s.setFld n i hi lo v).pw = s.pw ∧
    (s.setFld n i hi lo v).ms = s.ms ∧
    (s.setFld n i hi lo v).was = s.was :=
  ⟨rfl, rfl, rfl, rfl, rfl, rfl, rfl, rfl, rfl, rfl, rfl, rfl, rfl, rfl, rfl, rfl, rfl, rfl, rfl, rfl, rfl, rfl, rfl, rfl, rfl⟩

/-- A bit write changes the register file alone. -/
@[simp] theorem State.setBit_frame (s : State) (n : RegName) (i b : Nat) (v : Bool) :
    (s.setBit n i b v).pending = s.pending ∧
    (s.setBit n i b v).answer = s.answer ∧
    (s.setBit n i b v).line = s.line ∧
    (s.setBit n i b v).free = s.free ∧
    (s.setBit n i b v).fc = s.fc ∧
    (s.setBit n i b v).act = s.act ∧
    (s.setBit n i b v).tl = s.tl ∧
    (s.setBit n i b v).sw = s.sw ∧
    (s.setBit n i b v).lt = s.lt ∧
    (s.setBit n i b v).ff = s.ff ∧
    (s.setBit n i b v).cx = s.cx ∧
    (s.setBit n i b v).qe = s.qe ∧
    (s.setBit n i b v).tn = s.tn ∧
    (s.setBit n i b v).ln = s.ln ∧
    (s.setBit n i b v).tb = s.tb ∧
    (s.setBit n i b v).nc = s.nc ∧
    (s.setBit n i b v).hi = s.hi ∧
    (s.setBit n i b v).dp = s.dp ∧
    (s.setBit n i b v).ht = s.ht ∧
    (s.setBit n i b v).cf = s.cf ∧
    (s.setBit n i b v).gr = s.gr ∧
    (s.setBit n i b v).gp = s.gp ∧
    (s.setBit n i b v).pw = s.pw ∧
    (s.setBit n i b v).ms = s.ms ∧
    (s.setBit n i b v).was = s.was :=
  ⟨rfl, rfl, rfl, rfl, rfl, rfl, rfl, rfl, rfl, rfl, rfl, rfl, rfl, rfl, rfl, rfl, rfl, rfl, rfl, rfl, rfl, rfl, rfl, rfl, rfl⟩

/-- A count changes the register file alone. -/
@[simp] theorem State.count_frame (s : State) (n : RegName) (i hi lo k : Nat) :
    (s.count n i hi lo k).pending = s.pending ∧
    (s.count n i hi lo k).answer = s.answer ∧
    (s.count n i hi lo k).line = s.line ∧
    (s.count n i hi lo k).free = s.free ∧
    (s.count n i hi lo k).fc = s.fc ∧
    (s.count n i hi lo k).act = s.act ∧
    (s.count n i hi lo k).tl = s.tl ∧
    (s.count n i hi lo k).sw = s.sw ∧
    (s.count n i hi lo k).lt = s.lt ∧
    (s.count n i hi lo k).ff = s.ff ∧
    (s.count n i hi lo k).cx = s.cx ∧
    (s.count n i hi lo k).qe = s.qe ∧
    (s.count n i hi lo k).tn = s.tn ∧
    (s.count n i hi lo k).ln = s.ln ∧
    (s.count n i hi lo k).tb = s.tb ∧
    (s.count n i hi lo k).nc = s.nc ∧
    (s.count n i hi lo k).hi = s.hi ∧
    (s.count n i hi lo k).dp = s.dp ∧
    (s.count n i hi lo k).ht = s.ht ∧
    (s.count n i hi lo k).cf = s.cf ∧
    (s.count n i hi lo k).gr = s.gr ∧
    (s.count n i hi lo k).gp = s.gp ∧
    (s.count n i hi lo k).pw = s.pw ∧
    (s.count n i hi lo k).ms = s.ms ∧
    (s.count n i hi lo k).was = s.was :=
  ⟨rfl, rfl, rfl, rfl, rfl, rfl, rfl, rfl, rfl, rfl, rfl, rfl, rfl, rfl, rfl, rfl, rfl, rfl, rfl, rfl, rfl, rfl, rfl, rfl, rfl⟩

/-- An alarm changes the register file alone. -/
@[simp] theorem State.alarm_frame (s : State) :
    (s.alarm).pending = s.pending ∧
    (s.alarm).answer = s.answer ∧
    (s.alarm).line = s.line ∧
    (s.alarm).free = s.free ∧
    (s.alarm).fc = s.fc ∧
    (s.alarm).act = s.act ∧
    (s.alarm).tl = s.tl ∧
    (s.alarm).sw = s.sw ∧
    (s.alarm).lt = s.lt ∧
    (s.alarm).ff = s.ff ∧
    (s.alarm).cx = s.cx ∧
    (s.alarm).qe = s.qe ∧
    (s.alarm).tn = s.tn ∧
    (s.alarm).ln = s.ln ∧
    (s.alarm).tb = s.tb ∧
    (s.alarm).nc = s.nc ∧
    (s.alarm).hi = s.hi ∧
    (s.alarm).dp = s.dp ∧
    (s.alarm).ht = s.ht ∧
    (s.alarm).cf = s.cf ∧
    (s.alarm).gr = s.gr ∧
    (s.alarm).gp = s.gp ∧
    (s.alarm).pw = s.pw ∧
    (s.alarm).ms = s.ms ∧
    (s.alarm).was = s.was :=
  ⟨rfl, rfl, rfl, rfl, rfl, rfl, rfl, rfl, rfl, rfl, rfl, rfl, rfl, rfl, rfl, rfl, rfl, rfl, rfl, rfl, rfl, rfl, rfl, rfl, rfl⟩

/-- A register reset changes the register file alone. -/
@[simp] theorem State.resetReg_frame (s : State) (n : RegName) (i : Nat) :
    (s.resetReg n i).pending = s.pending ∧
    (s.resetReg n i).answer = s.answer ∧
    (s.resetReg n i).line = s.line ∧
    (s.resetReg n i).free = s.free ∧
    (s.resetReg n i).fc = s.fc ∧
    (s.resetReg n i).act = s.act ∧
    (s.resetReg n i).tl = s.tl ∧
    (s.resetReg n i).sw = s.sw ∧
    (s.resetReg n i).lt = s.lt ∧
    (s.resetReg n i).ff = s.ff ∧
    (s.resetReg n i).cx = s.cx ∧
    (s.resetReg n i).qe = s.qe ∧
    (s.resetReg n i).tn = s.tn ∧
    (s.resetReg n i).ln = s.ln ∧
    (s.resetReg n i).tb = s.tb ∧
    (s.resetReg n i).nc = s.nc ∧
    (s.resetReg n i).hi = s.hi ∧
    (s.resetReg n i).dp = s.dp ∧
    (s.resetReg n i).ht = s.ht ∧
    (s.resetReg n i).cf = s.cf ∧
    (s.resetReg n i).gr = s.gr ∧
    (s.resetReg n i).gp = s.gp ∧
    (s.resetReg n i).pw = s.pw ∧
    (s.resetReg n i).ms = s.ms ∧
    (s.resetReg n i).was = s.was :=
  ⟨rfl, rfl, rfl, rfl, rfl, rfl, rfl, rfl, rfl, rfl, rfl, rfl, rfl, rfl, rfl, rfl, rfl, rfl, rfl, rfl, rfl, rfl, rfl, rfl, rfl⟩

/-- A write of an active copy changes the active copies alone. -/
@[simp] theorem State.setActv_frame (s : State) (n : RegName) (i : Nat) (w : Word) :
    (s.setActv n i w).pending = s.pending ∧
    (s.setActv n i w).answer = s.answer ∧
    (s.setActv n i w).line = s.line ∧
    (s.setActv n i w).free = s.free ∧
    (s.setActv n i w).fc = s.fc ∧
    (s.setActv n i w).regs = s.regs ∧
    (s.setActv n i w).tl = s.tl ∧
    (s.setActv n i w).sw = s.sw ∧
    (s.setActv n i w).lt = s.lt ∧
    (s.setActv n i w).ff = s.ff ∧
    (s.setActv n i w).cx = s.cx ∧
    (s.setActv n i w).qe = s.qe ∧
    (s.setActv n i w).tn = s.tn ∧
    (s.setActv n i w).ln = s.ln ∧
    (s.setActv n i w).tb = s.tb ∧
    (s.setActv n i w).nc = s.nc ∧
    (s.setActv n i w).hi = s.hi ∧
    (s.setActv n i w).dp = s.dp ∧
    (s.setActv n i w).ht = s.ht ∧
    (s.setActv n i w).cf = s.cf ∧
    (s.setActv n i w).gr = s.gr ∧
    (s.setActv n i w).gp = s.gp ∧
    (s.setActv n i w).pw = s.pw ∧
    (s.setActv n i w).ms = s.ms ∧
    (s.setActv n i w).was = s.was :=
  ⟨rfl, rfl, rfl, rfl, rfl, rfl, rfl, rfl, rfl, rfl, rfl, rfl, rfl, rfl, rfl, rfl, rfl, rfl, rfl, rfl, rfl, rfl, rfl, rfl, rfl⟩

/-- An asserting source changes the dispatcher alone. -/
@[simp] theorem State.assertSrc_frame (s : State) (e : Nat) :
    (s.assertSrc e).pending = s.pending ∧
    (s.assertSrc e).answer = s.answer ∧
    (s.assertSrc e).line = s.line ∧
    (s.assertSrc e).free = s.free ∧
    (s.assertSrc e).fc = s.fc ∧
    (s.assertSrc e).regs = s.regs ∧
    (s.assertSrc e).act = s.act ∧
    (s.assertSrc e).tl = s.tl ∧
    (s.assertSrc e).sw = s.sw ∧
    (s.assertSrc e).lt = s.lt ∧
    (s.assertSrc e).ff = s.ff ∧
    (s.assertSrc e).cx = s.cx ∧
    (s.assertSrc e).qe = s.qe ∧
    (s.assertSrc e).tn = s.tn ∧
    (s.assertSrc e).ln = s.ln ∧
    (s.assertSrc e).tb = s.tb ∧
    (s.assertSrc e).nc = s.nc ∧
    (s.assertSrc e).hi = s.hi ∧
    (s.assertSrc e).ht = s.ht ∧
    (s.assertSrc e).cf = s.cf ∧
    (s.assertSrc e).gr = s.gr ∧
    (s.assertSrc e).gp = s.gp ∧
    (s.assertSrc e).pw = s.pw ∧
    (s.assertSrc e).ms = s.ms ∧
    (s.assertSrc e).was = s.was :=
  ⟨rfl, rfl, rfl, rfl, rfl, rfl, rfl, rfl, rfl, rfl, rfl, rfl, rfl, rfl, rfl, rfl, rfl, rfl, rfl, rfl, rfl, rfl, rfl, rfl, rfl⟩

/-- A record changes heartwood alone. -/
@[simp] theorem State.sendRec_frame (s : State) (d : RecDest) (r : BitVec 64) :
    (s.sendRec d r).pending = s.pending ∧
    (s.sendRec d r).answer = s.answer ∧
    (s.sendRec d r).line = s.line ∧
    (s.sendRec d r).free = s.free ∧
    (s.sendRec d r).fc = s.fc ∧
    (s.sendRec d r).regs = s.regs ∧
    (s.sendRec d r).act = s.act ∧
    (s.sendRec d r).tl = s.tl ∧
    (s.sendRec d r).sw = s.sw ∧
    (s.sendRec d r).lt = s.lt ∧
    (s.sendRec d r).ff = s.ff ∧
    (s.sendRec d r).cx = s.cx ∧
    (s.sendRec d r).qe = s.qe ∧
    (s.sendRec d r).tn = s.tn ∧
    (s.sendRec d r).ln = s.ln ∧
    (s.sendRec d r).tb = s.tb ∧
    (s.sendRec d r).nc = s.nc ∧
    (s.sendRec d r).hi = s.hi ∧
    (s.sendRec d r).dp = s.dp ∧
    (s.sendRec d r).cf = s.cf ∧
    (s.sendRec d r).gr = s.gr ∧
    (s.sendRec d r).gp = s.gp ∧
    (s.sendRec d r).pw = s.pw ∧
    (s.sendRec d r).ms = s.ms ∧
    (s.sendRec d r).was = s.was :=
  ⟨rfl, rfl, rfl, rfl, rfl, rfl, rfl, rfl, rfl, rfl, rfl, rfl, rfl, rfl, rfl, rfl, rfl, rfl, rfl, rfl, rfl, rfl, rfl, rfl, rfl⟩

/-- A record to an owner changes heartwood alone. -/
@[simp] theorem State.tellOwner_frame (s : State) (cls : Nat) (tag : Tag) (block code detail : Nat) :
    (s.tellOwner cls tag block code detail).pending = s.pending ∧
    (s.tellOwner cls tag block code detail).answer = s.answer ∧
    (s.tellOwner cls tag block code detail).line = s.line ∧
    (s.tellOwner cls tag block code detail).free = s.free ∧
    (s.tellOwner cls tag block code detail).fc = s.fc ∧
    (s.tellOwner cls tag block code detail).regs = s.regs ∧
    (s.tellOwner cls tag block code detail).act = s.act ∧
    (s.tellOwner cls tag block code detail).tl = s.tl ∧
    (s.tellOwner cls tag block code detail).sw = s.sw ∧
    (s.tellOwner cls tag block code detail).lt = s.lt ∧
    (s.tellOwner cls tag block code detail).ff = s.ff ∧
    (s.tellOwner cls tag block code detail).cx = s.cx ∧
    (s.tellOwner cls tag block code detail).qe = s.qe ∧
    (s.tellOwner cls tag block code detail).tn = s.tn ∧
    (s.tellOwner cls tag block code detail).ln = s.ln ∧
    (s.tellOwner cls tag block code detail).tb = s.tb ∧
    (s.tellOwner cls tag block code detail).nc = s.nc ∧
    (s.tellOwner cls tag block code detail).hi = s.hi ∧
    (s.tellOwner cls tag block code detail).dp = s.dp ∧
    (s.tellOwner cls tag block code detail).cf = s.cf ∧
    (s.tellOwner cls tag block code detail).gr = s.gr ∧
    (s.tellOwner cls tag block code detail).gp = s.gp ∧
    (s.tellOwner cls tag block code detail).pw = s.pw ∧
    (s.tellOwner cls tag block code detail).ms = s.ms ∧
    (s.tellOwner cls tag block code detail).was = s.was :=
  ⟨rfl, rfl, rfl, rfl, rfl, rfl, rfl, rfl, rfl, rfl, rfl, rfl, rfl, rfl, rfl, rfl, rfl, rfl, rfl, rfl, rfl, rfl, rfl, rfl, rfl⟩

/-- A record to the operator changes heartwood alone. -/
@[simp] theorem State.tellOp_frame (s : State) (cls block code detail : Nat) :
    (s.tellOp cls block code detail).pending = s.pending ∧
    (s.tellOp cls block code detail).answer = s.answer ∧
    (s.tellOp cls block code detail).line = s.line ∧
    (s.tellOp cls block code detail).free = s.free ∧
    (s.tellOp cls block code detail).fc = s.fc ∧
    (s.tellOp cls block code detail).regs = s.regs ∧
    (s.tellOp cls block code detail).act = s.act ∧
    (s.tellOp cls block code detail).tl = s.tl ∧
    (s.tellOp cls block code detail).sw = s.sw ∧
    (s.tellOp cls block code detail).lt = s.lt ∧
    (s.tellOp cls block code detail).ff = s.ff ∧
    (s.tellOp cls block code detail).cx = s.cx ∧
    (s.tellOp cls block code detail).qe = s.qe ∧
    (s.tellOp cls block code detail).tn = s.tn ∧
    (s.tellOp cls block code detail).ln = s.ln ∧
    (s.tellOp cls block code detail).tb = s.tb ∧
    (s.tellOp cls block code detail).nc = s.nc ∧
    (s.tellOp cls block code detail).hi = s.hi ∧
    (s.tellOp cls block code detail).dp = s.dp ∧
    (s.tellOp cls block code detail).cf = s.cf ∧
    (s.tellOp cls block code detail).gr = s.gr ∧
    (s.tellOp cls block code detail).gp = s.gp ∧
    (s.tellOp cls block code detail).pw = s.pw ∧
    (s.tellOp cls block code detail).ms = s.ms ∧
    (s.tellOp cls block code detail).was = s.was :=
  ⟨rfl, rfl, rfl, rfl, rfl, rfl, rfl, rfl, rfl, rfl, rfl, rfl, rfl, rfl, rfl, rfl, rfl, rfl, rfl, rfl, rfl, rfl, rfl, rfl, rfl⟩

/-- A record to heartwood changes heartwood alone. -/
@[simp] theorem State.tellHeart_frame (s : State) (cls : Nat) (tag : Tag) (block code detail : Nat) :
    (s.tellHeart cls tag block code detail).pending = s.pending ∧
    (s.tellHeart cls tag block code detail).answer = s.answer ∧
    (s.tellHeart cls tag block code detail).line = s.line ∧
    (s.tellHeart cls tag block code detail).free = s.free ∧
    (s.tellHeart cls tag block code detail).fc = s.fc ∧
    (s.tellHeart cls tag block code detail).regs = s.regs ∧
    (s.tellHeart cls tag block code detail).act = s.act ∧
    (s.tellHeart cls tag block code detail).tl = s.tl ∧
    (s.tellHeart cls tag block code detail).sw = s.sw ∧
    (s.tellHeart cls tag block code detail).lt = s.lt ∧
    (s.tellHeart cls tag block code detail).ff = s.ff ∧
    (s.tellHeart cls tag block code detail).cx = s.cx ∧
    (s.tellHeart cls tag block code detail).qe = s.qe ∧
    (s.tellHeart cls tag block code detail).tn = s.tn ∧
    (s.tellHeart cls tag block code detail).ln = s.ln ∧
    (s.tellHeart cls tag block code detail).tb = s.tb ∧
    (s.tellHeart cls tag block code detail).nc = s.nc ∧
    (s.tellHeart cls tag block code detail).hi = s.hi ∧
    (s.tellHeart cls tag block code detail).dp = s.dp ∧
    (s.tellHeart cls tag block code detail).cf = s.cf ∧
    (s.tellHeart cls tag block code detail).gr = s.gr ∧
    (s.tellHeart cls tag block code detail).gp = s.gp ∧
    (s.tellHeart cls tag block code detail).pw = s.pw ∧
    (s.tellHeart cls tag block code detail).ms = s.ms ∧
    (s.tellHeart cls tag block code detail).was = s.was :=
  ⟨rfl, rfl, rfl, rfl, rfl, rfl, rfl, rfl, rfl, rfl, rfl, rfl, rfl, rfl, rfl, rfl, rfl, rfl, rfl, rfl, rfl, rfl, rfl, rfl, rfl⟩

/-- Taking a free value changes the counter of free values alone. -/
@[simp] theorem State.freeWord_frame (s : State) :
    (s.freeWord.2).pending = s.pending ∧
    (s.freeWord.2).answer = s.answer ∧
    (s.freeWord.2).line = s.line ∧
    (s.freeWord.2).fc = s.fc ∧
    (s.freeWord.2).regs = s.regs ∧
    (s.freeWord.2).act = s.act ∧
    (s.freeWord.2).tl = s.tl ∧
    (s.freeWord.2).sw = s.sw ∧
    (s.freeWord.2).lt = s.lt ∧
    (s.freeWord.2).ff = s.ff ∧
    (s.freeWord.2).cx = s.cx ∧
    (s.freeWord.2).qe = s.qe ∧
    (s.freeWord.2).tn = s.tn ∧
    (s.freeWord.2).ln = s.ln ∧
    (s.freeWord.2).tb = s.tb ∧
    (s.freeWord.2).nc = s.nc ∧
    (s.freeWord.2).hi = s.hi ∧
    (s.freeWord.2).dp = s.dp ∧
    (s.freeWord.2).ht = s.ht ∧
    (s.freeWord.2).cf = s.cf ∧
    (s.freeWord.2).gr = s.gr ∧
    (s.freeWord.2).gp = s.gp ∧
    (s.freeWord.2).pw = s.pw ∧
    (s.freeWord.2).ms = s.ms ∧
    (s.freeWord.2).was = s.was :=
  ⟨rfl, rfl, rfl, rfl, rfl, rfl, rfl, rfl, rfl, rfl, rfl, rfl, rfl, rfl, rfl, rfl, rfl, rfl, rfl, rfl, rfl, rfl, rfl, rfl, rfl⟩

/-- Taking a free status changes the counter of free values alone. -/
@[simp] theorem State.freeCode_frame (s : State) :
    (s.freeCode.2).pending = s.pending ∧
    (s.freeCode.2).answer = s.answer ∧
    (s.freeCode.2).line = s.line ∧
    (s.freeCode.2).fc = s.fc ∧
    (s.freeCode.2).regs = s.regs ∧
    (s.freeCode.2).act = s.act ∧
    (s.freeCode.2).tl = s.tl ∧
    (s.freeCode.2).sw = s.sw ∧
    (s.freeCode.2).lt = s.lt ∧
    (s.freeCode.2).ff = s.ff ∧
    (s.freeCode.2).cx = s.cx ∧
    (s.freeCode.2).qe = s.qe ∧
    (s.freeCode.2).tn = s.tn ∧
    (s.freeCode.2).ln = s.ln ∧
    (s.freeCode.2).tb = s.tb ∧
    (s.freeCode.2).nc = s.nc ∧
    (s.freeCode.2).hi = s.hi ∧
    (s.freeCode.2).dp = s.dp ∧
    (s.freeCode.2).ht = s.ht ∧
    (s.freeCode.2).cf = s.cf ∧
    (s.freeCode.2).gr = s.gr ∧
    (s.freeCode.2).gp = s.gp ∧
    (s.freeCode.2).pw = s.pw ∧
    (s.freeCode.2).ms = s.ms ∧
    (s.freeCode.2).was = s.was :=
  ⟨rfl, rfl, rfl, rfl, rfl, rfl, rfl, rfl, rfl, rfl, rfl, rfl, rfl, rfl, rfl, rfl, rfl, rfl, rfl, rfl, rfl, rfl, rfl, rfl, rfl⟩

/-! ## Records and answers -/

@[simp] theorem State.sendRec_recs (s : State) (d : RecDest) (r : BitVec 64) :
    (s.sendRec d r).ht.recs = s.ht.recs ++ [(d, r)] := rfl

@[simp] theorem State.ans_answer (s : State) (st : Status) (ws : List Word) : (s.ans st ws).answer = ⟨st, ws⟩ := rfl

/-- What every step of a repeated change keeps, the whole keeps. -/
theorem forEach_keeps {α β : Type} (get : State → β) (l : List α) (s : State) (f : α → State → State)
    (h : ∀ a s, get (f a s) = get s) : get (forEach l s f) = get s := by
  unfold forEach
  induction l generalizing s with
  | nil => rfl
  | cons a r ih => simpa [List.foldl_cons, h] using ih (f a s)

end Sys2Proof.Machine
end

