-- ==== Sys2Proof/Tests/Slice0.lean ====
section
/-! SUPPORT. Small tests: ill-formed commands refused, worked examples of the spec, and a witness for the hypotheses of each statement,
with the main effect seen on it. -/

namespace Sys2Proof.Tests

set_option Elab.async false

open Sys2Proof Sys2Proof.Machine

/-- The next state of an outcome. -/
def nx (r : Res) : State :=
  match r with
  | .next t => t
  | _ => State.reset

/-- A command has one next state, which is this one. -/
def goes (r : Res) (t : State) : Bool :=
  match r with
  | .next u => u == t
  | _ => false

/-- A device in SERVICE with every domain powered and open, every release stage taken, heartwood's mailbox open and the cores released. -/
def base : State :=
  let s := forEach (List.range 3) State.reset (fun k s => (s.setReg .pwDompwr k 0xFFFFFFFF).setReg .pwDomfen k 0)
  let s := (s.setFld .cfStat 0 31 28 5).setBit .htStat 0 30 true
  State.beginFc { s with
    fc := 1000
    cx := { s.cx with key := 0 }
    cf := { s.cf with outDone := true, wenGrove := (List.range 64).map (fun g => (g, true)) }
    dp := { s.dp with coresHeld := false } }

/-- Grove g runs, at the first fc of a pass. -/
def runs (g : Nat) (s : State) : State := s.setBit .tlGphase g 7 true

/-- A valid route entry of NI ni for node d with 8 credits, and a valid injection entry 0 of the NI: BURST b, one flit per fc. -/
def rte (ni d : Nat) (s : State) : State :=
  let r := (dimRoute ni d).toNat
  (s.setReg .ncRteL (rteKey ni d) (BitVec.ofNat 32 r)).writeRteH .heartwood ni d (BitVec.ofNat 32 (2 ^ 31 + 8 * 2 ^ 25 + r / 2 ^ 32))

def inj (ni : Nat) (tag d prio b : Nat) (s : State) : State :=
  (s.setReg .ncInjA (injKey ni 0) (BitVec.ofNat 32 (2 ^ 31 + tag * 2 ^ 21 + d * 2 ^ 14 + prio * 2 ^ 12))).writeInjB .heartwood ni 0
    (BitVec.ofNat 32 (b * 2 ^ 24 + 256 * 2 ^ 15))

/-- The state in another fc. -/
def at' (s : State) (fc : Nat) : State := { s with fc := fc }

/-! ## Tiles -/

/-- A ring record: OWNER, RIPE, INSEL, OUTSEL, WUOP. -/
def ringWord (own : Nat) (ripe : Bool) (insel outsel wuop : Nat) : BitVec 192 :=
  BitVec.ofNat 192 (own * 2 ^ 182 + b2n ripe * 2 ^ 181 + wuop * 2 ^ 156 + insel * 2 ^ 88 + outsel * 2 ^ 72)

/-- Tile 0 with rings 0 and 1 of tenant 5 as group 0, and ring 0 as given. -/
def tile0 (r : BitVec 192) : State :=
  let s := (runs 0 base).putRec 2 0 0 0
  let s := (s.putRec 3 0 0 3).setBoth .tlGrp 0 31 22 5
  (s.putRec 0 0 0 r).putRec 0 0 1 (ringWord 5 true 0 0 0)

theorem witness_tile_slot_finds : (tile0 (ringWord 5 true 0 0 0)).slotFinds 0 0 0 2 0 := by
  refine ⟨by decide +kernel, by decide +kernel, by decide +kernel, by decide +kernel, by decide, by decide +kernel, by decide, by decide +kernel, by decide +kernel⟩

/-- A ring that is not ripe is passed over; a stranger in the group counts an owner fault; a ring that waits stays; a good one runs. -/
theorem witness_tile_slot :
    (let s := tile0 (ringWord 5 false 0 0 0)
     !s.ripe 0 0 && goes (exec (.tileSlot 0 0 []) s) ((s.slotTaken 0).steerTo 0 0 1001 1))
    && (let s := tile0 (ringWord 6 true 0 0 0)
     s.ripe 0 0 && (nx (exec (.tileSlot 0 0 []) s)).fld .tlGfault 0 31 0 == 1)
    && (let s := (tile0 (ringWord 5 true 0x9000 0 0)).setBoth .swIn 42 31 22 5
     s.ripe 0 0 && s.portsOwned 0 (s.ringRec 0 0) 5 && !s.canIssue 0 (s.ringRec 0 0) && goes (exec (.tileSlot 0 0 []) s) (s.slotTaken 0))
    && (let s := tile0 (ringWord 5 true 0 0 0)
     s.portsOwned 0 (s.ringRec 0 0) 5 && s.canIssue 0 (s.ringRec 0 0)
       && goes (exec (.tileSlot 0 0 []) s) ((s.slotTaken 0).execRing 0 0 0 0 2)) := by
  decide +kernel

/-- ADD of two absent operands puts W in flight to D1 and to port 0. -/
theorem witness_ring_in_flight :
    let s := tile0 (ringWord 5 true 0 1 (0x02 * 2 ^ 14 + 8))
    let z : Slot := ⟨0, 0, s.ringRec 0 0, Opd.idle, Opd.idle, Opd.idle, Opd.idle⟩
    let rcd := s.ringRec 0 0
    rMemop rcd == 0 && (wordUnit (rWuop rcd) (rImm rcd) (z.src s (bits (rWuop rcd) 13 10)) (z.src s (bits (rWuop rcd) 9 6)) (s.flagsOf 0 0)
      (s.pReg 0 0 (bits (rWuop rcd) 1 0))).isSome && outCode (rOutsel rcd) 0 == 1
      && (((s.execRing 0 0 0 0 2).tl.land.rd 0 []).map (fun l => l.due)).all (· == 1002) && !((s.execRing 0 0 0 0 2).tl.land.rd 0 []).isEmpty := by
  decide +kernel

/-- 0x7FFFFF + 1 overflows to the most negative number and sets V, not C; the saturating sum stays. -/
theorem test_word_unit :
    ((wuCalc 0x02 0 0x7FFFFF 1 0 0 false false 0).map (fun o => (o.w, o.c, o.v)) == some (0x800000, false, true))
    && ((wuCalc 0x06 0 0x7FFFFF 1 0 0 false false 0).map (fun o => (o.w, o.sat)) == some (0x7FFFFF, true))
    && ((wuCalc 0x04 0 0 1 0 0 false false 0).map (fun o => (o.w, o.c, o.v)) == some (0xFFFFFF, true, false)) := by
  decide +kernel

/-- A store halves 3 to 2 and 5 to 2 (ties to even), and clips. -/
theorem test_mac_store : macStore 3 1 == (2, false) && macStore 5 1 == (2, false) && macStore 0x80000000 0 == (0x7FFFFF, true)
    && accAct 0x7FFFFFFFFFFFFF (.add 1) == (0x80000000000000, true) := by
  decide +kernel

/-- TL_GCAL_COMMIT and the commit at the wrap; another grove keeps its copies; a tenant is answered BARK. -/
theorem witness_calendar_commit :
    let s := (runs 3 base).setReg .tlGrp 3072 0x01400003
    let t := nx (exec (.tlGcalCommit .heartwood 3 0x80000008) s)
    let u := nx (exec (.shadowCommit 3) (at' t 1001))
    t.flag .tlGcal 3 31 && t.fld .tlGcal 3 6 0 == 8 && t.tl.commitAt.rd 3 0 == 1001 && t.answer == ⟨.ok, []⟩
      && (at' t 1001).regs.rising 0 && t.act.rising 0 && t.running 3 && t.powered 3 && t.fld .tlGphase 3 5 0 == 0
      && u.actv .tlGrp 3072 == 0x01400003 && u.fld .tlGcalact 3 6 0 == 8 && !u.flag .tlGcal 3 31
      && goes (exec (.tlGcalCommit (.tenant 4) 3 0x80000008) s) (s.alarm.ans .bark []) := by
  decide +kernel

/-! ## The lattice, the switch and the FIFOs -/

/-- Grove 0 runs with macrocell 0 of tenant 5: dedicated term 0 in role 1 with an empty mask, which is 1. -/
def lat0 (mode pol : Nat) : State :=
  ((runs 0 base).setBoth .ltMcown 0 31 22 5).putRec 7 0 0 (BitVec.ofNat 192 (mode * 2 ^ 30 + pol * 2 ^ 28 + 1 * 2 ^ 13))

/-- Combinational L is D; D and T take it; polarity turns L. -/
theorem witness_lattice :
    let all (mode pol : Nat) : Bool × Bool := (lat0 mode pol).mcEval 0 0 ((lat0 mode pol).latVals 0)
    !(lat0 0 0).mcConsumed 0 0 && !(lat0 0 0).lt.held.rd 0 false && (lat0 0 0).running 0 && (lat0 0 0).powered 0
      && (all 0 0).1 && !(all 0 1).1 && all 1 0 == (false, true) && all 2 1 == (true, true) && all 3 0 == (true, true)
      && (nx (exec (.latticeEvaluate 0) (lat0 1 0))).tl.rst.mcq.rd 0 false && (nx (exec (.latticeEvaluate 0) (lat0 1 0))).lt.evalAt.rd 0 0 == 1001
      && goes (exec (.latticeEvaluate 0) (nx (exec (.latticeEvaluate 0) (lat0 1 0)))) (nx (exec (.latticeEvaluate 0) (lat0 1 0))) := by
  decide +kernel

/-- A term with both literals of a slot is 0, and a slot of another owner reads as 0. -/
theorem test_product_terms :
    let s := (base.setBoth .ltIsown 0 31 22 5).putRec 6 0 0 3
    let s1 := (base.setBoth .ltIsown 0 31 22 5).putRec 6 0 0 1
    !s.term 0 5 [true] 0 && s1.term 0 5 [true] 0 && !s1.term 0 6 [true] 0 := by
  decide +kernel

/-- A word of a tag presented at input 32 of tile 0 (its output port 0), which tenant 5 owns; output 9 selects it. -/
def sw0 (tag : Tag) (i sel : Nat) : State :=
  let s := ((base.setBoth .swIn i 31 22 5).putRec 1 0 9 (BitVec.ofNat 192 sel))
  let w : Nat × CWord := (7, ⟨tag, false, 0, 0x123456⟩)
  (s.setSrc (.outp 0) ⟨[w], 0, 0⟩).setSrc (.stage 32) ⟨[w], 0, 0⟩

theorem witness_bark_check :
    let bad := sw0 6 32 32
    let t := nx (exec (.barkCheck 0 0 32 false) bad)
    let good := sw0 5 32 32
    let u := nx (exec (.barkCheck 0 0 32 false) good)
    let port := sw0 5 42 32
    (srcOf 0 32 == some (.outp 0)) && ((bad.srcStage (.outp 0)).head 1000).isSome && bad.powered 0 && srcGrove 0 32 == 0
      && !barkOk (bad.swOwner 0 32) (bad.gateWord 0 32 ⟨6, false, 0, 0x123456⟩) && t.fld .swGbark 0 31 0 == 1 && t.flag .swIn 32 0
      && t.ht.recs == [(.heartwood, mkRec 2 5 1 5 (32 * 2 ^ 14 + 6))] && (t.srcStage (.outp 0)).q == []
      && good.canTake 0 32 && (u.srcStage (.outp 0)).q == [] && (u.stageAt 9).q.length == 1
      && !(sw0 5 32 63).canTake 0 32 && goes (exec (.barkCheck 0 0 32 false) (sw0 5 32 63)) (sw0 5 32 63)
      && goes (exec (.barkCheck 0 0 32 false) (sw0 6 32 63)) (sw0 6 32 63) && bad.selects 0 32 == [9]
      && (srcOf 0 42 == some (.stage 32)) && goes (exec (.barkCheck 0 0 42 false) port) port
      && (nx (exec (.barkCheck 0 0 42 true) port)).fld .swGpar 0 31 0 == 1
      && ((nx (exec (.barkCheck 0 0 42 true) port)).srcStage (.stage 32)).head 1000 == some (parityWord 5) := by
  decide +kernel

/-- The register stage of output 0 of the tile east of tile 0 presents its word at the input that it faces. -/
theorem witness_stage_transfer :
    (((List.range 32).filterMap (fun o => (sinkOf 0 o).map (fun x => (o, x.1, x.2)))).head?).any (fun (o, T, i) =>
      let s := ((base.setBoth .swIn (64 * T + i) 31 22 5).putRec 1 T 9 (BitVec.ofNat 192 i)).setSrc (.stage o) ⟨[(7, ⟨5, false, 0, 3⟩)], 0, 0⟩
      let t := nx (exec (.stageTransfer 0 0 (Fin.ofNat 42 o)) s)
      (srcOf T i == some (.stage o)) && srcGrove T i == T / 64 && s.canTake T i && ((s.stageAt o).head 1000).isSome
        && (t.stageAt o).q == [] && (t.stageAt (64 * T + 9)).q.length == 1) := by
  decide +kernel

/-- FIFO 0 of grove 0, single, of one word, owned by tenant 5, with a word at its tap and these entries. -/
def fifo0 (q : List FEntry) (recd : Nat) : State :=
  let s := base.setBoth .ffOwn 0 31 22 5
  let s := { s with ff := { s.ff with recd := [(0, BitVec.ofNat 32 recd)] } }
  ((s.setFifo 0 ⟨q, 0, 0, 0, false⟩).setSrc (.stage (64 * 24 + 36)) ⟨[(7, ⟨5, false, 0, 9⟩)], 0, 0⟩).beginFc

theorem witness_fifo_write :
    let s := fifo0 [] 0
    let t := nx (exec (.fifoWrite 0 0 []) s)
    let full := fifo0 (List.replicate 6143 ⟨[⟨0, false, 0, 1⟩], false, 0, 3⟩) 0
    let u := nx (exec (.fifoWrite 0 0 []) full)
    !fifoConsumed (s.fifoRec 0) && s.fifoOpen 0 && s.cf.outDone && ((s.stageAt (64 * 24 + 36)).head 1000).map (barkOk (s.ffOwner 0 0)) == some true
      && (s.fifoWas 0).q.length == 0 && (s.fifo 0).acc != 1001 && (s.fifo 0).flushAt != 1001 && fifoCap (s.fifoRec 0) == 6144 && (t.fifo 0).q == [⟨[⟨0, false, 0, 9⟩], false, 0, 1000⟩]
      && (t.stageAt (64 * 24 + 36)).q == [] && (full.fifoWas 0).q.length == 6143 && u.fld .ffDrop 0 31 0 == 1 && u.flag .ffStat 0 0
      && ((u.fifo 0).q.getLast?.map (fun e => (e.gap, e.cnt))) == some (true, 1) := by
  decide +kernel

theorem witness_fifo_read :
    let e : FEntry := ⟨[⟨0, false, 0, 9⟩], false, 0, 3⟩
    let open' (q : List FEntry) (r : Nat) : State := ((fifo0 q r).setBoth .swIn (64 * 24 + 36) 31 22 5).putRec 1 24 9 36
    let s := open' [e] 0
    let stuck := (fifo0 [e] 0).setBoth .swIn (64 * 24 + 36) 31 22 5
    s.fifoHead 0 == some e && s.wouldTake 24 36 ⟨5, false, 0, 9⟩ && ((nx (exec (.fifoRead 0 0 [] []) s)).fifo 0).q == []
      && ((nx (exec (.fifoRead 0 0 [] []) s)).stageAt (64 * 24 + 9)).q.length == 1
      && !stuck.wouldTake 24 36 ⟨5, false, 0, 9⟩ && goes (exec (.fifoRead 0 0 [] []) stuck) stuck
      && goes (exec (.fifoRead 0 0 [] []) (open' [] 0x80000000)) (open' [] 0x80000000) && fifoQuad ((open' [] 0x80000000).fifoRec 0)
      && (nx (exec (.fifoRead 0 0 [] []) (open' [] 0))).ff == (open' [] 0).ff := by
  decide +kernel

theorem witness_flush :
    let s := fifo0 [⟨[⟨0, false, 0, 9⟩], false, 0, 3⟩] 0
    let c := fifo0 [⟨[⟨0, false, 0, 9⟩], false, 0, 3⟩] 0xC0000000
    s.ffOwner 0 0 == 5 && ((nx (exec (.flush (.tenant 5) 0 0) s)).fifo 0).q == [] && ((nx (exec (.flush (.tenant 5) 0 0) s)).fifo 0).markM
      && fifoConsumed (c.fifoRec 0) && goes (exec (.flush (.tenant 5) 0 0) c) (c.ans .ok [])
      && goes (exec (.flush (.tenant 4) 0 0) s) (s.alarm.ans .bark [])
      && (nx (exec (.flush .heartwood 0 0) s)).answer.status == .denied && (nx (exec (.flush .pf0 0 0) s)).fld .msAlarm 0 31 0 == 1 := by
  decide +kernel

/-! ## Cells -/

/-- Words at the six taps of cell-in port 0, padded with IDLE words of their tag. -/
def beat0 (tag : Tag) (ws : List CWord) (s : State) : State :=
  forEach ((ws ++ List.replicate (6 - ws.length) (⟨tag, false, 8, 0⟩ : CWord)).zipIdx) s
    (fun (x : CWord × Nat) s => s.setSrc (.stage ((cinStages 0).getD x.2 0)) ⟨[(7, x.1)], 0, 0⟩)

/-- Tenant 5 may hold 10 cells, of which bank 0 has all its cells free. -/
def cells0 : State := (base.setReg .cxQuota 5 10)

theorem witness_cell_in_beat :
    let s := beat0 5 [⟨5, false, 13, 0x0000A0⟩, ⟨5, false, 1, 0x111111⟩, ⟨5, false, 0, 0x222222⟩] cells0
    let t := nx (exec (.cellInBeat 0) s)
    (s.cinBeat 0).length == 6 && s.powered 0 && !s.closed 0 && s.cf.wenGrove.rd 0 false && s.cf.outDone
      && ((s.cinBeat 0).foldl (fun o w => o.bind (fun s => s.takeWord 0 w)) (some s)).isSome && metaQueue 0xA0 / 32 == 5
      && s.usedWas 5 < s.cellLimit 5 && s.cx.tfree.rd 5 [] == []
      && (t.cin 0).staging.map (fun x => (x.ws, x.closed)) == [([0x111111, 0x222222], false)]
      && (t.cin 0).pkts.map (fun k => (k.words, k.cells)) == [(2, [(none, 2)])] && (t.cin 0).mpend == none && (t.cin 0).cnt == 1
      && (t.stageAt ((cinStages 0).getD 0 0)).q == [] := by
  decide +kernel

/-- A cell-in port with a full staging takes no word of a beat. -/
theorem witness_cell_in_refused :
    let pk : OpenPkt := ⟨0, 5, 0xA0, List.replicate 8 (none, 64), 512, none⟩
    let x (i : Nat) : StCell := ⟨0, i, 5, List.replicate 64 1, 0, 1, none, true⟩
    let s := beat0 5 [⟨5, false, 0, 1⟩] (cells0.setCin 0 ⟨none, [pk], 1, [], (List.range 8).map x, 2, []⟩)
    ((s.cinBeat 0).foldl (fun o w => o.bind (fun s => s.takeWord 0 w)) (some s)).isNone && goes (exec (.cellInBeat 0) s) s := by
  decide +kernel

/-- Tenant 5 holds the packet of cell 70000 and its body cell 3. -/
def held5 : State :=
  (cells0.setLink 70000 ⟨.held, 5, some 3, 200, 0⟩).setLink 3 ⟨.body, 5, none, 0, 0⟩

theorem witness_cell_commands :
    let cmd (tag : Tag) (op : Nat) : State := beat0 tag [⟨tag, false, 14, BitVec.ofNat 24 (op * 2 ^ 20 + 70000)⟩, ⟨tag, false, 14, BitVec.ofNat 24 (32 * tag.toNat)⟩] held5
    let e := nx (exec (.cellInBeat 0) (cmd 5 1))
    let f := nx (exec (.cellInBeat 0) (cmd 5 2))
    let b := nx (exec (.cellInBeat 0) (cmd 6 2))
    ((cmd 5 1).cinBeat 0).length == 6 && (cmd 5 1).cin 0 == cellInZero
      && (e.link 70000).st == .queued && (e.qe.pkts.rd 160 []).map (fun x => (x.head, x.len, x.enq)) == [(70000, 200, 1000)] && e.regs == held5.regs
      && (f.link 70000).st == .free && (f.link 70000).freed == 1001 && (f.cin 0).freeing == [([3], 1001)]
      && b.cx.link == held5.cx.link && b.fld .cxTerr 6 31 0 == 1 && b.fld .cxIndrop 0 31 0 == 1 && b.fld .msAlarm 0 31 0 == 1
      && (b.stageAt ((cinStages 0).getD 0 0)).q == [] := by
  decide +kernel

/-- Port 0 with one open packet of tenant 5 and its one cell, at this state. -/
def staged0 (closed : Option Nat) (grant : Option Handle) (quota : Nat) : State :=
  (base.setReg .cxQuota 5 (BitVec.ofNat 32 quota)).setCin 0 ⟨none, [⟨0, 5, 0xA0, [(grant, 2)], 2, closed⟩], 1, [], [⟨0, 0, 5, [7, 8], 0, 1, grant, closed.isSome⟩], 1, []⟩

theorem witness_bank_grant :
    let s := staged0 none none 10
    let n := staged0 none none 0
    let t := nx (exec .bankGrant n)
    s.requests == [⟨0, 0, 0, 5, 0, false⟩] && s.online 0 && s.bankFree 0 == 65536 && !s.over 5 false && s.cx.grantAt != s.fc + 1
      && n.over 5 false && n.requests == [⟨0, 0, 0, 5, 0, false⟩]
      && t.cx.link == [] && t.fld .cxIndrop 0 31 0 == 1 && t.fld .cxTnobuf 5 31 0 == 1 && (t.cin 0).pkts == [] && (t.cin 0).staging == [] := by
  decide +kernel

theorem witness_packet_complete :
    let s := (staged0 (some 2) (some 9) 10).setLink 9 ⟨.assembling, 5, none, 0, 0⟩
    let t := nx (exec (.packetComplete 0) s)
    (t.cin 0).pkts == [] && (t.link 9) == ⟨.queued, 5, none, 5, 0⟩ && (t.qe.pkts.rd 0xA0 []).map (fun x => (x.head, x.len, x.cells, x.enq)) == [(9, 5, 1, 1000)]
      && t.ms.meter.rd 40 0 == 1 && t.ms.meter.rd 41 0 == 5 && t.regs == s.regs := by
  decide +kernel

theorem witness_cell_write :
    let s := base.setCin 0 ⟨none, [], 1, [], [⟨0, 0, 5, 7 :: 8 :: List.replicate 62 9, 0, 1, some 9, true⟩], 1, []⟩
    let t := nx (exec (.cellWrite 0) s)
    pickPort (s.wheelPort s.tn.wheelIn) (s.cx.ptrWrite.rd 0 0)
        ((s.cx.inp.filter (fun e => e.2.staging.any (fun x => x.readyFor 0))).map (·.1)) == some 0 && bankOf 9 == 0
      && t.cx.words.rd 576 0 == 7 && t.cx.words.rd 577 0 == 8 && t.cx.words.rd 639 0 == 9 && (t.cin 0).staging == [] && t.cx.ptrWrite.rd 0 0 == 1 && t.regs == s.regs := by
  decide +kernel

theorem witness_chain_free :
    let s := held5.setCin 0 { cellInZero with freeing := [([70000, 3], 1000), ([9], 1001)] }
    let o := held5.setCout 0 { cellOutZero with freeing := [([70000], 1000), ([3], 1000)] }
    let n := { held5 with cx := { held5.cx with tfree := [(5, [3])] } }
    let t := nx (exec (.chainFree (.cellIn 0)) s)
    t.link 70000 == ⟨.free, 5, none, 0, 1001⟩ && (t.cin 0).freeing == [([3], 1001), ([9], 1001)]
      && goes (exec (.chainFree (.cellIn 0)) t) t
      && (nx (exec (.chainFree (.cellOut 0)) o)).link 70000 == ⟨.free, 5, none, 0, 1001⟩
      && (nx (exec (.chainFree (.cellOut 0)) o)).link 3 == ⟨.free, 5, none, 0, 1001⟩ && ((nx (exec (.chainFree (.cellOut 0)) o)).cout 0).freeing == []
      && !n.cx.link.any (fun e => e.1 / 65536 == bankOf 3 && e.2.owner.toNat == 5 && e.2.freed == n.fc + 1)
      && (nx (exec (.chainFree (.tenant 5)) n)).link 3 == ⟨.free, 5, none, 0, 1001⟩ && (nx (exec (.chainFree (.tenant 5)) n)).cx.tfree == [] := by
  decide +kernel

/-- A status record of tenant 5 waits at NI 88. -/
def status0 (s : State) : State := { s with cx := { s.cx with recs := [(5, [⟨0, 1, 0x111111, 0x222222, false⟩])] } }

theorem witness_status_records :
    let ok := status0 (inj 88 5 0 1 9 (rte 88 0 base))
    let poor := { ok with nc := { ok.nc with level := [(injKey 88 0, 0)] } }
    let t := nx (exec (.statusRecordSend 5) (status0 base))
    let u := nx (exec (.statusRecordSend 5) ok)
    let q : NocReq := base.recReq 5 ⟨0, 1, 0x111111, 0x222222, false⟩
    base.localRefusal 88 q == some .unmapped && t.cx.recs.rd 5 [] == [] && t.fld .cxTerr 5 31 0 == 1
      && ok.localRefusal 88 q == none && ok.sealedRec == none && ok.recFit q && ok.bucketOk 88 q && u.cx.recs.rd 5 [] == [] && (u.nocOut 88).length == 1 && q.addr == 0x711000
      && u.regs == ok.regs && !poor.bucketOk 88 q && poor.sealedRec == none && goes (exec (.statusRecordSend 5) poor) poor := by
  decide +kernel

/-- Cell-out port 0 with a packet of five bytes in cell 9, selected or in delivery; its taps are owned by tenant 5 and lead on, or not. -/
def out0 (lead : Bool) (slot : Bool) (ready : List (Option W24)) : State :=
  let o : OutPkt := ⟨160, 5, 5, ready, 0, if ready.isEmpty then some 9 else none, if ready.isEmpty then [] else [9], false⟩
  let s := forEach (List.range 6) base (fun k s => (s.setBoth .swIn (64 * 34 + 36 + k) 31 22 5).putRec 1 34 k (BitVec.ofNat 192 (if lead then 36 + k else 63)))
  let s := { s with cx := { s.cx with words := [(576, 0x414243), (577, 0x444500)] } }
  s.setCout 0 (if slot then ⟨some (999, o), 0, none, []⟩ else ⟨none, 0, some o, []⟩)

theorem witness_cell_out :
    let s := out0 true true []
    let t := nx (exec (.cellOutBeat 0 []) s)
    let d := out0 true false [some 0x414243, some 0x444500]
    let u := nx (exec (.cellOutBeat 0 []) d)
    let e := out0 true false [some 0x414243]
    let r := nx (exec (.cellRead 0 ⟨[3], [], true, false⟩) s)
    (t.cout 0).slot == none && (t.cout 0).cur.isSome && (t.cout 0).slotFree == 1001 && (t.stageAt (64 * 34)).q.length == 1
      && goes (exec (.cellOutBeat 0 []) (out0 false true [])) (out0 false true [])
      && (u.cout 0).cur == none && (u.cout 0).freeing == [([9], 1001)] && u.ms.meter.rd 42 0 == 1 && u.ms.meter.rd 43 0 == 5
      && ((u.stageAt (64 * 34 + 1)).head 1001).map (fun w => (w.code, w.data)) == some (3, 0x444500)
      && goes (exec (.cellOutBeat 0 []) e) e
      && (s.wantsCell 0 (s.cout 0)).isSome && s.badUnits 9 [] == [] && (r.cout 0).slot.map (fun x => (x.2.ready, x.2.next, x.2.cellsRead))
          == some ([some 0x414243, some 0x444500], none, [9])
      && pickPort (s.wheelPort s.tn.wheelOut) (s.cx.ptrRead.rd 0 0) ((s.cx.outp.filter (fun e => (s.wantsCell 0 e.2).isSome)).map (·.1)) == some 0
      && r.fld .cxEcc 0 31 16 == 2 && r.cx.rdAt.rd 0 0 == 1001 := by
  decide +kernel

/-- Bytes 3 to 6 of cell 3, which tenant 5 holds: read, written, and refused to tenant 6. -/
theorem witness_direct_window :
    let s := { held5 with cx := { held5.cx with words := [(192, 0x414243), (193, 0x444546)] } }
    let off := s.setBit .pwDompwr 2 16 false
    let boot := off.setFld .cfStat 0 31 28 1
    let a (w : Bool) : Access := ⟨w, 192 * 3 + 4, 4, if w then [0x04030201] else []⟩
    let x : UnitHealth := ⟨[0], []⟩
    let t := nx (exec (.directWindowAccess (.tenant 5) (a true) x) s)
    !s.bankShut 3 && off.bankShut 3 && off.directHeld 580 4 == none && goes (exec (.directWindowAccess (.tenant 5) (a false) x) off) (off.ans .fenced [0])
      && (boot.directHeld 580 4).isSome && (nx (exec (.directWindowAccess (.tenant 5) (a false) x) boot)).nc.directs == [⟨.tenant 5, a false, x, false⟩]
      && s.directHeld 580 4 == none && t.fld .cxEcc 0 31 16 == 1
      && s.reaches 5 3 && !s.reaches 6 3 && s.badUnits 3 [] == []
      && (nx (exec (.directWindowAccess (.tenant 5) (a false) x) s)).answer == ⟨.ok, [0x00004645]⟩
      && goes (exec (.directWindowAccess (.tenant 6) (a true) x) s) (s.barkAns 0)
      && t.answer == ⟨.ok, []⟩ && t.cellByte 3 4 == 1 && t.cellByte 3 7 == 4 && t.cellByte 3 3 == 0x44 && t.cellByte 3 8 == 0 := by
  decide +kernel

/-! ## Queues -/

/-- Tenant 5's bough 7 on port 0 with strict-priority queue 160 attached, buckets open, and one packet in the queue. -/
def queue0 : State :=
  let s := (base.setReg .qeBcfg 7 (BitVec.ofNat 32 (5 * 2 ^ 22 + 4))).setReg .qeQcfg 160 (BitVec.ofNat 32 (2 ^ 27 + 7 * 2 ^ 16 + 1))
  let s := ((s.setReg .qeBcir 7 0x10000).setReg .qeBcburst 7 1000).setReg .qeBpir 7 0x10000
  let s := ((s.setReg .qeBpburst 7 1000).setReg .qeQrate 160 0x10000).setReg .qeQburst 160 1000
  State.beginFc { s with qe := { s.qe with pkts := [(160, [⟨9, 100, 2, 990, 0⟩])], refill := 255 } }

theorem witness_queue_select :
    let s := queue0
    let t := nx (exec (.queueSelect 0 none) s)
    let z := s.atStart
    let bad := nx (exec (.queueSelect 0 (some 160)) s)
    s.maySelect 0 && z.portBoughs 0 == [7] && z.boughEligible true 7 && (z.boughQueues 7 0 8).filter z.queueEligible == [160]
      && (z.headPkt 160).any (fun x => (s.qe.pkts.rd 160 []).contains x) && s.qe.day == [] && s.qe.refillAt != s.fc + 1
      && (List.range 64).all (fun h => s.fld .qeHcfg h 31 30 == 0)
      && (dwrr 780 [7] [7] (fun b => ((z.queuePick 0 b).map (fun x => z.headCost 0 x.1)).getD 0)
        (fun b => 256 * z.fld .qeBcfg b 7 0) 0 (z.qe.ptr.rd 0 0) z.qe.deficit).isSome
      && t.qe.pkts.rd 160 [] == [] && (t.cout 0).slot == some (1000, ⟨160, 5, 100, [], 0, some 9, [], false⟩)
      && z.bOpen (.queue 160) && t.reg .qeQlvl 160 == BitVec.ofInt 32 (-100) && t.reg .qeBplvl 7 == BitVec.ofInt 32 (-100) && t.reg .qeBclvl 7 == BitVec.ofInt 32 (-100)
      && t.qe.sel == [⟨160, 7, 0, 10⟩] && bad.flag .qeQcfg 160 31 && bad.qe == s.qe && bad.ht.recs.length == 1 := by
  decide +kernel

theorem witness_refill :
    let s := (queue0.setReg .qeQlvl 160 (BitVec.ofInt 32 (-1))).beginFc
    let t := nx (exec .bucketRefill s)
    s.regs.rising 0 && s.bOpen (.queue 160) && s.settled (.queue 160) == (s.level (.queue 160), s.resid (.queue 160)) && t.level (.queue 160) == 0 && t.qe.refillAt == 1001
      && (nx (exec .bucketRefill (queue0.setReg .qeQlvl 160 1000).beginFc)).level (.queue 160) == 1000
      && (nx (exec .bucketRefill (queue0.setReg .qeQrate 160 0))).level (.queue 160) == 0 && !(queue0.setReg .qeQrate 160 0).bOpen (.queue 160) := by
  decide +kernel

theorem witness_forgive :
    let s := (((queue0.setReg .qeQlvl 160 (BitVec.ofInt 32 (-5))).setReg .qeBclvl 7 (BitVec.ofInt 32 (-6))).setReg .qeBplvl 7 7).beginFc
    let t := nx (exec (.forgive (.tenant 5) ⟨.qeQrate, 160⟩ 0x80020000) s)
    t.level (.queue 160) == 0 && (t.bucketDay (.queue 160)).acts == [.forgive] && t.bRate (.queue 160) == 0x20000 && t.answer == ⟨.ok, []⟩
      && (nx (exec (.forgive .heartwood ⟨.qeBcir, 7⟩ 0x80010000) s)).level (.cir 7) == 0
      && (nx (exec (.forgive .heartwood ⟨.qeBpir, 7⟩ 0x80010000) s)).level (.pir 7) == 7
      && goes (exec (.forgive (.tenant 6) ⟨.qeQrate, 160⟩ 0x80020000) s) (s.alarm.ans .bark []) := by
  decide +kernel

theorem witness_queue_registers :
    let s := queue0.setReg .qeBcfg 8 (BitVec.ofNat 32 (6 * 2 ^ 22 + 4))
    let t := nx (exec (.queueAttach (.tenant 5) 161 (BitVec.ofNat 32 (2 ^ 27 + 7 * 2 ^ 16 + 3))) s)
    let u := nx (exec (.queueAttach (.tenant 5) 161 (BitVec.ofNat 32 (2 ^ 27 + 8 * 2 ^ 16 + 3))) s)
    let b := nx (exec (.boughChange .heartwood 7 (BitVec.ofNat 32 (5 * 2 ^ 22 + 3 * 2 ^ 14 + 4))) s)
    let h := nx (exec (.histogramClear .pf0 3 0x800) (((s.setReg .qeHbin 48 9).setReg .qeHbin 64 9).setReg .qeHmax 3 9))
    t.queueBough 161 == some 7 && t.fld .qeQcfg 161 7 0 == 3 && t.answer == ⟨.ok, []⟩
      && u.answer == ⟨.denied, []⟩ && u.queueBough 161 == none && u.fld .msAlarm 0 31 0 == 0
      && s.regs.rising 0 && s.qe.refillAt != s.fc + 1 && s.qe.sel == [] && b.queueBough 160 == none && b.fld .qeBcfg 7 20 14 == 3 && b.answer == ⟨.ok, []⟩
      && h.reg .qeHbin 48 == 0 && h.reg .qeHmax 3 == 0 && h.reg .qeHbin 64 == 9 := by
  decide +kernel

/-! ## Lanes -/

/-- Lane 0 enabled as given (rate 0, one lane unless said), with a group PLL of its family, its PHY locked and aligned. -/
def lane0 (cfg : Nat) : State :=
  let s := (base.setReg .lnCfg 0 (BitVec.ofNat 32 (2 ^ 31 + cfg + 1518))).setReg .lnStat 0 0xE0000000
  { s with ln := { s.ln with txOn := true } }

theorem witness_lane_enable :
    let w : Word := BitVec.ofNat 32 (2 ^ 31 + 2 ^ 20 + 1518)
    let t := nx (exec (.laneEnable .pf0 0 w) base)
    !base.lnEn 0 && base.enableOk 0 w.toNat && t.lnEn 0 && t.fld .lnCfg 0 13 0 == 1518 && t.pySt 0 == 1 && t.answer == ⟨.ok, []⟩
      && !base.enableOk 0 (2 ^ 31 + 7 * 2 ^ 28 + 1518) && goes (exec (.laneEnable .pf0 0 (BitVec.ofNat 32 (2 ^ 31 + 7 * 2 ^ 28 + 1518))) base) (base.ans .denied [])
      && goes (exec (.laneEnable .pf0 0 (BitVec.ofNat 32 (2 ^ 31 + 1000))) t) (t.ans .denied [])
      && goes (exec (.laneEnable (.tenant 3) 0 w) base) (base.alarm.ans .bark []) := by
  decide +kernel

theorem witness_training_and_eye :
    let s := lane0 (1 * 2 ^ 22)
    let t := nx (exec (.trainingStart .pf0 0 0x80000200) s)
    let u := nx (exec (.trainingEnd 0 1 [0x01020304]) t)
    let v := nx (exec (.trainingEnd 0 2 [0x01020304]) t)
    let e := nx (exec (.eyeStart .pf0 0 0x80000020) s)
    let d := nx (exec (.eyeDone 0 1 2 3) e)
    !s.trainBad 0 && t.flag .lnTrain 0 30 && t.fld .lnTrain 0 15 0 == 0x200 && t.answer == ⟨.ok, []⟩
      && t.trainBad 0 && goes (exec (.trainingStart .pf0 0 0x80000200) t) (t.ans .denied [])
      && !u.flag .lnTrain 0 30 && u.reg .lnTxeq 0 == 0x01020304 && u.flag .lnStat 0 5 && u.fld .lnTrain 0 29 28 == 1
      && v.reg .lnTxeq 0 == t.reg .lnTxeq 0 && v.fld .lnTrain 0 29 28 == 2
      && s.lnK 0 == 1 && t.ln.trainAt.rd 0 0 == 1000 && goes (exec (.trainingEnd 0 3 []) t) t
      && (nx (exec (.trainingEnd 0 3 []) (at' t (1000 + 1600000 * 0x200)))).fld .lnTrain 0 29 28 == 3
      && e.flag .lnEyectl 0 30 && e.fld .lnEyectl 0 7 0 == 0x20 && (nx (exec (.eyeStart .pf0 0 0x80000020) e)).answer == ⟨.denied, []⟩
      && d.reg .lnEye 0 == 1 && d.reg .lnEye 1 == 2 && d.reg .lnEye 2 == 3 && !d.flag .lnEyectl 0 30 && d.flag .lnStat 0 2 := by
  decide +kernel

theorem witness_lane_status :
    let s := (lane0 (2 ^ 20)).setFld .lnStat 0 28 27 2
    let p := nx (exec (.pllLockChange 3 true) s)
    let c := nx (exec (.calibrationDone 0) (s.setBit .lnStat 0 29 false))
    let l := nx (exec (.lockChange 0 true false) s)
    let n := nx (exec (.laneCounterSnap .pf0 0 0x80000000) ((((s.lnCount 0 5 7).lnCount 1 5 8).beginFc).lnCount 0 5 1))
    p.flag .lnGcfg 3 30 && (p.dp.asserting.map (·.1)) == [643] && (s.portOf 0).isSome && c.flag .lnStat 0 29
      && l.flag .lnStat 0 31 && !l.flag .lnStat 0 30 && !l.flag .lnStat 0 7 && l.flag .lnStat 0 6 && l.pySt 0 == 1
      && n.reg .lnCnt 5 == 7 && n.ln.live.rd 5 0 == 1 && n.ln.live.rd 37 0 == 8 && n.answer == ⟨.ok, []⟩ := by
  decide +kernel

/-- A frame of 60 bytes and its FCS, with this EtherType and first payload bytes. -/
def frame0 (ethertype : Nat) (body : List Byte) : RxFrame :=
  let l := padTo 60 (toBE 6 0x010203040506 ++ toBE 6 0x0A0B0C0D0E0F ++ toBE 2 ethertype ++ body)
  ⟨l ++ fcsOf l, false, false, [], 0, 0, []⟩

/-- Some output watches the lane. -/
def watch0 (s : State) : State := s.putRec 1 (laneEdge 0).1 9 (BitVec.ofNat 192 (laneEdge 0).2)

theorem witness_receive_frame :
    let f := frame0 0x0800 [1, 2, 3]
    let s := watch0 (lane0 (2 ^ 21))
    let t := nx (exec (.receiveFrame 0 f) s)
    let u := nx (exec (.receiveFrame 0 f) (lane0 0))
    s.rxOpen 0 f && !s.isPyril 0 f && s.laneWatched 0 && macCtl f.bytes == 0 && s.rxCauses 0 f == [] && f.bytes.length == 64
      && (t.ln.rx.rd 0 []).length == 5 && t.ln.live.rd 0 0 == 1
      && ((t.ln.rx.rd 0 [])[0]?.map (fun r => r.map (fun b => b.map (fun w => w.code.toNat)))) == some [[13, 13, 13, 13, 13, 8]]
      && !(lane0 0).laneWatched 0 && u.ln.rx == [] && u.ln.live.rd 3 0 == 1 := by
  decide +kernel

theorem witness_raw_lanes :
    let s := watch0 (lane0 (2 ^ 27))
    let s1 := { s with ln := { s.ln with relock := [(0, true)] } }
    let f := watch0 (lane0 (2 ^ 27 + 2 ^ 26))
    let t := nx (exec (.rawReceive 0 (.beat [1, 2, 3, 4, 5, 6]) 0 []) s1)
    let u := nx (exec (.rawReceive 0 (.codeword (List.replicate 215 7) ⟨some 3, 2⟩) 0 []) f)
    s.lnRaw 0 && s.groupOn 0 && s.flag .lnStat 0 31 && s.rxUsed 0 == 0 && s.ln.rxGap.rd 0 0 == 0
      && (t.ln.rx.rd 0 []).length == 2 && !t.ln.relock.rd 0 false && (nx (exec (.rawReceive 0 (.beat [1, 2, 3, 4, 5, 6]) 0 []) s)).ln.rx.rd 0 []
        == [[[1, 2, 3, 4, 5, 6].map (fun w => opWord codeDATA w)]]
      && (u.ln.rx.rd 0 []).length == 37 && u.ln.live.rd 0 0 == 1 := by
  decide +kernel

/-- A beat of the operator's words at the edge outputs that face lane 0. -/
def txBeat (ws : List CWord) (s : State) : State :=
  forEach ((ws ++ List.replicate (6 - ws.length) opIdle).zipIdx) s (fun (x : CWord × Nat) s => s.setSrc (.stage ((laneOuts 0).getD x.2 0)) ⟨[(7, x.1)], 0, 0⟩)

theorem witness_transmit_frame :
    let s := txBeat [opWord 7 0x414243] (lane0 0)
    let x := nx (exec (.transmitFrame 0 0 0 false []) s)
    let t := nx (exec (.transmitFrame 0 1 0 false []) x)
    let b := padTo 60 [0x41, 0x42, 0x43]
    ((s.txRow 0 []).1.map (fun l => l.length)) == some 1 && (s.txRow 0 []).2 == s && s.txOpen 0 && s.lnK 0 == 1 && s.tx 0 == txZero && codeOpens 7 && codeEnds 7
      && !s.closed 64 && 64 ≤ s.fld .lnCfg 0 13 0 && x.tx 0 == { txZero with q := [⟨0x800000, [opWord 7 0x414243], some true, 0, none⟩] } && x.line == s.line
      && (laneOuts 0).all (fun k => ((x.stageAt k).head x.fc).isNone) && !x.pyDue 0
      && t.line == (b ++ fcsOf b).map BitVec.toNat && t.line.length == 64 && t.ln.live.rd 5 0 == 1 && t.tx 0 == txZero
      && (x.stageAt ((laneOuts 0).getD 0 0)).q == [] := by
  decide +kernel

theorem witness_raw_transmit :
    let s := txBeat ((List.range 6).map (fun i => opWord codeDATA (i + 1))) (lane0 (2 ^ 27))
    let n := (lane0 (2 ^ 27)).setReg .lnRawfill 0 0x00ABCDEF
    let x := nx (exec (.rawTransmit 0 false []) s)
    let u := nx (exec (.rawTransmit 0 true []) n)
    (s.txRow 0 []).1.isSome && x.line == s.line && (x.tx 0).ws.length == 6 && (s.tx 0).used + ((s.tx 0).ws.length + 5) / 6 + 1 ≤ 1024
      && (nx (exec (.rawTransmit 0 true []) x)).line == [1, 2, 3, 4, 5, 6] && (laneOuts 0).all (fun k => ((n.stageAt k).head n.fc).isNone)
      && !n.closed 64 && n.lnEn 0 && n.lnRaw 0 && n.groupOn 0 && n.ln.txOn && !n.flag .lnCfg 0 26 && n.lnK 0 == 1
      && u.line == List.replicate 6 0xABCDEF && u.ln.live.rd 6 0 == 1 := by
  decide +kernel

/-! ## The time base -/

theorem witness_time_base :
    let s := { base with tb := { base.tb with sec := 5, ns := 7, frac := 0 } }
    let t := nx (exec (.timeBaseSnap .pf0 0x80000000) s)
    let w := (s.setReg .msTbwsl 0 9).setReg .msTbwns 0 3
    let u := nx (exec (.timeBaseSet .pf0 0x40000000) w)
    let a := nx (exec (.timeBaseAdj .pf0 0x30000000) w)
    (t.reg .msTbrsl 0) == 5 && t.reg .msTbrns 0 == 7 && t.answer == ⟨.ok, []⟩ && u.tb.setTo == some w.staged && a.tb.adj == -(w.staged : Int)
      && w.staged < 2 ^ 48 * sec32 && u.tb.adj == 0 && u.tickTime.now32 == w.staged && u.tickTime.tb.setTo == none
      && goes (exec (.timeBaseSet (.tenant 1) 0x40000000) w) (w.alarm.ans .bark []) := by
  decide +kernel

theorem witness_pps :
    let s := (base.setReg .msPpscfg 0 0xC0000001)
    let s1 := { s with tb := { s.tb with sec := 5, ns := 0, frac := 0 } }
    let hi := { s with tb := { s.tb with ppsOut := true, ppsAt := 0 }, fc := 1600 }
    let c := nx (exec .ppsInCapture s1)
    (if s1.atSecond then (nx (exec (.ppsOutPulse true) s1)).tb.ppsOut else true)
      && !(nx (exec (.ppsOutPulse false) hi)).tb.ppsOut && (nx (exec (.ppsOutPulse false) { hi with fc := 1599 })).tb.ppsOut
      && c.reg .msPpsisl 0 == 5 && c.flag .msTbcmd 0 0 && (c.dp.asserting.map (·.1)) == [724] && goes (exec .ppsInCapture c) c := by
  decide +kernel

/-! ## Pyril -/

/-- A Pyril lane 0 with stream 4 on, in this state, its HELLO heard in fc 1. -/
def pyril0 (st granted : Nat) : State :=
  let s := (watch0 (lane0 (2 ^ 20))).setFld .lnStat 0 28 27 st
  let s := (s.setReg .lnPys 4 (BitVec.ofNat 32 (2 ^ 31 + granted))).setPy 0 ⟨none, none, 7, 1, 0, false⟩
  { s with ln := { s.ln with changed := [(4, true)] } }

theorem witness_hello_send :
    let s := (pyril0 2 3).setPy 0 ⟨none, none, 7, 1, 0, true⟩
    let t := nx (exec (.helloSend 0) s)
    let c := nx (exec (.creditSend 0) s)
    s.pyOn 0 && s.atBoundary 0 && (s.py 0).first && !(t.py 0).first && s.laneStreams 0 == [4] && t.line.length == 64 && (t.py 0).helloAt == 1000 && (t.py 0).hseq == (s.py 0).hseq + 1
      && !t.ln.changed.rd 4 false && goes (exec (.helloSend 0) t) t && (t.line.drop 14).take 1 == [0x13]
      && (c.line.drop 14).take 2 == [0x12, 1] && !c.ln.changed.rd 4 false && goes (exec (.creditSend 0) c) c := by
  decide +kernel

theorem witness_hello_receive :
    let hello := frame0 0x88B5 ([0x13, 1] ++ toBE 2 9 ++ toBE 4 0 ++ toBE 2 0)
    let credit := frame0 0x88B5 ([0x12, 1] ++ List.replicate 6 0 ++ [4, 0] ++ toBE 4 77)
    let s := pyril0 1 3
    let t := nx (exec (.helloReceive 0 hello) s)
    let up := pyril0 2 3
    let late := { up with fc := 4800001 }
    let v := nx (exec (.helloTimeout 0) late)
    s.pyTakes 0 hello 3 && fcsGood hello.bytes && helloValid (pyBody hello) && be16 (pyBody hello) 8 == 0
      && t.pySt 0 == 2 && (t.py 0).heard == 1000 && (t.py 0).peerEpoch == some 9 && (t.py 0).peerSa == some 0x0A0B0C0D0E0F
      && v.pySt 0 == 1 && v.fld .lnPyl 0 15 0 == 1 && v.flag .lnStat 0 3 && goes (exec (.helloTimeout 0) { up with fc := 4800000 }) { up with fc := 4800000 }
      && s.pyTakes 0 credit 2 && goes (exec (.creditReceive 0 credit) s) s && up.streamOn 0 4
      && (nx (exec (.creditReceive 0 credit) up)).ln.peerGranted.rd 4 0 == 77 := by
  decide +kernel

theorem witness_pyril_data :
    let cmd : Nat := 4 * 2 ^ 13 + 1
    let up := pyril0 2 3
    let sending (g : Word) (c : Nat) : State :=
      { up with ln := { up.ln with tx := [(0, { txZero with q := [⟨c, [opWord 7 0x414243], some true, 0, none⟩] })], peerGranted := [(4, g)], changed := [] } }
    let t := nx (exec (.pyrilDataSend 0 1 false []) (sending 1 cmd))
    let bad := nx (exec (.pyrilDataSend 0 1 false []) (sending 1 (5 * 2 ^ 13 + 1)))
    let f := frame0 0x88B5 ([0x11, 4, 0, 0] ++ toBE 2 (0x3FF * 64) ++ [0, 0, 9, 9])
    let data := up.setReg .lnPys 4 (BitVec.ofNat 32 (2 ^ 31 + 0x3FF * 2 ^ 18 + 3))
    let none' := up.setReg .lnPys 4 (BitVec.ofNat 32 (2 ^ 31 + 0x3FF * 2 ^ 18))
    let u := nx (exec (.pyrilDataReceive 0 f 0) none')
    (sending 1 cmd).txOpen 0 && (laneOuts 0).all (fun k => ((up.stageAt k).head 1000).isNone) && !(sending 1 cmd).pyDue 0 && pyCmdOk cmd && (sending 1 cmd).avail 4 == 1
      && bad.tx 0 == txZero && bad.ln.live.rd 29 0 == 1 && bad.ln.sent == [] && !up.streamOn 0 5
      && t.ln.sent.rd 4 0 == 1 && (t.line.drop 14).take 2 == [0x11, 4] && goes (exec (.pyrilDataSend 0 1 false []) (sending 0 cmd)) (sending 0 cmd)
      && data.rxOpen 0 f && data.isPyril 0 f && pyType (pyBody f) == 1 && pyVer (pyBody f) == 1 && be16 (pyBody f) 4 / 64 == 0x3FF
      && (nx (exec (.pyrilDataReceive 0 f 0) data)).ln.recv.rd 4 0 == 1 && u.ln.recv == [] && u.ln.live.rd 28 0 == 1 := by
  decide +kernel

/-- Credit is added to a stream that is on, and counted away for one that is not. -/
theorem witness_credit_return :
    let s (stream count : Nat) : State := txBeat [opWord codeCTRL (1 * 2 ^ 20 + stream * 2 ^ 12 + count)] (pyril0 2 3)
    let t := nx (exec (.creditReturn 0 []) (s 4 9))
    let u := nx (exec (.creditReturn 0 []) (s 5 9))
    let v := nx (exec (.creditReturn 0 []) (s 4 0))
    (s 4 9).txOpen 0 && ((s 4 9).txRow 0 []).1.isSome && !((s 4 9).tx 0).inFrame && !((s 4 9).tx 0).skip && (s 4 9).streamOn 0 4 && !(s 5 9).streamOn 0 5
      && t.ln.granted.rd 4 0 == 9 && t.ln.changed.rd 4 false && u.ln.granted == [] && u.ln.live.rd 7 0 == 1 && v.ln.live.rd 7 0 == 1 := by
  decide +kernel

/-! ## The network on chip -/

/-- The manual's routes, from node 84 to node 37 and back (R339). -/
theorem example_R339_routes : dimRoute 84 37 = 0x3FFFF491249#42 ∧ dimRoute 37 84 = 0x3FFFF0036DB#42 := by
  decide +kernel

/-- A read of 8 words at node d by heartwood, tag 5, priority 1. -/
def rd0 (d addr words : Nat) : NocReq := ⟨.heartwood, 5, false, 1, d, false, addr, words, [], false, false⟩

/-- A request waits at NI 84, with or without its route, and its injection entry filled. -/
def noc0 (q : NocReq) (s : State) : State := (inj 84 5 37 1 4 (rte 84 37 s)).setWait 84 [q]

theorem witness_noc_request_issue :
    let s := noc0 (rd0 37 0 8) base
    let q := { rd0 37 0 8 with htw := false }
    let t := nx (exec (.nocRequestIssue 0) s)
    let m := noc0 (rd0 37 2 8) base
    let e := { s with nc := { s.nc with level := s.nc.level.wr (injKey 84 0) 0 0 } }
    let z := { s with tn := { s.tn with wheelNi := [(256 * 84 + s.wheelPos 256, some 5)] } }
    let v := nx (exec (.nocRequestIssue 0) z)
    s.nocWait 84 == [q] && s.nc.newMode == none && s.sealTurn 84 == none && z.sealTurn 84 == some 5 && z.localRefusal 84 q == none
      && !z.heldForWake q && z.underShare 84 q && z.creditOk 84 q && v.nc.level == z.nc.level && (v.nocOut 84).map (·.sealed) == [true] && v.sealTurn 84 == none
      && s.localRefusal 84 q == none && !s.heldForWake q && s.underShare 84 q && s.creditOk 84 q && s.bucketOk 84 q
      && t.nocWait 84 == [] && (t.nocOut 84).map (fun o => (o.req, o.sent, o.dead)) == [(q, some 1000, false)]
      && s.injEntry 84 5 37 1 == some (injKey 84 0) && t.nc.level.rd (injKey 84 0) 0 == 3
      && m.localRefusal 84 (rd0 37 2 8) == some .denied && (nx (exec (.nocRequestIssue 0) m)).answer.status == .denied
      && (nx (exec (.nocRequestIssue 0) m)).nocWait 84 == []
      && !e.bucketOk 84 q && goes (exec (.nocRequestIssue 0) e) e := by
  decide +kernel

theorem witness_source_refusals :
    let s := rte 84 37 base
    s.localRefusal 84 (rd0 38 0 1) == some .unmapped && s.rteLive 84 37 && s.localRefusal 84 (rd0 37 0 65) == some .denied
      && s.localRefusal 84 (rd0 37 252 2) == some .denied && s.injEntry 84 5 37 1 == none && s.localRefusal 84 (rd0 37 252 1) == some .denied
      && (inj 84 5 37 1 4 s).localRefusal 84 (rd0 37 252 1) == none := by
  decide +kernel

/-- The flit of a request header from 84 to 37, at router 0's input 5 of the request plane. -/
def hdr0 (op : Nat) (route : BitVec 42) : Hdr := ⟨1, 84, 37, route, 5, false, false, BitVec.ofNat 2 op, 7, 7, 0, .ok⟩
def flit0 : Flit := ⟨hdr0 0 (dimRoute 84 37), true, true, 1, false, false, [], []⟩
def net0 : State :=
  let r := routerOf 84
  { base with nc := { base.nc with rbuf := [(bufKey false r 5 1, [(990, flit0)])] } }

theorem witness_flit_forward :
    let r : Fin 64 := ⟨routerOf 84 % 64, by decide⟩
    let code := routeCode (dimRoute 84 37).toNat 0
    let o : Fin 6 := ⟨code % 6, by decide⟩
    let s := net0
    let k0 := 8 * r.val + o.val
    let r' := (linkTo r.val o.val).getD 0
    let t := nx (exec (.flitForward false r o .none) s)
    let u := nx (exec (.flitForward false r o ⟨[], [], true⟩) s)
    let b : Flit := { flit0 with head := false, data := [1, 2] }
    let x : FlitUpset := ⟨[0], [1], false⟩
    o.val < 4 && (linkTo r.val o.val).isSome && s.chooseFlit false r.val o.val == some (5, 1, flit0) && s.nc.fwd.rd k0 0 == 0
      && t.nc.rbuf.rd (bufKey false r.val 5 1) [] == []
      && t.nc.rbuf.rd (bufKey false r' (entryOf o.val) 1) [] == [(1001, { flit0 with hdr := flit0.hdr.shifted })]
      && (nx (exec (.flitForward false r o .none) t)).nc == t.nc
      && u.nc.alarm && u.nc.rbuf == [] && u.nc.ej == [] && !s.flag .ncMode 0 28 && (s.struck b x).psn && !(s.struck b ⟨[0], [], false⟩).psn
      && !s.nc.purge.rd (bufKey false r' (entryOf o.val) 1) false := by
  decide +kernel

/-- A read of heartwood waits in the queue of tile node 1. -/
def served0 (s : State) : State :=
  { s with nc := { s.nc with tq := [(1, [⟨{ hdr0 0 0 with dst := 1, len := 0, addr := 0x40 }, [], false, false, 999⟩])] } }

theorem witness_noc_serve :
    let s := served0 (rte 1 84 base)
    let u := nx (exec (.nocServe 1 []) (served0 base))
    let t := nx (exec (.nocServe 1 []) s)
    let f := served0 ((rte 1 84 base).setReg .pwDomfen 0 2)
    let q : TReq := ⟨{ hdr0 1 0 with dst := 1, len := 1, addr := 0x400008, htw := true }, [3, 4], false, false, 999⟩
    let w := rte 1 84 { base with nc := { base.nc with tq := [(1, [q])] } }
    let a := nx (exec (.nocServe 1 []) w)
    let b := State.svcMove 1 a
    let v := nx (exec (.nocServe 1 []) f)
    s.nextServe 1 == some 0 && s.rteLive 1 84 && !(served0 base).rteLive 1 84
      && u.nc.tq == [] && u.nc.rbuf == [] && t.nc.tq == [] && t.nc.rbuf.length == 1
      && (t.nc.rbuf.flatMap (fun (e : Nat × List (Nat × Flit)) => e.2.map (fun x => (x.2.hdr.dst.toNat, x.2.hdr.op.toNat)))).head? == some (84, 2)
      && w.turnedAway 1 q == none && w.moves 1 q.hdr == some (.tile 64 2) && a.nc.svc.rd 1 none == some ⟨q, 2, 1, [], [], .ok⟩ && a.tl == (w.setTmem 64 2 3).tl
      && (b.nc.svc.rd 1 none).any (fun v => v.done == v.units) && State.svcMove 1 b == ((b.setSvc 1 none).ans .ok []).respond 1 q .ok []
      && !s.heldByFifo 1 ⟨{ hdr0 0 0 with dst := 1, len := 0, addr := 0x40 }, [], false, false, 999⟩ && f.targetFenced 1 && v.regs == f.regs
      && ((v.nc.rbuf.flatMap (fun (e : Nat × List (Nat × Flit)) => e.2.map (fun x => x.2.hdr.status))).head? == some .fenced) := by
  decide +kernel

/-- Heartwood's read 7 is outstanding at NI 84, and this response stands there. -/
def wait84 (dead psn : Bool) : State :=
  let h := { hdr0 2 0 with src := 37, dst := 84, len := 0 }
  { base with nc := { base.nc with
      outst := [(84, [⟨7, rd0 37 0 1, some 1000, false, dead⟩])]
      arrived := [(84, [⟨h, [99], psn, 1000⟩])] } }

theorem witness_noc_response :
    let t := nx (exec (.nocResponseArrive 0) (wait84 false false))
    let p := nx (exec (.nocResponseArrive 0) (wait84 false true))
    let d := nx (exec (.nocResponseArrive 0) (wait84 true false))
    let late := at' (wait84 false false) (1000 + 1048576)
    let x := nx (exec (.nocTimeout 0 7) late)
    t.answer == ⟨.ok, [99]⟩ && t.nocOut 84 == [] && t.nc.arrived.rd 84 [] == [] && p.answer.status == .poison
      && d.answer == base.answer && d.nocOut 84 == [] && d.nc.arrived.rd 84 [] == []
      && x.answer == ⟨.timeout, [0]⟩ && (x.nocOut 84).map (·.dead) == [true]
      && goes (exec (.nocTimeout 0 7) (at' (wait84 false false) 1049575)) (at' (wait84 false false) 1049575) := by
  decide +kernel

theorem witness_injection :
    let s := noc0 (rd0 37 0 8) base
    let s := { s with qe := { s.qe with refill := 255 } }
    let s := { s with nc := { s.nc with level := s.nc.level.wr (injKey 84 0) 0 (-2) } }
    let t := nx (exec .nocBucketRefill s)
    let w : Word := BitVec.ofNat 32 (9 * 2 ^ 24 + 3 * 2 ^ 15)
    let a := base.setReg .ncInjA (injKey 84 3) (BitVec.ofNat 32 (2 ^ 31 + 5 * 2 ^ 21 + 37 * 2 ^ 14 + 1 * 2 ^ 12))
    let b := nx (exec (.injectionEntryWrite .heartwood 0 3 w) a)
    s.act.rising 0 && s.nc.refillAt != s.fc + 1 && t.nc.level.rd (injKey 84 0) 0 == 4 && t.nc.refillAt == 1001
      && goes (exec .nocBucketRefill t) t
      && !a.injTwin 84 3 (a.reg .ncInjA (injKey 84 3)).toNat && !a.preOut && b.nc.level.rd (injKey 84 3) 0 == 9 && b.answer == ⟨.ok, []⟩
      && b.actFld .ncInjB (injKey 84 3) 23 15 == 3
      && goes (exec (.injectionEntryWrite .pf0 0 3 w) a) (a.ans .unmapped []) := by
  decide +kernel

theorem witness_routes_and_mode :
    let r := (dimRoute 84 37).toNat
    let w : Word := BitVec.ofNat 32 (2 ^ 31 + 8 * 2 ^ 25 + r / 2 ^ 32)
    let s := base.setReg .ncRteL (rteKey 84 37) (BitVec.ofNat 32 r)
    let t := nx (exec (.routeEntryWrite .heartwood 84 37 w) s)
    let c := nx (exec (.routeEntryWrite .heartwood 84 37 (w + BitVec.ofNat 32 (25 * 2 ^ 25))) t)
    let m (dead : Bool) : State := { base with nc := { base.nc with newMode := some 0x80000000, outst := [(84, [⟨7, rd0 37 0 1, some 1000, false, dead⟩])] } }
    let n := nx (exec .nocModeSwitch (m true))
    routeOk 84 37 r && t.rteValid 84 37 && t.rteCred 84 37 == 8 && t.nc.route.rd (rteKey 84 37) 0 == dimRoute 84 37 && t.answer == ⟨.ok, []⟩
      && goes (exec (.routeEntryWrite .heartwood 84 37 (w + 1)) s) (s.ans .denied []) && goes (exec (.routeEntryWrite .pf0 84 37 w) s) (s.ans .unmapped [])
      && c.rteCred 84 37 == 8 && c.answer == ⟨.denied, []⟩ && n.reg .ncMode 0 == 0x80000000 && n.nc.newMode == none && goes (exec .nocModeSwitch (m false)) (m false) := by
  decide +kernel

theorem witness_wakes_and_held_accesses :
    let off := (rd0 3 0 1)
    let s := ((rte 84 3 base).setReg .pwDompwr 0 0xFFFFFFF7).setFld .cfStat 0 31 28 0
    let s := s.setWait 84 [off]
    let t := nx (exec (.domainWake 0) s)
    let on := { base with nc := { base.nc with wake := [(3, some 1001)] } }
    let waits := t.setWait 84 [off]
    let x : TReq := ⟨{ hdr0 0 0 with dst := 1, len := 0, addr := 0x710000 }, [], false, false, 1000⟩
    let f := (rte 1 84 base).setBoth .ffOwn 8 31 22 5
    let f := { f with ff := { f.ff with recd := [(8, 0x84000000)] }, nc := { f.nc with tq := [(1, [x])] }, fc := 66537 }
    let v := nx (exec (.fifoNocTimeout 1 0) f)
    s.heldForWake off && domainOfNode 3 == some 3 && s.nc.wake.rd 3 none == none && t.nc.wake.rd 3 none == some 1001
      && (nx (exec (.wakeDelivery 3) on)).nc.wake == [] && on.powered 3 && !t.powered 3
      && goes (exec (.wakeDelivery 3) (at' waits 32999)) (at' waits 32999)
      && (nx (exec (.wakeDelivery 3) (at' waits 33000))).nc.wake.rd 3 none == some 0
      && ((nx (exec (.wakeDelivery 3) (at' waits 33000))).nocWait 84).all (fun q => q.woken)
      && fifoOf 1 x == some 8 && f.heldByFifo 1 x && f.nc.svc.rd 1 none == none && t.nc.directs == [] && f.rteLive 1 84 && v.nc.tq == [] && v.ff == f.ff
      && ((v.nc.rbuf.flatMap (fun (e : Nat × List (Nat × Flit)) => e.2.map (fun x => x.2.hdr.status))).head? == some .timeout)
      && goes (exec (.nocServe 1 []) f) f
      && goes (exec (.fifoNocTimeout 1 0) (at' f 66536)) (at' f 66536) := by
  decide +kernel

/-! ## Power, clocks and resets -/

theorem witness_domains :
    let ask (d : Nat) : State := { base with pw := { base.pw with fenceAsk := [(d, true)] } }
    let off (d : Nat) (s : State) : State := State.drain d (State.drain d s)
    let q := nx (exec (.fenceReq 5) (ask 5))
    let a := State.drain 5 q
    let t := off 5 q
    let b := off 81 (nx (exec (.fenceReq 81) (ask 81)))
    let back := (({ base with pw := { base.pw with restoring := [(70, true)] } }.setPwr 70 false).setFen 70 true)
    let r := nx (exec (.domainReady 70) back)
    let f := nx (exec (.railFault 5) base)
    let k := nx (exec (.railFault 81) base)
    !(ask 5).fencedOff 5 && q.fencedOff 5 && q.pw.draining.rd 5 0 == 1001 && q.regs == base.regs && goes (exec (.fenceReq 5) q) q
      && goes (exec (.fenceReq 5) base) base && q.powered 5 && !q.closed 5 && q.nc.svc.rd 5 none == none
      && a.flag .pwDomfen 0 5 && !a.closed 5 && a.powered 5 && t.closed 5 && !t.powered 5 && !t.pw.fenceAsk.rd 5 false && t.powered 6 && t.pw.draining == []
      && b.closed 81 && !b.powered 81
      && !back.powered 70 && back.closed 70 && r.powered 70 && !r.closed 70 && !r.pw.restoring.rd 70 false
      && !base.pw.railBad.rd 5 false && f.pw.railBad.rd 5 false && f.pw.fenceAsk.rd 5 false && f.regs == base.regs && f.ht.recs == [] && !base.flag .htStat 0 31
      && (off 5 (nx (exec (.fenceReq 5) f))).ht.recs.contains (.both opTag, mkRec 5 opTag 16 1 5)
      && k.ht.recs.contains (.both opTag, mkRec 5 opTag 16 1 81) && base.online 1 && !k.online 1 := by
  decide +kernel

theorem witness_domain_off :
    let s := runs 3 (fifo0 [⟨[⟨0, false, 0, 9⟩], false, 0, 3⟩] 0)
    let t := s.domainOff 0
    let u := s.domainOff 3
    t.fifo 0 == fifoZero && (s.fifo 0) != fifoZero && !t.powered 0 && t.running 3 && u.fifo 0 == s.fifo 0 && s.running 3 && !u.running 3 := by
  decide +kernel

theorem witness_references :
    let s := base.setBit .ckStat 0 30 true
    let t := nx (exec (.referenceSelect .pf0 0xC0000000) s)
    let none' := base.setBit .ckStat 0 30 false
    let r := nx (exec (.referenceReturn 100) none')
    !s.flag .ckRefcfg 0 31 && t.flag .ckRefcfg 0 31 && t.flag .ckStat 0 27 && t.flag .ckStat 0 29 && t.answer == ⟨.ok, []⟩
      && goes (exec (.referenceSelect .pf0 0xC0000000) none') (none'.ans .denied []) && goes (exec (.referenceSelect (.tenant 3) 0) s) (s.alarm.ans .bark [])
      && !(nx (exec .slewDone t)).flag .ckStat 0 27
      && s.flag .ckStat 0 30 && t.flag .ckStat 0 30
      && r.flag .ckStat 0 30 && r.fld .ckRefppm 0 15 0 == 100 := by
  decide +kernel

theorem witness_pll_lock :
    let s := base.setBit .ckStat 0 31 true
    let t := nx (exec .pllLockLoss s)
    !t.flag .ckStat 0 31 && t.flag .ckStat 0 2 && t.ht.recs.length == 1 && goes (exec .pllLockLoss (base.setBit .ckStat 0 31 false)) (base.setBit .ckStat 0 31 false) && (nx (exec .taprootRelock t)).flag .ckStat 0 31 := by
  decide +kernel

/-- A running grove, and words in the persistent bank and in a clock register. -/
def marked : State := ((runs 3 base).setReg .pb 1 77).setReg .ckRefppm 0 78

theorem witness_cold_reset :
    let t := nx (exec .coldReset marked)
    marked.regs.rising 0 && !marked.pw.cold && !t.pw.cold && t.fc == 0 && t.reg .pb 1 == 77 && t.reg .ckRefppm 0 == 0x8000
      && bankRegs.contains .pb && t.fld .pwRstsrc 0 31 28 == 1 && !t.running 3 := by
  decide +kernel

theorem witness_cold_reset_without_power :
    let s := nx (exec (.supplyFailure .vin) marked)
    s.pw.cold && s.regs.rising 0 := by
  decide +kernel

theorem witness_supply_failure :
    let v := nx (exec (.supplyFailure .vin) marked)
    v.pw.cold && v.reg .pb 1 == 77 && v.fld .pwRstsrc 0 31 28 == 1 && (nx (exec (.supplyFailure .rail) marked)).fld .pwRstsrc 0 31 28 == 2 := by
  decide +kernel

theorem witness_warm_reset :
    let t := nx (exec (.warmReset (.rstN 1000)) marked)
    marked.regs.rising 0 && marked.pw.warm == none && t.fc == 1000 && t.pw.warm == some ⟨1000, 17000, false⟩ && t.reg .ckRefppm 0 == 78
      && t.reg .pb 1 == 77 && t.fld .pwRstsrc 0 31 28 == 3 && !t.running 3
      && (nx (exec (.warmReset (.rstN 21000)) marked)).pw.warm == some ⟨1000, 33000, false⟩ := by
  decide +kernel

theorem witness_warm_reset_write :
    let w := nx (exec (.warmReset (.write .pf0 0xA5000002)) marked)
    w.fld .pwRstsrc 0 31 28 == 4 && w.fld .pwRstsrc 0 27 24 == issuerCode .pf0 && w.answer == ⟨.ok, []⟩ && w.pw.warm == some ⟨1000, 17000, false⟩ := by
  decide +kernel

theorem witness_warm_reset_end :
    let t (fc : Nat) : State := { base with fc := fc, pw := { base.pw with warm := some ⟨1000, 17000, false⟩ } }
    goes (exec .warmResetEnd (t 16999)) (t 16999) && (nx (exec .warmResetEnd (t 17000))).pw.warm == none := by
  decide +kernel

theorem witness_thermal_trip :
    let h := nx (exec (.thermalTrip 4) base)
    h.thermalHold && h.pw.warm == some ⟨1000, 17000, true⟩ && h.fld .pwRstsrc 0 31 28 == 5 && h.fld .pwRstsrc 0 27 24 == 4 && h.faultLow
      && (nx (exec .warmResetEnd (at' h 99000))).pw == h.pw && (nx (exec .thermalHoldEnd h)).pw.warm == some ⟨1000, 17000, false⟩ := by
  decide +kernel

theorem witness_canopy_reset :
    let s := { (runs 3 base) with dp := { base.dp with tcm := [(5, 7)] } }
    let h := s.setBit .htStat 0 31 true
    let t := nx (exec (.canopyReset .pf0 0xA5000001) s)
    let u := nx (exec (.canopyReset .pf0 0xA5000001) h)
    t.dp.tcm == [] && t.tl == s.tl && t.dp.coresHeld && !s.fwValid 0 && !s.fwValid 1 && t.fld .pb 2 31 24 == 6 * 16 + issuerCode .pf0 && u.dp.coresHeld
      && u.dp.tcm == []
      && goes (exec (.canopyReset .pf0 0xA5000003) s) (s.alarm.ans .denied []) && goes (exec (.canopyReset .pf0 0xA4000001) s) (s.alarm.ans .denied [])
      && goes (exec (.warmReset (.write .pf0 0xA5000000)) s) (s.alarm.ans .denied [])
      && goes (exec (.canopyReset (.tenant 3) 0xA5000001) s) (s.alarm.ans .bark []) := by
  decide +kernel

theorem witness_tap_instruction :
    let w := base.setFld .cfStat 0 31 28 1
    let tok := { base with ht := { base.ht with dbg := [⟨4, 0, 9⟩], rtcSec := 8 } }
    (nx (exec (.tapInstruction .extest) w)).pw.test == .extest && (nx (exec (.tapInstruction .extest) base)).pw.test == .bypass
      && (nx (exec (.tapInstruction (.debug 2)) tok)).pw.test == .debug 2 && (nx (exec (.tapInstruction (.debug 2)) tok)).answer == ⟨.ok, []⟩
      && (nx (exec (.tapInstruction (.debug 1)) tok)).pw.test == .bypass := by
  decide +kernel

/-! ## The host interface -/

/-- Tenant 5 is admitted and bound to VF 3. -/
def bound (s : State) : State := { s with tn := { s.tn with adm := [(5, some ⟨0, false, []⟩)], bind := [(3, some 5)] } }

theorem witness_host_access :
    let s := bound base
    let fwd := nx (exec (.hostBarAccess .pf0 ⟨true, 0x3000040, 4, [9]⟩) (s.setReg .hiPfcfg 0 (BitVec.ofNat 32 (37 * 2 ^ 25 + 2))))
    let mis := nx (exec (.hostBarAccess .pf0 ⟨false, 2, 4, []⟩) s)
    s.boundTag 4 == none && s.boundTag 3 == some 5 && goes (exec (.hostBarAccess (.vf 4) ⟨false, 8, 8, []⟩) s) (s.ans .ok [0, 0])
      && goes (exec (.hostBarAccess (.vf 3) ⟨false, 0, 4, []⟩) s) (s.ans .ok [0x80000005])
      && (fwd.nocWait 87).map (fun q => (q.dst, q.addr, q.prio.toNat, q.write, q.data)) == [(37, 0x40, 2, true, [9])]
      && (fwd.nocWait 87).all (fun q => q.tag == opTag)
      && (pfReg 0xFFF000).isNone && (nx (exec (.hostBarAccess .pf0 ⟨false, 0xFFF002, 4, []⟩) s)).answer.status == .unmapped
      && mis.answer.status == .denied && mis.fld .hiPfstat 0 31 16 == 1 && mis.fld .hiPfstat 0 3 0 == 10
      && (nx (exec (.configStreamWrite 8 [1, 2]) s)).hi.bar2 == [1, 2] && !s.bar2Shut
      && (let o := s.setSess (some ⟨.pcp, .image, 900⟩)
          o.bar2Shut && (nx (exec (.configStreamWrite 8 [1, 2]) o)).hi.bar2 == [] && (nx (exec (.configStreamWrite 8 [1, 2]) o)).answer.status == .denied)
      && (nx (exec (.configStreamWrite 6 [1, 2]) s)).answer == ⟨.denied, []⟩
      && (nx (exec (.configStreamWrite 6 [1, 2]) s)).hi.bar2 == [] := by
  decide +kernel

theorem witness_doorbells :
    let s := bound base
    let h := nx (exec (.h2cDoorbell .pf0 2) s)
    let c := nx (exec (.c2hDoorbell (.core 1) 2) (s.setReg .hiMsix 11 0))
    let m := nx (exec (.c2hDoorbell (.core 1) 2) (s.setReg .hiMsix 11 1))
    let v := nx (exec (.vopdbDoorbell 3 77) s)
    h.flag .hiMbst 2 1 && !h.flag .hiMbst 2 0 && h.dp.asserting.map (·.1) == [738] && h.answer == ⟨.ok, []⟩
      && goes (exec (.h2cDoorbell .pf0 2) h) ((h.ans .denied []).hostDone .pf0 .denied) && goes (exec (.h2cDoorbell (.core 1) 2) s) (s.ans .denied [])
      && goes (exec (.h2cDoorbell (.tenant 5) 2) s) (s.alarm.ans .denied [])
      && c.flag .hiMbst 2 0 && !c.flag .hiMbst 2 1 && c.hi.msix == [(0, 2)] && m.hi.msix == [] && m.flag .hiPba 0 2
      && goes (exec (.c2hDoorbell (.core 1) 2) c) (c.ans .denied []) && goes (exec (.c2hDoorbell .pf0 2) s) ((s.ans .denied []).hostDone .pf0 .denied)
      && v.reg .hiVopdb 3 == 77 && v.reg .hiOpdb 5 == 77 && v.dp.asserting.map (·.1) == [1029] && goes (exec (.vopdbDoorbell 4 77) s) (s.ans .ok []) := by
  decide +kernel

/-- Records on their way. -/
def recs0 (l : List (RecDest × BitVec 64)) : State := let s := bound base
  { s with ht := { s.ht with recs := l } }

theorem witness_records :
    let r : BitVec 64 := 0x0500000000000001
    let p : BitVec 64 := 0x0400000100000001
    let h := nx (exec .errorRecordEnqueue (recs0 [(.heartwood, r)]))
    let o := nx (exec .errorRecordEnqueue (recs0 [(.domain opTag, r)]))
    let full := recs0 [(.domain opTag, r)]
    let full := { full with ht := { full.ht with oerr := List.replicate 256 r } }
    let t := nx (exec .errorRecordEnqueue (recs0 [(.domain 5, r)]))
    let vfull (n : Nat) (l : List (RecDest × BitVec 64)) : State := let s := recs0 l
      { s with hi := { s.hi with verr := [(3, List.replicate n r)] } }
    let late := nx (exec .errorRecordEnqueue (vfull 64 [(.domain 5, r)]))
    let g := nx (exec .errorRecordEnqueue (vfull 61 [(.domain 5, p), (.domain 5, r), (.domain 5, r)]))
    let l := nx (exec .errorRecordEnqueue (vfull 62 [(.domain 5, p), (.domain 5, r), (.domain 5, r)]))
    !(recs0 []).flag .htStat 0 31 && h.ht.log == [r] && h.ht.recs == [] && o.ht.oerr == [r] && o.dp.asserting.map (·.1) == [714]
      && (nx (exec .errorRecordEnqueue full)).ht.olate == [r] && (nx (exec .errorRecordEnqueue full)).ht.oerr == full.ht.oerr
      && (nx (exec .errorRecordEnqueue full)).operatorDrop.fld .msOerrcnt 0 31 16 == 1 && (recs0 []).admitted 5 && (recs0 []).vfOf 5 == some 3
      && !opensReport (.domain 5) r && t.hi.verr.rd 3 [] == [r] && late.hi.vlate == [(3, [[r]])] && late.hi.verr.rd 3 [] == List.replicate 64 r
      && late.vfErrDrop.fld .hiVerrcnt 3 23 16 == 1 && late.vfErrDrop.hi.vlate == [] && (nx (exec (.vfErrorRead 3) late)).hi.verr.rd 3 [] == List.replicate 64 r
      && opensReport (.domain 5) p && (g.hi.verr.rd 3 []).length == 64 && g.ht.recs == [] && (l.hi.verr.rd 3 []).length == 62 && l.vfErrDrop.fld .hiVerrcnt 3 23 16 == 3
      && ((nx (exec (.vfErrorRead 3) l)).hi.verr.rd 3 []).length == 64 := by
  decide +kernel

theorem witness_record_reads :
    let r : BitVec 64 := 0x0500000000000001
    let s := bound base
    let s := { s with hi := { s.hi with verr := [(3, [r])], vfev := [(3, [8])] }, ht := { s.ht with oerr := [r] } }
    let t := nx (exec (.vfErrorRead 3) s)
    let e := nx (exec (.vfFifoEventRead 3) s)
    let o := nx (exec (.operatorErrorRead .pf0) s)
    t.answer == ⟨.ok, [0x05000000]⟩ && t.hi.verr == [] && e.answer == ⟨.ok, [0x80000008]⟩ && e.hi.vfev == [] && (nx (exec (.vfErrorRead 3) t)).answer == ⟨.ok, [0]⟩
      && goes (exec (.vfErrorRead 4) s) (s.ans .ok [0]) && goes (exec (.vfFifoEventRead 4) s) (s.ans .ok [0])
      && o.answer == ⟨.ok, [0x05000000]⟩ && o.ht.oerr == [] && goes (exec (.operatorErrorRead .pf0) o) (o.ans .ok [0]) := by
  decide +kernel

theorem witness_graft_submission :
    let s := bound base
    let o := nx (exec (.graftOpen 3 0x80000002) s)
    let d := nx (exec (.graftDataWrite 3 [7, 8]) (at' o 1001))
    let c := nx (exec (.graftCommitWrite 3 0x40000000) d)
    let x := nx (exec (.graftCancel 3 0x20000000) o)
    let full := { s with hi := { s.hi with glen := [(0, 262144), (1, 262144)] } }
    let n := nx (exec (.graftOpen 3 0x80000002) full)
    let late := at' d 160001001
    let t := nx (exec (.graftSubmissionTimeout 3) late)
    s.gState 3 == 0 && o.gState 3 == 1 && o.hi.glen.rd 3 0 == 2 && o.answer == ⟨.ok, []⟩ && d.fld .hiGrcv 3 19 0 == 2 && d.hi.gstage.rd 3 [] == [7, 8]
      && d.hi.gtime.rd 3 0 == 1001 && goes (exec (.graftDataWrite 3 [7]) d) ((d.ans .denied []).hostDone (.vf 3) .denied) && goes (exec (.graftOpen 3 0x80000002) d) ((d.ans .denied []).hostDone (.vf 3) .denied)
      && c.gState 3 == 2 && c.ht.callq.length == 1 && goes (exec (.graftCommitWrite 3 0x40000000) o) ((o.ans .denied []).hostDone (.vf 3) .denied)
      && (nx (exec (.graftCommitWrite 3 0x40000000) (d.setBit .htStat 0 31 true))).fld .hiGstat 3 15 12 == 1
      && x.gState 3 == 0 && goes (exec (.graftCancel 3 0x20000000) s) ((s.ans .denied []).hostDone (.vf 3) .denied) && full.gHeld == 524288 && n.gState 3 == 3 && n.fld .hiGstat 3 15 12 == 2
      && t.gState 3 == 3 && t.fld .hiGstat 3 15 12 == 9 && goes (exec (.graftSubmissionTimeout 3) (at' d 160001000)) (at' d 160001000) := by
  decide +kernel

/-- Pair 0 of VF 3, enabled with 16 entries in both rings, and its engine in this state. -/
def pair0 (x : DmaSt) : State :=
  let s := ((bound base).setReg .hiQcfg 24 (BitVec.ofNat 32 (2 ^ 31 + 4 * 2 ^ 25 + 4 * 2 ^ 21))).setReg .hiQsqt 24 1
  s.setDma 24 x

theorem witness_queue_pairs :
    let s := bound base
    let w : Word := BitVec.ofNat 32 (2 ^ 31 + 4 * 2 ^ 25 + 4 * 2 ^ 21)
    let t := nx (exec (.queuePairEnable 3 0 w) s)
    let d := nx (exec (.queuePairDisable 3 0 (w &&& 0x7FFFFFFF)) t)
    t.flag .hiQcfg 24 31 && t.answer == ⟨.ok, []⟩ && (t.dma 24).phase && goes (exec (.queuePairEnable 3 0 0x80000000) s) ((s.ans .denied []).hostDone (.vf 3) .denied)
      && goes (exec (.queuePairEnable 3 0 (w + 2 ^ 25)) t) ((t.ans .denied []).hostDone (.vf 3) .denied) && !d.flag .hiQcfg 24 31 && d.answer == ⟨.ok, []⟩
      && (nx (exec (.submissionTail 3 0 15) t)).reg .hiQsqt 24 == 15 && (nx (exec (.submissionTail 3 0 16) t)).answer == ⟨.denied, []⟩ && (nx (exec (.submissionTail 3 0 16) t)).fld .hiQsqt 24 11 0 == 0 := by
  decide +kernel

/-- A descriptor of OP 3: 8 bytes of host memory at 0x1000 go to the first words of the memory of tile 2 of grove 0. -/
def desc0 : List Word := [0x1000, 0, 8, BitVec.ofNat 32 (3 * 2 ^ 28 + 2 * 2 ^ 16), 0x00000042, 0, 0, 0]

theorem witness_dma_fetch :
    let s := pair0 dmaZero
    let t := nx (exec (.descriptorFetch 3 0) s)
    let f := pair0 { dmaZero with st := .fetching }
    let u := nx (exec (.hostCompletion 3 0 (.data desc0)) f)
    let b := nx (exec (.hostCompletion 3 0 (.data [0x1001, 0, 8, 0x10000000, 0, 0, 0, 0])) f)
    let n := nx (exec (.hostCompletion 3 0 .timeout) f)
    let k := s.setReg .hiQsqt 24 0
    s.pairRoom 24 && s.hostReads < 256 && (t.dma 24).st == .fetching && t.line == [0] && goes (exec (.descriptorFetch 3 0) k) k
      && !descBad desc0 && (u.dma 24).desc == some (descOf desc0) && (u.dma 24).st == (if (descOf desc0).hostRead then .hostData else .ready)
      && (b.dma 24).st == .ended .denied && n.flag .hiQstat 24 30 && n.fld .hiQstat 24 29 26 == 9 && n.ht.recs.length == 1
      && (nx (exec (.hostCompletion 3 0 .unsupported) f)).fld .hiQstat 24 29 26 == 8 := by
  decide +kernel

theorem witness_dma_chunk_and_completion :
    let d := descOf desc0
    let s := pair0 { dmaZero with st := .ready, desc := some d, hostWords := [(false, 7), (false, 8)] }
    let t := nx (exec (.dmaChunk 3 0) s)
    let e := pair0 { dmaZero with st := .ended .ok, desc := some d, done := 8 }
    let c := nx (exec (.completionWrite 3 0) e)
    s.nextChunk == some (24, true) && s.hi.dmaAt == 0 && (t.dma 24).st == .chunkOut && t.hi.dmaAt == 1001
      && (t.nocWait 87).map (fun q => (q.tag.toNat, q.dst, q.words, q.write)) == [(5, 0, 2, d.hostRead)] && goes (exec (.dmaChunk 3 0) t) t
      && e.pairRoom 24 && c.fld .hiQstat 24 23 12 == 1 && c.fld .hiQstat 24 11 0 == 1 && (c.dma 24).st == .idle && (c.dma 24).phase
      && c.hi.hostWr == [(0, entryWords 8 1 0x42 true .ok)] := by
  decide +kernel

theorem witness_function_resets :
    let s := (bound base).setReg .hiVopdb 3 9
    let s := { s with hi := { s.hi with verr := [(3, [1])], bar2 := [1] } }
    let t := nx (exec (.vfFunctionLevelReset 3) s)
    t.hi.verr == [] && t.reg .hiVopdb 3 == 0 && vfRegs.contains .hiVopdb && (nx (exec .pf0Reset s)).hi.bar2 == []
      && (nx (exec (.vfFunctionLevelReset 3) (nx (exec (.graftOpen 3 0x80000002) s)))).gState 3 == 0 := by
  decide +kernel

/-! ## Faults and measurement -/

theorem witness_fault_reports :
    let s := { base with nc := { base.nc with alarm := true } }
    let t := nx (exec .nocFatalReport s)
    let c := nx (exec (.canopyEccError 2 0x1000 false 0x40) base)
    t.flag .msFatal 0 0 && !t.nc.alarm && t.ht.fatalTold && t.ht.recs == [(.both opTag, mkRec 8 opTag 7 6 0)]
      && c.answer == ⟨.poison, []⟩ && c.ht.recs.length == 1 && c.dp.asserting.length == 1 && c.csrRaw 2 0x342 == 5 && c.csrRaw 2 0x341 == 0x40 := by
  decide +kernel

theorem witness_scrub :
    let a := base.setBoth .swIn 3 31 22 5
    let u := nx (exec (.scrub (.owner 0 0 3)) a)
    let r := nx (exec (.scrub (.ring 0 0 2)) base)
    let f := nx (exec (.scrub (.fifoRec 0 1)) base)
    let m := nx (exec (.scrub (.macrocell 0 2)) { base with lt := { base.lt with mc := [(2, 0x10000000)] } })
    let p := nx (exec (.scrub (.term 0 11)) { base with lt := { base.lt with mc := [(2, 0x10000000)] } })
    (m.mcEval 0 2 []).1 == false && m.lt.dead == [(162, true)] && (m.putRec 7 0 2 0).lt.dead == [] && (p.mcEval 0 2 []).1 == false
      && (nx (exec (.scrub (.quad 0 1)) base)).mcDead 0 6 && !(nx (exec (.scrub (.slot 0 5)) base)).latSlot 0 5
      && (nx (exec (.scrub (.decode 0 5)) base)).sdRec 0 5 == 0 && (nx (exec (.scrub (.line 0 9)) base)).lineRec 0 9 == 0
      && base.powered 0 && u.swOwner 0 3 == 0x3FF && u.ht.recs.length == 1 && !rRipe (r.ringRec 0 2) && bits (f.ff.recd.rd 1 0).toNat 31 30 == 3
      && (nx (exec (.scrub (.calendar 0 0 7)) base)).calEntry 0 7 == 15 && (nx (exec (.scrub (.select 0 0 4)) base)).sw.sel.rd 4 63 == 63 := by
  decide +kernel

theorem witness_sensors :
    let s := { ((base.setReg .msTlim 3 0x00640000)) with ms := { base.ms with mmRestart := true } }
    let temps : List (BitVec 16) := List.replicate 3 20 ++ [101] ++ List.replicate 12 20
    let t := nx (exec (.sensorSample temps (List.replicate 24 7)) s)
    t.fld .msTemp 3 15 0 == 101 && t.flag .msTalm 0 3 && t.reg .msTmm 3 == 0x00650065 && t.fld .msVolt 0 15 0 == 7 && !t.ms.mmRestart
      && (nx (exec (.mmclr .pf0 0x80000000) t)).ms.mmRestart := by
  decide +kernel

theorem witness_meters :
    let s := { base with ms := { base.ms with meter := [(40, 0x500000007)] } }
    let t := nx (exec (.meterReadLatch (.tenant 5) 5 0) s)
    t.answer == ⟨.ok, [7]⟩ && t.reg .meterHi 40 == 5 && (nx (exec (.meterReadLatch .pf0 5 0) s)).answer == ⟨.ok, [7]⟩
      && goes (exec (.meterReadLatch (.tenant 6) 5 0) s) (s.barkAns 1) := by
  decide +kernel

/-! ## The dispatcher -/

/-- Core 1's arguments. -/
def args (a b : Word) (s : State) : State := (s.setReg .dpCarg0 1 a).setReg .dpCarg1 1 b

/-- A thread in this state, of priority 4, tag 9 and every core. -/
def th0 (st : ThState) : Thread := { thrZero with st := st, prio := 4, aff := 0xFF, tag := 9 }

/-- Core 1 runs thread 20. -/
def running : State := (base.setThr 20 { th0 .running with core := 1 }).setCore 1 { coreZero with cur := some 20 }

/-- Core 1 may command at once (R384, R389, R403). -/
def openAt1 (s : State) : Bool := !s.dp.coresHeld && !(s.coreSt 1).held && !s.frozen && !s.dp.tickDue && (!s.dp.lastCmd || s.nextSource == none)

/-- STATUS and ENDED of core 1's last command. -/
def res1 (r : Res) : Nat × Bool × Nat := let t := nx r
  (t.fld .dpCres 1 3 0, t.flag .dpCres 1 31, (t.reg .dpCwake 1).toNat)

theorem witness_threads :
    let s := args (BitVec.ofNat 32 (5 * 2 ^ 26 + 77)) 3 base
    let t := nx (exec (.create 1 20 noUpset) s)
    let w := base.setThr 20 { th0 .waitSem with obj := 7, wakeSet := true }
    openAt1 s && !s.svcLocked 20 && (t.thr 20).st == .ready && (t.thr 20).prio == 5 && (t.thr 20).tag == 77 && (t.thr 20).aff == 3
      && res1 (exec (.create 1 20 noUpset) s) == (0, false, 0) && (res1 (exec (.create 1 20 noUpset) (args 0 0 base))).1 == 10 && (res1 (exec (.create 1 20 noUpset) t)).1 == 10
      && (nx (exec (.destroy 1 20 noUpset) t)).thr 20 == thrZero && (res1 (exec (.destroy 1 21 noUpset) t)).1 == 10
      && (nx (exec (.destroy 1 20 noUpset) running)).thr 20 == thrZero && res1 (exec (.destroy 1 20 noUpset) running) == (0, true, 0)
      && ((nx (exec (.setprio 1 20 noUpset) (args 9 0 t))).thr 20).prio == 9 && (res1 (exec (.setprio 1 20 noUpset) s)).1 == 10
      && ((nx (exec (.setaff 1 20 noUpset) (args 0 4 t))).thr 20).aff == 4 && (res1 (exec (.setaff 1 20 noUpset) (args 0 256 t))).1 == 10
      && ((nx (exec (.wakeThread 1 20 noUpset) w)).thr 20).st == .ready && ((nx (exec (.wakeThread 1 20 noUpset) w)).thr 20).reason == 3
      && (res1 (exec (.wakeThread 1 20 noUpset) t)).1 == 10 := by
  decide +kernel

theorem witness_current_thread :
    let r := running.setReg .dpTnow 0 100
    openAt1 r && (r.coreSt 1).cur == some 20 && ((nx (exec (.yieldThread 1 0 noUpset) r)).thr 20).st == .ready && res1 (exec (.yieldThread 1 0 noUpset) r) == (0, true, 0)
      && (nx (exec (.exitThread 1 0 noUpset) r)).thr 20 == thrZero && ((nx (exec (.exitThread 1 0 noUpset) r)).coreSt 1).cur == none
      && ((nx (exec (.delay 1 0 noUpset) (args 0 8 r))).thr 20).wake == 108 && ((nx (exec (.delay 1 0 noUpset) (args 0 8 r))).thr 20).st == .delayed
      && ((nx (exec (.setdl 1 0 noUpset) (args 0 8 r))).thr 20).dl == 108 && (res1 (exec (.delay 1 0 noUpset) (args 0 0 r))).1 == 10 && (res1 (exec (.setdl 1 0 noUpset) (args 0 0x80000000 r))).1 == 10
      && ((nx (exec (.delayto 1 0 noUpset) (args 0 99 r))).thr 20).st == .ready && ((nx (exec (.delayto 1 0 noUpset) (args 0 101 r))).thr 20).wake == 101
      && !((nx (exec (.clrdl 1 0 noUpset) (nx (exec (.setdl 1 0 noUpset) (args 0 8 r))))).thr 20).dlSet && (res1 (exec (.yieldThread 1 0 noUpset) base)).1 == 10
      && (res1 (exec (.clrdl 1 0 noUpset) base)).1 == 10 := by
  decide +kernel

theorem witness_semaphores :
    let s := (running.setReg .dpTnow 0 100).setReg .dpSem 7 0x00030002
    let z := (running.setReg .dpTnow 0 100).setReg .dpSem 7 0x00030000
    let w := z.setThr 30 { th0 .waitSem with obj := 7 }
    res1 (exec (.semtake 1 7 noUpset) (args 0 0 s)) == (0, false, 1) && (nx (exec (.semtake 1 7 noUpset) (args 0 0 s))).reg .dpSem 7 == 0x00030001
      && (res1 (exec (.semtake 1 7 noUpset) (args 0 0 z))).1 == 9 && ((nx (exec (.semtake 1 7 noUpset) (args 0 8 z))).thr 20).st == .waitSem
      && ((nx (exec (.semtake 1 7 noUpset) (args 0 8 z))).thr 20).wake == 108 && res1 (exec (.semtake 1 7 noUpset) (args 0 8 z)) == (0, true, 0)
      && (w.waiters .waitSem 7).map (·.1) == [30] && ((nx (exec (.semgive 1 7 noUpset) w)).thr 30).st == .ready && ((nx (exec (.semgive 1 7 noUpset) w)).thr 30).reason == 1
      && (nx (exec (.semgive 1 7 noUpset) s)).reg .dpSem 7 == 0x00030003 && (res1 (exec (.semgive 1 7 noUpset) (s.setReg .dpSem 7 0x00030003))).1 == 10
      && (nx (exec (.seminit 1 7 noUpset) (args 0x00050004 0 s))).reg .dpSem 7 == 0x00050004 && (res1 (exec (.seminit 1 7 noUpset) (args 5 0 s))).1 == 10
      && (res1 (exec (.seminit 1 7 noUpset) (args 0x00050004 0 w))).1 == 10 && (res1 (exec (.semtake 1 256 noUpset) (args 0 0 s))).1 == 10 := by
  decide +kernel

theorem witness_groups :
    let s := (running.setReg .dpTnow 0 100).setReg .dpEg 7 5
    let w := s.setThr 30 { th0 .waitEg with obj := 7, wmask := 0xA, clr := true }
    let t := nx (exec (.egset 1 7 noUpset) (args 2 0 w))
    egMet false 4 5 && !egMet true 6 5 && res1 (exec (.egwait 1 7 false true noUpset) (args 4 0 s)) == (0, false, 5)
      && (nx (exec (.egwait 1 7 false true noUpset) (args 4 0 s))).reg .dpEg 7 == 1 && ((nx (exec (.egwait 1 7 true false noUpset) (args 6 8 s))).thr 20).st == .waitEg
      && (res1 (exec (.egwait 1 7 true false noUpset) (args 6 0 s))).1 == 9 && (t.thr 30).st == .ready && (t.thr 30).wval == 7 && t.reg .dpEg 7 == 5
      && (nx (exec (.egclr 1 7 noUpset) (args 4 0 s))).reg .dpEg 7 == 1 && (res1 (exec (.egset 1 256 noUpset) (args 4 0 s))).1 == 10 := by
  decide +kernel

theorem witness_event_sources :
    let a := { base with dp := { base.dp with asserting := [(704, 1000)] } }
    let t := nx (exec (.eventPending 704) a)
    let s := args (BitVec.ofNat 32 (2 ^ 30 + 704)) 0 (running.setThr 30 (th0 .waitEv))
    let b := nx (exec (.evbind 1 30 noUpset) s)
    let g := nx (exec (.evbind 1 7 noUpset) (args (BitVec.ofNat 32 (2 ^ 31 + 3 * 2 ^ 24 + 704)) 0 s))
    let p (u : State) : State := { u with dp := { u.dp with pend := [(704, true)] } }
    let d := nx (exec (.eventDelivery 704 noUpset) (p b))
    t.pending? 704 && t.dp.asserting == [] && goes (exec (.eventPending 704) (at' a 999)) (at' a 999)
      && !srcReserved 704 && b.binding 704 == .thread 30 && (nx (exec (.evbind 1 0 noUpset) (args 704 0 b))).binding 704 == .none
      && (res1 (exec (.evbind 1 31 noUpset) s)).1 == 10 && g.binding 704 == .group 7 3 && !(nx (exec (.evclr 1 0 noUpset) (args 704 0 (p s)))).pending? 704
      && (res1 (exec (.evclr 1 0 noUpset) (args 0x800 0 s))).1 == 10
      && (p b).nextSource == some 704 && !d.pending? 704 && (d.thr 30).st == .ready && (d.thr 30).wval == 704
      && (nx (exec (.eventDelivery 704 noUpset) (p g))).reg .dpEg 7 == 8 && goes (exec (.eventDelivery 704 noUpset) b) b := by
  decide +kernel

theorem witness_evwait :
    let s := args 0 0 { running with dp := { running.dp with bind := [(704, .thread 20)] } }
    let p := { s with dp := { s.dp with pend := [(704, true)] } }
    p.dp.pend.rising 0 && res1 (exec (.evwait 1 0 noUpset) p) == (0, false, 704) && !(nx (exec (.evwait 1 0 noUpset) p)).pending? 704 && (res1 (exec (.evwait 1 0 noUpset) s)).1 == 9
      && ((nx (exec (.evwait 1 0 noUpset) (args 0 0xFFFFFFFF s))).thr 20).st == .waitEv := by
  decide +kernel

theorem witness_take :
    let t := nx (exec (.take 1 noUpset) running)
    let z := { running with regs := (running.setBit .dpCtl 0 30 true).regs }
    let h := (base.setThr 30 (th0 .ready)).setCore 2 { coreZero with held := true }
    let a := (h.assignOne.getD base)
    openAt1 running && (t.thr 20).st == .running && (t.coreSt 1).cur == some 20 && z.frozen
      && goes (exec (.take 1 noUpset) z) (z.setCore 1 { z.coreSt 1 with held := true })
      && h.dp.thr.rising 0 && h.assignOne.isSome && (a.thr 30).st == .running && (a.coreSt 2).cur == some 30 && a.fld .dpTake 2 31 22 == 30
      && a.fld .dpTake 2 19 0 == 9 := by
  decide +kernel

theorem witness_ticks :
    let none' : DispCheck := ⟨false, false, false, false⟩
    let bad : DispCheck := ⟨true, false, false, false⟩
    let th := { th0 .delayed with wake := 99, wakeSet := true, dl := 98, dlSet := true }
    let s := (base.setReg .dpTnow 0 100).setThr 30 th
    let d := { s with dp := { s.dp with tickDue := true } }
    let t := nx (exec (.tick none') d)
    let f := nx (exec (.tick bad) d)
    !s.frozen && d.dp.thr.rising 0 && s.due 99 && !s.due 101 && (t.thr 30).st == .ready && !(t.thr 30).dlSet && t.dp.miss == [30] && !t.dp.tickDue
      && f.frozen && f.flag .dpFstat 0 0 && f.dp.thr == d.dp.thr && goes (exec (.tick bad) s) s
      && ((nx (exec .wakeExpiry s)).thr 30).st == .ready && (nx (exec .deadlineMiss s)).dp.miss == [30]
      && (nx (exec (.audit none') s)).dp.audited && (nx (exec (.audit bad) s)).flag .dpFstat 0 3 := by
  decide +kernel

theorem witness_trace_and_rebuild :
    let s := { base with dp := { base.dp with miss := [7], trace := [0x0000000100000002] } }
    let t := nx (exec (.dlmissRead .heartwood) s)
    let z := (running.setBit .dpCtl 0 30 true).setBit .dpFstat 0 0 true
    let g := nx (exec (.rebuild true true) z)
    let b := nx (exec (.rebuild true false) z)
    t.answer == ⟨.ok, [0x80000007]⟩ && t.dp.miss == [] && (nx (exec (.traceRead .heartwood) s)).dp.trace == [] && !s.traceReader (.core 1)
      && goes (exec (.traceRead (.core 1)) s) (s.deniedAlarm 1) && z.frozen && !g.frozen && g.reg .dpFstat 0 == 0 && g.dp.asserting.any (fun x => x.1 == 715)
      && !b.frozen && b.dp.thr == [] && b.fld .pb 2 31 24 == 7 * 16 + 1 := by
  decide +kernel

/-- A check of the dispatcher's own that fails freezes it: at a command, a TAKE and a delivery. -/
theorem witness_dispatch_faults :
    let bad : DispCheck := ⟨false, true, false, false⟩
    let s := args 0 3 running
    let t := nx (exec (.take 1 bad) s)
    let c := nx (exec (.yieldThread 1 0 bad) s)
    let d := { (s.setThr 30 (th0 .waitEv)) with dp := { (s.setThr 30 (th0 .waitEv)).dp with bind := [(704, .thread 30)], pend := [(704, true)] } }
    let e := nx (exec (.eventDelivery 704 bad) d)
    openAt1 s && dispAny bad && !dispAny noUpset && t.frozen && (t.coreSt 1).held && (t.coreSt 1).cur == some 20 && t.dp.thr == s.dp.thr
      && c.frozen && c.dp.thr == s.dp.thr && c.fld .dpCres 1 3 0 == 1 && c.flag .dpFstat 0 1
      && d.nextSource == some 704 && e.frozen && e.dp.thr == d.dp.thr && e.dp.pend == d.dp.pend := by
  decide +kernel

/-- A plain access of core 1, and one with an operation. -/
def acc (a : Access) : Instr := .coreBusAccess 1 ⟨0x40, 0⟩ .plain a ⟨[], []⟩
def act1 (op : CoreOp) (a : Access) : Instr := .coreBusAccess 1 ⟨0x40, 0⟩ op a ⟨[], []⟩

theorem witness_core_bus :
    let w : Access := ⟨true, sramBase + 8, 4, [77]⟩
    let t := nx (exec (acc w) base)
    let q := nx (exec (acc ⟨false, 0x0105000040, 4, []⟩) base)
    let u := nx (exec (acc ⟨false, 0x40000000, 4, []⟩) base)
    let two := nx (exec (acc ⟨false, 0x0105000040, 8, []⟩) base)
    let h := { base with dp := { base.dp with coresHeld := true } }
    let f := { base with dp := { base.dp with icache := [(1, [(4, 5)]), (2, [(4, 5)])] } }
    t.dp.csram == [(2, 77)] && t.answer == ⟨.ok, []⟩ && goes (exec (acc ⟨false, sramBase + 8, 4, []⟩) t) (t.ans .ok [77])
      && (q.nocWait 84).map (fun x => (x.dst, x.addr, x.write)) == [(5, 0x40, false)]
      && two.nocWait 84 == [⟨.core 1, opTag, false, BitVec.ofNat 2 (base.fld .ncCprio 0 3 2), 5, false, 0x40, 1, [], false, false⟩]
      && (two.dp.busq.rd 1 []).map (·.acc.addr) == [0x0105000044] && two.coreBusy 1 && (nx (exec (acc ⟨false, 0x0105000040, 4, []⟩) two)).nc == two.nc
      && ((nx (exec (acc ⟨false, 0x0105000040, 4, []⟩) two)).dp.busq.rd 1 []).length == 2 && !base.coreBusy 1 && base.dp.busq == []
      && [true, false].all (fun w => base.pmpOk 1 (sramBase + 8) 4 w && base.pmpOk 1 0x0105000040 8 w && base.pmpOk 1 0x40000000 4 w)
      && ((nx (exec (acc ⟨false, 0x0105400040, 8, []⟩) base)).nocWait 84).map (fun x => (x.addr, x.words)) == [(0x400040, 2)]
      && u.answer.status == .unmapped && u.fld .dpCbus 1 3 0 == 7 && u.fld .dpCbus 1 31 16 == 1
      && goes (exec (acc w) h) h
      && goes (exec (acc ⟨false, 0x30000008, 4, []⟩) (base.setReg .dpTnow 0 9)) ((base.setReg .dpTnow 0 9).ans .ok [9])
      && (nx (exec (.fenceI 1) f)).dp.icache == [(2, [(4, 5)])] := by
  decide +kernel

/-- LR, SC and AMO on canopy SRAM, and the exceptions of a core in M mode: misaligned, outside a region of U mode, atomic outside memory, and
an absent instruction. -/
theorem witness_core_atomics :
    let a (d : List Word) : Access := ⟨false, sramBase + 8, 4, d⟩
    let s := nx (exec (acc ⟨true, sramBase + 8, 4, [77]⟩) base)
    let l := nx (exec (act1 .lr (a [])) s)
    let c := nx (exec (act1 .sc (a [5])) l)
    let n := nx (exec (act1 .sc (a [5])) s)
    let m := nx (exec (act1 (.amo .add) (a [5])) s)
    let user := base.setMode 1 true
    let cause (r : Res) : Nat × Nat × Bool := ((nx r).csrRaw 1 0x342, (nx r).csrRaw 1 0x341, (nx r).inU 1)
    l.answer == ⟨.ok, [77]⟩ && l.dp.resv.rd 1 none == some ((sramBase + 8) / 8) && c.answer == ⟨.ok, [0]⟩ && c.dp.csram == [(2, 5)]
      && n.answer == ⟨.ok, [1]⟩ && n.dp.csram == s.dp.csram && m.answer == ⟨.ok, [77]⟩ && m.dp.csram == [(2, 82)] && !s.sramPoison 8 4
      && cause (exec (acc ⟨false, sramBase + 9, 4, []⟩) base) == (4, 0x40, false) && cause (exec (acc ⟨true, sramBase + 9, 2, [1]⟩) base) == (6, 0x40, false)
      && !user.pmpOk 1 sramBase 4 false && cause (exec (acc ⟨false, sramBase, 4, []⟩) user) == (5, 0x40, false)
      && coreMem 0x30000008 == none && cause (exec (act1 (.amo .add) ⟨false, 0x30000008, 4, [1]⟩) base) == (7, 0x40, false)
      && cause (exec (act1 .illegal ⟨false, 0, 4, []⟩) base) == (2, 0x40, false) := by
  decide +kernel

/-! ## Heartwood's calls -/

/-- GO on channel 1 by core 1 of a call with this operation code and words 1 and on (R422, R423). -/
def call1 (opc : Nat) (ws : List Nat) (s : State) : State :=
  nx (exec (.go (.core 1) 1) (forEach ((opc * 2 ^ 24 :: ws).zipIdx) s (fun (x : Nat × Nat) s => s.setReg .htReq (8 + x.2) (BitVec.ofNat 32 x.1))))

/-- The same on PF0's channel. -/
def call8 (opc : Nat) (ws : List Nat) (s : State) : State :=
  nx (exec (.go .pf0 8) (forEach ((opc * 2 ^ 24 :: ws).zipIdx) s (fun (x : Nat × Nat) s => s.setReg .htReq (64 + x.2) (BitVec.ofNat 32 x.1))))

/-- Heartwood takes channel 1's call next, with this operation code and every reserved bit 0. -/
def stands1 (s : State) (opc : Nat) (used : List Nat) : Bool :=
  s.nextCall 1 && bits (s.reqW 1 0) 31 24 == opc && bits (s.reqW 1 0) 15 0 == 0
    && (List.range 7).all (fun k => s.reqW 1 (k + 1) &&& (0xFFFFFFFF ^^^ used.getD k 0) == 0)

/-- The channel's state, and STATUS, REASON and word 1 of its response. -/
def rsp1 (r : Res) : Nat × Nat × Nat × Nat := let t := nx r
  (t.chan 1, t.fld .htRsp 8 15 12, t.fld .htRsp 8 11 0, (t.reg .htRsp 9).toNat)

/-- Bytes at the start of canopy SRAM, where calls name their block. -/
def inSram (l : List Byte) (s : State) : State := s.sramPut 0 l

theorem witness_go :
    let s := base
    let t := call1 0x18 [] s
    let h := nx (exec (.go (.core 1) 1) (s.setBit .htStat 0 31 true))
    s.chan 1 == 0 && s.flag .htStat 0 30 && t.chan 1 == 1 && t.ht.callq == [(125, .chan 1)] && t.answer == ⟨.ok, []⟩
      && h.chan 1 == 3 && h.fld .htRsp 8 15 12 == 1 && goes (exec (.go (.core 1) 1) t) (t.ans .denied []) && (nx (exec (.go .pf0 1) s)).answer == ⟨.denied, []⟩ && (nx (exec (.go .pf0 1) s)).chan 1 == 0
      && goes (exec (.go (.core 1) 1) (s.setBit .htStat 0 30 false)) ((s.setBit .htStat 0 30 false).ans .denied []) && (nx (exec (.go (.core 1) 8) s)).answer == ⟨.denied, []⟩ && (nx (exec (.go .heartwood 8) s)).fld .msAlarm 0 31 0 == 1 := by
  decide +kernel

theorem witness_call_judged :
    let s := call1 0x18 [] base
    let t := nx (exec (.rekey 1) s)
    let r := call1 0x18 [1] base
    let f := call8 0x18 [] (base.setBit .htStat 0 29 true)
    stands1 s 0x18 [] && t.chan 1 == 3 && t.fld .cxKeygen 0 31 0 == 1 && t.ht.callq == [] && t.dp.asserting.map (·.1) == [713]
      && (nx (exec (.rekey 1) r)).fld .htRsp 8 15 0 == 0xA00A && f.nextCall 8 && (nx (exec (.rekey 8) f)).fld .htRsp 64 15 0 == 0xA00F
      && goes (exec (.rekey 1) base) base := by
  decide +kernel

theorem witness_heartwood_boot :
    let s := ((State.reset.setReg .pbMono 0 3).setReg .pwRstsrc 0 0x50000000)
    let t := nx (exec .heartwoodBoot s)
    let a := nx (exec .heartwoodBoot (s.setReg .pb 0 0x80000000))
    s.fld .cfStat 0 31 28 == 0 && !s.flag .htStat 0 30 && !s.flag .htStat 0 31 && s.pw.warm == none && !s.pw.cold && !s.flag .pbStat 0 31
      && !s.restoreMono.fwValid 0 && !s.restoreMono.fwValid 1
      && t.flag .htStat 0 30 && t.reg .pbMono 0 == 3 && t.ht.monoNvm == 3 && t.fld .pb 2 23 16 == 1 && t.fld .pb 2 15 0 == 1 && t.dp.coresHeld
      && t.reg .pb 5 == 0x10000000 && t.cfState == 1 && a.cfState == 0 && (a.cf.load.map (·.src)) == some (.nvm 0 false)
      && goes (exec .heartwoodBoot base) base := by
  decide +kernel

theorem witness_heartwood_fault :
    let s := call1 0x18 [] base
    let t := nx (exec (.heartwoodFault 2) s)
    t.flag .htStat 0 31 && t.fld .pb 4 31 28 == 2 && t.ht.callq == [] && t.chan 1 == 3 && t.fld .htRsp 8 15 12 == 1
      && goes (exec (.comparatorSelfTest true true) s) s && goes (exec (.comparatorSelfTest true false) s) (nx (exec (.heartwoodFault 3) s)) := by
  decide +kernel

/-! The manual's worked example after R244: tenant 37's vector is refused FORMAT without CELLS and VF, and admitted with them. -/

/-- The vector's six items, then CELLS and VF. -/
def items37 : List Nat :=
  [0x0526C00000000022, 0x0926C03C00020000, 0x0D26D0C020000000, 0x0D26D4C020000000, 0x0D26D8C020000000, 0x0D26DCC020000000,
    0x20000003E80007D0, 0x3404000000000000]

/-- A call of channel 1 whose block is a vector. -/
def vecCall (opc : Nat) (hdr : Nat) (items : List Nat) (s : State) : State :=
  call1 opc [sramBase] (inSram ((hdr :: items).flatMap (toLE 8)) s)

theorem example_R244_admission :
    let s := vecCall 0x01 0x0960000000000008 items37 base
    let b := vecCall 0x01 0x0960000000000006 (items37.take 6) base
    let t := nx (exec (.admitTenant 1) s)
    s.callVector 1 == some (0x0960000000000008, items37) && stands1 s 0x01 blockUsed && (s.taken 1).judgeVector false 0x0960000000000008 items37 == none
      && t.chan 1 == 2 && t.ht.wait == some ⟨1, .commits [18], [0], some (37, none)⟩ && t.tn.adm.rd 37 none == some ⟨2, false, items37.map (BitVec.ofNat 64)⟩
      && t.flag .tlGcal 18 31 && t.tl.commitAt.rd 18 0 == 1001
      && (b.taken 1).judgeVector false 0x0960000000000006 (items37.take 6) == some (1, 0) && rsp1 (exec (.admitTenant 1) b) == (3, 10, 1, 0) := by
  decide +kernel

/-- Tenant 37 holds CELLS, VF 4 and the NoC path from 84 to 37. -/
def small37 : List Nat := [0x20000003E80007D0, 0x3404000000000000, 12 * 2 ^ 58 + 84 * 2 ^ 51 + 37 * 2 ^ 44 + 16 * 2 ^ 32 + 8 * 2 ^ 24]
def adm37 : State := { base with tn := { base.tn with adm := [(37, some ⟨2, false, small37.map (BitVec.ofNat 64)⟩)], bind := [(3, some 37)] } }

theorem witness_extend :
    let pin : Nat := 14 * 2 ^ 58 + 9 * 2 ^ 52
    let s := vecCall 0x02 0x0960000000000001 [pin] adm37
    let b := vecCall 0x02 0x0960000000000001 [pin + 1] adm37
    let h := vecCall 0x02 0x0980000000000001 [pin] adm37
    let t := nx (exec (.extend 1) s)
    stands1 s 0x02 blockUsed && s.addHeader 0x0960000000000001 == none
      && (s.taken 1).judgeAdded 37 ⟨2, false, small37.map (BitVec.ofNat 64)⟩ [pin] == none
      && t.ht.wait == some ⟨1, .commits [], [0], some (37, some ⟨2, false, small37.map (BitVec.ofNat 64)⟩)⟩ && (t.tn.adm.rd 37 none).map (fun v => v.items.length) == some 4
      && ((b.taken 1).judgeAdded 37 ⟨2, false, small37.map (BitVec.ofNat 64)⟩ [pin + 1]).isSome && rsp1 (exec (.extend 1) b) == (3, 10, 1, 1)
      && h.addHeader 0x0980000000000001 == some 0x0F && rsp1 (exec (.extend 1) h) == (3, 10, 0x0F, 0) := by
  decide +kernel

theorem witness_release :
    let noc := small37.drop 2
    let s := vecCall 0x03 0x0960000000000001 noc adm37
    let e := vecCall 0x03 0x0960000000000003 small37 adm37
    let b := vecCall 0x03 0x0960000000000001 (small37.take 1) adm37
    (s.taken 1).releaseBad 0x0960000000000001 noc == none && stands1 s 0x03 blockUsed
      && ((nx (exec (.releaseCall 1) s)).tn.adm.rd 37 none).map (fun v => v.items.length) == some 2
      && (e.taken 1).releaseBad 0x0960000000000003 small37 == none && (nx (exec (.releaseCall 1) e)).tn.adm == []
      && ((b.taken 1).releaseBad 0x0960000000000001 (small37.take 1)) == some (0x0F, 1) && rsp1 (exec (.releaseCall 1) b) == (3, 10, 0x0F, 1) := by
  decide +kernel

theorem witness_regrant :
    let cells : Nat := 8 * 2 ^ 58 + 4000 * 2 ^ 21 + 1000
    let s := vecCall 0x05 0x0960000000000001 [cells] adm37
    let b := vecCall 0x05 0x0980000000000001 [cells] adm37
    stands1 s 0x05 blockUsed && [cells].all (fun i => [8, 10, 12].contains (itKind i) && itemClean i)
      && rsp1 (exec (.regrant 1) s) == (3, 0, 0, 0)
      && ((nx (exec (.regrant 1) s)).tn.adm.rd 37 none).map (fun v => v.items.map BitVec.toNat) == some (cells :: small37.drop 1)
      && rsp1 (exec (.regrant 1) b) == (3, 10, 0x0F, 0) := by
  decide +kernel

theorem witness_vread_and_treset :
    let s := call1 0x06 [37, 0, sramBase, 0, 4] adm37
    let t := nx (exec (.vread 1) s)
    let n := call1 0x06 [38, 0, sramBase, 0, 4] adm37
    let r := call1 0x04 [37] (adm37.setLink 9 ⟨.queued, 37, none, 5, 0⟩)
    let u := nx (exec (.treset 1) r)
    stands1 s 0x06 [0x1FF, 0, allBits, 0xFF, allBits] && rsp1 (exec (.vread 1) s) == (3, 0, 0, 4)
      && t.sramBytes 0 16 == toLE 8 (37 * 2 ^ 54 + 2 * 2 ^ 52 + 3) ++ toLE 8 0x20000003E80007D0
      && rsp1 (exec (.vread 1) n) == (3, 10, 0x0F, 0) && stands1 r 0x04 [0x1FF] && r.admitted 37 && r.cx.inp == []
      && u.ht.wait == some ⟨1, .tenantRun 37 [] none, [], none⟩ && u.cx.tfree.rd 37 [] == [9]
      && rsp1 (exec (.treset 1) (call1 0x04 [38] adm37)) == (3, 10, 0x0F, 0) := by
  decide +kernel

theorem witness_tenant_reset_release :
    let s := { base with
      ht := { base.ht with wait := some ⟨1, .tenantRun 37 [3, 4] (some 900), [], none⟩ }
      tl := { base.tl with recs := [(3088, BitVec.ofNat _ (37 * 2 ^ 182))], rst := { base.tl.rst with d := [(8 * 3088, 7)] } } }
    let u := nx (exec (.tenantResetRelease 3 37) s)
    s.powered 3 && !s.closed 3 && !s.running 3 && rOwner (s.ringRec 193 0) == 37 && u.tl.held.rd 3088 false && u.tl.rst.d == [] && u.ht.wait == some ⟨1, .tenantRun 37 [4] (some 900), [], none⟩ && u.gr.staged.length == 1 := by
  decide +kernel

/-! Keys: the private key 1 has the generator as its public key, and the nonce 1 signs the hash z with r = x of the generator mod n and
s = z + r mod n, by the definition of ECDSA. -/

def keyG : Nat := p384gx * 2 ^ 384 + p384gy
def signG (z : Nat) : List Byte := toBE 48 (p384gx % p384n) ++ toBE 48 ((z + p384gx % p384n) % p384n)
def bytesG : List Byte := toBE 96 keyG
/-- Key slot k holds this key's hash. -/
def fusedG (k : Nat) (s : State) : State :=
  { s with ht := { s.ht with keys := s.ht.keys.wr k keySlotZero ⟨BitVec.ofNat 384 (sha384 bytesG), true, false⟩ } }

/-- A call of channel 1 with this block at the start of canopy SRAM. -/
def blkCall (opc : Nat) (ws : List Nat) (l : List Byte) (s : State) : State := call1 opc (sramBase :: 0 :: ws) (inSram l s)
def adm38 : State := { base with tn := { base.tn with adm := [(38, some ⟨0, false, []⟩)] } }
def keyed38 : State := { adm38 with ht := { adm38.ht with tkeys := [(38, some (BitVec.ofNat 768 keyG))] } }

theorem witness_tkeyset :
    let s := blkCall 0x10 [37] bytesG base
    let b := blkCall 0x10 [37] (toBE 96 (keyG + 1)) base
    let h := blkCall 0x10 [38] bytesG keyed38
    let t := nx (exec (.tkeyset 1) s)
    s.callBlock 1 96 == some bytesG && stands1 s 0x10 (blockUsed ++ [0x1FF, 1]) && onP384 (keyX keyG) (keyY keyG)
      && t.ht.tkeys.rd 37 none == some (BitVec.ofNat 768 keyG) && rsp1 (exec (.tkeyset 1) s) == (3, 0, 0, 0)
      && !onP384 (keyX (keyG + 1)) (keyY (keyG + 1)) && rsp1 (exec (.tkeyset 1) b) == (3, 10, 0x0A, 0)
      && h.admitted 38 && (h.ht.tkeys.rd 38 none).isSome && h.callBlock 1 96 == some bytesG && stands1 h 0x10 (blockUsed ++ [0x1FF, 1]) := by
  decide +kernel

/-- A rotation call stands with its block; a signature over what R417 names verifies, here for DEVID 1 (the statement holds for every DEVID),
and zeros verify for none. Whether the slot held passes its authentication is free (log entry 79): either way a clause of the statement applies. -/
theorem witness_tkeyset_rotation :
    let s := blkCall 0x10 [38, 1] (bytesG ++ List.replicate 96 0) keyed38
    let z := sha384 (toLE 8 1 ++ toLE 2 38 ++ bytesG)
    s.callBlock 1 192 == some (bytesG ++ List.replicate 96 0) && s.admitted 38 && (s.ht.tkeys.rd 38 none).isSome && !ecdsaOk keyG z 0 && ecdsaOk keyG z (bytesBE (signG z)) := by
  decide +kernel

theorem witness_tkeyclr :
    let s := call1 0x11 [0, 0, 38] { keyed38 with tn := base.tn }
    let a := call1 0x11 [0, 0, 38] keyed38
    stands1 s 0x11 [0, 0, 0x1FF] && !s.admitted 38 && (nx (exec (.tkeyclr 1) s)).ht.tkeys == [] && rsp1 (exec (.tkeyclr 1) s) == (3, 0, 0, 0)
      && a.admitted 38 && rsp1 (exec (.tkeyclr 1) a) == (3, 10, 0x0F, 0) := by
  decide +kernel

theorem witness_opkeyprog :
    let hash := toBE 48 (sha384 bytesG)
    let l := hash ++ List.replicate 192 0
    let s := blkCall 0x12 [0] l base
    let t := nx (exec (.opkeyprog 1) s)
    let p := blkCall 0x12 [1] l (fusedG 1 base)
    let z := sha384 (toLE 8 1 ++ [0x12, 2] ++ hash)
    stands1 s 0x12 (blockUsed ++ [0x33]) && s.callBlock 1 240 == some l && (List.range 4).all (fun i => !(s.keySlot i).prog)
      && (t.keySlot 0).usable && t.keyOk 0 keyG && rsp1 (exec (.opkeyprog 1) s) == (3, 0, 0, 0)
      && (p.keySlot 1).prog && rsp1 (exec (.opkeyprog 1) p) == (3, 10, 0x0F, 0)
      && (fusedG 0 base).keyOk 0 keyG && ecdsaOk keyG z (bytesBE (signG z)) := by
  decide +kernel

theorem witness_opkeyrev :
    let s := blkCall 0x13 [0x11] (List.replicate 192 0) (fusedG 1 base)
    let u := blkCall 0x13 [0x02] (List.replicate 192 0) (fusedG 1 base)
    let z := sha384 (toLE 8 1 ++ [0x13, 1] ++ List.replicate 48 0)
    stands1 s 0x13 (blockUsed ++ [0x33]) && (s.keySlot 1).usable && rsp1 (exec (.opkeyrev 1) s) == (3, 10, 0x0D, 0) && !(u.keySlot 2).usable
      && rsp1 (exec (.opkeyrev 1) u) == (3, 10, 0x0D, 0) && (fusedG 0 (fusedG 1 base)).keyOk 0 keyG && ecdsaOk keyG z (bytesBE (signG z)) := by
  decide +kernel

/-- An image of NOPs with security version 5, signed with slot 0's key: header, section and tail (R436, R437). -/
def image0 (svn wdog : Nat) (body : List Word) : List Word :=
  let h : List Word := [BitVec.ofNat 32 hMagic, 0xFF000001, BitVec.ofNat 32 (4 * body.length), 0, BitVec.ofNat 32 svn, BitVec.ofNat 32 wdog]
    ++ List.replicate 10 0
  h ++ body ++ bytesWords (bytesG ++ signG (sha384 (wordsBytes (h ++ body) ++ bytesG)))

theorem witness_rollfwd :
    let s := (fusedG 0 base).nvmPut 0x200 (wordsBytes (image0 5 0 (List.replicate 7 0)))
    let s := call1 0x14 [5] { (s.setReg .pb 1 0x200) with ht := { s.ht with fwSvn := 6 } }
    let m := call1 0x14 [4] ((fusedG 0 base).setReg .pbMono 0 4)
    stands1 s 0x14 [allBits] && rsp1 (exec (.rollfwd 1) s) == (3, 0, 0, 0) && (nx (exec (.rollfwd 1) s)).reg .pbMono 0 == 5
      && m.seedSvn == none && rsp1 (exec (.rollfwd 1) m) == (3, 10, 0x0E, 0) := by
  decide +kernel

/-- A debug token of slot 0 for mask 3, expiring at second 9; it names device 1. -/
theorem witness_debug :
    let tok := toLE 8 1 ++ [3, 0] ++ List.replicate 6 0 ++ toLE 6 9 ++ List.replicate 26 0
    let l := tok ++ bytesG ++ signG (sha384 tok)
    let s := blkCall 0x30 [] l (fusedG 0 base)
    let b := blkCall 0x30 [] (tok ++ bytesG ++ List.replicate 96 0) (fusedG 0 base)
    stands1 s 0x30 blockUsed && s.callBlock 1 240 == some l && s.keyOk 0 keyG
      && !s.flag .pbStat 0 30 && rsp1 (exec (.debugCall 1) s) == (3, 10, 0x0F, 0) && rsp1 (exec (.debugCall 1) b) == (3, 10, 0x0C, 0) := by
  decide +kernel

theorem witness_debugend :
    let s := { base with ht := { base.ht with dbg := [⟨3, 0, 9⟩, ⟨4, 1, 10⟩] } }
    let c := call1 0x31 [] s
    stands1 c 0x31 [] && (nx (exec (.debugend 1) c)).ht.dbg == [] && (nx (exec .debugTokenExpiry s)).ht.dbg == s.ht.dbg
      && (nx (exec .debugTokenExpiry { s with ht := { s.ht with rtcSec := 9 } })).ht.dbg == [⟨4, 1, 10⟩] := by
  decide +kernel

/-! Calls that set and read what the device holds. -/

theorem witness_simple_calls :
    let i := call1 0x00 [] base
    let p := call1 0x21 [] base
    let b := call1 0x19 [1] base
    let c := call1 0x19 [0x80000001] base
    let t := call1 0x1D [0x80000003] base
    let r := call1 0x22 [7, 1] base
    let l := nx (exec (.rtcReadLatch .heartwood) (nx (exec (.rtcset 1) r)))
    stands1 i 0x00 [] && stands1 p 0x21 [] && rsp1 (exec (.pbread 1) p) == (3, 0, 0, 0)
      && stands1 b 0x19 [0x8000000F] && b.online 1 && !(nx (exec (.bankCall 1) b)).online 1 && rsp1 (exec (.bankCall 1) c) == (3, 10, 0x0F, 0)
      && stands1 t 0x1D [0x80000007] && (nx (exec (.trnom 1) t)).reg .dpTrnom 0 == 0x80000003
      && stands1 r 0x22 [allBits, 0xFFFF] && (nx (exec (.rtcset 1) r)).ht.rtcSec == 0x100000007 && (nx (exec (.rtcset 1) r)).flag .pbStat 0 30
      && l.answer == ⟨.ok, [7]⟩ && l.reg .pbRtch 0 == 1 := by
  decide +kernel

theorem witness_domain_call :
    let off := call1 0x1A [5] base
    let on := call1 0x1A [0x80000005] ((base.setPwr 5 false).setFen 5 true)
    let bank := call1 0x1A [81] base
    let t := nx (exec (.domainCall 1) off)
    let u := nx (exec (.domainCall 1) on)
    stands1 off 0x1A [0x8000007F] && off.powered 5 && !off.closed 5 && off.fld .cfStat 0 31 28 == 5 && t.pw.fenceAsk.rd 5 false && t.chan 1 == 2
      && t.ht.wait == some ⟨1, .domain 5 false, [], none⟩ && !on.powered 5 && on.closed 5 && u.pw.restoring.rd 5 false && u.ht.wait == some ⟨1, .domain 5 true, [], none⟩
      && bank.online 1 && rsp1 (exec (.domainCall 1) bank) == (3, 10, 0x0F, 0) && rsp1 (exec (.domainCall 1) (call1 0x1A [0x80000005] base)) == (3, 10, 0x0F, 0) := by
  decide +kernel

theorem witness_rates_and_pins :
    let s := call1 0x1B [3, 70] base
    let low := call1 0x1B [3, 70]
      { base with tn := { base.tn with adm := [(37, some ⟨0, false, [BitVec.ofNat 64 (9 * 2 ^ 58 + 3 * 2 ^ 40), BitVec.ofNat 64 (10 * 2 ^ 58 + 71)]⟩)] } }
    let p := call1 0x1C [9 + 4 * 2 ^ 8] base
    let q := call1 0x1C [9 + 10 * 2 ^ 8] base
    let x := call1 0x1C [9 + 4 * 2 ^ 8] (base.ownPin 9 10 37)
    stands1 s 0x1B [0x7F, 0x7FFFFFFF] && portSum (s.othersOf 1024) 3 == 0 && (nx (exec (.portrate 1) s)).reg .qePrate 3 == 70
      && portSum (low.othersOf 1024) 3 == 71 && rsp1 (exec (.portrate 1) low) == (3, 10, 4, 0)
      && stands1 p 0x1C [0xF3F] && (nx (exec (.pinown 1) p)).pinOwner 9 == 4 && rsp1 (exec (.pinown 1) q) == (3, 10, 0x0A, 0)
      && x.pinOwner 9 == 10 && rsp1 (exec (.pinown 1) x) == (3, 10, 0x0F, 0) := by
  decide +kernel

theorem witness_bootcfg :
    let s := call1 0x20 [0x80000000, 0x80000000, 0x200] base
    let k := call1 0x20 [0x80000000, 0, 0x200] base
    let b := call1 0x20 [0x80000000, 0x80000000, 0x201] base
    stands1 s 0x20 [0x80000000, 0x80000000, allBits] && (nx (exec (.bootcfg 1) s)).reg .pb 0 == 0x80000000 && (nx (exec (.bootcfg 1) s)).reg .pb 1 == 0x200
      && (nx (exec (.bootcfg 1) k)).reg .pb 1 == base.reg .pb 1 && rsp1 (exec (.bootcfg 1) b) == (3, 10, 0x0B, 0) := by
  decide +kernel

theorem witness_nvmwrite :
    let l : List Byte := 7 :: 8 :: List.replicate 510 0
    let s := call1 0x29 [sramBase, 0, 0x400, 512] (inSram [7, 8] base)
    let b := call1 0x29 [sramBase, 0, 0x401, 512] base
    let t := nx (exec (.nvmwrite 1) s)
    stands1 s 0x29 (blockUsed ++ [allBits, allBits]) && s.callBlock 1 512 == some l && rsp1 (exec (.nvmwrite 1) s) == (3, 0, 0, 0)
      && t.cf.nvm == [(0x400, 7), (0x401, 8)] && rsp1 (exec (.nvmwrite 1) b) == (3, 10, 0x0B, 0) := by
  decide +kernel

/-- A firmware copy of 8 bytes with version 5, signed with slot 0's key (R419). -/
def firmware0 : List Byte :=
  let l := toLE 4 0x46434B53 ++ [1, 0, 0, 0] ++ toLE 4 5 ++ toLE 4 8 ++ toLE 4 2 ++ List.replicate 44 0 ++ bytesG ++ [1, 2, 3, 4, 5, 6, 7, 8]
  l ++ signG (sha384 l)

theorem witness_fwwrite :
    let s := call1 0x28 [sramBase, 0, 1, firmware0.length] (inSram firmware0 (fusedG 0 base))
    let t := nx (exec (.fwwrite 1) s)
    firmware0.length == 264 && stands1 s 0x28 (blockUsed ++ [1, allBits]) && rsp1 (exec (.fwwrite 1) s) == (3, 0, 0, 5)
      && t.nvmBytes 0x1B00000 8 == firmware0.take 8 := by
  decide +kernel

theorem witness_fwwrite_refused :
    let s := call1 0x28 [sramBase, 0, 1, firmware0.length] (inSram firmware0 base)
    s.callBlock 1 264 == some firmware0 && s.fwReason firmware0 == some 0x0D && rsp1 (exec (.fwwrite 1) s) == (3, 10, 0x0D, 0) := by
  decide +kernel

/-! ## Configuration and loading -/

/-- Tail words of an image of this length, and its header. -/
def hdrOf (svn wdog : Nat) (n : Nat) : List Word := (image0 svn wdog (List.replicate n 0)).take 16

/-- Only grove 3 has power. -/
def dim (s : State) : State := ((s.setReg .pwDompwr 0 8).setReg .pwDompwr 1 0).setReg .pwDompwr 2 0

/-- A load from this source with this header; a device that runs it. -/
def load0 (src : LoadSrc) : Load := { newLoad src false with ready := true, started := true, hdr := hdrOf 5 9 200, setDev := true }
def loading0 (l : Load) : State := { (base.setCfState 2) with cf := { base.cf with load := some l } }

theorem witness_session_start :
    let s := { base with hi := { base.hi with bar2 := [BitVec.ofNat 32 hMagic, 7] } }
    let t := nx (exec (.sessionStart .bar2 (BitVec.ofNat 32 hMagic)) s)
    let r := nx (exec (.sessionStart .pcp (BitVec.ofNat 32 readbackMagic)) base)
    let d := nx (exec (.sessionStart .scp 9) base)
    (s.portWords .bar2 [BitVec.ofNat 32 hMagic]).isSome && s.cf.sess == none && s.cf.load == none && s.cfState == 5
      && t.cf.sess == some ⟨.bar2, .image, 1000⟩ && t.flag .cfStat 0 27 && t.fld .cfStat 0 26 25 == 3 && t.hi.bar2 == [7]
      && r.cf.sess == some ⟨.pcp, .readback, 1000⟩ && d.cf.sess == none && d.fld .cfDisc 0 31 0 == 1 := by
  decide +kernel

theorem witness_header_check :
    let s := (fusedG 0 base).setSess (some ⟨.pcp, .image, 900⟩)
    let h := hdrOf 5 0 7
    let t := nx (exec (.headerCheck (h.drop 1)) s)
    let u := nx (exec (.headerCheck (h.drop 1)) (base.setSess (some ⟨.pcp, .image, 900⟩)))
    s.headerCause h [] == none && unwrapKey h [] == some 0 && !hGraft h && hNkb h == 0
      && (t.cf.load.map (fun l => (l.ready, l.started, l.fromSafe, l.ckey))) == some (true, false, false, 0) && (t.cf.load.map (·.hdr)) == some h
      && u.cf.load == none && u.fld .pb 3 31 24 == 8 && u.fld .pb 3 15 14 == 2 && u.cf.sess == some ⟨.pcp, .skip, 1000⟩ := by
  decide +kernel

theorem witness_session_ends :
    let s (p : CfgPort) : State := base.setSess (some ⟨p, .image, 1000⟩)
    let t := nx (exec .sessionTimeout (at' (s .pcp) 160001000))
    let u := nx (exec .scpTruncation (s .scp))
    goes (exec .sessionTimeout (at' (s .pcp) 160000999)) (at' (s .pcp) 160000999) && t.cf.sess == none && t.fld .pb 3 31 24 == 0x0A && t.fld .pb 3 15 14 == 2
      && u.cf.sess == none && u.fld .pb 3 31 24 == 0x0B && u.fld .pb 3 15 14 == 1 := by
  decide +kernel

theorem witness_nvm_preverify :
    let s := ((fusedG 0 base).nvmPut 0x200 (wordsBytes (image0 5 0 (List.replicate 7 0)))).setLoad (some (newLoad (.nvm 0x200 false) false))
    let t := nx (exec (.nvmPreverify false) s)
    let u := nx (exec (.nvmPreverify true) s)
    (t.cf.load.map (·.ready)) == some true && s.nvmCause 0x200 true == some 15 && u.cf.load == none && u.fld .pb 3 31 24 == 15
      && u.cfState == 5 := by
  decide +kernel

theorem witness_full_load_start :
    let l := { load0 (.host .pcp) with started := false }
    let s := { runs 3 base with cf := { base.cf with load := some l }, tn := adm38.tn }
    let t := nx (exec .fullLoadStart s)
    s.ht.wait == none && (t.cf.load.map (·.started)) == some true && t.cfState == 2 && !t.running 3 && t.tn.adm == [] && (t.link 9).owner == (s.link 9).owner && t.fld .cfLoads 0 31 16 == 1
      && goes (exec .fullLoadStart (loading0 (load0 (.host .pcp)))) (loading0 (load0 (.host .pcp))) := by
  decide +kernel

theorem witness_load_fail :
    let s := loading0 (load0 (.host .scp))
    let t := nx (exec (.loadFail 0x11) s)
    let n := dim (loading0 (load0 (.nvm 0x200 true)))
    let u := nx (exec (.loadFail 0x0F) n)
    let f := nx (exec (.loadFail 0x0F) ((dim (loading0 { load0 (.nvm 0x200 true) with fallback := true })).setReg .pb 3 0x02004000))
    t.cfState == 6 && t.fld .pb 3 31 24 == 0x11 && t.fld .pb 3 15 14 == 1 && (t.cf.load.map (·.src)) == some (.nvm (s.reg .pb 1).toNat true)
      && t.fld .cfLoads 0 15 0 == 1 && u.cfState == 7 && u.cf.load == none && n.powered 3 && !u.powered 3 && u.fld .pb 3 31 24 == 0x0F
      && f.reg .pb 3 == 0x0200400F && f.cfState == 7 := by
  decide +kernel

theorem witness_watchdog :
    let s := { (dim (base.setBit .cfStat 0 23 true)) with cf := { base.cf with runSrc := some (.nvm 0x200 true), wdogAt := 5000 } }
    let t := nx (exec .watchdogExpiry (at' s 5000))
    s.cfState == 5 && goes (exec .watchdogExpiry (at' s 4999)) (at' s 4999) && t.cfState == 7 && t.fld .pb 3 31 24 == 0x0E && !t.flag .cfStat 0 23
      && !(nx (exec (.wdclr .pf0 0x20000000) s)).flag .cfStat 0 23 && (nx (exec (.wdclr .pf0 0x20000000) s)).answer == ⟨.ok, []⟩ := by
  decide +kernel

theorem witness_reload :
    let t := nx (exec (.reload .pf0 0x80000000) base)
    (t.cf.load.map (fun l => (l.src, l.ready))) == some (base.nvmSrc 0, false) && t.answer == ⟨.ok, []⟩ && goes (exec (.reload .pf0 0x80000000) t) (t.ans .denied []) := by
  decide +kernel

/-- The next words of a load from PCP spell a whole command of this operation (R440, R441). -/
def spells (s : State) (op : Nat) (ws : List Word) : Bool :=
  match s.commanding with
  | none => false
  | some l => (s.nextWords l (16 + l.cipher.length) ws).isSome && bits (ws.getD 0 0).toNat 31 28 == op && cmdLen (ws.getD 0 0) == some ws.length
      && plainWords l.hdr l.ckey (4 * l.cipher.length) ws == ws && hKeyWords l.hdr == 0 && l.cipher.length + ws.length < hLength l.hdr / 4 && l.setDev == (op != 5)

/-- A frame of tile memory: tile 1 of grove 1, from word 64. -/
def memAddr : Nat := 2 * 2 ^ 28 + 1 * 2 ^ 22 + 1 * 2 ^ 16 + 64
def ld : State := loading0 (load0 (.host .pcp))

theorem witness_frame_write :
    let ws : List Word := 0x10000030 :: BitVec.ofNat 32 memAddr :: 0x03020100 :: List.replicate 47 0
    let t := nx (exec (.frameWrite ws) ld)
    let short : List Word := [0x10000001, BitVec.ofNat 32 memAddr, 0]
    let late := { load0 (.host .pcp) with phase := 2 }
    let v : List Word := [0x10000002, 0x60001000, 0, 0]
    spells ld 1 ws && fKind memAddr == 2 && frameWords memAddr 0 == some 48 && t.tmem 65 64 == 0x000102 && t.tmem 65 65 == 0x030000
      && (t.cf.load.map (fun l => (l.phase, l.checked, l.cipher.length))) == some (2, false, 50)
      && spells ld 1 short && (nx (exec (.frameWrite short) ld)).cfState == 6 && (nx (exec (.frameWrite short) ld)).fld .pb 3 31 24 == 5
      && isVector 0x60001000 && spells (loading0 late) 1 v && (nx (exec (.frameWrite v) (loading0 late))).cfState == 6 := by
  decide +kernel

theorem witness_frame_fill_and_repeat :
    let ws : List Word := [0x30000000, BitVec.ofNat 32 memAddr, 0x07070707]
    let t := nx (exec (.frameFill ws) ld)
    let bad : List Word := [0x30000000, 0x60001000, 0]
    let p := loading0 { load0 (.host .pcp) with phase := 2, prev := some (BitVec.ofNat 32 memAddr, 0x03020100 :: List.replicate 47 0) }
    let rep : List Word := [0x20000001, BitVec.ofNat 32 (memAddr + 64), 64]
    spells ld 3 ws && t.tmem 65 127 == 0x070707 && spells ld 3 bad && (nx (exec (.frameFill bad) ld)).cfState == 6
      && spells p 2 rep && repeatAddrs rep == [memAddr + 64] && (nx (exec (.frameRepeat rep) p)).tmem 65 128 == 0x000102
      && spells ld 2 rep && (nx (exec (.frameRepeat rep) ld)).cfState == 6 := by
  decide +kernel

theorem witness_memory_write :
    let ws : List Word := [0x40000002, 8, 77, 78]
    let t := nx (exec (.memoryWrite ws) ld)
    spells ld 4 ws && t.dp.csram == [(0x100002, 77), (0x100003, 78)] && (t.cf.load.map (·.phase)) == some 2 := by
  decide +kernel

theorem witness_set_device :
    let s := loading0 { load0 (.host .pcp) with setDev := false }
    let ws : List Word := [0x50000000, 0x80000000, 0x00030005, 0x00000123]
    let t := nx (exec (.setDevice ws) s)
    spells s 5 ws && s.reg .ncMode 0 != 0x80000000 && t.nc.newMode == some 0x80000000 && t.flag .lnGcfg 0 31 && !t.flag .lnGcfg 1 31
      && (t.cf.load.map (fun l => (l.setDev, l.pllen, l.supply))) == some (true, 3, 0x123) && t.reg .ncMode 0 == s.reg .ncMode 0 := by
  decide +kernel

theorem witness_nop_order_checkpoint :
    let n : List Word := [0]
    let o : List Word := [0x60000006, 0x00050004]
    let c : List Word := [0x70000000, ~~~(load0 (.host .pcp)).crc]
    let t := nx (exec (.releaseOrder o) ld)
    let k := nx (exec (.checkpoint c) ld)
    spells ld 0 n && ((nx (exec (.nopCmd n) ld)).cf.load.map (fun l => l.cipher.length)) == some 1 && (nx (exec (.nopCmd [1]) ld)).cfState == 6
      && spells ld 6 o && (t.cf.load.map (fun l => (l.order, l.gap1, l.gap2, l.ordered))) == some ([0, 1, 2], 4, 5, true)
      && (nx (exec (.releaseOrder [0x60000004, 0]) ld)).cfState == 6
      && spells ld 7 c && (k.cf.load.map (fun l => (l.checked, l.crc))) == some (true, 0xFFFFFFFF)
      && (nx (exec (.checkpoint [0x70000000, 5]) ld)).cfState == 6 && (nx (exec (.checkpoint [0x70000000, 5]) ld)).fld .pb 3 31 24 == 4 := by
  decide +kernel

theorem witness_end_and_record :
    let e (checked vec : Bool) : State := loading0 { load0 (.host .pcp) with checked := checked, opVec := vec, hdr := hdrOf 5 9 7, cipher := List.replicate 6 0 }
    let t := nx (exec (.endCmd [0x80000000]) (e true true))
    let v := nx (exec (.endCmd [0x80000000]) (e true false))
    let c := nx (exec (.endCmd [0x80000000]) (e false true))
    let r := nx (exec (.recordWrite [0x90000000]) ld)
    let bad : State := { e true true with gp := { base.gp with outTab := some [2, 0, 0, 0] } }
    (e true true).commanding.isSome && 4 * 7 == hLength (hdrOf 5 9 7) && !(e true true).fifoTakenBad && bad.outTabBad none (some [2, 0, 0, 0]) && (nx (exec (.endCmd [0x80000000]) bad)).fld .pb 3 31 24 == 12 &&
      !(e true true).outTabBad none none && (t.cf.load.map (·.ended)) == some true
      && v.cfState == 6 && v.fld .pb 3 31 24 == 12 && c.fld .pb 3 31 24 == 5 && r.fld .pb 3 31 24 == 5 := by
  decide +kernel

/-- A whole image of seven NOPs has come; its tail follows. -/
theorem witness_image_verify :
    let body : List Word := List.replicate 7 0
    let ws := image0 5 0 body
    let l := { load0 (.host .pcp) with hdr := ws.take 16, cipher := body, ended := true }
    let s := fusedG 0 (loading0 l)
    let s := { s with cf := { s.cf with load := some l } }
    let t := nx (exec (.imageVerify (ws.drop 23)) s)
    let u := nx (exec (.imageVerify (List.replicate 48 0)) s)
    (ws.drop 23).length == hTailWords l.hdr && t.cfState == 3 && t.cf.sess == none
      && (t.cf.load.map (·.lockBy)) == some 16001000 && s.sigCause l.hdr [] body (List.replicate 48 0) 0 == some 8 && u.cfState == 6 && u.fld .pb 3 31 24 == 8 := by
  decide +kernel

theorem witness_lock_and_release :
    let l := { load0 (.host .pcp) with ended := true, lockBy := 2000, pllen := 1, order := [0, 1, 2], gap1 := 4, gap2 := 5, relAt := 1000 }
    let k := { (base.setCfState 3) with cf := { base.cf with load := some l } }
    let on := k.setBit .lnGcfg 0 30 true
    let off := (k.setBit .ckStat 0 31 false)
    let r (n : Nat) : State := { (base.setCfState 4) with cf := { base.cf with outDone := false, wenGrove := [], load := some { l with relStep := n } } }
    on.flag .ckStat 0 31 && (nx (exec .pllLockWait on)).cfState == 4 && goes (exec .pllLockWait (at' off 1999)) (at' off 1999)
      && (nx (exec .pllLockWait (at' off 2000))).cfState == 6 && (nx (exec .pllLockWait (at' off 2000))).fld .pb 3 31 24 == 0x0D
      && (nx (exec .stageOut (r 0))).cf.outDone && ((nx (exec .stageOut (r 0))).cf.load.map (fun l => (l.relStep, l.relAt))) == some (1, 1004)
      && (nx (exec .stageWen (r 1))).cf.wenGrove.rd 63 false && ((nx (exec .stageRun (r 2))).pw.runNext.rd 63 false) && !(nx (exec .stageRun (r 2))).running 3
      && goes (exec .stageOut (r 1)) (r 1) && goes (exec .stageWen (r 0)) (r 0) && goes (exec .stageRun (r 0)) (r 0)
      && (r 3).tickRelease.cfState == 5 && (r 3).tickRelease.cf.load == none && (r 3).tickRelease.cf.wdogAt == 1000 + 9 * 1600000 := by
  decide +kernel

theorem witness_readback :
    let s := { (base.setTmem 65 64 0x000102).setSess (some ⟨.bar2, .readback, 900⟩) with hi := { base.hi with bar2 := [BitVec.ofNat 32 memAddr, 1, 0] } }
    let t := nx (exec (.readback [BitVec.ofNat 32 memAddr, 1, 0]) s)
    let p := base.setSess (some ⟨.pcp, .readback, 900⟩)
    rbWords memAddr == some 48 && !s.loading && t.cf.sess == none && t.cf.reply.length == 50 && (t.cf.reply.getD 1 0) == 0x00020100
      && (nx (exec (.readback [BitVec.ofNat 32 memAddr, 0, 0]) p)).line == [10]
      && (nx (exec (.readback [BitVec.ofNat 32 memAddr, 0, 0]) (base.setSess (some ⟨.scp, .readback, 900⟩)))).line == [5, 0, 10, 0, 0, 0, 0, 0, 0] := by
  decide +kernel

theorem witness_masks :
    let s := { base with tl := { base.tl with recs := [(16 * 65 + 2, BitVec.ofNat _ (37 * 2 ^ 182))] } }
    let w := s.setBoth .tlWin (16 * 65 + 2) 27 16 64
    s.ringMasked 65 2 && !s.ringMasked 65 3 && (w.wordMasked 65 0 || !w.inWindow 65 2 0) := by
  decide +kernel

/-! ## Grafts -/

/-- A graft file of tenant 38 (R479): its section, signed with its key, the generator. -/
def graft0 (body : List Word) : List Word :=
  let h : List Word := [BitVec.ofNat 32 hMagic, 0xFF000001, BitVec.ofNat 32 (4 * body.length), 0x00040000] ++ List.replicate 12 0
  h ++ body ++ bytesWords (bytesG ++ signG (sha384 (wordsBytes (h ++ body) ++ bytesG)))

/-- A NOP, a RECORD_WRITE of group 0 of tile 1.1 with no members, CHECKPOINT and END. -/
def section0 : List Word :=
  let r : List Word := [0, 0x93000001, BitVec.ofNat 32 (65 * 2 ^ 20), 0]
  r ++ [0x70000000, crc32c (wordsBytes r), 0x80000000]

/-- The owner of VF 3 has submitted this file; group 0 of tile 1.1 is the owner's. -/
def submitted (o : Nat) (s : State) (file : List Word) : State :=
  let s := (s.setBoth .tlGrp (16 * 65) 31 22 o).setFld .hiGstat 3 31 30 2
  { s with
    tn := { s.tn with bind := [(3, some (BitVec.ofNat 10 o))] }
    hi := { s.hi with gstage := [(3, file)] }
    ht := { s.ht with callq := [(125, .graft 3)] } }

/-- The operator's VF: no slot of the sealed registry, whose seal may fail, is read. -/
theorem witness_graft_check :
    let s := submitted 512 (fusedG 0 base) (graft0 section0)
    let t := nx (exec .graftCheck s)
    let sh : GShadow := ⟨.file opTag 0, 3, 65, 0, 0, some 1000⟩
    s.htFree && s.gState 3 == 2 && s.boundTag 3 == some opTag
      && t.gr.sh == [sh] && t.gr.req == [⟨.file opTag 0, 1, 1000⟩] && t.gr.files == [⟨.file opTag 0, some 3, [1], false⟩] && t.gState 3 == 2 && t.ht.callq == [] := by
  decide +kernel

/-- A tenant with no key, and a file cut short. -/
theorem witness_graft_refused :
    let s := submitted 38 adm38 ((graft0 section0).take 70)
    let t := nx (exec .graftCheck s)
    let u := nx (exec .graftCheck (submitted 38 adm38 (graft0 section0)))
    let z := s.setBit .htStat 0 31 true
    t.gState 3 == 3 && t.fld .hiGstat 3 15 12 == 10 && t.fld .hiGstat 3 23 16 == 0x20 && t.gr.sh == [] && u.fld .hiGstat 3 23 16 == 0x0D
      && !z.htFree && goes (exec .graftCheck z) z := by
  decide +kernel

theorem witness_operator_graft :
    let ws := (graft0 section0).drop 1
    let s := base.setSess (some ⟨.pcp, .image, 900⟩)
    let t := nx (exec (.operatorGraftSession ws) s)
    let u := nx (exec (.operatorGraftSession ws) (s.setCfState 1))
    let h := nx (exec (.headerCheck (ws.take 15)) s)
    let v := nx (exec (.operatorGraftSession (ws.drop 15)) h)
    let w := nx (exec .sessionTimeout (at' h 160002000))
    let x := nx (exec (.headerCheck (ws.take 15)) (s.setCfState 1))
    hGraft ((graft0 section0).take 16) && (graft0 section0).length == hTotal ((graft0 section0).take 16) && s.cfState == 5
      && t.reg .cfOgstat 0 == 0x80000000 && t.gr.opStage.length == 71 && t.ht.callq == [(125, .opGraft)] && t.cf.sess == none
      && u.reg .cfOgstat 0 == 0xC00FA000 && u.gr == s.gr && u.cf.sess == none
      && h.reg .cfOgstat 0 == 0x40000000 && v.gr.opStage == t.gr.opStage && v.reg .cfOgstat 0 == 0x80000000
      && w.reg .cfOgstat 0 == 0xC0009000 && w.cf.sess == none && w.reg .pb 3 == h.reg .pb 3
      && x.reg .cfOgstat 0 == 0xC00FA000 && (x.cf.sess.map (·.kind)) == some .skip := by
  decide +kernel

/-- Commands of tenant 38 at the graft port. -/
def port0 (ws : List CWord) (s : State) : State := { s with gr := { s.gr with cmds := [ws] } }
def rec0 (d : Nat) : List CWord := [⟨38, false, 1, 0x134000⟩, ⟨38, false, 0, BitVec.ofNat 24 (65 * 2 ^ 12)⟩, ⟨38, false, 4, BitVec.ofNat 24 d⟩]
def grp0 : State := base.setBoth .tlGrp (16 * 65) 31 22 38

theorem witness_graft_port :
    let t := nx (exec .graftPortRecord (port0 (rec0 0) grp0))
    let e := nx (exec .graftPortRecord (port0 (rec0 0) base))
    let c : List CWord := [⟨38, false, 7, 0x204000⟩]
    let d : List CWord := [⟨38, false, 7, 0x304000⟩]
    let u := nx (exec .graftPortCommit (port0 c t))
    let v := nx (exec .graftPortDiscard (port0 d t))
    let m := nx (exec .graftPortCommandDiscard (port0 [⟨38, false, 1, 0⟩, ⟨37, false, 4, 0⟩] base))
    let b : List CWord := [⟨38, false, 7, 0x204001⟩]
    !portMalformed (rec0 0) && portBad (rec0 0) == none && pOp (rec0 0) == 1
      && t.gr.sh == [⟨.port 38 1, 3, 65, 0, 0, none⟩] && t.fld .cfGpcnt 0 31 16 == 1 && t.gr.cmds == []
      && e.gr.sh == [] && e.fld .cfGpcnt 0 15 0 == 1 && e.ht.recs.length == 1
      && pOp c == 2 && portBad c == none && u.gr.req == [⟨.port 38 1, 1, 1000⟩] && u.gr.sh == [⟨.port 38 1, 3, 65, 0, 0, some 1000⟩] && pOp d == 3 && v.gr.sh == []
      && portBad b == some 0x21 && (nx (exec .graftPortCommit (port0 b t))).fld .cfGpcnt 0 15 0 == 1
      && portMalformed [⟨38, false, 1, 0⟩, ⟨37, false, 4, 0⟩] && m.fld .cfGpdisc 0 31 0 == 1 && m.fld .msAlarm 0 31 0 == 1 := by
  decide +kernel

theorem witness_graft_release :
    let h : GShadow := ⟨.file 38 0, 0, 65, 2, BitVec.ofNat 192 (38 * 2 ^ 182), some 999⟩
    let s := { base with gr := { base.gr with sh := [h], req := [⟨h.org, 1, 999⟩] } }
    let t := nx (exec (.graftCommit 1) s)
    let x : Staged := ⟨1, 900, some (.file 38 0), none, false, [1042], [], []⟩
    let w (fc : Nat) (x : Staged) : State := { runs 1 base with
      fc := fc, gr := { base.gr with staged := [x], files := [⟨.file 38 0, some 3, [1], false⟩] }
      tl := { (runs 1 base).tl with held := [(1042, true)] } }
    let u := nx (exec (.graftWen 1) (w 916 x))
    let y := { x with wen := true }
    let r := nx (exec (.graftRun 1) (w 932 y))
    let z : Staged := ⟨1, 916, some (.port 38 1), none, true, [1043], [], []⟩
    let q := { w 932 y with gr := { (w 932 y).gr with staged := [y, z] }, tl := { (w 932 y).tl with held := [(1042, true), (1043, true)] } }
    let p := nx (exec (.graftRun 1) q)
    s.graftDue 1 999 && !s.graftDue 1 1000 && rOwner (t.ringRec 65 2) == 38 && t.tl.held.rd 1042 false && t.gr.sh == [] && t.gr.req == []
      && t.gr.staged == [⟨1, 1000, some h.org, none, false, [1042], [], []⟩]
      && u.gr.staged == [y] && goes (exec (.graftWen 1) (w 915 x)) (w 915 x) && (w 932 y).running 1 && (w 932 y).fld .tlGphase 1 5 0 == 0
      && r.gr.staged == [] && !r.tl.held.rd 1042 false && r.gr.files == [] && r.gState 3 == 3 && r.fld .hiGstat 3 15 12 == 0
      && goes (exec (.graftRun 1) (w 931 y)) (w 931 y)
      && p.gr.staged == [z] && !p.tl.held.rd 1042 false && p.tl.held.rd 1043 false := by
  decide +kernel

/-- A RECORD of FIFO 0 of grove 1 with SIZE 0b11, which no FIFO consumes, is refused with 0x24 (R162). -/
theorem witness_graft_port_fifo :
    let c : List CWord := [⟨38, false, 1, 0x144000⟩, ⟨38, false, 0, BitVec.ofNat 24 (88 * 2 ^ 12)⟩, ⟨38, false, 0, 0⟩, ⟨38, false, 0, 0xC0⟩, ⟨38, false, 4, 0⟩]
    let s := port0 c (base.setBoth .ffOwn 8 31 22 38)
    let v := s.popPort.putRec 4 88 0 0xC0000000
    let t := nx (exec .graftPortRecord s)
    !portMalformed c && portBad c == none && pOp c == 1 && s.popPort.recReason (pOrigin c) 4 88 0 0xC0000000 == none && v.takenBad 1
      && t.gr.sh == [] && t.fld .cfGpcnt 0 15 0 == 1 && bits (pWord c 0) 19 16 == 4 := by
  decide +kernel

/-! ## Pins and serial ports -/

/-- Pin n belongs to this owner code, its bank on, at this level. -/
def pin (n own : Nat) (lvl : Bool) (s : State) : State :=
  ((s.setFld .gpPcfg n 31 28 own).setBit .gpBank 0 (16 + n / 16) true).setBit .gpIn (n / 32) (n % 32) lvl

/-- Input function f is connected to pin n, a lattice's. -/
def fnAt (f n : Nat) (lvl : Bool) (s : State) : State := (pin n 9 lvl s).setReg .gpFsel f (BitVec.ofNat 32 (2 ^ 31 + n))

theorem witness_gpio_outputs :
    let s := pin 33 2 false (pin 34 3 false base)
    let t := nx (exec (.gpioSet (.core 1) 1 2) s)
    let d := nx (exec (.gpioSet (.core 1) 1 6) s)
    s.pinWriter (.core 1) 33 && !s.pinWriter (.core 1) 34 && t.reg .gpOut 1 == 2 && t.answer == ⟨.ok, []⟩
      && d.reg .gpOut 1 == 2 && d.answer == ⟨.denied, []⟩ && d.fld .gpDeny 0 31 0 == 1 && d.fld .msAlarm 0 31 0 == 1
      && (nx (exec (.gpioClear (.core 1) 1 2) t)).reg .gpOut 1 == 0 && (nx (exec (.gpioToggle (.core 1) 1 2) t)).reg .gpOut 1 == 0
      && goes (exec (.gpioSet (.tenant 5) 1 2) s) (s.barkAns 0) := by
  decide +kernel

theorem witness_hub_edge :
    let s := { (pin 33 2 false base) with gp := { base.gp with edgeAt := 0, sync1 := 5, sync2 := 9 } }
    let s := (s.setReg .gpOut 1 2).setReg .gpOe 1 2
    let t := nx (exec (.hubEdge 3) s)
    s.fc % 8 == 0 && s.gp.edgeAt != s.fc + 1 && t.reg .gpIn 0 == 9 && t.gp.sync2 == 5 && t.gp.sync1 == ((3 &&& ~~~t.gp.padEn) ||| t.gp.padOut) && t.gp.padEn.getLsbD 33 && t.gp.sync1.getLsbD 0 && (t.gp.padEn.getLsbD 33) == (s.pinDrive 33).1
      && goes (exec (.hubEdge 3) t) t && goes (exec (.hubEdge 3) (at' s 1001)) (at' s 1001) := by
  decide +kernel

theorem witness_pattern_and_timer :
    let s := ((pin 3 9 true base).setReg .gpPctl 2 0xC0000000).setReg .gpPvall 2 8
    let s := s.setReg .gpPmskl 2 8
    let h := nx (exec (.hubEdge 0) { (s.setReg .gpTcfg 3 0x80000000) with gp := { s.gp with edgeAt := 0, sync2 := 8, per := [(3, 9)] } })
    let t := nx (exec (.patternMatch 2) h)
    let z := ({ base with gp := { base.gp with timerAt := [] } }.setReg .gpTcfg 4 0x80000003).setReg .gpTper 4 9
    let w := nx (exec (.timerWrap 4) z)
    bit s.pinsSeen 3 && !s.flag .gpPctl 2 28 && h.flag .gpPctl 2 28 && h.gp.patHit.getLsbD 2 && !h.gp.patHit.getLsbD 3 && h.reg .gpTcnt 3 == 1 && h.reg .gpTcnt 4 == 0
      && !t.gp.patHit.getLsbD 2 && t.dp.asserting == [(658, 1004)] && (nx (exec (.patternMatch 2) t)).dp == t.dp
      && goes (exec (.patternMatch 3) h) h
      && z.gp.presc.rd 4 0 == (z.gp.prsc.rd 4 0).toNat && z.reg .gpTcnt 4 == z.gp.per.rd 4 0 && w.flag .gpTstat 4 0 && w.gp.per.rd 4 0 == 9
      && (w.gp.prsc.rd 4 0) == 3 && goes (exec (.timerWrap 4) (at' z 1001)) (at' z 1001) := by
  decide +kernel

theorem witness_capture_and_pgood :
    let s := ((fnAt 76 3 true base).setReg .gpTcfg 4 0x80000000).setReg .gpTcnt 4 7
    let t := nx (exec (.timerCapture 4) s)
    let o := nx (exec (.timerCapture 4) (s.setBit .gpTstat 4 1 true))
    let b := base.setFld .gpBank 0 7 4 6
    let c := base.setFld .gpBank 0 7 4 3
    s.fnIn 76 false && t.reg .gpTcap 4 == 7 && t.flag .gpTstat 4 1 && (nx (exec (.timerCapture 4) t)).regs == t.regs && o.flag .gpTstat 4 2
      && (nx (exec (.pgoodChange 1 true) b)).flag .gpBank 0 17 && goes (exec (.pgoodChange 1 true) c) c := by
  decide +kernel

theorem witness_uart :
    let s := (base.setReg .spUcfg 2 0xB0000000).setTxq .uart 2 [0x41, 0x42]
    let t := nx (exec (.uartTransmit 2) s)
    let f := (fnAt 14 3 true (s.setBit .spUcfg 2 27 true))
    let r := fnAt 10 4 true (base.setReg .spUcfg 2 0xB0000000)
    let u := nx (exec (.uartReceive 2 0x41 true true) r)
    let full := r.setRxq .uart 2 (List.replicate 64 0)
    let dark := r.setReg .gpBank 0 0
    s.serOn .uart 2 && t.line == [0, 1, 0, 0, 0, 0, 0, 1, 0, b2n (oddOnes 8 0x41 != (s.fld .spUcfg 2 30 29 == 2)), 1, 1] && t.txq .uart 2 == [0x42]
      && f.fnIn 14 false && goes (exec (.uartTransmit 2) f) f && goes (exec (.uartTransmit 2) base) base
      && r.fnSees 10 && r.fnLive 10 && !dark.fnLive 10 && dark.fnSees 10 && (nx (exec (.uartReceive 2 0x41 true true) dark)).flag .spUstat 2 2 && (u.rxq .uart 2).length == 1 && (u.flag .spUstat 2 3 == (true != (oddOnes 8 0x41 != (r.fld .spUcfg 2 30 29 == 2))))
      && (nx (exec (.uartReceive 2 0 false false) r)).flag .spUstat 2 2 && (nx (exec (.uartReceive 2 0x41 true false) r)).flag .spUstat 2 4
      && (nx (exec (.uartReceive 2 0x41 true true) full)).flag .spUstat 2 5 && goes (exec (.uartReceive 2 0x41 true true) s) s := by
  decide +kernel

theorem witness_spi :
    let s := (fnAt 26 5 true (base.setReg .spScfg 2 0x88000000)).setTxq .spi 2 [0x41]
    let t := nx (exec (.spiTransfer 2 0x99) s)
    s.serOn .spi 2 && s.fnSees 26 && s.fnLive 26 && t.txq .spi 2 == [] && t.rxq .spi 2 == [0x99] && t.flag .spSstat 2 5 && t.line == [4, 0x41] && t.gp.spiCs.rd 2 0 == 0
      && (nx (exec (.spiTransfer 2 0x99) (s.setBit .spScfg 2 25 true))).gp.spiCs.rd 2 0 == 4 && goes (exec (.spiTransfer 2 0x99) t) t
      && (nx (exec (.serialReceiveRead (.core 1) .spi 2) t)).answer == ⟨.ok, [0x80000099]⟩
      && goes (exec (.serialReceiveRead (.core 1) .spi 2) s) (s.ans .ok [0])
      && goes (exec (.serialReceiveRead (.core 1) .mdio 1) (base.setReg .spMdata 1 7)) ((base.setReg .spMdata 1 7).ans .ok [7]) := by
  decide +kernel

/-- Two-wire port 3 with commands queued, and its bus high or not. -/
def tw (q : List Nat) : State := ((fnAt 55 9 true base).setReg .spTcfg 3 0x80000064).setTxq .twoWire 3 (q.map (BitVec.ofNat 16))
def low (s : State) : State := fnAt 47 6 false s

theorem witness_two_wire :
    let st := tw [0x100, 0x241, 0x500]
    let a := nx (exec (.twStart 3) st)
    let b := nx (exec (.twStart 3) (low st))
    let w := nx (exec (.twWrite 3 true) a)
    let n := nx (exec (.twWrite 3 false) a)
    let m := nx (exec (.twWrite 3 false) (a.setTxq .twoWire 3 [0x241, 0x242]))
    let r := nx (exec (.twReadAck 3 9) (tw [0x300]))
    let k := nx (exec (.twReadNack 3 9) (tw [0x400]))
    let z := nx (exec (.stretchTimeout 3) a)
    st.twHead 3 [1] == some (1, 0) && st.fnIn 47 true && st.fnIn 55 true && a.gp.inXfer.rd 3 false && a.line == [1] && a.twHead 3 [2] == some (2, 0x41)
      && !(low st).fnIn 47 true && b.flag .spTstat 3 2 && b.txq .twoWire 3 == [] && w.line == [2, 0x41] && w.txq .twoWire 3 == [0x500]
      && st.fnSees 55 && st.fnLive 55 && (nx (exec (.twWrite 3 true) (a.setReg .gpFsel 55 0))).flag .spTstat 3 5
      && (nx (exec (.twReadAck 3 9) ((tw [0x300]).setReg .gpFsel 55 0))).line == [3, 0xFF]
      && n.flag .spTstat 3 5 && n.line == [2, 0x41] && n.gp.inXfer.rd 3 false && m.line == [2, 0x41, 5] && m.txq .twoWire 3 == [] && !m.gp.inXfer.rd 3 false && n.txq .twoWire 3 == [0x500] && r.rxq .twoWire 3 == [9] && k.rxq .twoWire 3 == [9]
      && (nx (exec (.twStop 3) w)).txq .twoWire 3 == [] && !(nx (exec (.twStop 3) w)).gp.inXfer.rd 3 false && goes (exec (.twStop 3) st) st
      && a.serOn .twoWire 3 && a.fld .spTcfg 3 15 0 != 0 && z.txq .twoWire 3 == [] && z.flag .spTstat 3 4 && goes (exec (.stretchTimeout 3) st) st := by
  decide +kernel

theorem witness_mdio :
    let s := fnAt 63 7 true { base with gp := { base.gp with mdio := [(1, some 0x40000000)] } }
    let t := nx (exec (.mdioFrame 1 true 0x1234) s)
    let e := nx (exec (.mdioFrame 1 false 0x1234) s)
    s.fnSees 63 && s.fnLive 63 && t.reg .spMdata 1 == 0x1234 && t.flag .spMstat 1 6 && t.gp.mdio == [] && e.reg .spMdata 1 == 0xFFFF && e.flag .spMstat 1 5
      && goes (exec (.mdioFrame 1 true 0x1234) t) t := by
  decide +kernel

/-! ## Registers, reset, channels and timeouts -/

theorem witness_register_write :
    let w : Word := BitVec.ofNat 32 (2 ^ 31 + 9)
    let t := nx (exec (.registerWrite (.core 1) ⟨.gpFsel, 5⟩ w) base)
    let h := nx (exec (.registerWrite .heartwood ⟨.swIn, 3⟩ 0x01400000) base)
    5 < RegName.gpFsel.count && t.reg .gpFsel 5 == w && t.answer == ⟨.ok, []⟩ && h.fld .swIn 3 31 22 == 5 && h.answer == ⟨.ok, []⟩
      && goes (exec (.registerWrite (.core 1) ⟨.swIn, 3⟩ 0x01400000) base) (base.deniedAlarm 0)
      && goes (exec (.registerWrite (.core 1) ⟨.gpFsel, RegName.gpFsel.count⟩ w) base) (base.ans .unmapped []) := by
  decide +kernel

theorem witness_held_value : judge [⟨7, 0, .rw, 0, false, false, false⟩] .o (fun _ _ => false) 9 9 = ⟨9, 0, false, false⟩ := by
  decide +kernel

theorem witness_invariants :
    let k := { base with ht := { base.ht with keys := [(0, ⟨7, true, false⟩)] }, pending := [.go .pf0 1] }
    (k.keySlot 0).prog && goes (Machine.step k) ({ k with pending := [] }.ans .denied []) && base.tl.mem.wf 0 && base.dp.csram.wf 0 && base.cf.nvm.wf 0
      && goes (Machine.step { base with pending := [.go .pf0 1] }) (base.ans .denied []) := by
  decide +kernel

theorem witness_virtual_channels :
    let v (n : Nat) : State := base.setFld .ncMode 0 30 29 n
    let z := (v 2).setBit .ncMode 0 27 true
    (v 0).vcOf 3 false == 1 && (v 1).vcOf 3 false == 2 && (v 2).vcOf 3 false == 3 && z.vcOf 3 false == 2 && z.vcOf 0 true == 3
      && !(v 2).flag .ncMode 0 27 := by
  decide +kernel

/-- Core 1 runs thread 20, and semaphore 7 is at 0. -/
theorem witness_timeouts :
    let s (b : Word) : State :=
      ((((base.setThr 20 { thrZero with st := .running, prio := 4, aff := 0xFF, core := 1 }).setCore 1 { coreZero with cur := some 20 }).setReg .dpCarg1 1 b).setReg
        .dpCarg0 1 4).setReg .dpTnow 0 100
    let st (b : Word) (c : Instr) : Nat := (nx (exec c (s b))).fld .dpCres 1 3 0
    let th (b : Word) (c : Instr) : Thread := (nx (exec c (s b))).thr 20
    !(s 0).dp.coresHeld && !((s 0).coreSt 1).held && !(s 0).frozen && !(s 0).dp.tickDue && (s 0).fld .dpSem 7 15 0 == 0 && (s 0).dp.pend == []
      && [Instr.semtake 1 7 noUpset, .egwait 1 7 true false noUpset, .evwait 1 7 noUpset].all (fun c =>
        st 0 c == 9 && st 0x7FFFFFFF c == 0 && (th 0x7FFFFFFF c).wake == 0x80000063 && st 0xFFFFFFFF c == 0 && !(th 0xFFFFFFFF c).wakeSet
          && st 0x80000000 c == 10 && st 0xFFFFFFFE c == 10) := by
  decide +kernel

theorem witness_product_terms :
    let s (m : Nat) : State := { base with lt := { base.lt with pt := [(9, BitVec.ofNat _ m)] } }
    let s (m : Nat) : State := ((s m).setBoth .ltIsown 0 31 22 5).setBoth .ltIsown 1 31 22 6
    (s 0).isOwner 0 0 == 5 && (s 0).term 0 5 [false, true] 9 && (s 2).term 0 5 [false, true] 9 && !(s 1).term 0 5 [false, true] 9 && (s 1).term 0 5 [true] 9
      && !(s 3).term 0 5 [true] 9 && (s 8).term 0 5 [true, true] 9 && !(s 4).term 0 5 [true, true] 9 := by
  decide +kernel

/-! ## Ill-formed commands -/

/-- One ill-formed command for each check of Instr.wf, and one that passes it. -/
theorem wf_refuses_each_ill_formed_command :
    let fec : FecWord := ⟨some 1, 11⟩
    let ok : UnitHealth := ⟨[], []⟩
    let fr (b : List Byte) (f : List FecWord) : RxFrame := ⟨b, false, false, [], 0, 0, f⟩
    let ill : List Instr := [
      .registerWrite .pf0 ⟨.gpFsel, RegName.gpFsel.count⟩ 0, .forgive .pf0 ⟨.gpFsel, 0⟩ 0,
      .directWindowAccess .pf0 ⟨false, 0, 0, []⟩ ok, .directWindowAccess .pf0 ⟨false, 0, 4, []⟩ ⟨[3], [3]⟩, .hostBarAccess .pf0 ⟨true, 0, 8, [1]⟩,
      .coreBusAccess 0 ⟨0, 0⟩ .plain ⟨false, 2 ^ 40, 1, []⟩ ok,
      .receiveFrame 0 (fr [] []), .helloReceive 0 (fr [1] [fec]), .creditReceive 0 (fr [1] [⟨none, 1⟩]),
      .pyrilDataReceive 0 (fr [1] [⟨some 3, 2⟩]) 0, .rawReceive 0 (.beat [1]) 0 [], .rawReceive 0 (.codeword [] ⟨some 0, 0⟩) 0 [],
      .cellRead 0 ⟨[3], [3], false, false⟩, .trainingEnd 0 0 [], .configStreamWrite 0 [], .configStreamWrite 5 [1], .graftDataWrite 0 [],
      .headerCheck [], .endCmd [], .imageVerify [], .nocServe 0 [64], .heartwoodFault 0, .heartwoodFault 5, .serialReceiveRead .pf0 .uart 4,
      .sensorSample [] [], .hostCompletion 0 0 (.data [])]
    let well : List Instr := [
      .registerWrite .pf0 ⟨.gpFsel, 0⟩ 0, .forgive .pf0 ⟨.qeBcir, 0⟩ 0, .hostBarAccess .pf0 ⟨true, 0, 8, [1, 2]⟩,
      .coreBusAccess 0 ⟨0, 0⟩ .plain ⟨false, 0, 1, []⟩ ok, .directWindowAccess .pf0 ⟨false, 0, 4, []⟩ ⟨[3], [4]⟩,
      .receiveFrame 0 (fr [1] [⟨some 3, 9⟩]), .rawReceive 0 (.beat [1, 2, 3, 4, 5, 6]) 0 [], .cellRead 0 ⟨[3], [4], false, false⟩, .trainingEnd 0 1 [],
      .configStreamWrite 5 [1, 2], .nocServe 0 [63], .heartwoodFault 4, .serialReceiveRead .pf0 .twoWire 7, .hostCompletion 0 0 .timeout]
    !ill.any Instr.wf && well.all Instr.wf := by
  decide +kernel

/-! ## Command words -/

/-- A word of the table's bits is the command of its row, and withFetchWord puts it in front (the table gives no row bits here). -/
theorem witness_table_word : decodeTableWord 32 0 == none && base.withFetchWord 32 0 == base := by
  decide +kernel

/-! ## Worked examples of the manual -/

/-- The record of the example after R554: ring 6 of tenant 37 in tile 18.27 reads offset 800 of a window of 768 words. -/
theorem example_R554_record : mkRec 2 37 0 7 0x49B60320 = 0x0209400749B60320#64 := by
  decide +kernel

/-- Tile 18.27 of the example after R71, once its tables are in force: the calendar's entries, the owner and members of group 2, and ring 4's window. -/
theorem example_R71_tables :
    let T := 1179
    let s := (((base.setReg .tlCal (8 * T) 0xF1203020).setReg .tlGrp (16 * T + 2) 0x094000F0).setReg .tlWin (16 * T + 4) 0x03000400).setReg .tlGcal 18 0x80000008
    let s := { s with tl := { s.tl with commitAt := [(18, 1001)] } }
    let t := s.commitShadows 18
    (List.range 8).map (t.calEntry T) == [0, 2, 0, 3, 0, 2, 1, 15] && t.actFld .tlGrp (16 * T + 2) 31 22 == 37 && t.window T 4 == (1024, 768)
      && t.inWindow T 4 767 && !t.inWindow T 4 800 := by
  decide +kernel

end Sys2Proof.Tests
end

section
/-! SUPPORT. The scope of the model: a step is the front command or one fc, and cold reset leaves the tables' values. -/

namespace Sys2Proof.Machine

/-! ## The front of the queue -/

/-- Settles O1: `step` takes the first command and runs it on the rest. -/
theorem stepRunsTheFrontCommand : Obligations.StepRunsTheFrontCommand := by
  intro c l s h
  simp only [step, h]

/-! ## One fc with a warm reset in it (R218, log entry 141) -/

/-- A canopy core's accesses that wait for the hub's next edge: a read of GP_OUT0, and behind it the write of PW_RSTCTL that starts a
warm reset (R377, R512, R543). -/
def resetBehindHubRead : List BusAcc :=
  [⟨⟨false, 0x32000000, 4, []⟩, ⟨[], []⟩⟩, ⟨⟨true, 0x33000200, 4, [0xA5000002]⟩, ⟨[], []⟩⟩]

/-- The device in fc 7, one fc before an edge of the hub, with those accesses waiting at core 0 and the refill counter at 5. -/
def beforeHubEdge : State :=
  { State.reset with
    fc := 7
    qe := { QueueB.zero with refill := 5 }
    dp := { DispB.zero with coresHeld := false, busq := [(0, resetBehindHubRead)] } }

/-- The edge comes with fc 8, and the warm reset that the core's write starts puts the refill counter to 0. -/
theorem passFc_beforeHubEdge_refill :
    (passFc beforeHubEdge).qe.refill = 0 ∧ (passFc beforeHubEdge).pw.warm.isSome = true := by
  decide +kernel

/-- Refutes O3: in an fc that brings an edge of the hub, a canopy core's waiting write of PW_RSTCTL starts a warm reset, and the refill
counter, which stood at 5, is 0 after the fc and not 6. -/
theorem not_idleStepPassesOneFc : ¬ Obligations.IdleStepPassesOneFc := by
  intro h
  obtain ⟨t, ht, -, hrefill, -⟩ := h beforeHubEdge rfl rfl
  have hstep : step beforeHubEdge = .next (passFc beforeHubEdge) := rfl
  obtain rfl : passFc beforeHubEdge = t := by simpa [hstep] using ht
  rw [passFc_beforeHubEdge_refill.1] at hrefill
  exact absurd hrefill (by decide)

/-! ## Cold reset -/

/-- Out of cold reset every register but CK_STAT reads the Reset column of its table. -/
theorem State.reset_reg (n : RegName) (i : Nat) (h : ¬ (n = .ckStat ∧ i = 0)) :
    State.reset.reg n i = BitVec.ofNat 32 (n.resetVal i) := by
  have hk : RegName.ckStat.ctorIdx ≠ n.key i := by
    intro e
    have e' : n.key i = RegName.ckStat.key 0 := by rw [← e]; rfl
    exact h (regKey_inj e')
  simp [State.reg, State.reset, Tbl.rd_cons, hk]

/-- A register whose Reset column is all zeros has every bit 0 out of cold reset. -/
theorem State.reset_flag_zero {n : RegName} {i : Nat} (b : Nat) (h : n ≠ .ckStat) (h0 : n.resetVal i = 0) :
    State.reset.flag n i b = false := by
  simp [State.flag, State.fld, State.reset_reg n i (fun e => h e.1), h0, bits]

/-- Settles O58. -/
theorem resetLeavesTheTablesValues : Obligations.ResetLeavesTheTablesValues := by
  refine ⟨rfl, ?_, rfl, rfl, fun n i h => State.reset_reg n i h, rfl, ?_, ?_, fun o => rfl, rfl, fun q => rfl, rfl, rfl, rfl, rfl,
    fun T w => rfl, fun T i => rfl, rfl, rfl, rfl⟩
  · simp [State.cfState, State.fld, State.reset_reg]
    decide
  · exact fun d _ => State.reset_flag_zero _ (by decide) rfl
  · exact fun g _ => State.reset_flag_zero _ (by decide) rfl
end Sys2Proof.Machine
end

section
/-! SUPPORT. A register write judged field by field (R10, R12). -/

namespace Sys2Proof.Machine

/-! ## Bit fields -/

theorem testBit_bits (n hi lo k : Nat) : (bits n hi lo).testBit k = (decide (k < hi + 1 - lo) && n.testBit (lo + k)) := by
  simp [bits, Nat.testBit_mod_two_pow, Nat.testBit_div_two_pow, Nat.add_comm]

/-- A number with a field set: the bits above, the new field, the bits below. -/
theorem setBits_eq (n hi lo v : Nat) :
    setBits n hi lo v = 2 ^ lo * (2 ^ (hi + 1 - lo) * (n / 2 ^ (lo + (hi + 1 - lo))) + v % 2 ^ (hi + 1 - lo)) + n % 2 ^ lo := by
  have h := split_bits n lo (hi + 1 - lo)
  have hc := Nat.mul_comm (bits n hi lo) (2 ^ lo)
  unfold setBits
  rw [Nat.mul_add, ← Nat.mul_assoc, ← Nat.pow_add, Nat.mul_comm (2 ^ lo) (v % _)]
  unfold bits at hc ⊢
  omega

theorem testBit_setBits (n hi lo v k : Nat) :
    (setBits n hi lo v).testBit k = if lo ≤ k ∧ k < lo + (hi + 1 - lo) then v.testBit (k - lo) else n.testBit k := by
  have hlow : n % 2 ^ lo < 2 ^ lo := Nat.mod_lt _ (Nat.two_pow_pos _)
  have hmid : v % 2 ^ (hi + 1 - lo) < 2 ^ (hi + 1 - lo) := Nat.mod_lt _ (Nat.two_pow_pos _)
  rw [setBits_eq, Nat.testBit_two_pow_mul_add _ hlow, Nat.testBit_two_pow_mul_add _ hmid]
  by_cases h1 : k < lo
  · simp [h1, Nat.testBit_mod_two_pow, Nat.not_le.mpr h1]
  · by_cases h2 : k < lo + (hi + 1 - lo)
    · have : k - lo < hi + 1 - lo := by omega
      simp [h1, h2, this, Nat.testBit_mod_two_pow, Nat.not_lt.mp h1]
    · have : ¬ k - lo < hi + 1 - lo := by omega
      have e : k - lo - (hi + 1 - lo) + (lo + (hi + 1 - lo)) = k := by omega
      simp [h1, h2, this, Nat.testBit_div_two_pow, e]

/-- Setting a field leaves every field that has no bit in common with it. -/
theorem bits_setBits_disjoint (n : Nat) {hi lo hi' lo' : Nat} (v : Nat) (h : hi' < lo ∨ hi < lo') :
    bits (setBits n hi lo v) hi' lo' = bits n hi' lo' := by
  apply Nat.eq_of_testBit_eq
  intro k
  rw [testBit_bits, testBit_bits, testBit_setBits]
  by_cases hk : k < hi' + 1 - lo'
  · rw [if_neg (by omega)]
  · simp [hk]

/-- A field of a 32-bit register is read the same from the number the register was given. -/
theorem bits_ofNat_toNat (v : Nat) {hi : Nat} (lo : Nat) (h : hi < 32) : bits (BitVec.ofNat 32 v).toNat hi lo = bits v hi lo := by
  apply Nat.eq_of_testBit_eq
  intro k
  rw [testBit_bits, testBit_bits, BitVec.toNat_ofNat, Nat.testBit_mod_two_pow]
  by_cases hk : k < hi + 1 - lo
  · simp [show lo + k < 32 by omega]
  · simp [hk]

/-! ## The judgement of a write, field by field (R12) -/

end Sys2Proof.Machine

namespace Sys2Proof
open Machine

/-- Two fields have no bit in common. -/
def Field.Apart (f g : Field) : Prop := f.hi < g.lo ∨ g.hi < f.lo

theorem Field.Apart.symm {f g : Field} (h : f.Apart g) : g.Apart f := Or.symm h

/-- Whether a write takes effect on a field: it is judged, its writer is named, and its rule allows the value. -/
def Field.takes (f : Field) (p : Writer) (ok : Nat → Nat → Bool) (old new : Nat) : Bool :=
  f.judged old new && f.names p && ok f.lo new

/-- What a field of a register holds after a write judged on it alone. -/
def Field.landed (f : Field) (p : Writer) (ok : Nat → Nat → Bool) (old new : Nat) : Nat :=
  if f.takes p ok old new then f.after old new % 2 ^ (f.hi + 1 - f.lo) else old

section
variable {f : Field} {p : Writer} {ok : Nat → Nat → Bool} (old new : Nat)

theorem Field.landed_of_not_judged (h : f.judged old new = false) : f.landed p ok old new = old := by
  simp [Field.landed, Field.takes, h]

theorem Field.landed_of_refused (f : Field) (h : f.names p = false ∨ ok f.lo new = false) : f.landed p ok old new = old := by
  rcases h with h | h <;> simp [Field.landed, Field.takes, h]

/-- A plain field whose writer is named and whose rule allows the value holds what was written. -/
theorem Field.landed_rw {w : Nat} (hty : f.ty = .rw) (hp : f.names p = true) (hok : ok f.lo (bits w f.hi f.lo) = true) :
    f.landed p ok old (bits w f.hi f.lo) = bits w f.hi f.lo := by
  have hmod : bits w f.hi f.lo % 2 ^ (f.hi + 1 - f.lo) = bits w f.hi f.lo := Nat.mod_mod _ _
  simp only [Field.landed, Field.takes, Field.judged, Field.after, hty, hp, hok, hmod, Bool.and_true, bne_iff_ne]
  split
  · rfl
  · next he => exact not_not.mp he

end

section
variable (p : Writer) (ok : Nat → Nat → Bool) (w : Nat)

/-- One field's judgement leaves the fields apart from it. -/
theorem judgeField_bits_apart (j : Judged) {f g : Field} (h : f.Apart g) :
    bits (judgeField p ok w j f).val g.hi g.lo = bits j.val g.hi g.lo := by
  unfold judgeField
  dsimp only
  split_ifs
  · exact bits_setBits_disjoint _ _ (Or.symm h)
  all_goals rfl

theorem judgeField_bits_self (j : Judged) (f : Field) :
    bits (judgeField p ok w j f).val f.hi f.lo = f.landed p ok (bits j.val f.hi f.lo) (bits w f.hi f.lo) := by
  unfold judgeField Field.landed Field.takes
  dsimp only
  split_ifs <;> simp_all [bits_setBits]

theorem judgeField_byWriter (j : Judged) (f : Field) :
    (judgeField p ok w j f).byWriter = (j.byWriter || f.judged (bits j.val f.hi f.lo) (bits w f.hi f.lo) && !f.names p) := by
  unfold judgeField
  dsimp only
  split_ifs <;> simp_all

theorem judgeField_byValue (j : Judged) (f : Field) :
    (judgeField p ok w j f).byValue
      = (j.byValue || f.judged (bits j.val f.hi f.lo) (bits w f.hi f.lo) && f.names p && !ok f.lo (bits w f.hi f.lo)) := by
  unfold judgeField
  dsimp only
  split_ifs <;> simp_all

/-- A field apart from all that are judged keeps its bits. -/
theorem foldl_judgeField_bits_apart (fs : List Field) (j : Judged) (g : Field) (h : ∀ f ∈ fs, f.Apart g) :
    bits (fs.foldl (judgeField p ok w) j).val g.hi g.lo = bits j.val g.hi g.lo := by
  induction fs generalizing j with
  | nil => rfl
  | cons f r ih =>
    rw [List.foldl_cons, ih _ (fun x hx => h x (List.mem_cons_of_mem _ hx)), judgeField_bits_apart p ok w j (h f List.mem_cons_self)]

/-- Of a register whose fields lie apart, each field takes the write as it would alone. -/
theorem foldl_judgeField_bits {fs : List Field} (hd : fs.Pairwise Field.Apart) (j : Judged) {f : Field} (hf : f ∈ fs) :
    bits (fs.foldl (judgeField p ok w) j).val f.hi f.lo = f.landed p ok (bits j.val f.hi f.lo) (bits w f.hi f.lo) := by
  induction fs generalizing j with
  | nil => cases hf
  | cons g r ih =>
    obtain ⟨hg, hr⟩ := List.pairwise_cons.mp hd
    rw [List.foldl_cons]
    rcases List.mem_cons.mp hf with rfl | hmem
    · rw [foldl_judgeField_bits_apart p ok w r _ f (fun x hx => (hg x hx).symm), judgeField_bits_self]
    · rw [ih hr _ hmem, judgeField_bits_apart p ok w j (hg f hmem)]

/-- A write is refused for its writer when one field that is judged does not name it. -/
theorem foldl_judgeField_byWriter {fs : List Field} (hd : fs.Pairwise Field.Apart) (j : Judged) :
    (fs.foldl (judgeField p ok w) j).byWriter = true
      ↔ j.byWriter = true ∨ ∃ f ∈ fs, f.judged (bits j.val f.hi f.lo) (bits w f.hi f.lo) = true ∧ f.names p = false := by
  induction fs generalizing j with
  | nil => simp
  | cons g r ih =>
    obtain ⟨hg, hr⟩ := List.pairwise_cons.mp hd
    have hsame : ∀ f ∈ r, bits (judgeField p ok w j g).val f.hi f.lo = bits j.val f.hi f.lo :=
      fun f hf => judgeField_bits_apart p ok w j (hg f hf)
    rw [List.foldl_cons, ih hr, judgeField_byWriter,
      exists_congr (fun f => and_congr_right (fun hf => by rw [hsame f hf]))]
    simp [or_assoc]

/-- A write is refused for a value when one field that is judged names the writer and does not allow the value. -/
theorem foldl_judgeField_byValue {fs : List Field} (hd : fs.Pairwise Field.Apart) (j : Judged) :
    (fs.foldl (judgeField p ok w) j).byValue = true
      ↔ j.byValue = true ∨ ∃ f ∈ fs, f.judged (bits j.val f.hi f.lo) (bits w f.hi f.lo) = true ∧ f.names p = true
          ∧ ok f.lo (bits w f.hi f.lo) = false := by
  induction fs generalizing j with
  | nil => simp
  | cons g r ih =>
    obtain ⟨hg, hr⟩ := List.pairwise_cons.mp hd
    have hsame : ∀ f ∈ r, bits (judgeField p ok w j g).val f.hi f.lo = bits j.val f.hi f.lo :=
      fun f hf => judgeField_bits_apart p ok w j (hg f hf)
    rw [List.foldl_cons, ih hr, judgeField_byValue,
      exists_congr (fun f => and_congr_right (fun hf => by rw [hsame f hf]))]
    simp [or_assoc, and_assoc]

end
/-- Writing back the word a register of plain fields holds is judged on no field. -/
theorem judge_same_word (fs : List Field) (p : Writer) (ok : Nat → Nat → Bool) (w : Nat) (h : ∀ f ∈ fs, f.ty = .rw ∨ f.ty = .ro) :
    judge fs p ok w w = ⟨w, 0, false, false⟩ := by
  unfold judge
  induction fs with
  | nil => rfl
  | cons f r ih =>
    have hf : judgeField p ok w ⟨w, 0, false, false⟩ f = ⟨w, 0, false, false⟩ := by
      rcases h f List.mem_cons_self with e | e <;> simp [judgeField, Field.judged, e]
    rw [List.foldl_cons, hf]
    exact ih (fun g hg => h g (List.mem_cons_of_mem _ hg))

end Sys2Proof

namespace Sys2Proof.Machine

/-! ## A register write without further effect -/

theorem State.judgeW_plain (s : State) (p : Party) (n : RegName) (i : Nat) (w : Word) :
    s.judgeW p n i (fun _ _ => true) w = judge (n.fields i) p.writer (n.okVal i) (s.reg n i).toNat w.toNat := by
  simp [State.judgeW]

@[simp] theorem State.ans_reg (s : State) (st : Status) (ws : List Word) (m : RegName) (k : Nat) : (s.ans st ws).reg m k = s.reg m k :=
  rfl

theorem State.alarm_reg (s : State) {m : RegName} (k : Nat) (h : m ≠ .msAlarm) : s.alarm.reg m k = s.reg m k :=
  State.reg_setReg_name s 0 k _ h

/-- The alarm count rises by one and saturates. -/
theorem State.alarm_fld (s : State) : s.alarm.fld .msAlarm 0 31 0 = satAdd 32 (s.fld .msAlarm 0 31 0) 1 := by
  have hlt : satAdd 32 (s.fld .msAlarm 0 31 0) 1 < 2 ^ 32 := by unfold satAdd; omega
  rw [State.alarm, State.count, State.setFld, State.fld, State.reg_setReg_same, bits_ofNat_toNat _ _ (by decide), bits_setBits]
  exact Nat.mod_eq_of_lt hlt

section
variable (s : State) {n : RegName} (i : Nat) (j : Judged)

theorem State.land_answer : (s.land n i j).answer = ⟨j.status, []⟩ := rfl

/-- Landing a write changes registers and the answer alone. -/
theorem State.land_frame : (s.land n i j).act = s.act ∧ (s.land n i j).tl = s.tl ∧ (s.land n i j).gp = s.gp := by
  unfold State.land
  dsimp only
  split <;> simp

theorem State.land_reg_self (h : n ≠ .msAlarm) : (s.land n i j).reg n i = BitVec.ofNat 32 j.val := by
  unfold State.land
  dsimp only
  split <;> simp [State.alarm_reg _ _ h]

theorem State.land_reg_other {m : RegName} {k : Nat} (hk : ¬ (m = n ∧ k = i)) (hm : m ≠ .msAlarm) :
    (s.land n i j).reg m k = s.reg m k := by
  have hset : (s.setReg n i (BitVec.ofNat 32 j.val)).reg m k = s.reg m k :=
    State.reg_setReg_other _ _ _ _ _ _ (fun e => hk (regKey_inj e))
  unfold State.land
  dsimp only
  split <;> simp [State.alarm_reg _ _ hm, hset]

/-- A write refused for its writer raises the alarm once. -/
theorem State.land_alarm_rises (h : n ≠ .msAlarm) (hw : j.byWriter = true) :
    (s.land n i j).fld .msAlarm 0 31 0 = satAdd 32 (s.fld .msAlarm 0 31 0) 1 := by
  have hset := State.alarm_fld (s.setReg n i (BitVec.ofNat 32 j.val))
  rw [State.fld.eq_1 (s.setReg _ _ _), State.reg_setReg_name _ _ _ _ h.symm] at hset
  simpa [State.land, hw, State.fld] using hset

theorem State.land_alarm_stays (h : n ≠ .msAlarm) (hw : j.byWriter = false) :
    (s.land n i j).reg .msAlarm 0 = s.reg .msAlarm 0 := by
  simp [State.land, hw, State.reg_setReg_name s _ _ _ h.symm]

end

/-! ## REGISTER_WRITE of the tile tables and GP_FSEL -/

end Sys2Proof.Machine

namespace Sys2Proof

/-- The tables of a tile that heartwood alone reaches. -/
def RegName.ofTile (n : RegName) : Prop := n = .tlCal ∨ n = .tlGrp ∨ n = .tlWin ∨ n = .swIn

end Sys2Proof

namespace Sys2Proof.Machine

theorem fields_apart {n : RegName} (i : Nat) (h : n.ofTile ∨ n = .gpFsel) :
    (n.fields i).Pairwise Field.Apart ∧ ∀ f ∈ n.fields i, f.hi < 32 := by
  rcases h with (rfl | rfl | rfl | rfl) | rfl <;>
    simp [RegName.fields, Field.Apart, fH, fHO, cH]

/-- A write to a register of its table goes to the block; one past the end of the table answers UNMAPPED. -/
theorem execRegisterWrite_unmapped (p : Party) {r : RegId} (w : Word) (s : State) (hi : r.name.count ≤ r.idx) :
    exec (.registerWrite p r w) s = .next (s.ans .unmapped []) :=
  congrArg Host.Outcome.next (if_pos hi)

/-- A tile's tables are written by heartwood, field by field and with no further effect. -/
theorem execRegisterWrite_tile (p : Party) {r : RegId} (w : Word) (s : State) (hi : r.idx < r.name.count) (h : r.name.ofTile) :
    exec (.registerWrite p r w) s = .next (s.onlyHeart p 0 (s.plainWrite p r.name r.idx w)) := by
  refine congrArg Host.Outcome.next ((if_neg (Nat.not_le.mpr hi)).trans ?_)
  obtain ⟨n, i⟩ := r
  rcases h with rfl | rfl | rfl | rfl <;> rfl

/-- GP_FSEL is written by any party but a tenant, field by field and with no further effect. -/
theorem execRegisterWrite_gpFsel {p : Party} {r : RegId} (w : Word) (s : State) (hi : r.idx < r.name.count) (h : r.name = .gpFsel)
    (hp : ∀ o, p ≠ .tenant o) :
    exec (.registerWrite p r w) s = .next (s.plainWrite p r.name r.idx w) := by
  refine congrArg Host.Outcome.next ((if_neg (Nat.not_le.mpr hi)).trans ?_)
  obtain ⟨n, i⟩ := r
  obtain rfl : n = .gpFsel := h
  cases p with
  | tenant o => exact absurd rfl (hp o)
  | _ => rfl

theorem execRegisterWrite_plain {p : Party} {r : RegId} (w : Word) (s : State) (hi : r.idx < r.name.count)
    (h : (r.name.ofTile ∧ p = .heartwood) ∨ (r.name = .gpFsel ∧ ∀ o, p ≠ .tenant o)) :
    exec (.registerWrite p r w) s = .next (s.plainWrite p r.name r.idx w) := by
  rcases h with ⟨hn, rfl⟩ | ⟨hn, hp⟩
  · exact execRegisterWrite_tile .heartwood w s hi hn
  · exact execRegisterWrite_gpFsel w s hi hn hp

/-- What a field holds after a register write. -/
theorem State.plainWrite_fld (s : State) (p : Party) {n : RegName} (i : Nat) (w : Word) (hn : n.ofTile ∨ n = .gpFsel) {f : Field}
    (hf : f ∈ n.fields i) :
    (s.plainWrite p n i w).fld n i f.hi f.lo
      = f.landed p.writer (n.okVal i) (s.fld n i f.hi f.lo) (bits w.toNat f.hi f.lo) := by
  obtain ⟨hap, hlt⟩ := fields_apart i hn
  have hne : n ≠ .msAlarm := by rcases hn with (rfl | rfl | rfl | rfl) | rfl <;> decide
  rw [State.plainWrite, State.fld, State.land_reg_self _ _ _ hne, State.judgeW_plain, bits_ofNat_toNat _ _ (hlt f hf)]
  exact foldl_judgeField_bits _ _ _ hap _ hf

/-- The write is refused for its writer when a field that is judged does not name it. -/
theorem State.judgeW_byWriter (s : State) (p : Party) {n : RegName} (i : Nat) (w : Word) (hn : n.ofTile ∨ n = .gpFsel) :
    (s.judgeW p n i (fun _ _ => true) w).byWriter = true
      ↔ ∃ f ∈ n.fields i, f.judged (s.fld n i f.hi f.lo) (bits w.toNat f.hi f.lo) = true ∧ f.names p.writer = false := by
  rw [State.judgeW_plain, judge, foldl_judgeField_byWriter _ _ _ (fields_apart i hn).1]
  simp [State.fld]

/-- The write is refused for a value when a field that is judged names the writer and does not allow the value. -/
theorem State.judgeW_byValue (s : State) (p : Party) {n : RegName} (i : Nat) (w : Word) (hn : n.ofTile ∨ n = .gpFsel) :
    (s.judgeW p n i (fun _ _ => true) w).byValue = true
      ↔ ∃ f ∈ n.fields i, f.judged (s.fld n i f.hi f.lo) (bits w.toNat f.hi f.lo) = true ∧ f.names p.writer = true
          ∧ n.okVal i f.lo (bits w.toNat f.hi f.lo) = false := by
  rw [State.judgeW_plain, judge, foldl_judgeField_byValue _ _ _ (fields_apart i hn).1]
  simp [State.fld]

theorem Judged.status_denied {j : Judged} (h : j.byWriter = true ∨ j.byValue = true) : j.status = .denied := by
  simp [Judged.status, h]

theorem Judged.status_ok {j : Judged} (hw : ¬ j.byWriter = true) (hv : ¬ j.byValue = true) : j.status = .ok := by
  simp [Judged.status, hw, hv]

/-- Settles O57: every field takes the write as it would alone, for the fields of these registers lie apart. -/
theorem registerWritesAreJudgedFieldByField : Obligations.RegisterWritesAreJudgedFieldByField := by
  refine ⟨?_, fun fs p ok w h => judge_same_word fs p ok w h⟩
  intro p r w s n i tile old new judged
  refine ⟨fun hi h => ?_, fun hi ht hp => ?_, fun hi => execRegisterWrite_unmapped p w s hi⟩
  · have hn : n.ofTile ∨ n = .gpFsel := h.imp And.left And.left
    have hne : n ≠ .msAlarm := by rcases hn with (e | e | e | e) | e <;> rw [e] <;> decide
    have hj : ∀ f, judged f = f.judged (old f) (new f) := fun f => rfl
    have hw := s.judgeW_byWriter p i w hn
    have hv := s.judgeW_byValue p i w hn
    refine ⟨_, execRegisterWrite_plain w s hi h, fun f hf => ?_, ?_, ?_, ?_, ?_, ?_, State.land_frame s i _⟩
    · rw [State.plainWrite_fld s p i w hn hf]
      exact ⟨fun hno => Field.landed_of_not_judged _ _ (hj f ▸ hno), fun _ hno => Field.landed_of_refused _ _ _ hno,
        fun hty hnm hok => Field.landed_rw _ hty hnm hok⟩
    · rintro ⟨f, hf, hjf, hno⟩
      refine congrArg (Answer.mk · []) (Judged.status_denied ?_)
      cases hnm : f.names p.writer with
      | false => exact .inl (hw.mpr ⟨f, hf, hjf, hnm⟩)
      | true => exact .inr (hv.mpr ⟨f, hf, hjf, hnm, by simpa [hnm] using hno⟩)
    · intro hall
      refine congrArg (Answer.mk · []) (Judged.status_ok (fun e => ?_) (fun e => ?_))
      · obtain ⟨f, hf, hjf, hnm⟩ := hw.mp e
        exact Bool.false_ne_true (hnm.symm.trans (hall f hf hjf).1)
      · obtain ⟨f, hf, hjf, -, hok⟩ := hv.mp e
        exact Bool.false_ne_true (hok.symm.trans (hall f hf hjf).2)
    · exact fun ⟨f, hf, hjf, hnm⟩ => State.land_alarm_rises s i _ hne (hw.mpr ⟨f, hf, hjf, hnm⟩)
    · refine fun hall => State.land_alarm_stays s i _ hne (Bool.eq_false_iff.mpr (fun e => ?_))
      obtain ⟨f, hf, hjf, hnm⟩ := hw.mp e
      exact Bool.false_ne_true (hnm.symm.trans (hall f hf hjf))
    · exact fun m k hk hm => State.land_reg_other s i _ hk hm
  · rw [execRegisterWrite_tile p w s hi ht, State.onlyHeart, if_neg (by simpa using hp)]

end Sys2Proof.Machine
end

section
/-! SUPPORT. Every command completes and leaves the waiting commands alone: one lemma per operation that changes the state,
and one per command, under the names of the model's files and in their order. The lemmas are tagged `simp ↓`: `simp` reads the queue off
the outermost operation and does not look at the states inside it. -/

namespace Sys2Proof.Machine

/-- The command leaves a next state in which the waiting commands are those of `s`. -/
def KeepsQueue (r : Res) (s : State) : Prop := Goes r (fun t => t.pending = s.pending)

@[simp ↓] theorem keepsQueue_next (s t : State) : KeepsQueue (.next t) s ↔ t.pending = s.pending := by
  simp [KeepsQueue, Goes]

@[simp ↓] theorem keepsQueue_ite (c : Prop) [Decidable c] (a b : Res) (s : State) :
    KeepsQueue (if c then a else b) s ↔ if c then KeepsQueue a s else KeepsQueue b s := by
  split <;> rfl

/-- A record's queue, whatever stands in its other fields. -/
@[simp ↓] theorem State.mk_pending (q a l f t r c tl sw lt ff cx qe tn ln tb nc hi dp ht cf gr gp pw ms was) :
    (State.mk q a l f t r c tl sw lt ff cx qe tn ln tb nc hi dp ht cf gr gp pw ms was).pending = q := (rfl)

@[simp ↓] theorem State.ite_pending (c : Prop) [Decidable c] (a b : State) :
    (if c then a else b).pending = if c then a.pending else b.pending := apply_ite _ c a b

@[simp ↓] theorem forEach_pending {α : Type} (l : List α) (s : State) (f : α → State → State)
    (h : ∀ a s, (f a s).pending = s.pending) : (forEach l s f).pending = s.pending :=
  forEach_keeps _ l s f h

/-- What every step of a fold keeps of an accumulator, the whole fold keeps. -/
theorem foldl_keeps {α β γ : Type} (get : β → γ) (l : List α) (b : β) (f : β → α → β) (h : ∀ b a, get (f b a) = get b) :
    get (l.foldl f b) = get b := by
  induction l generalizing b with
  | nil => rfl
  | cons a r ih => exact (ih (f b a)).trans (h b a)

@[simp ↓] theorem foldl_pending {α : Type} (l : List α) (s : State) (f : State → α → State)
    (h : ∀ s a, (f s a).pending = s.pending) : (l.foldl f s).pending = s.pending :=
  foldl_keeps _ l s f h

/-! ## Regs -/

@[simp ↓] theorem State.resetRegs_pending (s : State) (l : List RegName) : (s.resetRegs l).pending = s.pending := by
  simp [State.resetRegs]

@[simp ↓] theorem State.land_pending (s : State) (n : RegName) (i : Nat) (j : Judged) : (s.land n i j).pending = s.pending := by
  simp [State.land]

@[simp ↓] theorem State.plainWrite_pending (s : State) (p : Party) (n : RegName) (i : Nat) (w : Word) :
    (s.plainWrite p n i w).pending = s.pending := by
  simp [State.plainWrite]

@[simp ↓] theorem State.barkAns_pending (s : State) (reads : Nat) : (s.barkAns reads).pending = s.pending := by simp [State.barkAns]

@[simp ↓] theorem State.deniedAlarm_pending (s : State) (reads : Nat) : (s.deniedAlarm reads).pending = s.pending := by
  simp [State.deniedAlarm]

/-! ## Operands -/

@[simp ↓] theorem State.setRst_pending (s : State) (f : RingTbls → RingTbls) : (s.setRst f).pending = s.pending := by
  simp [State.setRst]

@[simp ↓] theorem State.setDReg_pending (s : State) (T r i : Nat) (v : W24) : (s.setDReg T r i v).pending = s.pending := by
  simp [State.setDReg]

@[simp ↓] theorem State.setAcc_pending (s : State) (T r i : Nat) (v : BitVec 56) : (s.setAcc T r i v).pending = s.pending := by
  simp [State.setAcc]

@[simp ↓] theorem State.setP_pending (s : State) (T r k : Nat) (v : BitVec 11) : (s.setP T r k v).pending = s.pending := by
  simp [State.setP]

@[simp ↓] theorem State.setBase_pending (s : State) (T r k : Nat) (v : BitVec 11) : (s.setBase T r k v).pending = s.pending := by
  simp [State.setBase]

@[simp ↓] theorem State.setLen_pending (s : State) (T r k : Nat) (v : BitVec 12) : (s.setLen T r k v).pending = s.pending := by
  simp [State.setLen]

@[simp ↓] theorem State.setFlags_pending (s : State) (T r : Nat) (v : Flags) : (s.setFlags T r v).pending = s.pending := by
  simp [State.setFlags]

@[simp ↓] theorem State.setSidx_pending (s : State) (T n v : Nat) : (s.setSidx T n v).pending = s.pending := by simp [State.setSidx]

@[simp ↓] theorem State.setTmem_pending (s : State) (T w : Nat) (v : W24) : (s.setTmem T w v).pending = s.pending := by
  simp [State.setTmem]

/-! ## Lattice -/

@[simp ↓] theorem State.latEvent_pending (g : Nat) (out prev : Nat) (e : Nat) (s : State) :
    (s.latEvent g out prev e).pending = s.pending := by
  simp [State.latEvent]

@[simp ↓] theorem State.latPin_pending (g : Nat) (out : Nat) (k : Nat) (s : State) : (s.latPin g out k).pending = s.pending := by
  simp [State.latPin]

@[simp ↓] theorem State.latEval_pending (s : State) (g : Nat) : (s.latEval g).pending = s.pending := by simp [State.latEval]

@[simp ↓] theorem execLatticeEvaluate_keepsQueue (g : Fin 64) (s : State) : KeepsQueue (execLatticeEvaluate g s) s := by
  simp [execLatticeEvaluate]

/-! ## Switch -/

@[simp ↓] theorem State.setSrc_pending (s : State) (x : Src) (st : Stage) : (s.setSrc x st).pending = s.pending := by
  simp [State.setSrc]

@[simp ↓] theorem State.barkDrop_pending (s : State) (T i : Nat) (w : CWord) : (s.barkDrop T i w).pending = s.pending := by
  simp [State.barkDrop]

@[simp ↓] theorem State.parityNote_pending (s : State) (g owner loc : Nat) : (s.parityNote g owner loc).pending = s.pending := by
  simp [State.parityNote]

@[simp ↓] theorem State.parityTold_pending (s : State) (T i : Nat) : (s.parityTold T i).pending = s.pending := by
  simp [State.parityTold]

@[simp ↓] theorem State.decodes_pending (s : State) (T i : Nat) (w : CWord) : (s.decodes T i w).pending = s.pending := by
  simp [State.decodes]

@[simp ↓] theorem State.intoStages_pending (s : State) (T i : Nat) (w : CWord) : (s.intoStages T i w).pending = s.pending := by
  simp [State.intoStages]

@[simp ↓] theorem State.arrive_pending (s : State) (T i : Nat) (w : CWord) : (s.arrive T i w).2.pending = s.pending := by
  unfold State.arrive
  dsimp only
  repeat' split
  all_goals simp

@[simp ↓] theorem State.arriveTap_pending (s : State) (T i : Nat) (upset : Bool) (w : CWord) :
    (s.arriveTap T i upset w).pending = s.pending := by
  simp [State.arriveTap]

@[simp ↓] theorem State.inputStep_pending (s : State) (T i : Nat) (upset : Bool) : (s.inputStep T i upset).pending = s.pending := by
  unfold State.inputStep
  dsimp only
  repeat' split
  all_goals simp

@[simp ↓] theorem execBarkCheck_keepsQueue (g t : Fin 64) (i : Fin 46) (upset : Bool) (s : State) :
    KeepsQueue (execBarkCheck g t i upset s) s := by
  simp [execBarkCheck]

@[simp ↓] theorem execStageTransfer_keepsQueue (g t : Fin 64) (o : Fin 42) (s : State) : KeepsQueue (execStageTransfer g t o s) s := by
  unfold execStageTransfer
  split <;> simp

/-! ## Tile -/

@[simp ↓] theorem State.sched_pending (s : State) (T : Nat) (l : List Landing) : (s.sched T l).pending = s.pending := by
  simp [State.sched]

@[simp ↓] theorem State.steerTo_pending (s : State) (T group due value : Nat) : (s.steerTo T group due value).pending = s.pending := by
  simp [State.steerTo]

@[simp ↓] theorem State.execRing_pending (s0 : State) (T r group i n : Nat) : (s0.execRing T r group i n).pending = s0.pending := by
  unfold State.execRing
  extract_lets rcd own mo act k dual q q3 word op writes inW ring mk tell s1 md ptr s2 a slot
  have htell : ∀ b c d e t, (tell b c d e t).pending = t.pending := fun b c d e t => by
    dsimp only [tell]
    split <;> simp
  have h1 : s1.pending = s0.pending := forEach_pending _ _ _ fun e t => by
    dsimp only
    split <;> simp
  have h2 : s2.pending = s0.pending := by simp [s2, h1]
  clear_value tell s2
  split
  split
  extract_lets z wu fault s3 u s4 s5 s6 s7 s8 s9
  clear_value z wu fault u
  have h3 : s3.pending = s0.pending := by
    dsimp only [s3]
    split
    · exact h2
    · split <;> simp [htell, h2]
  clear_value s3
  have h4 : s4.pending = s0.pending := by simp [s4, h3]
  clear_value s4
  have h5 : s5.pending = s0.pending := by
    dsimp only [s5]
    split
    · split
      · exact h4
      · split <;> simp [htell, h4]
    · exact h4
  clear_value s5
  have h6 : s6.pending = s0.pending := by
    dsimp only [s6]
    split <;> simp [h5]
  clear_value s6
  have h9 : s9.pending = s0.pending := by simp [s9, s8, s7, htell, h6]
  clear_value s9
  split
  · exact h9
  · simp [h9]

@[simp ↓] theorem State.ownerFault_pending (s : State) (T r : Nat) : (s.ownerFault T r).pending = s.pending := by
  simp [State.ownerFault]

@[simp ↓] theorem State.slot_pending (s : State) (T : Nat) : (s.slot T).pending = s.pending := by simp [State.slot]

@[simp ↓] theorem execTileSlot_keepsQueue (g t : Fin 64) (upset : List (Fin 2048)) (s : State) :
    KeepsQueue (execTileSlot g t upset s) s := by
  simp [execTileSlot]

@[simp ↓] theorem State.writeGcal_pending (s : State) (p : Party) (g : Nat) (w : Word) : (s.writeGcal p g w).pending = s.pending := by
  unfold State.writeGcal
  split <;> simp

@[simp ↓] theorem execTlGcalCommit_keepsQueue (p : Party) (g : Fin 64) (w : Word) (s : State) :
    KeepsQueue (execTlGcalCommit p g w s) s := by
  simp [execTlGcalCommit]

/-! ## Fifo -/

@[simp ↓] theorem State.setFifo_pending (s : State) (F : Nat) (x : FifoSt) : (s.setFifo F x).pending = s.pending := by
  simp [State.setFifo]

@[simp ↓] theorem State.fifoStore_pending (s : State) (F : Nat) (ws : List CWord) : (s.fifoStore F ws).pending = s.pending := by
  unfold State.fifoStore
  dsimp only
  repeat' split
  all_goals simp

@[simp ↓] theorem State.fifoBark_pending (s : State) (F k : Nat) (w : CWord) : (s.fifoBark F k w).pending = s.pending := by
  simp [State.fifoBark]

@[simp ↓] theorem State.fifoTapWrite_pending (s : State) (F : Nat) (upset : List Nat) :
    (s.fifoTapWrite F upset).pending = s.pending := by
  unfold State.fifoTapWrite
  extract_lets r T own key taps
  split
  · rfl
  next word s1 here s2 good _ =>
  have h1 : s1.pending = s.pending := forEach_pending _ _ _ fun _ _ => by simp
  have h2 : s2.pending = s1.pending := forEach_pending _ _ _ fun e t => by
    dsimp only
    split
    · split <;> simp
    · rfl
  clear_value s1 s2
  split <;> simp [h2, h1]

@[simp ↓] theorem execFifoWrite_keepsQueue (g : Fin 64) (f : Fin 8) (upset : List (Fin 6)) (s : State) :
    KeepsQueue (execFifoWrite g f upset s) s := by
  simp [execFifoWrite]

@[simp ↓] theorem State.fifoLeave_pending (s : State) (F : Nat) (upset : List Nat) (n : Nat) :
    (s.fifoLeave F upset n).pending = s.pending := by
  simp [State.fifoLeave]

@[simp ↓] theorem State.fifoTapRead_pending (s : State) (F : Nat) (upset line : List Nat) :
    (s.fifoTapRead F upset line).pending = s.pending := by
  unfold State.fifoTapRead
  extract_lets r T own
  split
  · rfl
  next send _ =>
  have hsend : ∀ ws t u, send ws t = some u → u.pending = t.pending := by
    intro ws t u h
    obtain ⟨-, h⟩ := Option.ite_none_right_eq_some.mp h
    cases h
    exact forEach_pending _ _ _ fun _ _ => State.arriveTap_pending _ _ _ _ _
  clear_value send
  split
  · split
    · next heq => simp [hsend _ _ _ heq]
    · rfl
  split
  · rfl
  · cases ht : send (idleWords own (fifoW r)) s with
    | none => rfl
    | some t => exact hsend _ _ _ ht

@[simp ↓] theorem execFifoRead_keepsQueue (g : Fin 64) (f : Fin 8) (upset line : List (Fin 6)) (s : State) :
    KeepsQueue (execFifoRead g f upset line s) s := by
  simp [execFifoRead]

theorem State.fifoNocPut_pending (s : State) (F : Nat) (ws : List Word) {t : State} (ht : s.fifoNocPut F ws = some t) :
    t.pending = s.pending := by
  unfold State.fifoNocPut at ht
  split at ht
  · cases ht
    simp
  · cases ht

theorem State.fifoNocGive_pending (s : State) (F : Nat) (upset : List Nat) {t : State} {x : List Word}
    (ht : s.fifoNocGive F upset = some (x, t)) :
    t.pending = s.pending := by
  unfold State.fifoNocGive at ht
  dsimp only at ht
  repeat' split at ht
  all_goals cases ht
  all_goals simp

@[simp ↓] theorem State.fifoFlush_pending (s : State) (F : Nat) : (s.fifoFlush F).pending = s.pending := by simp [State.fifoFlush]

@[simp ↓] theorem State.writeFf_pending (s : State) (p : Party) (n : RegName) (F : Nat) (w : Word) :
    (s.writeFf p n F w).pending = s.pending := by
  unfold State.writeFf
  split <;> simp

@[simp ↓] theorem execFlush_keepsQueue (p : Party) (g : Fin 64) (f : Fin 8) (s : State) : KeepsQueue (execFlush p g f s) s := by
  simp [execFlush]

/-! ## Shadow -/

@[simp ↓] theorem State.zeroGroup_pending (x : Nat × Nat) (s : State) : (s.zeroGroup x).pending = s.pending := by simp [State.zeroGroup]

@[simp ↓] theorem State.zeroMc_pending (k : Nat) (s : State) : (s.zeroMc k).pending = s.pending := by simp [State.zeroMc]

@[simp ↓] theorem State.commitOwners_pending (s : State) (g : Nat) : (s.commitOwners g).pending = s.pending := by
  simp (disch := (intros; split <;> simp)) [State.commitOwners]

@[simp ↓] theorem State.activateShadows_pending (s : State) (g : Nat) : (s.activateShadows g).pending = s.pending := by
  simp [State.activateShadows]

@[simp ↓] theorem State.commitShadows_pending (s : State) (g : Nat) : (s.commitShadows g).pending = s.pending := by
  simp [State.commitShadows]

@[simp ↓] theorem execShadowCommit_keepsQueue (g : Fin 64) (s : State) : KeepsQueue (execShadowCommit g s) s := by
  simp [execShadowCommit]

@[simp ↓] theorem State.writeRingOwner_pending (s : State) (k : Nat) (own : Tag) (ripe : Bool) :
    (s.writeRingOwner k own ripe).pending = s.pending := by
  simp [State.writeRingOwner]

/-! ## Shared -/

@[simp ↓] theorem State.meterAdd_pending (s : State) (d m k : Nat) : (s.meterAdd d m k).pending = s.pending := by simp [State.meterAdd]

@[simp ↓] theorem State.signalVec_pending (s : State) (fn v : Nat) : (s.signalVec fn v).pending = s.pending := by simp [State.signalVec]

@[simp ↓] theorem State.queueCall_pending (s : State) (c : CallSrc) : (s.queueCall c).pending = s.pending := by simp [State.queueCall]

/-! ## CellIn -/

@[simp ↓] theorem State.setLink_pending (s : State) (h : Handle) (l : Link) : (s.setLink h l).pending = s.pending := by
  simp [State.setLink]

@[simp ↓] theorem State.setCin_pending (s : State) (p : Nat) (c : CellInSt) : (s.setCin p c).pending = s.pending := by
  simp [State.setCin]

@[simp ↓] theorem State.setCout_pending (s : State) (p : Nat) (c : CellOutSt) : (s.setCout p c).pending = s.pending := by
  simp [State.setCout]

@[simp ↓] theorem State.judgeFill_pending (s : State) : s.judgeFill.pending = s.pending := by simp [State.judgeFill]

@[simp ↓] theorem State.noteFill_pending (s : State) : s.noteFill.pending = s.pending := by simp [State.noteFill]

@[simp ↓] theorem State.freeCell_pending (s : State) (h : Handle) : (s.freeCell h).pending = s.pending := by simp [State.freeCell]

@[simp ↓] theorem State.statusRec_pending (s : State) (p : Nat) (tag : Tag) (mdat : Nat) (st handle kind cause len : Nat) :
    (s.statusRec p tag mdat st handle kind cause len).pending = s.pending := by
  simp [State.statusRec]

@[simp ↓] theorem State.dropCounts_pending (s : State) (p : Nat) (tag : Tag) (mdat : Nat) (cause : Status) (head words : Nat) :
    (s.dropCounts p tag mdat cause head words).pending = s.pending := by
  simp [State.dropCounts]

@[simp ↓] theorem State.dropPkt_pending (s : State) (p : Nat) (k : OpenPkt) (cause : Status) (more : Bool) :
    (s.dropPkt p k cause more).pending = s.pending := by
  simp [State.dropPkt]

theorem State.storeWord_pending (s : State) (p : Nat) (k : OpenPkt) (w : CWord) (closing : Option Nat) {t : State}
    (ht : s.storeWord p k w closing = some t) :
    t.pending = s.pending := by
  unfold State.storeWord at ht
  dsimp only at ht
  repeat' split at ht
  all_goals cases ht
  all_goals simp

theorem State.openPkt_pending (s : State) (p : Nat) (w : CWord) (closing : Option Nat) {t : State}
    (ht : s.openPkt p w closing = some t) :
    t.pending = s.pending := by
  unfold State.openPkt at ht
  dsimp only at ht
  repeat' split at ht
  any_goals
    cases ht
    simp
  exact (State.storeWord_pending _ _ _ _ _ ht).trans (by simp)

theorem State.takeWord_pending (s : State) (p : Nat) (w : CWord) {t : State} (ht : s.takeWord p w = some t) :
    t.pending = s.pending := by
  unfold State.takeWord at ht
  dsimp only at ht
  repeat' split at ht
  any_goals
    cases ht
    simp
  any_goals exact State.storeWord_pending _ _ _ _ _ ht
  all_goals exact State.openPkt_pending _ _ _ _ ht

@[simp ↓] theorem State.enqueue_pending (s : State) (q : Nat) (x : Pkt) : (s.enqueue q x).pending = s.pending := by simp [State.enqueue]

@[simp ↓] theorem State.tellForeign_pending (s : State) (tag : Tag) : (s.tellForeign tag).pending = s.pending := by
  simp [State.tellForeign]

@[simp ↓] theorem State.refuseCmd_pending (s : State) (p : Nat) (tag : Tag) (m handle kind : Nat) (st : Status) :
    (s.refuseCmd p tag m handle kind st).pending = s.pending := by
  simp [State.refuseCmd]

@[simp ↓] theorem State.cellCmd_pending (s : State) (p : Nat) (w0 w1 : CWord) : (s.cellCmd p w0 w1).pending = s.pending := by
  simp [State.cellCmd]

/-- Taking a beat's words one after the other keeps the queue. -/
theorem State.takeWords_pending (p : Nat) (ws : List CWord) {s t : State}
    (h : ws.foldl (fun o w => o.bind fun s => s.takeWord p w) (some s) = some t) : t.pending = s.pending := by
  have hfold : ∀ (ws : List CWord) (o : Option State), (∀ t, o = some t → t.pending = s.pending) →
      ∀ t, ws.foldl (fun o w => o.bind (fun s => s.takeWord p w)) o = some t → t.pending = s.pending := by
    intro ws
    induction ws with
    | nil => exact fun o ho => ho
    | cons w r ih =>
      refine fun o ho => ih _ fun t ht => ?_
      obtain ⟨u, hu, ht⟩ := Option.bind_eq_some_iff.mp ht
      exact (State.takeWord_pending _ _ _ ht).trans (ho u hu)
  exact hfold ws (some s) (fun u hu => by cases hu; rfl) t h

@[simp ↓] theorem State.cellIn_pending (s : State) (p : Nat) : (s.cellIn p).pending = s.pending := by
  unfold State.cellIn
  extract_lets ws
  split
  · rfl
  next w0 c after _ =>
  have hafter : ∀ t, after = some t → t.pending = s.pending := by
    intro t ht
    dsimp only [after] at ht
    split at ht
    · cases ht
      simp
    · exact State.takeWords_pending p ws ht
  clear_value after
  split
  · next t => exact (forEach_pending _ _ _ fun _ _ => by simp).trans (hafter t rfl)
  · rfl

@[simp ↓] theorem execCellInBeat_keepsQueue (p : Fin 128) (s : State) : KeepsQueue (execCellInBeat p s) s := by simp [execCellInBeat]

@[simp ↓] theorem State.grant_pending (s : State) (r : Req) : (s.grant r).pending = s.pending := by simp [State.grant]

@[simp ↓] theorem State.nobuf_pending (r : Req) (s : State) : (s.nobuf r).pending = s.pending := by
  unfold State.nobuf
  split <;> simp

@[simp ↓] theorem State.bankGrants_pending (s : State) : s.bankGrants.pending = s.pending := by
  unfold State.bankGrants
  split
  · rfl
  extract_lets rs wins s1
  split
  next t lost won heq =>
  have ht : t.pending = s.pending := by
    refine (congrArg (·.1.pending) heq).symm.trans ?_
    refine foldl_keeps (fun x : State × List Req × List Req => x.1.pending) _ _ _ fun x r => ?_
    dsimp only
    split
    · rfl
    · split <;> simp
  simp [ht]

@[simp ↓] theorem execBankGrant_keepsQueue (s : State) : KeepsQueue (execBankGrant s) s := by simp [execBankGrant]

@[simp ↓] theorem State.linkChain_pending (s : State) (head : CellState) (len : Nat) (hs : List Handle) :
    (s.linkChain head len hs).pending = s.pending := by
  simp [State.linkChain]

@[simp ↓] theorem State.complete_pending (s : State) (p : Nat) (k : OpenPkt) (last : Nat) :
    (s.complete p k last).pending = s.pending := by
  simp [State.complete]

@[simp ↓] theorem execPacketComplete_keepsQueue (p : Fin 128) (s : State) : KeepsQueue (execPacketComplete p s) s := by
  unfold execPacketComplete
  split <;> simp

@[simp ↓] theorem State.writeCell_pending (s : State) (h : Handle) (ws : List W24) : (s.writeCell h ws).pending = s.pending := by
  simp [State.writeCell]

@[simp ↓] theorem State.bankWrite_pending (s : State) (b : Nat) : (s.bankWrite b).pending = s.pending := by
  unfold State.bankWrite
  dsimp only
  repeat' split
  all_goals simp

@[simp ↓] theorem execCellWrite_keepsQueue (b : Fin 16) (s : State) : KeepsQueue (execCellWrite b s) s := by simp [execCellWrite]

@[simp ↓] theorem execChainFree_keepsQueue (src : FreeSource) (s : State) : KeepsQueue (execChainFree src s) s := by
  unfold execChainFree
  split <;> simp

/-! ## Capacity -/

@[simp ↓] theorem State.tellReduced_pending (s : State) (tag : Tag) (block item index old new : Nat) :
    (s.tellReduced tag block item index old new).pending = s.pending := by
  simp [State.tellReduced]

@[simp ↓] theorem State.reduceTo_pending (s : State) (lim t w new : Nat) : (s.reduceTo lim t w new).pending = s.pending := by
  simp [State.reduceTo]

@[simp ↓] theorem State.shedLimit_pending (s : State) (lim : Nat) (granted limit : Int) :
    (s.shedLimit lim granted limit).pending = s.pending := by
  simp [State.shedLimit]

@[simp ↓] theorem State.shed_pending (s : State) : s.shed.pending = s.pending := by simp [State.shed]

@[simp ↓] theorem State.bankOffline_pending (s : State) (b : Nat) : (s.bankOffline b).pending = s.pending := by simp [State.bankOffline]

@[simp ↓] theorem State.badUnitFound_pending (s : State) (h : Handle) (port : Nat) (read direct : Bool) :
    (s.badUnitFound h port read direct).pending = s.pending := by
  simp [State.badUnitFound]

/-! ## Cells -/

@[simp ↓] theorem State.markBad_pending (s : State) (h : Handle) (units : List Nat) : (s.markBad h units).pending = s.pending := by
  simp [State.markBad]

@[simp ↓] theorem State.readCell_pending (s : State) (p : Nat) (o : OutPkt) (h : Handle) (health : CellHealth) :
    (s.readCell p o h health).2.pending = s.pending := by
  simp [State.readCell]

@[simp ↓] theorem State.bankRead_pending (s : State) (b : Nat) (health : CellHealth) : (s.bankRead b health).pending = s.pending := by
  unfold State.bankRead
  dsimp only
  repeat' split
  all_goals simp

@[simp ↓] theorem execCellRead_keepsQueue (b : Fin 16) (health : CellHealth) (s : State) : KeepsQueue (execCellRead b health s) s := by
  simp [execCellRead]

theorem State.deliver_pending (s : State) (p : Nat) (line : List Nat) (ws : List CWord) {t : State}
    (ht : s.deliver p line ws = some t) :
    t.pending = s.pending := by
  unfold State.deliver at ht
  dsimp only at ht
  repeat' split at ht
  all_goals cases ht
  all_goals simp

@[simp ↓] theorem State.metaBeat_pending (s : State) (p : Nat) (o : OutPkt) (line : List Nat) :
    (s.metaBeat p o line).pending = s.pending := by
  unfold State.metaBeat
  split
  · next t ht => simp [State.deliver_pending _ _ _ _ ht]
  · rfl

@[simp ↓] theorem State.dataBeat_pending (s : State) (p : Nat) (o : OutPkt) (line : List Nat) :
    (s.dataBeat p o line).pending = s.pending := by
  unfold State.dataBeat
  dsimp only
  split
  · rfl
  · split
    · rfl
    · next t ht => split <;> simp [State.deliver_pending _ _ _ _ ht]

@[simp ↓] theorem execCellOutBeat_keepsQueue (p : Fin 128) (line : List (Fin 6)) (s : State) :
    KeepsQueue (execCellOutBeat p line s) s := by
  unfold execCellOutBeat
  repeat' split
  all_goals simp

@[simp ↓] theorem State.setCellByte_pending (s : State) (c k : Nat) (v : Byte) : (s.setCellByte c k v).pending = s.pending := by
  simp [State.setCellByte]

@[simp ↓] theorem State.direct_pending (s : State) (tag : Tag) (write : Bool) (a len : Nat) (data : List Word) (x : UnitHealth) :
    (s.direct tag write a len data x).pending = s.pending := by
  simp [State.direct]

@[simp ↓] theorem State.directBy_pending (s : State) (p : Party) (a : Access) (x : UnitHealth) (bus : Bool) :
    (s.directBy p a x bus).pending = s.pending := by
  simp [State.directBy]

@[simp ↓] theorem execDirectWindowAccess_keepsQueue (p : Party) (a : Access) (x : UnitHealth) (s : State) :
    KeepsQueue (execDirectWindowAccess p a x s) s := by
  simp [execDirectWindowAccess]

@[simp ↓] theorem State.writeCx_pending (s : State) (p : Party) (n : RegName) (i : Nat) (w : Word) :
    (s.writeCx p n i w).pending = s.pending := by
  simp [State.writeCx]

/-! ## Noc -/

@[simp ↓] theorem State.writeRteH_pending (s : State) (p : Party) (ni d : Nat) (w : Word) :
    (s.writeRteH p ni d w).pending = s.pending := by
  simp [State.writeRteH]

@[simp ↓] theorem State.putRoute_pending (s : State) (ni d cred : Nat) : (s.putRoute ni d cred).pending = s.pending := by
  simp [State.putRoute]

@[simp ↓] theorem State.injInForce_pending (s : State) (k : Nat) : (s.injInForce k).pending = s.pending := by simp [State.injInForce]

@[simp ↓] theorem State.writeInjB_pending (s : State) (p : Party) (ni i : Nat) (w : Word) :
    (s.writeInjB p ni i w).pending = s.pending := by
  simp [State.writeInjB]

@[simp ↓] theorem State.putInj_pending (s : State) (ni i : Nat) (valid : Bool) (tag : Tag) (dst prio rate burst : Nat) :
    (s.putInj ni i valid tag dst prio rate burst).pending = s.pending := by
  simp [State.putInj]

@[simp ↓] theorem State.dropInj_pending (s : State) (ni : Nat) (tag : Tag) (dst prio : Nat) :
    (s.dropInj ni tag dst prio).pending = s.pending := by
  unfold State.dropInj
  split <;> simp

@[simp ↓] theorem execRouteEntryWrite_keepsQueue (p : Party) (ni : Fin 92) (d : Fin 128) (w : Word) (s : State) :
    KeepsQueue (execRouteEntryWrite p ni d w s) s := by
  simp [execRouteEntryWrite]

@[simp ↓] theorem execInjectionEntryWrite_keepsQueue (p : Party) (ni : Fin 5) (i : Fin 2048) (w : Word) (s : State) :
    KeepsQueue (execInjectionEntryWrite p ni i w s) s := by
  simp [execInjectionEntryWrite]

@[simp ↓] theorem execNocBucketRefill_keepsQueue (s : State) : KeepsQueue (execNocBucketRefill s) s := by simp [execNocBucketRefill]

@[simp ↓] theorem State.enterBuf_pending (s : State) (k t : Nat) (f : Flit) : (s.enterBuf k t f).pending = s.pending := by
  simp [State.enterBuf]

@[simp ↓] theorem State.setOut_pending (s : State) (ni : Nat) (l : List Outst) : (s.setOut ni l).pending = s.pending := by
  simp [State.setOut]

@[simp ↓] theorem State.noteSent_pending (s : State) (f : Flit) : (s.noteSent f).pending = s.pending := by simp [State.noteSent]

@[simp ↓] theorem State.niMove_pending (k : Nat) (s : State) : (s.niMove k).pending = s.pending := by
  unfold State.niMove
  split <;> simp

@[simp ↓] theorem State.inject_pending (s : State) (resp : Bool) (node : Nat) (fs : List Flit) :
    (s.inject resp node fs).pending = s.pending := by
  unfold State.inject
  split <;> simp

@[simp ↓] theorem State.setWait_pending (s : State) (ni : Nat) (l : List NocReq) : (s.setWait ni l).pending = s.pending := by
  simp [State.setWait]

@[simp ↓] theorem State.nocSubmit_pending (s : State) (ni : Nat) (q : NocReq) : (s.nocSubmit ni q).pending = s.pending := by
  simp [State.nocSubmit]

@[simp ↓] theorem State.nocSend_pending (s : State) (ni : Nat) (q : NocReq) (sealed : Bool) :
    (s.nocSend ni q sealed).pending = s.pending := by
  unfold State.nocSend
  repeat' split
  all_goals simp

@[simp ↓] theorem State.wormIn_pending (s : State) (resp : Bool) (node : Nat) (fs : List Flit) :
    (s.wormIn resp node fs).pending = s.pending := by
  unfold State.wormIn
  split <;> simp

@[simp ↓] theorem State.passFlit_pending (s : State) (resp : Bool) (r out : Nat) (f : Flit) :
    (s.passFlit resp r out f).pending = s.pending := by
  unfold State.passFlit
  repeat' split
  all_goals simp

@[simp ↓] theorem State.forward_pending (s : State) (resp : Bool) (r out : Nat) (u : FlitUpset) :
    (s.forward resp r out u).pending = s.pending := by
  unfold State.forward
  split <;> simp

@[simp ↓] theorem execFlitForward_keepsQueue (resp : Bool) (r : Fin 64) (out : Fin 6) (upset : FlitUpset) (s : State) :
    KeepsQueue (execFlitForward resp r out upset s) s := by
  simp [execFlitForward]

@[simp ↓] theorem State.respond_pending (s : State) (node : Nat) (q : TReq) (st : Status) (data : List Word) :
    (s.respond node q st data).pending = s.pending := by
  simp [State.respond]

@[simp ↓] theorem State.resetRequester_pending (s : State) (ni : Nat) (who : NocReq → Bool) :
    (s.resetRequester ni who).pending = s.pending := by
  simp [State.resetRequester]

@[simp ↓] theorem execNocModeSwitch_keepsQueue (s : State) : KeepsQueue (execNocModeSwitch s) s := by
  unfold execNocModeSwitch
  split <;> simp

/-! ## Host -/

@[simp ↓] theorem State.hostDone_pending (s : State) (f : HostFn) (st : Status) : (s.hostDone f st).pending = s.pending := by
  unfold State.hostDone
  repeat' split
  all_goals simp

@[simp ↓] theorem State.setDma_pending (s : State) (k : Nat) (d : DmaSt) : (s.setDma k d).pending = s.pending := by simp [State.setDma]

@[simp ↓] theorem State.vfErr_pending (s : State) (v : Nat) (r : BitVec 64) : (s.vfErr v r).pending = s.pending := by simp [State.vfErr]

@[simp ↓] theorem State.vfErrTake_pending (s : State) (v : Nat) : (s.vfErrTake v).pending = s.pending := by simp [State.vfErrTake]

@[simp ↓] theorem State.readTakes_pending (s : State) (n : RegName) (i : Nat) : (s.readTakes n i).pending = s.pending := by
  unfold State.readTakes
  split <;> simp

@[simp ↓] theorem execVfErrorRead_keepsQueue (v : Fin 512) (s : State) : KeepsQueue (execVfErrorRead v s) s := by simp [execVfErrorRead]

@[simp ↓] theorem execVfFifoEventRead_keepsQueue (v : Fin 512) (s : State) : KeepsQueue (execVfFifoEventRead v s) s := by
  simp [execVfFifoEventRead]

@[simp ↓] theorem State.writeMsix_pending (s : State) (p : Party) (i : Nat) (w : Word) : (s.writeMsix p i w).pending = s.pending := by
  simp [State.writeMsix]

@[simp ↓] theorem State.writeMail_pending (s : State) (p : Party) (n : RegName) (i : Nat) (w : Word) :
    (s.writeMail p n i w).pending = s.pending := by
  unfold State.writeMail
  split <;> simp

@[simp ↓] theorem State.pfDone_pending (s : State) (p : Party) : (s.pfDone p).pending = s.pending := by simp [State.pfDone]

@[simp ↓] theorem execH2cDoorbell_keepsQueue (p : Party) (n : Fin 8) (s : State) : KeepsQueue (execH2cDoorbell p n s) s := by
  simp [execH2cDoorbell]

@[simp ↓] theorem execC2hDoorbell_keepsQueue (p : Party) (n : Fin 8) (s : State) : KeepsQueue (execC2hDoorbell p n s) s := by
  simp [execC2hDoorbell]

@[simp ↓] theorem State.graftDone_pending (s : State) (v st reason : Nat) : (s.graftDone v st reason).pending = s.pending := by
  simp [State.graftDone]

@[simp ↓] theorem State.graftIdle_pending (s : State) (v : Nat) : (s.graftIdle v).pending = s.pending := by simp [State.graftIdle]

@[simp ↓] theorem State.writeGctl_pending (s : State) (p : Party) (v : Nat) (w : Word) : (s.writeGctl p v w).pending = s.pending := by
  unfold State.writeGctl
  split <;> simp

@[simp ↓] theorem State.writeGdata_pending (s : State) (v : Nat) (ws : List Word) : (s.writeGdata v ws).pending = s.pending := by
  simp [State.writeGdata]

@[simp ↓] theorem State.writeQcfgDma_pending (s : State) (p : Party) (k : Nat) (w : Word) :
    (s.writeQcfgDma p k w).pending = s.pending := by
  simp [State.writeQcfgDma]

@[simp ↓] theorem State.writeRingPtr_pending (s : State) (p : Party) (n : RegName) (k : Nat) (w : Word) :
    (s.writeRingPtr p n k w).pending = s.pending := by
  simp [State.writeRingPtr]

@[simp ↓] theorem State.writeVf_pending (s : State) (p : Party) (n : RegName) (i : Nat) (w : Word) :
    (s.writeVf p n i w).pending = s.pending := by
  unfold State.writeVf
  dsimp only
  repeat' split
  all_goals simp

@[simp ↓] theorem State.vfDone_pending (s : State) (v : Fin 512) : (s.vfDone v).pending = s.pending := by simp [State.vfDone]

@[simp ↓] theorem State.vfWrite_pending (s : State) (v : Fin 512) (n : RegName) (i : Nat) (w : Word) :
    (s.vfWrite v n i w).pending = s.pending := by
  unfold State.vfWrite
  split <;> simp

@[simp ↓] theorem execVopdbDoorbell_keepsQueue (v : Fin 512) (w : Word) (s : State) : KeepsQueue (execVopdbDoorbell v w s) s := by
  simp [execVopdbDoorbell]

@[simp ↓] theorem execSubmissionTail_keepsQueue (v : Fin 512) (q : Fin 8) (w : Word) (s : State) :
    KeepsQueue (execSubmissionTail v q w s) s := by
  simp [execSubmissionTail]

@[simp ↓] theorem execQueuePairEnable_keepsQueue (v : Fin 512) (q : Fin 8) (w : Word) (s : State) :
    KeepsQueue (execQueuePairEnable v q w s) s := by
  simp [execQueuePairEnable]

@[simp ↓] theorem execQueuePairDisable_keepsQueue (v : Fin 512) (q : Fin 8) (w : Word) (s : State) :
    KeepsQueue (execQueuePairDisable v q w s) s := by
  simp [execQueuePairDisable]

@[simp ↓] theorem execGraftOpen_keepsQueue (v : Fin 512) (w : Word) (s : State) : KeepsQueue (execGraftOpen v w s) s := by
  simp [execGraftOpen]

@[simp ↓] theorem execGraftDataWrite_keepsQueue (v : Fin 512) (ws : List Word) (s : State) :
    KeepsQueue (execGraftDataWrite v ws s) s := by
  simp [execGraftDataWrite]

@[simp ↓] theorem execGraftCommitWrite_keepsQueue (v : Fin 512) (w : Word) (s : State) : KeepsQueue (execGraftCommitWrite v w s) s := by
  simp [execGraftCommitWrite]

@[simp ↓] theorem execGraftCancel_keepsQueue (v : Fin 512) (w : Word) (s : State) : KeepsQueue (execGraftCancel v w s) s := by
  simp [execGraftCancel]

@[simp ↓] theorem execGraftSubmissionTimeout_keepsQueue (v : Fin 512) (s : State) : KeepsQueue (execGraftSubmissionTimeout v s) s := by
  simp [execGraftSubmissionTimeout]

@[simp ↓] theorem State.bar2Write_pending (s : State) (len : Nat) (ws : List Word) : (s.bar2Write len ws).pending = s.pending := by
  simp [State.bar2Write]

@[simp ↓] theorem execConfigStreamWrite_keepsQueue (len : Nat) (ws : List Word) (s : State) :
    KeepsQueue (execConfigStreamWrite len ws s) s := by
  simp [execConfigStreamWrite]

@[simp ↓] theorem State.writeHi_pending (s : State) (p : Party) (n : RegName) (i : Nat) (w : Word) :
    (s.writeHi p n i w).pending = s.pending := by
  unfold State.writeHi
  repeat' split
  all_goals simp

@[simp ↓] theorem State.eachWord_pending (s : State) {f : Nat → Word → State → State} (addr : Nat) (ws : List Word)
    (h : ∀ a w t, (f a w t).pending = t.pending) : (s.eachWord f addr ws).pending = s.pending := by
  simp only [State.eachWord, State.ans_frame]
  exact foldl_keeps (fun x : Status × List Word × State => x.2.2.pending) _ _ _ fun x e => h _ _ _

@[simp ↓] theorem State.hiWord_pending (s : State) (p : Party) (write : Bool) (r : Option RegId) (w : Word) :
    (s.hiWord p write r w).pending = s.pending := by
  unfold State.hiWord
  split <;> simp

@[simp ↓] theorem State.hostAccess_pending (s : State) (f : HostFn) (a : Access) : (s.hostAccess f a).pending = s.pending := by
  unfold State.hostAccess
  repeat' split
  all_goals simp

@[simp ↓] theorem execHostBarAccess_keepsQueue (f : HostFn) (a : Access) (s : State) : KeepsQueue (execHostBarAccess f a s) s := by
  simp [execHostBarAccess]

@[simp ↓] theorem State.vfReset_pending (v : Nat) (s : State) : (s.vfReset v).pending = s.pending := by simp [State.vfReset]

@[simp ↓] theorem execVfFunctionLevelReset_keepsQueue (v : Fin 512) (s : State) : KeepsQueue (execVfFunctionLevelReset v s) s := by
  simp [execVfFunctionLevelReset]

@[simp ↓] theorem State.pf0Reset_pending (s : State) : s.pf0Reset.pending = s.pending := by simp [State.pf0Reset]

@[simp ↓] theorem execPf0Reset_keepsQueue (s : State) : KeepsQueue (execPf0Reset s) s := by simp [execPf0Reset]

/-! ## Dispatcher -/

@[simp ↓] theorem State.setThr_pending (s : State) (i : Nat) (t : Thread) : (s.setThr i t).pending = s.pending := by simp [State.setThr]

@[simp ↓] theorem State.setCore_pending (s : State) (n : Nat) (c : CoreSt) : (s.setCore n c).pending = s.pending := by
  simp [State.setCore]

@[simp ↓] theorem State.traceRec_pending (s : State) (kind core thread detail : Nat) :
    (s.traceRec kind core thread detail).pending = s.pending := by
  simp [State.traceRec]

@[simp ↓] theorem State.nextSeq_pending (s : State) : s.nextSeq.2.pending = s.pending := by simp [State.nextSeq]

@[simp ↓] theorem State.makeReady_pending (s : State) (i reason : Nat) (val : Word) (detail : Nat) :
    (s.makeReady i reason val detail).pending = s.pending := by
  simp [State.makeReady]

@[simp ↓] theorem State.readyAtHead_pending (s : State) (i : Nat) : (s.readyAtHead i).pending = s.pending := by simp [State.readyAtHead]

theorem State.assignOne_pending (s : State) {t : State} (ht : s.assignOne = some t) : t.pending = s.pending := by
  unfold State.assignOne at ht
  dsimp only at ht
  repeat' split at ht
  all_goals cases ht
  all_goals simp

@[simp ↓] theorem State.assignPass_pending (fuel : Nat) (s : State) : (s.assignPass fuel).pending = s.pending := by
  induction fuel generalizing s with
  | zero => rfl
  | succ fuel ih =>
    unfold State.assignPass
    split
    · next t ht => exact (ih t).trans (State.assignOne_pending s ht)
    · rfl

@[simp ↓] theorem State.preemptPass_pending (s : State) : s.preemptPass.pending = s.pending := by
  simp (disch := (intros; split <;> simp)) [State.preemptPass]

@[simp ↓] theorem State.passes2_pending (s : State) : s.passes2.pending = s.pending := by simp [State.passes2]

@[simp ↓] theorem State.stopClock_pending (s : State) (n : Nat) : (s.stopClock n).pending = s.pending := by simp [State.stopClock]

@[simp ↓] theorem State.endRun_pending (s : State) (n i op : Nat) : (s.endRun n i op).pending = s.pending := by simp [State.endRun]

@[simp ↓] theorem State.freeThr_pending (s : State) (i : Nat) : (s.freeThr i).pending = s.pending := by simp [State.freeThr]

@[simp ↓] theorem State.setWake_pending (s : State) (i : Nat) (stamp : Word) : (s.setWake i stamp).pending = s.pending := by
  simp [State.setWake]

@[simp ↓] theorem State.setDl_pending (s : State) (i : Nat) (stamp : Word) : (s.setDl i stamp).pending = s.pending := by
  simp [State.setDl]

@[simp ↓] theorem State.wakeNow_pending (e : Nat × Thread) (s : State) : (s.wakeNow e).pending = s.pending := by simp [State.wakeNow]

@[simp ↓] theorem State.missNow_pending (e : Nat × Thread) (s : State) : (s.missNow e).pending = s.pending := by simp [State.missNow]

@[simp ↓] theorem State.dispFault_pending (s : State) (u : DispCheck) : (s.dispFault u).pending = s.pending := by simp [State.dispFault]

@[simp ↓] theorem State.tickOp_pending (s : State) (u : DispCheck) : (s.tickOp u).pending = s.pending := by simp [State.tickOp]

@[simp ↓] theorem State.tickFirst_pending (s : State) : s.tickFirst.pending = s.pending := by simp [State.tickFirst]

@[simp ↓] theorem State.setPend_pending (s : State) (e : Nat) (v : Bool) : (s.setPend e v).pending = s.pending := by
  simp [State.setPend]

@[simp ↓] theorem State.egSet_pending (s : State) (g : Nat) (v : Word) (detail : Nat) : (s.egSet g v detail).pending = s.pending := by
  simp [State.egSet]

@[simp ↓] theorem State.deliverSrc_pending (s : State) (e : Nat) : (s.deliverSrc e).pending = s.pending := by
  unfold State.deliverSrc
  dsimp only
  split <;> simp

@[simp ↓] theorem State.turnFirst_pending (s : State) : s.turnFirst.pending = s.pending := by
  unfold State.turnFirst
  dsimp only
  repeat' split
  all_goals simp

@[simp ↓] theorem State.cmdResult_pending (s : State) (n : Nat) (st : Status) (ended : Bool) (val : Word) :
    (s.cmdResult n st ended val).pending = s.pending := by
  simp [State.cmdResult]

@[simp ↓] theorem State.serveCore_pending (s : State) (n : Nat) : (s.serveCore n).pending = s.pending := by simp [State.serveCore]

/-- What a dispatcher command comes to holds the waiting commands `l`. -/
def CmdOut.Keeps (o : CmdOut) (l : List Instr) : Prop :=
  match o with
  | .refused _ => True
  | .done t _ _ => t.pending = l

@[simp ↓] theorem CmdOut.keeps_refused (st : Status) (l : List Instr) : (CmdOut.refused st).Keeps l := trivial

@[simp ↓] theorem CmdOut.keeps_done (t : State) (e : Bool) (v : Word) (l : List Instr) : (CmdOut.done t e v).Keeps l ↔ t.pending = l :=
  Iff.rfl

@[simp ↓] theorem CmdOut.keeps_ite (c : Prop) [Decidable c] (a b : CmdOut) (l : List Instr) :
    (if c then a else b).Keeps l ↔ if c then a.Keeps l else b.Keeps l := by
  split <;> rfl

/-- A dispatcher command keeps the queue when its own effect does. -/
theorem State.command_pending (s : State) (n : Nat) (u : DispCheck) {f : State → Option Nat → CmdOut}
    (h : ∀ t cur, (f t cur).Keeps t.pending) : (s.command n u f).pending = s.pending := by
  have hf := h (s.serveCore n) (((s.serveCore n).coreSt n).cur.map (·.val))
  unfold State.command
  dsimp only
  split
  · rfl
  split
  · simp
  split
  · simp
  split
  · simp
  · next t e v heq =>
    rw [heq] at hf
    simpa using hf

theorem keepsQueue_command (s : State) (n : Nat) (u : DispCheck) {f : State → Option Nat → CmdOut}
    (h : ∀ t cur, (f t cur).Keeps t.pending) : KeepsQueue (.next (s.command n u f)) s :=
  (keepsQueue_next _ _).mpr (s.command_pending n u h)

@[simp ↓] theorem State.beginWait_pending (s : State) (n i op : Nat) (st : ThState) (obj : Nat) (d : Tmo) :
    (s.beginWait n i op st obj d).pending = s.pending := by
  unfold State.beginWait
  dsimp only
  repeat' split
  all_goals simp

@[simp ↓] theorem State.waitOr_keeps (s : State) (n i op : Nat) (st : ThState) (obj : Nat) (d : Tmo) :
    (s.waitOr n i op st obj d).Keeps s.pending := by
  unfold State.waitOr
  split <;> simp

@[simp ↓] theorem State.unbind_pending (s : State) (i : Nat) : (s.unbind i).pending = s.pending := by simp [State.unbind]

@[simp ↓] theorem State.exitCur_keeps (s : State) (n i : Nat) : (s.exitCur n i).Keeps s.pending := by simp [State.exitCur]

@[simp ↓] theorem execCreate_keepsQueue (n : Fin 8) (obj : BitVec 10) (u : DispCheck) (s : State) :
    KeepsQueue (execCreate n obj u s) s := by
  refine keepsQueue_command _ _ _ fun t cur => ?_
  dsimp only
  repeat' split
  all_goals simp

@[simp ↓] theorem execDestroy_keepsQueue (n : Fin 8) (obj : BitVec 10) (u : DispCheck) (s : State) :
    KeepsQueue (execDestroy n obj u s) s := by
  refine keepsQueue_command _ _ _ fun t cur => ?_
  dsimp only
  repeat' split
  all_goals simp

@[simp ↓] theorem execSetprio_keepsQueue (n : Fin 8) (obj : BitVec 10) (u : DispCheck) (s : State) :
    KeepsQueue (execSetprio n obj u s) s := by
  refine keepsQueue_command _ _ _ fun t cur => ?_
  dsimp only
  repeat' split
  all_goals simp

@[simp ↓] theorem execSetaff_keepsQueue (n : Fin 8) (obj : BitVec 10) (u : DispCheck) (s : State) :
    KeepsQueue (execSetaff n obj u s) s := by
  refine keepsQueue_command _ _ _ fun t cur => ?_
  dsimp only
  repeat' split
  all_goals simp

@[simp ↓] theorem execWakeThread_keepsQueue (n : Fin 8) (obj : BitVec 10) (u : DispCheck) (s : State) :
    KeepsQueue (execWakeThread n obj u s) s := by
  refine keepsQueue_command _ _ _ fun t cur => ?_
  simp

@[simp ↓] theorem State.yieldCur_keeps (s : State) (n i op : Nat) : (s.yieldCur n i op).Keeps s.pending := by
  simp [State.yieldCur]

@[simp ↓] theorem execYieldThread_keepsQueue (n : Fin 8) (obj : BitVec 10) (u : DispCheck) (s : State) :
    KeepsQueue (execYieldThread n obj u s) s := by
  refine keepsQueue_command _ _ _ fun t cur => ?_
  split <;> simp

@[simp ↓] theorem execExitThread_keepsQueue (n : Fin 8) (obj : BitVec 10) (u : DispCheck) (s : State) :
    KeepsQueue (execExitThread n obj u s) s := by
  refine keepsQueue_command _ _ _ fun t cur => ?_
  split <;> simp

@[simp ↓] theorem State.delayCur_keeps (s : State) (n i op : Nat) (stamp : Word) : (s.delayCur n i op stamp).Keeps s.pending := by
  simp [State.delayCur]

@[simp ↓] theorem execDelay_keepsQueue (n : Fin 8) (obj : BitVec 10) (u : DispCheck) (s : State) :
    KeepsQueue (execDelay n obj u s) s := by
  refine keepsQueue_command _ _ _ fun t cur => ?_
  dsimp only
  repeat' split
  all_goals simp

@[simp ↓] theorem execDelayto_keepsQueue (n : Fin 8) (obj : BitVec 10) (u : DispCheck) (s : State) :
    KeepsQueue (execDelayto n obj u s) s := by
  refine keepsQueue_command _ _ _ fun t cur => ?_
  dsimp only
  repeat' split
  all_goals simp

@[simp ↓] theorem execSetdl_keepsQueue (n : Fin 8) (obj : BitVec 10) (u : DispCheck) (s : State) :
    KeepsQueue (execSetdl n obj u s) s := by
  refine keepsQueue_command _ _ _ fun t cur => ?_
  dsimp only
  repeat' split
  all_goals simp

@[simp ↓] theorem execClrdl_keepsQueue (n : Fin 8) (obj : BitVec 10) (u : DispCheck) (s : State) :
    KeepsQueue (execClrdl n obj u s) s := by
  refine keepsQueue_command _ _ _ fun t cur => ?_
  dsimp only
  repeat' split
  all_goals simp

@[simp ↓] theorem execSemtake_keepsQueue (n : Fin 8) (obj : BitVec 10) (u : DispCheck) (s : State) :
    KeepsQueue (execSemtake n obj u s) s := by
  refine keepsQueue_command _ _ _ fun t cur => ?_
  dsimp only
  repeat' split
  all_goals simp

@[simp ↓] theorem execSemgive_keepsQueue (n : Fin 8) (obj : BitVec 10) (u : DispCheck) (s : State) :
    KeepsQueue (execSemgive n obj u s) s := by
  refine keepsQueue_command _ _ _ fun t cur => ?_
  dsimp only
  repeat' split
  all_goals simp

@[simp ↓] theorem execSeminit_keepsQueue (n : Fin 8) (obj : BitVec 10) (u : DispCheck) (s : State) :
    KeepsQueue (execSeminit n obj u s) s := by
  refine keepsQueue_command _ _ _ fun t cur => ?_
  dsimp only
  repeat' split
  all_goals simp

@[simp ↓] theorem execEgset_keepsQueue (n : Fin 8) (obj : BitVec 10) (u : DispCheck) (s : State) :
    KeepsQueue (execEgset n obj u s) s := by
  refine keepsQueue_command _ _ _ fun t cur => ?_
  simp

@[simp ↓] theorem execEgclr_keepsQueue (n : Fin 8) (obj : BitVec 10) (u : DispCheck) (s : State) :
    KeepsQueue (execEgclr n obj u s) s := by
  refine keepsQueue_command _ _ _ fun t cur => ?_
  simp

@[simp ↓] theorem execEgwait_keepsQueue (n : Fin 8) (obj : BitVec 10) (all clr : Bool) (u : DispCheck) (s : State) :
    KeepsQueue (execEgwait n obj all clr u s) s := by
  refine keepsQueue_command _ _ _ fun t cur => ?_
  dsimp only
  split
  · next i =>
    split
    · simp
    split
    · simp
    have hw := t.waitOr_keeps n.val i 0x1A .waitEg obj.toNat (tmoOf (t.arg1 n.val))
    generalize t.waitOr n.val i 0x1A .waitEg obj.toNat (tmoOf (t.arg1 n.val)) = o at hw ⊢
    cases o with
    | refused st => trivial
    | done t' e v => simpa using hw
  · simp

@[simp ↓] theorem execEvbind_keepsQueue (n : Fin 8) (obj : BitVec 10) (u : DispCheck) (s : State) :
    KeepsQueue (execEvbind n obj u s) s := by
  refine keepsQueue_command _ _ _ fun t cur => ?_
  dsimp only
  repeat' split
  all_goals simp

@[simp ↓] theorem execEvclr_keepsQueue (n : Fin 8) (obj : BitVec 10) (u : DispCheck) (s : State) :
    KeepsQueue (execEvclr n obj u s) s := by
  refine keepsQueue_command _ _ _ fun t cur => ?_
  dsimp only
  repeat' split
  all_goals simp

@[simp ↓] theorem execEvwait_keepsQueue (n : Fin 8) (obj : BitVec 10) (u : DispCheck) (s : State) :
    KeepsQueue (execEvwait n obj u s) s := by
  refine keepsQueue_command _ _ _ fun t cur => ?_
  dsimp only
  repeat' split
  all_goals simp

@[simp ↓] theorem execEventDelivery_keepsQueue (e : Fin 2048) (u : DispCheck) (s : State) : KeepsQueue (execEventDelivery e u s) s := by
  simp [execEventDelivery]

@[simp ↓] theorem execTake_keepsQueue (n : Fin 8) (u : DispCheck) (s : State) : KeepsQueue (execTake n u s) s := by
  unfold execTake
  dsimp only
  repeat' split
  all_goals simp

@[simp ↓] theorem execTick_keepsQueue (upset : DispCheck) (s : State) : KeepsQueue (execTick upset s) s := by simp [execTick]

@[simp ↓] theorem execWakeExpiry_keepsQueue (s : State) : KeepsQueue (execWakeExpiry s) s := by
  unfold execWakeExpiry
  repeat' split
  all_goals simp

@[simp ↓] theorem execDeadlineMiss_keepsQueue (s : State) : KeepsQueue (execDeadlineMiss s) s := by
  unfold execDeadlineMiss
  repeat' split
  all_goals simp

@[simp ↓] theorem execAudit_keepsQueue (upset : DispCheck) (s : State) : KeepsQueue (execAudit upset s) s := by simp [execAudit]

@[simp ↓] theorem State.rebuilt_pending (s : State) : s.rebuilt.pending = s.pending := by
  unfold State.rebuilt
  extract_lets s1 s2 s3 s4
  have h4 : s4.pending = s3.pending := forEach_pending _ _ _ fun n t => by
    split
    · split <;> simp
    · rfl
  have h3 : s3.pending = s.pending := by simp [s3, s2, s1]
  clear_value s3 s4
  simp [h4, h3]

@[simp ↓] theorem State.dispReset_pending (s : State) (from' : Nat) : (s.dispReset from').pending = s.pending := by
  simp [State.dispReset]

@[simp ↓] theorem execDlmissRead_keepsQueue (p : Party) (s : State) : KeepsQueue (execDlmissRead p s) s := by
  unfold execDlmissRead
  split <;> simp

@[simp ↓] theorem execTraceRead_keepsQueue (p : Party) (s : State) : KeepsQueue (execTraceRead p s) s := by
  unfold execTraceRead
  split <;> simp

/-! ## Cores -/

@[simp ↓] theorem State.setCsr_pending (s : State) (n c v : Nat) : (s.setCsr n c v).pending = s.pending := by simp [State.setCsr]

@[simp ↓] theorem State.csrWrite_pending (s : State) (n c v : Nat) : (s.csrWrite n c v).pending = s.pending := by
  unfold State.csrWrite
  split <;> simp

@[simp ↓] theorem State.setMode_pending (s : State) (n : Nat) (u : Bool) : (s.setMode n u).pending = s.pending := by
  simp [State.setMode]

@[simp ↓] theorem State.coreTrap_pending (s : State) (n cause tval pc : Nat) : (s.coreTrap n cause tval pc).pending = s.pending := by
  simp [State.coreTrap]

@[simp ↓] theorem State.coreRet_pending (s : State) (n : Nat) : (s.coreRet n).pending = s.pending := by simp [State.coreRet]

@[simp ↓] theorem State.breakResv_pending (s : State) (lo len : Nat) : (s.breakResv lo len).pending = s.pending := by
  simp [State.breakResv]

@[simp ↓] theorem State.setResv_pending (s : State) (n : Nat) (d : Option Nat) : (s.setResv n d).pending = s.pending := by
  simp [State.setResv]

/-! ## TimeBase -/

@[simp ↓] theorem State.putTime_pending (s : State) (h l n f : RegName) (t : Nat) : (s.putTime h l n f t).pending = s.pending := by
  simp [State.putTime]

@[simp ↓] theorem State.writeTbcmd_pending (s : State) (p : Party) (w : Word) : (s.writeTbcmd p w).pending = s.pending := by
  simp [State.writeTbcmd]

@[simp ↓] theorem State.writeTb_pending (s : State) (p : Party) (n : RegName) (i : Nat) (w : Word) :
    (s.writeTb p n i w).pending = s.pending := by
  unfold State.writeTb
  repeat' split
  all_goals simp

@[simp ↓] theorem execTimeBaseSet_keepsQueue (p : Party) (w : Word) (s : State) : KeepsQueue (execTimeBaseSet p w s) s := by
  simp [execTimeBaseSet]

@[simp ↓] theorem execTimeBaseAdj_keepsQueue (p : Party) (w : Word) (s : State) : KeepsQueue (execTimeBaseAdj p w s) s := by
  simp [execTimeBaseAdj]

@[simp ↓] theorem execTimeBaseSnap_keepsQueue (p : Party) (w : Word) (s : State) : KeepsQueue (execTimeBaseSnap p w s) s := by
  simp [execTimeBaseSnap]

@[simp ↓] theorem execPpsOutPulse_keepsQueue (rise : Bool) (s : State) : KeepsQueue (execPpsOutPulse rise s) s := by
  simp [execPpsOutPulse]

@[simp ↓] theorem execPpsInCapture_keepsQueue (s : State) : KeepsQueue (execPpsInCapture s) s := by simp [execPpsInCapture]

/-! ## Pins -/

@[simp ↓] theorem State.timerLoad_pending (s : State) (n : Nat) : (s.timerLoad n).pending = s.pending := by simp [State.timerLoad]

@[simp ↓] theorem State.timerStep_pending (n : Nat) (s : State) : (s.timerStep n).pending = s.pending := by simp [State.timerStep]

@[simp ↓] theorem State.timerCapture_pending (s : State) (n : Nat) : (s.timerCapture n).pending = s.pending := by
  simp [State.timerCapture]

@[simp ↓] theorem State.patEval_pending (u : Nat) (s : State) : (s.patEval u).pending = s.pending := by simp [State.patEval]

@[simp ↓] theorem State.patAssert_pending (u : Nat) (s : State) : (s.patAssert u).pending = s.pending := by simp [State.patAssert]

@[simp ↓] theorem State.hubStep_pending (s : State) (pads : BitVec 64) : (s.hubStep pads).pending = s.pending := by simp [State.hubStep]

@[simp ↓] theorem execHubEdge_keepsQueue (pads : BitVec 64) (s : State) : KeepsQueue (execHubEdge pads s) s := by simp [execHubEdge]

@[simp ↓] theorem execPatternMatch_keepsQueue (u : Fin 8) (s : State) : KeepsQueue (execPatternMatch u s) s := by
  simp [execPatternMatch]

@[simp ↓] theorem execTimerWrap_keepsQueue (n : Fin 8) (s : State) : KeepsQueue (execTimerWrap n s) s := by simp [execTimerWrap]

@[simp ↓] theorem execTimerCapture_keepsQueue (n : Fin 8) (s : State) : KeepsQueue (execTimerCapture n s) s := by
  simp [execTimerCapture]

@[simp ↓] theorem State.pinBits_pending (s : State) (p : Party) (n : RegName) (i mask : Nat) (apply : Nat → Nat → Nat) :
    (s.pinBits p n i mask apply).pending = s.pending := by
  simp [State.pinBits]

@[simp ↓] theorem State.writePin_pending (s : State) (p : Party) (n : RegName) (i : Nat) (w : Word) :
    (s.writePin p n i w).pending = s.pending := by
  unfold State.writePin
  split <;> simp

@[simp ↓] theorem State.writePcfg_pending (s : State) (p : Party) (n : Nat) (w : Word) : (s.writePcfg p n w).pending = s.pending := by
  simp [State.writePcfg]

@[simp ↓] theorem State.writePat_pending (s : State) (p : Party) (n : RegName) (u : Nat) (w : Word) :
    (s.writePat p n u w).pending = s.pending := by
  simp [State.writePat]

@[simp ↓] theorem State.writeTimer_pending (s : State) (p : Party) (n : RegName) (i : Nat) (w : Word) :
    (s.writeTimer p n i w).pending = s.pending := by
  simp [State.writeTimer]

@[simp ↓] theorem State.writeGp_pending (s : State) (p : Party) (n : RegName) (i : Nat) (w : Word) :
    (s.writeGp p n i w).pending = s.pending := by
  unfold State.writeGp
  repeat' split
  all_goals simp

@[simp ↓] theorem execGpioSet_keepsQueue (p : Party) (hi : Fin 2) (w : Word) (s : State) : KeepsQueue (execGpioSet p hi w s) s := by
  simp [execGpioSet]

@[simp ↓] theorem execGpioClear_keepsQueue (p : Party) (hi : Fin 2) (w : Word) (s : State) : KeepsQueue (execGpioClear p hi w s) s := by
  simp [execGpioClear]

@[simp ↓] theorem execGpioToggle_keepsQueue (p : Party) (hi : Fin 2) (w : Word) (s : State) :
    KeepsQueue (execGpioToggle p hi w s) s := by
  simp [execGpioToggle]

@[simp ↓] theorem execPgoodChange_keepsQueue (b : Fin 4) (good : Bool) (s : State) : KeepsQueue (execPgoodChange b good s) s := by
  simp [execPgoodChange]

@[simp ↓] theorem State.pinsAtLoad_pending (s : State) (service : Bool) : (s.pinsAtLoad service).pending = s.pending := by
  simp [State.pinsAtLoad]

@[simp ↓] theorem State.putPinFrame_pending (s : State) (sub : Nat) (ws : List Word) : (s.putPinFrame sub ws).pending = s.pending := by
  simp [State.putPinFrame]

@[simp ↓] theorem State.pinsAtOut_pending (s : State) (supply : Nat) : (s.pinsAtOut supply).pending = s.pending := by
  unfold State.pinsAtOut
  dsimp only
  repeat' split
  all_goals simp

/-! ## Image -/

@[simp ↓] theorem State.nvmPut_pending (s : State) (a : Nat) (l : List Byte) : (s.nvmPut a l).pending = s.pending := by
  simp [State.nvmPut]

@[simp ↓] theorem State.readSlot_pending (s : State) (t : Nat) : (s.readSlot t).2.pending = s.pending := by
  unfold State.readSlot
  dsimp only
  repeat' split
  all_goals simp

/-! ## Lanes -/

@[simp ↓] theorem State.laneSticky_pending (s : State) (j b : Nat) : (s.laneSticky j b).pending = s.pending := by
  simp [State.laneSticky]

@[simp ↓] theorem State.setPy_pending (s : State) (j : Nat) (x : PyrilSt) : (s.setPy j x).pending = s.pending := by simp [State.setPy]

@[simp ↓] theorem State.setPySt_pending (s : State) (j v : Nat) : (s.setPySt j v).pending = s.pending := by simp [State.setPySt]

@[simp ↓] theorem State.pyDown_pending (s : State) (j : Nat) : (s.pyDown j).pending = s.pending := by simp [State.pyDown]

@[simp ↓] theorem State.setTx_pending (s : State) (j : Nat) (x : TxSt) : (s.setTx j x).pending = s.pending := by simp [State.setTx]

@[simp ↓] theorem State.laneLoses_pending (s : State) (j b sticky : Nat) : (s.laneLoses j b sticky).pending = s.pending := by
  simp [State.laneLoses]

@[simp ↓] theorem State.laneUp_pending (s : State) (j : Nat) : (s.laneUp j).pending = s.pending := by simp [State.laneUp]

@[simp ↓] theorem State.laneDown_pending (s : State) (j : Nat) : (s.laneDown j).pending = s.pending := by simp [State.laneDown]

@[simp ↓] theorem State.writeLnCfg_pending (s : State) (p : Party) (j : Nat) (w : Word) : (s.writeLnCfg p j w).pending = s.pending := by
  simp [State.writeLnCfg]

@[simp ↓] theorem State.writeWhole_pending (s : State) (p : Party) (n : RegName) (i : Nat) (ok : Bool) (w : Word) :
    (s.writeWhole p n i ok w).pending = s.pending := by
  simp [State.writeWhole]

@[simp ↓] theorem State.writeTrain_pending (s : State) (p : Party) (j : Nat) (w : Word) : (s.writeTrain p j w).pending = s.pending := by
  simp [State.writeTrain]

@[simp ↓] theorem State.writeEye_pending (s : State) (p : Party) (j : Nat) (w : Word) : (s.writeEye p j w).pending = s.pending := by
  simp [State.writeEye]

@[simp ↓] theorem State.lnCount_pending (s : State) (j i k : Nat) : (s.lnCount j i k).pending = s.pending := by simp [State.lnCount]

@[simp ↓] theorem State.writeCntctl_pending (s : State) (p : Party) (j : Nat) (w : Word) :
    (s.writeCntctl p j w).pending = s.pending := by
  simp [State.writeCntctl]

@[simp ↓] theorem State.writeLn_pending (s : State) (p : Party) (n : RegName) (i : Nat) (w : Word) :
    (s.writeLn p n i w).pending = s.pending := by
  unfold State.writeLn
  repeat' split
  all_goals simp

@[simp ↓] theorem execLaneEnable_keepsQueue (p : Party) (j : Fin 128) (w : Word) (s : State) :
    KeepsQueue (execLaneEnable p j w s) s := by
  simp [execLaneEnable]

@[simp ↓] theorem execTrainingStart_keepsQueue (p : Party) (j : Fin 128) (w : Word) (s : State) :
    KeepsQueue (execTrainingStart p j w s) s := by
  simp [execTrainingStart]

@[simp ↓] theorem execEyeStart_keepsQueue (p : Party) (j : Fin 128) (w : Word) (s : State) : KeepsQueue (execEyeStart p j w s) s := by
  simp [execEyeStart]

@[simp ↓] theorem execLaneCounterSnap_keepsQueue (p : Party) (j : Fin 128) (w : Word) (s : State) :
    KeepsQueue (execLaneCounterSnap p j w s) s := by
  simp [execLaneCounterSnap]

@[simp ↓] theorem execPllLockChange_keepsQueue (g : Fin 16) (lock : Bool) (s : State) : KeepsQueue (execPllLockChange g lock s) s := by
  simp [execPllLockChange]

@[simp ↓] theorem execCalibrationDone_keepsQueue (j : Fin 128) (s : State) : KeepsQueue (execCalibrationDone j s) s := by
  simp [execCalibrationDone]

@[simp ↓] theorem execLockChange_keepsQueue (j : Fin 128) (lock align : Bool) (s : State) :
    KeepsQueue (execLockChange j lock align s) s := by
  simp [execLockChange]

@[simp ↓] theorem execTrainingEnd_keepsQueue (j : Fin 128) (result : BitVec 2) (taps : List Word) (s : State) :
    KeepsQueue (execTrainingEnd j result taps s) s := by
  simp [execTrainingEnd]

@[simp ↓] theorem execEyeDone_keepsQueue (j : Fin 128) (m0 m1 m2 : Word) (s : State) : KeepsQueue (execEyeDone j m0 m1 m2 s) s := by
  simp [execEyeDone]

@[simp ↓] theorem State.rxPush_pending (s : State) (j : Nat) (rows : List (List (List CWord))) :
    (s.rxPush j rows).pending = s.pending := by
  simp [State.rxPush]

@[simp ↓] theorem State.rxStore_pending (s : State) (j : Nat) (m : List CWord) (words : List CWord) :
    (s.rxStore j m words).2.pending = s.pending := by
  unfold State.rxStore
  dsimp only
  repeat' split
  all_goals simp

@[simp ↓] theorem State.rxCause_pending (s : State) (j : Nat) (f : RxFrame) : (s.rxCause j f).2.pending = s.pending := by
  unfold State.rxCause
  split <;> simp

@[simp ↓] theorem State.fecCount_pending (s : State) (j : Nat) (l : List FecWord) : (s.fecCount j l).pending = s.pending := by
  simp (disch := (intros; split <;> simp)) [State.fecCount]

/-- What `rxStore` stores and the count that follows keep the queue. -/
theorem State.rxStore_count_pending (s : State) (j n : Nat) (m ws : List CWord) :
    (match s.rxStore j m ws with
      | (whole, t) => if whole then t.lnCount j n 1 else t).pending = s.pending := by
  have hs := s.rxStore_pending j m ws
  split
  next whole t heq =>
  rw [heq] at hs
  split
  · exact (t.lnCount_pending j n 1).trans hs
  · exact hs

@[simp ↓] theorem State.rxDeliver_pending (s : State) (j : Nat) (f : RxFrame) (low : Nat) (body : List Byte) :
    (s.rxDeliver j f low body).pending = s.pending := by
  unfold State.rxDeliver
  extract_lets i m cs s1
  have h1 : s1.pending = s.pending := by simp [s1]
  clear_value s1
  have hc := s1.rxCause_pending j f
  split
  · next s2 heq =>
    rw [heq] at hc
    exact (s2.rxStore_count_pending j 0 _ _).trans (hc.trans h1)
  · next c s2 heq =>
    rw [heq] at hc
    exact (s2.rxStore_count_pending j 1 _ _).trans (hc.trans h1)

@[simp ↓] theorem execReceiveFrame_keepsQueue (j : Fin 128) (f : RxFrame) (s : State) : KeepsQueue (execReceiveFrame j f s) s := by
  simp [execReceiveFrame]

@[simp ↓] theorem State.rawStore_pending (s : State) (j units : Nat) (bs : List (List CWord)) :
    (s.rawStore j units bs).2.pending = s.pending := by
  unfold State.rawStore
  dsimp only
  repeat' split
  all_goals simp

@[simp ↓] theorem State.cwLock_pending (s : State) (j : Nat) (good : Bool) : (s.cwLock j good).pending = s.pending := by
  simp [State.cwLock]

@[simp ↓] theorem execRawReceive_keepsQueue (j : Fin 128) (u : RawUnit) (ago : Nat) (rot : List Nat) (s : State) :
    KeepsQueue (execRawReceive j u ago rot s) s := by
  unfold execRawReceive
  repeat' split
  all_goals simp

@[simp ↓] theorem State.laneBark_pending (s : State) (j : Nat) (w : CWord) : (s.laneBark j w).pending = s.pending := by
  simp [State.laneBark]

@[simp ↓] theorem State.txHeads_pending (s : State) (j : Nat) (upset : List Nat) : (s.txHeads j upset).2.pending = s.pending := by
  unfold State.txHeads
  refine foldl_keeps (fun x : List CWord × State => x.2.pending) _ _ _ fun x e => ?_
  dsimp only
  split
  · split <;> simp
  · rfl

@[simp ↓] theorem State.txRow_pending (s : State) (j : Nat) (upset : List (Fin 48)) : (s.txRow j upset).2.pending = s.pending := by
  unfold State.txRow
  dsimp only
  refine foldl_keeps (fun x : List (List CWord) × State => x.2.pending) _ _ _ fun x e => ?_
  simp

@[simp ↓] theorem State.popRow_pending (s : State) (j : Nat) : (s.popRow j).pending = s.pending := by simp [State.popRow]

@[simp ↓] theorem State.txDiscard_pending (s : State) (j : Nat) (ws : List CWord) : (s.txDiscard j ws).pending = s.pending := by
  simp [State.txDiscard]

@[simp ↓] theorem State.txTake_pending (s : State) (j : Nat) (kind : TxRow) (upset : List (Fin 48)) :
    (s.txTake j kind upset).pending = s.pending := by
  have hrow := s.txRow_pending j upset
  unfold State.txTake
  dsimp only
  split
  · next heq =>
    rw [heq] at hrow
    exact hrow
  · next rows t heq =>
    have ht : t.pending = s.pending := by
      rw [heq] at hrow
      exact hrow
    simp [ht]

@[simp ↓] theorem State.txCapture_pending (s : State) (j tag t : Nat) : (s.txCapture j tag t).pending = s.pending := by
  simp [State.txCapture]

@[simp ↓] theorem State.onLine_pending (s : State) (l : List Byte) : (s.onLine l).pending = s.pending := by simp [State.onLine]

@[simp ↓] theorem State.txSend_pending (s : State) (j : Nat) (f : TxFrame) : (s.txSend j f).pending = s.pending := by
  simp [State.txSend]

@[simp ↓] theorem State.txAbort_pending (s : State) (j : Nat) (f : TxFrame) : (s.txAbort j f).pending = s.pending := by
  simp [State.txAbort]

/-- What becomes of a frame that could start holds the waiting commands `l`. -/
def TxBegin.Keeps (b : TxBegin) (l : List Instr) : Prop :=
  match b with
  | .hold => True
  | .drop t | .go t _ _ => t.pending = l

@[simp ↓] theorem TxBegin.keeps_hold (l : List Instr) : TxBegin.hold.Keeps l := trivial

@[simp ↓] theorem TxBegin.keeps_drop (t : State) (l : List Instr) : (TxBegin.drop t).Keeps l ↔ t.pending = l := Iff.rfl

@[simp ↓] theorem TxBegin.keeps_go (t : State) (e : Nat) (hdr : List Byte) (l : List Instr) :
    (TxBegin.go t e hdr).Keeps l ↔ t.pending = l := Iff.rfl

@[simp ↓] theorem TxBegin.keeps_ite (c : Prop) [Decidable c] (a b : TxBegin) (l : List Instr) :
    (if c then a else b).Keeps l ↔ if c then a.Keeps l else b.Keeps l := by
  split <;> rfl

@[simp ↓] theorem State.beginFrame_keeps (lane j : Nat) (f : TxFrame) (s : State) : (s.beginFrame lane j f).Keeps s.pending := by
  simp [State.beginFrame]

@[simp ↓] theorem State.txDrop_pending (s : State) (j : Nat) (f : TxFrame) : (s.txDrop j f).pending = s.pending := by
  simp [State.txDrop]

@[simp ↓] theorem State.txBeat_pending (s : State) (j : Nat) (f : TxFrame) : (s.txBeat j f).2.pending = s.pending := by
  unfold State.txBeat
  dsimp only
  split <;> simp

/-- The line keeps the queue when the beginning of a frame does. -/
@[simp ↓] theorem State.txDrain_pending (j : Nat) (kind due : Bool) {begin' : TxFrame → State → TxBegin}
    (h : ∀ f t, (begin' f t).Keeps t.pending) (fuel : Nat) (s : State) : (State.txDrain j kind due begin' fuel s).pending = s.pending := by
  induction fuel generalizing s with
  | zero => rfl
  | succ fuel ih =>
    unfold State.txDrain
    split
    · rfl
    next f _ _ =>
    have hb := h f s
    dsimp only
    split
    · rfl
    split
    · split <;> simp [ih]
    split
    · rfl
    split
    · rfl
    · next heq => simpa [heq] using hb
    · next heq =>
      have hq := (congrArg (TxBegin.Keeps · s.pending) heq).mp hb
      split <;> simpa [ih] using hq

@[simp ↓] theorem State.txRot_pending (s : State) (j : Nat) (kind rot : Bool) : (s.txRot j kind rot).pending = s.pending := by
  unfold State.txRot
  split <;> simp

@[simp ↓] theorem State.edgeDiscard_pending (s : State) (j : Nat) : (s.edgeDiscard j).pending = s.pending := by simp [State.edgeDiscard]

@[simp ↓] theorem execTransmitFrame_keepsQueue (j : Fin 128) (beats : Nat) (lane : Fin 8) (rot : Bool) (upset : List (Fin 48))
    (s : State) :
    KeepsQueue (execTransmitFrame j beats lane rot upset s) s := by
  simp [execTransmitFrame]

@[simp ↓] theorem State.rawAssemble_pending (j : Nat) (l : List CWord) (s : State) : (State.rawAssemble j l s).pending = s.pending := by
  induction l generalizing s with
  | nil => rfl
  | cons w r ih =>
    unfold State.rawAssemble
    simp [ih]

@[simp ↓] theorem State.rawSend_pending (s : State) (j : Nat) : (s.rawSend j).pending = s.pending := by simp [State.rawSend]

@[simp ↓] theorem execRawTransmit_keepsQueue (j : Fin 128) (due : Bool) (upset : List (Fin 48)) (s : State) :
    KeepsQueue (execRawTransmit j due upset s) s := by
  refine (keepsQueue_next _ _).mpr ?_
  extract_lets s1
  have h1 : s1.pending = s.pending := by simp [s1]
  clear_value s1
  split
  · simp
  split
  · rfl
  have hrow := s1.txRow_pending j upset
  split
  · next t heq =>
    rw [heq] at hrow
    exact hrow.trans h1
  · next rows t heq =>
    rw [heq] at hrow
    have ht : t.pending = s.pending := hrow.trans h1
    extract_lets ws x
    split
    · exact ht
    split
    · simp [ht]
    · next u _ _ => simp [u, ht]

/-! ## Pyril -/

@[simp ↓] theorem State.told_pending (s : State) (ks : List Nat) : (s.told ks).pending = s.pending := by simp [State.told]

@[simp ↓] theorem execHelloSend_keepsQueue (j : Fin 128) (s : State) : KeepsQueue (execHelloSend j s) s := by simp [execHelloSend]

@[simp ↓] theorem State.creditBeat_pending (s : State) (j st : Nat) : (s.creditBeat j st).pending = s.pending := by
  simp [State.creditBeat]

@[simp ↓] theorem State.peerEntry_pending (j st : Nat) (granted : Word) (s : State) :
    (s.peerEntry j st granted).pending = s.pending := by
  simp [State.peerEntry]

@[simp ↓] theorem execHelloReceive_keepsQueue (j : Fin 128) (f : RxFrame) (s : State) : KeepsQueue (execHelloReceive j f s) s := by
  simp [execHelloReceive]

@[simp ↓] theorem execHelloTimeout_keepsQueue (j : Fin 128) (s : State) : KeepsQueue (execHelloTimeout j s) s := by
  simp [execHelloTimeout]

@[simp ↓] theorem execCreditSend_keepsQueue (j : Fin 128) (s : State) : KeepsQueue (execCreditSend j s) s := by simp [execCreditSend]

@[simp ↓] theorem execCreditReceive_keepsQueue (j : Fin 128) (f : RxFrame) (s : State) : KeepsQueue (execCreditReceive j f s) s := by
  simp [execCreditReceive]

@[simp ↓] theorem execCreditReturn_keepsQueue (j : Fin 128) (upset : List (Fin 48)) (s : State) :
    KeepsQueue (execCreditReturn j upset s) s := by
  unfold execCreditReturn
  simp only [keepsQueue_next]
  split
  · rfl
  have hrow := s.txRow_pending j.val upset
  split
  · next heq =>
    rw [heq] at hrow
    exact hrow
  · next rows t heq =>
    have ht : t.pending = s.pending := by
      rw [heq] at hrow
      exact hrow
    simp [ht]

@[simp ↓] theorem State.beginPyril_keeps (j : Nat) (f : TxFrame) (s : State) : (s.beginPyril j f).Keeps s.pending := by
  simp [State.beginPyril]

@[simp ↓] theorem execPyrilDataSend_keepsQueue (j : Fin 128) (beats : Nat) (rot : Bool) (upset : List (Fin 48)) (s : State) :
    KeepsQueue (execPyrilDataSend j beats rot upset s) s := by
  simp [execPyrilDataSend]

@[simp ↓] theorem execPyrilDataReceive_keepsQueue (j : Fin 128) (f : RxFrame) (pay : Fin 39) (s : State) :
    KeepsQueue (execPyrilDataReceive j f pay s) s := by
  simp [execPyrilDataReceive]

/-! ## Queues -/

@[simp ↓] theorem State.setLevel_pending (s : State) (k : Bucket) (v : Int) : (s.setLevel k v).pending = s.pending := by
  simp [State.setLevel]

@[simp ↓] theorem State.setResid_pending (s : State) (k : Bucket) (v : Nat) : (s.setResid k v).pending = s.pending := by
  simp [State.setResid]

@[simp ↓] theorem State.settle_pending (k : Bucket) (s : State) : (s.settle k).pending = s.pending := by simp [State.settle]

@[simp ↓] theorem State.befall_pending (s : State) (k : Bucket) (f : BucketDay → BucketDay) : (s.befall k f).pending = s.pending := by
  simp [State.befall]

@[simp ↓] theorem State.debit_pending (s : State) (k : Bucket) (cost : Nat) : (s.debit k cost).pending = s.pending := by
  simp [State.debit]

@[simp ↓] theorem State.resettle_pending (s : State) (k : Bucket) : (s.resettle k).pending = s.pending := by simp [State.resettle]

@[simp ↓] theorem State.levelAct_pending (s : State) (k : Bucket) (a : LevelAct) : (s.levelAct k a).pending = s.pending := by
  simp [State.levelAct]

@[simp ↓] theorem execBucketRefill_keepsQueue (s : State) : KeepsQueue (execBucketRefill s) s := by simp [execBucketRefill]

@[simp ↓] theorem State.histRecord_pending (s : State) (h soj : Nat) : (s.histRecord h soj).pending = s.pending := by
  simp [State.histRecord]

@[simp ↓] theorem State.histOne_pending (x : Selected) (h : Nat) (s : State) : (s.histOne x h).pending = s.pending := by
  simp [State.histOne]

@[simp ↓] theorem State.histAll_pending (s : State) (x : Selected) : (s.histAll x).pending = s.pending := by simp [State.histAll]

@[simp ↓] theorem State.histClear_pending (s : State) (h : Nat) : (s.histClear h).pending = s.pending := by simp [State.histClear]

@[simp ↓] theorem State.selectPkt_pending (s : State) (p b q : Nat) (committed : Bool) (x : Pkt) :
    (s.selectPkt p b q committed x).pending = s.pending := by
  simp [State.selectPkt]

@[simp ↓] theorem State.landDwrr_pending (s : State) (set : Nat) (members : List Nat) (keep : Nat → Bool) (ptr : Nat) (df : Tbl Nat) :
    (s.landDwrr set members keep ptr df).pending = s.pending := by
  simp [State.landDwrr]

theorem State.selectPhase_pending (s : State) (p : Nat) (committed : Bool) {t : State} (ht : s.selectPhase p committed = some t) :
    t.pending = s.pending := by
  unfold State.selectPhase at ht
  dsimp only at ht
  repeat' split at ht
  all_goals cases ht
  all_goals simp

@[simp ↓] theorem State.queueRot_pending (q : Nat) (s : State) : (s.queueRot q).pending = s.pending := by simp [State.queueRot]

@[simp ↓] theorem execQueueSelect_keepsQueue (p : Fin 128) (bad : Option (Fin 16384)) (s : State) :
    KeepsQueue (execQueueSelect p bad s) s := by
  unfold execQueueSelect
  simp only [keepsQueue_next]
  split
  · simp
  split
  · split
    · next t ht => exact s.selectPhase_pending _ _ ht
    · cases hs : s.selectPhase p.val false with
      | none => rfl
      | some t => exact s.selectPhase_pending _ _ hs
  · rfl

@[simp ↓] theorem State.boughReset_pending (s : State) (b : Nat) : (s.boughReset b).pending = s.pending := by simp [State.boughReset]

@[simp ↓] theorem State.landBough_pending (s : State) (b : Nat) (j : Judged) : (s.landBough b j).pending = s.pending := by
  simp [State.landBough]

@[simp ↓] theorem State.writeQcfg_pending (s : State) (p : Party) (q : Nat) (w : Word) : (s.writeQcfg p q w).pending = s.pending := by
  simp [State.writeQcfg]

@[simp ↓] theorem State.writeRate_pending (s : State) (p : Party) (n : RegName) (i : Nat) (k : Bucket) (w : Word) :
    (s.writeRate p n i k w).pending = s.pending := by
  simp [State.writeRate]

@[simp ↓] theorem State.writeBurst_pending (s : State) (p : Party) (n : RegName) (i : Nat) (k : Bucket) (w : Word) :
    (s.writeBurst p n i k w).pending = s.pending := by
  simp [State.writeBurst]

@[simp ↓] theorem State.histAnew_pending (s : State) (h : Nat) : (s.histAnew h).pending = s.pending := by simp [State.histAnew]

@[simp ↓] theorem State.writeHcfg_pending (s : State) (p : Party) (h : Nat) (w : Word) : (s.writeHcfg p h w).pending = s.pending := by
  simp [State.writeHcfg]

@[simp ↓] theorem State.writeQe_pending (s : State) (p : Party) (n : RegName) (i : Nat) (w : Word) :
    (s.writeQe p n i w).pending = s.pending := by
  unfold State.writeQe
  repeat' split
  all_goals simp

@[simp ↓] theorem execForgive_keepsQueue (p : Party) (r : RegId) (w : Word) (s : State) : KeepsQueue (execForgive p r w s) s := by
  simp [execForgive]

@[simp ↓] theorem execQueueAttach_keepsQueue (p : Party) (q : Fin 16384) (w : Word) (s : State) :
    KeepsQueue (execQueueAttach p q w s) s := by
  simp [execQueueAttach]

@[simp ↓] theorem execBoughChange_keepsQueue (p : Party) (b : Fin 2048) (w : Word) (s : State) :
    KeepsQueue (execBoughChange p b w s) s := by
  simp [execBoughChange]

@[simp ↓] theorem execHistogramClear_keepsQueue (p : Party) (h : Fin 64) (w : Word) (s : State) :
    KeepsQueue (execHistogramClear p h w s) s := by
  simp [execHistogramClear]

/-! ## Tenancy -/

@[simp ↓] theorem State.freeWheel_pending (s : State) (tag : Tag) (res unit : Nat) :
    (s.freeWheel tag res unit).pending = s.pending := by
  simp [State.freeWheel]

@[simp ↓] theorem State.reserve_pending (s : State) (tag : Tag) (items : List Nat) (res unit k : Nat) :
    (s.reserve tag items res unit k).pending = s.pending := by
  unfold State.reserve
  repeat' split
  all_goals simp

@[simp ↓] theorem State.takeWheel_pending (s : State) (tag : Tag) (w : Nat) (items : List Nat) :
    (s.takeWheel tag w items).pending = s.pending := by
  unfold State.takeWheel
  split <;> simp

@[simp ↓] theorem State.needRoutes_pending (s : State) (a b : Nat) : (s.needRoutes a b).pending = s.pending := by
  simp [State.needRoutes]

@[simp ↓] theorem State.nocItem_pending (s : State) (tag : Tag) (w : Nat) : (s.nocItem tag w).pending = s.pending := by
  unfold State.nocItem
  dsimp only
  split <;> simp

@[simp ↓] theorem State.recordEntry_pending (s : State) (tag : Tag) (g : Nat) : (s.recordEntry tag g).pending = s.pending := by
  unfold State.recordEntry
  repeat' split
  all_goals simp

@[simp ↓] theorem State.askCommit_pending (s : State) (g : Nat) : (s.askCommit g).pending = s.pending := by simp [State.askCommit]

@[simp ↓] theorem State.ownPin_pending (s : State) (n own tag : Nat) : (s.ownPin n own tag).pending = s.pending := by
  simp [State.ownPin]

@[simp ↓] theorem State.ownBough_pending (s : State) (b own port weight : Nat) :
    (s.ownBough b own port weight).pending = s.pending := by
  simp [State.ownBough]

@[simp ↓] theorem State.grantItem_pending (tag : Tag) (items : List Nat) (w : Nat) (s : State) :
    (s.grantItem tag items w).pending = s.pending := by
  unfold State.grantItem
  split <;> simp

@[simp ↓] theorem State.grantItems_pending (s : State) (tag : Tag) (items : List Nat) :
    (s.grantItems tag items).pending = s.pending := by
  simp [State.grantItems]

@[simp ↓] theorem State.admitVector_pending (s : State) (hdr : Nat) (items : List Nat) :
    (s.admitVector hdr items).pending = s.pending := by
  simp [State.admitVector]

@[simp ↓] theorem State.zeroRing_pending (k : Nat) (s : State) : (s.zeroRing k).pending = s.pending := by simp [State.zeroRing]

@[simp ↓] theorem State.holdRing_pending (k : Nat) (s : State) : (s.holdRing k).pending = s.pending := by simp [State.holdRing]

@[simp ↓] theorem State.holdFifo_pending (F : Nat) (s : State) : (s.holdFifo F).pending = s.pending := by simp [State.holdFifo]

@[simp ↓] theorem State.holdMc_pending (k : Nat) (s : State) : (s.holdMc k).pending = s.pending := by simp [State.holdMc]

@[simp ↓] theorem State.releaseItem_pending (tag : Tag) (left : List Nat) (w : Nat) (s : State) :
    (s.releaseItem tag left w).pending = s.pending := by
  unfold State.releaseItem
  repeat' split
  all_goals simp

@[simp ↓] theorem State.releaseItems_pending (s : State) (t : Nat) (items : List Nat) :
    (s.releaseItems t items).pending = s.pending := by
  simp [State.releaseItems]

/-! ## Records -/

@[simp ↓] theorem State.setBoth_pending (s : State) (n : RegName) (i hi lo v : Nat) : (s.setBoth n i hi lo v).pending = s.pending := by
  simp [State.setBoth]

@[simp ↓] theorem State.putRec_pending (s : State) (k T i : Nat) (b : BitVec 192) : (s.putRec k T i b).pending = s.pending := by
  unfold State.putRec
  split <;> simp

@[simp ↓] theorem State.putCfg_pending (s : State) (T x : Nat) : (s.putCfg T x).pending = s.pending := by
  unfold State.putCfg
  split <;> simp

@[simp ↓] theorem State.putState_pending (s : State) (T x : Nat) : (s.putState T x).pending = s.pending := by
  simp [State.putState, -Nat.reducePow]

@[simp ↓] theorem State.putLat_pending (s : State) (g sub x : Nat) : (s.putLat g sub x).pending = s.pending := by simp [State.putLat]

@[simp ↓] theorem State.writeAll_pending (s : State) (l : List (RegName × Nat × Word)) : (s.writeAll l).2.pending = s.pending := by
  unfold State.writeAll
  refine foldl_keeps (fun x : Bool × State => x.2.pending) _ _ _ fun x e => ?_
  simp

@[simp ↓] theorem State.putLanes_pending (s : State) (g : Nat) (ws : List Word) : (s.putLanes g ws).2.pending = s.pending := by
  simp [State.putLanes]

@[simp ↓] theorem State.putStreams_pending (s : State) (g : Nat) (ws : List Word) : (s.putStreams g ws).2.pending = s.pending := by
  simp [State.putStreams]

@[simp ↓] theorem State.putRoutes_pending (s : State) (ni : Nat) (ws : List Word) : (s.putRoutes ni ws).2.pending = s.pending := by
  unfold State.putRoutes
  dsimp only
  refine foldl_keeps (fun x : Bool × State => x.2.pending) _ _ _ fun x e => ?_
  simp

@[simp ↓] theorem State.putInjA_pending (s : State) (k : Nat) (a : Word) : (s.putInjA k a).pending = s.pending := by
  simp [State.putInjA]

@[simp ↓] theorem State.putInjEntry_pending (s : State) (ni i : Nat) (a b : Word) : (s.putInjEntry ni i a b).2.pending = s.pending := by
  unfold State.putInjEntry
  dsimp only
  repeat' split
  all_goals simp

@[simp ↓] theorem State.putInjBlock_pending (s : State) (ni blk : Nat) (ws : List Word) :
    (s.putInjBlock ni blk ws).2.pending = s.pending := by
  unfold State.putInjBlock
  dsimp only
  refine foldl_keeps (fun x : Bool × State => x.2.pending) _ _ _ fun x e => ?_
  simp

@[simp ↓] theorem State.putPorts_pending (s : State) (ws : List Word) : (s.putPorts ws).pending = s.pending := by simp [State.putPorts]

@[simp ↓] theorem State.putHists_pending (s : State) (ws : List Word) : (s.putHists ws).pending = s.pending := by simp [State.putHists]

@[simp ↓] theorem State.putVector_pending (s : State) (ws : List Word) : (s.putVector ws).2.pending = s.pending := by
  unfold State.putVector
  dsimp only
  split
  · rfl
  split
  · rfl
  · split <;> simp

@[simp ↓] theorem State.putFrame_pending (s : State) (a : Nat) (ws : List Word) : (s.putFrame a ws).2.pending = s.pending := by
  unfold State.putFrame
  dsimp only
  split
  · simp
  · simp
  · simp
  · simp
  · split <;> simp
  · split <;> simp
  · split
    · simp
    · split <;> simp
  · simp

/-! ## Graft -/

@[simp ↓] theorem State.ogDone_pending (s : State) (st reason : Nat) : (s.ogDone st reason).pending = s.pending := by
  simp [State.ogDone]

@[simp ↓] theorem State.fileDone_pending (s : State) (vf : Option (Fin 512)) (st reason : Nat) :
    (s.fileDone vf st reason).pending = s.pending := by
  unfold State.fileDone
  split <;> simp

@[simp ↓] theorem State.settleGrafts_pending (s : State) : s.settleGrafts.pending = s.pending := by simp [State.settleGrafts]

@[simp ↓] theorem State.dropShadows_pending (s : State) (p : GShadow → Bool) : (s.dropShadows p).pending = s.pending := by
  simp [State.dropShadows]

@[simp ↓] theorem State.checkFile_pending (s : State) (tag : Tag) (vf : Option (Fin 512)) (ws : List Word) :
    (s.checkFile tag vf ws).pending = s.pending := by
  unfold State.checkFile
  dsimp only
  split <;> simp

@[simp ↓] theorem execGraftCheck_keepsQueue (s : State) : KeepsQueue (execGraftCheck s) s := by
  unfold execGraftCheck
  repeat' split
  all_goals simp

@[simp ↓] theorem State.portRefuse_pending (s : State) (ws : List CWord) (reason : Nat) :
    (s.portRefuse ws reason).pending = s.pending := by
  simp [State.portRefuse]

@[simp ↓] theorem State.popPort_pending (s : State) : s.popPort.pending = s.pending := by simp [State.popPort]

@[simp ↓] theorem execGraftPortRecord_keepsQueue (s : State) : KeepsQueue (execGraftPortRecord s) s := by
  unfold execGraftPortRecord
  dsimp only
  repeat' split
  all_goals simp

@[simp ↓] theorem execGraftPortCommit_keepsQueue (s : State) : KeepsQueue (execGraftPortCommit s) s := by
  unfold execGraftPortCommit
  repeat' split
  all_goals simp

@[simp ↓] theorem execGraftPortDiscard_keepsQueue (s : State) : KeepsQueue (execGraftPortDiscard s) s := by
  unfold execGraftPortDiscard
  repeat' split
  all_goals simp

@[simp ↓] theorem execGraftPortCommandDiscard_keepsQueue (s : State) : KeepsQueue (execGraftPortCommandDiscard s) s := by
  unfold execGraftPortCommandDiscard
  split <;> simp

@[simp ↓] theorem State.commitGraft_pending (org : Origin) (at' g : Nat) (s : State) :
    (s.commitGraft org at' g).pending = s.pending := by
  simp [State.commitGraft]

@[simp ↓] theorem State.graftCommitAll_pending (s : State) (g : Nat) : (s.graftCommitAll g).pending = s.pending := by
  simp [State.graftCommitAll]

@[simp ↓] theorem execGraftCommit_keepsQueue (g : Fin 64) (s : State) : KeepsQueue (execGraftCommit g s) s := by simp [execGraftCommit]

@[simp ↓] theorem State.stagedWen_pending (others : List Staged) (x : Staged) (s : State) :
    (s.stagedWen others x).pending = s.pending := by
  simp [State.stagedWen]

@[simp ↓] theorem execGraftWen_keepsQueue (g : Fin 64) (s : State) : KeepsQueue (execGraftWen g s) s := by simp [execGraftWen]

@[simp ↓] theorem State.stagedRun_pending (others : List Staged) (x : Staged) (s : State) :
    (s.stagedRun others x).pending = s.pending := by
  unfold State.stagedRun
  dsimp only
  split <;> simp

@[simp ↓] theorem execGraftRun_keepsQueue (g : Fin 64) (s : State) : KeepsQueue (execGraftRun g s) s := by simp [execGraftRun]

/-! ## Power -/

@[simp ↓] theorem State.setPwr_pending (s : State) (d : Nat) (on : Bool) : (s.setPwr d on).pending = s.pending := by simp [State.setPwr]

@[simp ↓] theorem State.setFen_pending (s : State) (d : Nat) (on : Bool) : (s.setFen d on).pending = s.pending := by simp [State.setFen]

@[simp ↓] theorem State.tellCapacity_pending (s : State) (d code : Nat) : (s.tellCapacity d code).pending = s.pending := by
  simp [State.tellCapacity]

@[simp ↓] theorem State.groveLost_pending (s : State) (g : Nat) : (s.groveLost g).pending = s.pending := by simp [State.groveLost]

@[simp ↓] theorem State.laneLost_pending (j : Nat) (s : State) : (s.laneLost j).pending = s.pending := by simp [State.laneLost]

/-- A lane group that drops its up bit and tells it keeps the queue. -/
theorem State.dropGroupUp_pending (s : State) (g e : Nat) :
    (if s.flag .lnGcfg g 30 then (s.setBit .lnGcfg g 30 false).assertSrc e else s).pending = s.pending := by
  split
  · simp
  · rfl

@[simp ↓] theorem State.laneGroupLost_pending (s : State) (d : Nat) : (s.laneGroupLost d).pending = s.pending := by
  unfold State.laneGroupLost
  extract_lets s1 s2 cl l s3
  have h1 : s1.pending = s.pending := by simp [s1]
  clear_value s1
  have h2 : s2.pending = s1.pending := s1.dropGroupUp_pending (d - 64) _
  clear_value s2
  simp [s3, h1, h2]

@[simp ↓] theorem State.bankLost_pending (s : State) (b : Nat) : (s.bankLost b).pending = s.pending := by simp [State.bankLost]

@[simp ↓] theorem State.domainOff_pending (s : State) (d : Nat) : (s.domainOff d).pending = s.pending := by simp [State.domainOff]

@[simp ↓] theorem State.allOff_pending (s : State) : s.allOff.pending = s.pending := by simp [State.allOff]

@[simp ↓] theorem State.tellRail_pending (s : State) (d : Nat) : (s.tellRail d).pending = s.pending := by simp [State.tellRail]

@[simp ↓] theorem execFenceReq_keepsQueue (d : Fin 96) (s : State) : KeepsQueue (execFenceReq d s) s := by simp [execFenceReq]

@[simp ↓] theorem State.groveBack_pending (s : State) (g : Nat) : (s.groveBack g).pending = s.pending := by simp [State.groveBack]

@[simp ↓] theorem State.laneGroupBack_pending (s : State) (d : Nat) : (s.laneGroupBack d).pending = s.pending := by
  simp [State.laneGroupBack]

@[simp ↓] theorem execDomainReady_keepsQueue (d : Fin 96) (s : State) : KeepsQueue (execDomainReady d s) s := by
  unfold execDomainReady
  dsimp only
  repeat' split
  all_goals simp

@[simp ↓] theorem execRailFault_keepsQueue (d : Fin 96) (s : State) : KeepsQueue (execRailFault d s) s := by simp [execRailFault]

/-! ## Heartwood -/

@[simp ↓] theorem State.sramPutByte_pending (s : State) (a : Nat) (b : Byte) : (s.sramPutByte a b).pending = s.pending := by
  simp [State.sramPutByte]

@[simp ↓] theorem State.sramPut_pending (s : State) (a : Nat) (l : List Byte) : (s.sramPut a l).pending = s.pending := by
  simp [State.sramPut]

@[simp ↓] theorem State.restoreMono_pending (s : State) : s.restoreMono.pending = s.pending := by simp [State.restoreMono]

@[simp ↓] theorem State.loadCanopy_pending (s : State) : s.loadCanopy.pending = s.pending := by simp [State.loadCanopy]

@[simp ↓] theorem State.recordReset_pending (s : State) : s.recordReset.pending = s.pending := by simp [State.recordReset]

@[simp ↓] theorem State.newKey_pending (s : State) (counted : Bool) : (s.newKey counted).pending = s.pending := by simp [State.newKey]

@[simp ↓] theorem execHeartwoodBoot_keepsQueue (s : State) : KeepsQueue (execHeartwoodBoot s) s := by simp [execHeartwoodBoot]

@[simp ↓] theorem State.setChan_pending (s : State) (c v : Nat) : (s.setChan c v).pending = s.pending := by simp [State.setChan]

@[simp ↓] theorem State.respondCall_pending (s : State) (c st reason : Nat) (res : List Word) :
    (s.respondCall c st reason res).pending = s.pending := by
  simp [State.respondCall]

@[simp ↓] theorem State.undoCall_pending (s : State) : s.undoCall.pending = s.pending := by
  unfold State.undoCall
  repeat' split
  all_goals simp

@[simp ↓] theorem State.allFenced_pending (s : State) : s.allFenced.pending = s.pending := by
  unfold State.allFenced
  dsimp only
  refine (forEach_pending _ _ _ fun e t => ?_).trans (by simp)
  split <;> simp

@[simp ↓] theorem State.htFault_pending (s : State) (cause : Nat) : (s.htFault cause).pending = s.pending := by simp [State.htFault]

@[simp ↓] theorem execHeartwoodFault_keepsQueue (cause : BitVec 4) (s : State) : KeepsQueue (execHeartwoodFault cause s) s := by
  simp [execHeartwoodFault]

@[simp ↓] theorem execComparatorSelfTest_keepsQueue (flag0 flag1 : Bool) (s : State) :
    KeepsQueue (execComparatorSelfTest flag0 flag1 s) s := by
  simp [execComparatorSelfTest]

@[simp ↓] theorem State.writeHt_pending (s : State) (p : Party) (n : RegName) (i : Nat) (w : Word) :
    (s.writeHt p n i w).pending = s.pending := by
  simp [State.writeHt]

@[simp ↓] theorem execGo_keepsQueue (p : Party) (ch : Fin 9) (s : State) : KeepsQueue (execGo p ch s) s := by simp [execGo]

/-- What a call comes to holds the waiting commands `l`. -/
def Verdict.Keeps (v : Verdict) (l : List Instr) : Prop :=
  match v with
  | .refused _ _ | .poison => True
  | .done t _ | .waits t _ _ => t.pending = l

@[simp ↓] theorem Verdict.keeps_refused (r w : Nat) (l : List Instr) : (Verdict.refused r w).Keeps l := trivial

@[simp ↓] theorem Verdict.keeps_poison (l : List Instr) : Verdict.poison.Keeps l := trivial

@[simp ↓] theorem Verdict.keeps_done (t : State) (r : List Nat) (l : List Instr) : (Verdict.done t r).Keeps l ↔ t.pending = l := Iff.rfl

@[simp ↓] theorem Verdict.keeps_waits (t : State) (u : CallUntil) (r : List Nat) (l : List Instr) :
    (Verdict.waits t u r).Keeps l ↔ t.pending = l := Iff.rfl

@[simp ↓] theorem Verdict.keeps_ite (c : Prop) [Decidable c] (a b : Verdict) (l : List Instr) :
    (if c then a else b).Keeps l ↔ if c then a.Keeps l else b.Keeps l := by
  split <;> rfl

/-- A call keeps the queue when its own effect does. -/
theorem State.runCall_pending (s : State) (ch : Fin 9) (opc : Nat) (used : List Nat) {body : State → (Nat → Nat) → Verdict}
    (h : ∀ t w, (body t w).Keeps t.pending) : (s.runCall ch opc used body).pending = s.pending := by
  unfold State.runCall
  dsimp only
  split
  · rfl
  split
  · simp
  split
  · simp
  split
  · simp
  · simp
  · next heq =>
    have hb := (congrArg (Verdict.Keeps · s.pending) heq).mp (h _ _)
    simpa using hb
  · next heq =>
    have hb := (congrArg (Verdict.Keeps · s.pending) heq).mp (h _ _)
    simpa using hb

theorem keepsQueue_runCall (s : State) (ch : Fin 9) (opc : Nat) (used : List Nat) {body : State → (Nat → Nat) → Verdict}
    (h : ∀ t w, (body t w).Keeps t.pending) : KeepsQueue (.next (s.runCall ch opc used body)) s :=
  (keepsQueue_next _ _).mpr (s.runCall_pending ch opc used h)

@[simp ↓] theorem State.keepBlock_pending (s : State) (l : List Byte) : (s.keepBlock l).pending = s.pending := by simp [State.keepBlock]

/-- Unfolded as a function: with its arguments in place the kernel would evaluate `sramBlock` on them. -/
theorem State.block_keeps (s : State) (w : Nat → Nat) (n : Nat) {k : List Byte → Verdict} {l : List Instr} (h : ∀ b, (k b).Keeps l) :
    (s.block w n k).Keeps l := by
  generalize hf : @State.block = f
  delta State.block at hf
  subst hf
  beta_reduce
  split
  · simp
  · next a _ =>
    split
    · simp
    extract_lets b
    have hk := h b
    split
    · next heq =>
      rw [heq] at hk
      simpa using hk
    · next heq =>
      rw [heq] at hk
      simpa using hk
    · exact hk

@[simp ↓] theorem execInfoCall_keepsQueue (ch : Fin 9) (s : State) : KeepsQueue (execInfoCall ch s) s := by
  refine keepsQueue_runCall _ _ _ _ fun t w => ?_
  simp

@[simp ↓] theorem execTkeyset_keepsQueue (ch : Fin 9) (s : State) : KeepsQueue (execTkeyset ch s) s := by
  refine keepsQueue_runCall _ _ _ _ fun t w => ?_
  refine t.block_keeps w _ fun l => ?_
  dsimp only
  repeat' split
  all_goals simp

@[simp ↓] theorem execTkeyclr_keepsQueue (ch : Fin 9) (s : State) : KeepsQueue (execTkeyclr ch s) s := by
  refine keepsQueue_runCall _ _ _ _ fun t w => ?_
  dsimp only
  repeat' split
  all_goals simp

@[simp ↓] theorem execOpkeyprog_keepsQueue (ch : Fin 9) (s : State) : KeepsQueue (execOpkeyprog ch s) s := by
  refine keepsQueue_runCall _ _ _ _ fun t w => ?_
  refine t.block_keeps w _ fun l => ?_
  dsimp only
  repeat' split
  all_goals simp

@[simp ↓] theorem execOpkeyrev_keepsQueue (ch : Fin 9) (s : State) : KeepsQueue (execOpkeyrev ch s) s := by
  refine keepsQueue_runCall _ _ _ _ fun t w => ?_
  refine t.block_keeps w _ fun l => ?_
  dsimp only
  repeat' split
  all_goals simp

@[simp ↓] theorem execRollfwd_keepsQueue (ch : Fin 9) (s : State) : KeepsQueue (execRollfwd ch s) s := by
  refine keepsQueue_runCall _ _ _ _ fun t w => ?_
  dsimp only
  repeat' split
  all_goals simp

@[simp ↓] theorem execRekey_keepsQueue (ch : Fin 9) (s : State) : KeepsQueue (execRekey ch s) s := by
  refine keepsQueue_runCall _ _ _ _ fun t w => ?_
  simp

@[simp ↓] theorem execBankCall_keepsQueue (ch : Fin 9) (s : State) : KeepsQueue (execBankCall ch s) s := by
  refine keepsQueue_runCall _ _ _ _ fun t w => ?_
  dsimp only
  repeat' split
  all_goals simp

@[simp ↓] theorem execDomainCall_keepsQueue (ch : Fin 9) (s : State) : KeepsQueue (execDomainCall ch s) s := by
  refine keepsQueue_runCall _ _ _ _ fun t w => ?_
  dsimp only
  repeat' split
  all_goals simp

@[simp ↓] theorem execPortrate_keepsQueue (ch : Fin 9) (s : State) : KeepsQueue (execPortrate ch s) s := by
  refine keepsQueue_runCall _ _ _ _ fun t w => ?_
  simp

@[simp ↓] theorem execPinown_keepsQueue (ch : Fin 9) (s : State) : KeepsQueue (execPinown ch s) s := by
  refine keepsQueue_runCall _ _ _ _ fun t w => ?_
  dsimp only
  repeat' split
  all_goals simp

@[simp ↓] theorem execTrnom_keepsQueue (ch : Fin 9) (s : State) : KeepsQueue (execTrnom ch s) s := by
  refine keepsQueue_runCall _ _ _ _ fun t w => ?_
  simp

@[simp ↓] theorem execBootcfg_keepsQueue (ch : Fin 9) (s : State) : KeepsQueue (execBootcfg ch s) s := by
  refine keepsQueue_runCall _ _ _ _ fun t w => ?_
  dsimp only
  repeat' split
  all_goals simp

@[simp ↓] theorem execPbread_keepsQueue (ch : Fin 9) (s : State) : KeepsQueue (execPbread ch s) s := by
  refine keepsQueue_runCall _ _ _ _ fun t w => ?_
  simp

@[simp ↓] theorem execRtcset_keepsQueue (ch : Fin 9) (s : State) : KeepsQueue (execRtcset ch s) s := by
  refine keepsQueue_runCall _ _ _ _ fun t w => ?_
  simp

@[simp ↓] theorem execFwwrite_keepsQueue (ch : Fin 9) (s : State) : KeepsQueue (execFwwrite ch s) s := by
  refine keepsQueue_runCall _ _ _ _ fun t w => ?_
  refine t.block_keeps w _ fun l => ?_
  split <;> simp

@[simp ↓] theorem execNvmwrite_keepsQueue (ch : Fin 9) (s : State) : KeepsQueue (execNvmwrite ch s) s := by
  refine keepsQueue_runCall _ _ _ _ fun t w => ?_
  dsimp only
  split
  · simp
  · exact t.block_keeps w _ fun l => by simp

@[simp ↓] theorem execDebugCall_keepsQueue (ch : Fin 9) (s : State) : KeepsQueue (execDebugCall ch s) s := by
  refine keepsQueue_runCall _ _ _ _ fun t w => ?_
  refine t.block_keeps w _ fun l => ?_
  dsimp only
  repeat' split
  all_goals simp

@[simp ↓] theorem execDebugend_keepsQueue (ch : Fin 9) (s : State) : KeepsQueue (execDebugend ch s) s := by
  refine keepsQueue_runCall _ _ _ _ fun t w => ?_
  simp

@[simp ↓] theorem execDebugTokenExpiry_keepsQueue (s : State) : KeepsQueue (execDebugTokenExpiry s) s := by simp [execDebugTokenExpiry]

theorem State.vector_keeps (s : State) (w : Nat → Nat) {k : Nat → List Nat → Verdict} {l : List Instr} (h : ∀ a b, (k a b).Keeps l) :
    (s.vector w k).Keeps l := by
  refine s.block_keeps w 8 fun b => ?_
  dsimp only
  split
  · simp
  · exact s.block_keeps w _ fun _ => h _ _

@[simp ↓] theorem execAdmitTenant_keepsQueue (ch : Fin 9) (s : State) : KeepsQueue (execAdmitTenant ch s) s := by
  refine keepsQueue_runCall _ _ _ _ fun t w => ?_
  refine t.vector_keeps w fun hdr items => ?_
  split <;> simp

@[simp ↓] theorem State.extendItems_pending (s : State) (t : Nat) (v : AVec) (items : List Nat) :
    (s.extendItems t v items).pending = s.pending := by
  simp [State.extendItems]

@[simp ↓] theorem execExtend_keepsQueue (ch : Fin 9) (s : State) : KeepsQueue (execExtend ch s) s := by
  refine keepsQueue_runCall _ _ _ _ fun t w => ?_
  refine t.vector_keeps w fun hdr items => ?_
  dsimp only
  repeat' split
  all_goals simp

@[simp ↓] theorem execReleaseCall_keepsQueue (ch : Fin 9) (s : State) : KeepsQueue (execReleaseCall ch s) s := by
  refine keepsQueue_runCall _ _ _ _ fun t w => ?_
  refine t.vector_keeps w fun hdr items => ?_
  dsimp only
  repeat' split
  all_goals simp

@[simp ↓] theorem State.regrantItem_pending (tag : Tag) (all : List Nat) (w : Nat) (s : State) :
    (s.regrantItem tag all w).pending = s.pending := by
  simp [State.regrantItem]

@[simp ↓] theorem execRegrant_keepsQueue (ch : Fin 9) (s : State) : KeepsQueue (execRegrant ch s) s := by
  refine keepsQueue_runCall _ _ _ _ fun t w => ?_
  refine t.vector_keeps w fun hdr items => ?_
  dsimp only
  repeat' split
  all_goals simp

/-- As in `State.block_keeps`, an arbitrary function stands for `sramBlock`. -/
@[simp ↓] theorem execVread_keepsQueue (ch : Fin 9) (s : State) : KeepsQueue (execVread ch s) s := by
  refine keepsQueue_runCall _ _ _ _ fun t w => ?_
  obtain ⟨f, hf⟩ : ∃ f, f = sramBlock := ⟨_, rfl⟩
  rw [← hf]
  dsimp only
  split
  · simp
  · split <;> simp

@[simp ↓] theorem State.tenantCells_pending (s : State) (t : Nat) : (s.tenantCells t).pending = s.pending := by simp [State.tenantCells]

@[simp ↓] theorem State.tenantReset_pending (s : State) (t : Nat) : (s.tenantReset t).pending = s.pending := by
  unfold State.tenantReset
  dsimp only
  split <;> simp

@[simp ↓] theorem execTreset_keepsQueue (ch : Fin 9) (s : State) : KeepsQueue (execTreset ch s) s := by
  refine keepsQueue_runCall _ _ _ _ fun t w => ?_
  dsimp only
  repeat' split
  all_goals simp

@[simp ↓] theorem State.tenantGrove_pending (s : State) (g t : Nat) : (s.tenantGrove g t).pending = s.pending := by
  simp [State.tenantGrove]

@[simp ↓] theorem execTenantResetRelease_keepsQueue (g : Fin 64) (t : Fin 512) (s : State) :
    KeepsQueue (execTenantResetRelease g t s) s := by
  unfold execTenantResetRelease
  repeat' split
  all_goals simp

@[simp ↓] theorem execRtcReadLatch_keepsQueue (p : Party) (s : State) : KeepsQueue (execRtcReadLatch p s) s := by
  unfold execRtcReadLatch
  split <;> simp

/-! ## Loader -/

@[simp ↓] theorem State.setCfState_pending (s : State) (v : Nat) : (s.setCfState v).pending = s.pending := by simp [State.setCfState]

@[simp ↓] theorem State.setLoad_pending (s : State) (l : Option Load) : (s.setLoad l).pending = s.pending := by simp [State.setLoad]

@[simp ↓] theorem State.setSess_pending (s : State) (x : Option Session) : (s.setSess x).pending = s.pending := by simp [State.setSess]

@[simp ↓] theorem State.failBefore_pending (s : State) (src : LoadSrc) (cause : Nat) :
    (s.failBefore src cause).pending = s.pending := by
  simp [State.failBefore]

@[simp ↓] theorem State.enterSafe_pending (s : State) : s.enterSafe.pending = s.pending := by simp [State.enterSafe]

@[simp ↓] theorem State.endGraftSession_pending (s : State) (st reason : Nat) : (s.endGraftSession st reason).pending = s.pending := by
  unfold State.endGraftSession
  split <;> simp

@[simp ↓] theorem State.failStarted_pending (s : State) (src : LoadSrc) (fromSafe : Bool) (cause reason : Nat) :
    (s.failStarted src fromSafe cause reason).pending = s.pending := by
  simp [State.failStarted]

@[simp ↓] theorem State.failLoad_pending (s : State) (cause reason : Nat) : (s.failLoad cause reason).pending = s.pending := by
  unfold State.failLoad
  split <;> simp

@[simp ↓] theorem execLoadFail_keepsQueue (cause : BitVec 8) (s : State) : KeepsQueue (execLoadFail cause s) s := by
  unfold execLoadFail
  repeat' split
  all_goals simp

theorem State.portWords_pending (s : State) (port : CfgPort) (ws : List Word) {t : State} (ht : s.portWords port ws = some t) :
    t.pending = s.pending := by
  unfold State.portWords at ht
  dsimp only at ht
  repeat' split at ht
  all_goals cases ht
  all_goals simp

@[simp ↓] theorem execSessionStart_keepsQueue (port : CfgPort) (w : Word) (s : State) : KeepsQueue (execSessionStart port w s) s := by
  unfold execSessionStart
  simp only [keepsQueue_next]
  split
  · split
    · split
      · split
        · next ht => simp [State.portWords_pending _ _ _ ht]
        · rfl
      · rfl
    split
    · rfl
    split
    · simp
    · simp
    · split
      · next ht => simp [State.portWords_pending _ _ _ ht]
      · rfl
  · split
    · rfl
    · next ht => simp [State.portWords_pending _ _ _ ht]

@[simp ↓] theorem execHeaderCheck_keepsQueue (ws : List Word) (s : State) : KeepsQueue (execHeaderCheck ws s) s := by
  unfold execHeaderCheck
  simp only [keepsQueue_next]
  split
  · split
    · rfl
    split
    · rfl
    next ht =>
    have hp := State.portWords_pending _ _ _ ht
    split
    · simp [hp]
    · split <;> simp [hp]
  · rfl

@[simp ↓] theorem execSessionTimeout_keepsQueue (s : State) : KeepsQueue (execSessionTimeout s) s := by
  unfold execSessionTimeout
  repeat' split
  all_goals simp

@[simp ↓] theorem execScpTruncation_keepsQueue (s : State) : KeepsQueue (execScpTruncation s) s := by
  unfold execScpTruncation
  repeat' split
  all_goals simp

@[simp ↓] theorem execNvmPreverify_keepsQueue (eccBad : Bool) (s : State) : KeepsQueue (execNvmPreverify eccBad s) s := by
  unfold execNvmPreverify
  repeat' split
  all_goals simp

@[simp ↓] theorem State.loadState_pending (s : State) : s.loadState.pending = s.pending := by simp [State.loadState]

@[simp ↓] theorem execFullLoadStart_keepsQueue (s : State) : KeepsQueue (execFullLoadStart s) s := by
  unfold execFullLoadStart
  split <;> simp

theorem State.nextWords_pending (s : State) (l : Load) (pos : Nat) (ws : List Word) {t : State} (ht : s.nextWords l pos ws = some t) :
    t.pending = s.pending := by
  unfold State.nextWords at ht
  split at ht
  · split at ht
    · cases ht
      rfl
    · cases ht
  · obtain ⟨u, hu, rfl⟩ := Option.map_eq_some_iff.mp ht
    simp [State.portWords_pending _ _ _ hu]

/-- What a command of an image comes to holds the waiting commands `l`. -/
def CmdEnd.Keeps (e : CmdEnd) (l : List Instr) : Prop :=
  match e with
  | .fail _ _ => True
  | .go t _ => t.pending = l

@[simp ↓] theorem CmdEnd.keeps_fail (c r : Nat) (l : List Instr) : (CmdEnd.fail c r).Keeps l := trivial

@[simp ↓] theorem CmdEnd.keeps_format (l : List Instr) : CmdEnd.format.Keeps l := trivial

@[simp ↓] theorem CmdEnd.keeps_go (t : State) (x : Load) (l : List Instr) : (CmdEnd.go t x).Keeps l ↔ t.pending = l := Iff.rfl

@[simp ↓] theorem CmdEnd.keeps_ite (c : Prop) [Decidable c] (a b : CmdEnd) (l : List Instr) :
    (if c then a else b).Keeps l ↔ if c then a.Keeps l else b.Keeps l := by
  split <;> rfl

/-- A command of an image keeps the queue when its own effect does. -/
theorem State.loadCommand_pending (s : State) (op : Nat) (ws : List Word)
    {body : State → Load → (Nat → Nat) → List Word → CmdEnd} (h : ∀ t l w p, (body t l w p).Keeps t.pending) :
    (s.loadCommand op ws body).pending = s.pending := by
  unfold State.loadCommand
  dsimp only
  split
  · rfl
  split
  · rfl
  split
  · rfl
  next t ht =>
  have hw := State.nextWords_pending _ _ _ _ ht
  split
  · simp [hw]
  split
  · simp [hw]
  · next heq =>
    have hb := (congrArg (CmdEnd.Keeps · t.pending) heq).mp (h _ _ _ _)
    simpa [hw] using hb

theorem keepsQueue_loadCommand (s : State) (op : Nat) (ws : List Word)
    {body : State → Load → (Nat → Nat) → List Word → CmdEnd} (h : ∀ t l w p, (body t l w p).Keeps t.pending) :
    KeepsQueue (.next (s.loadCommand op ws body)) s :=
  (keepsQueue_next _ _).mpr (s.loadCommand_pending op ws h)

@[simp ↓] theorem execNopCmd_keepsQueue (ws : List Word) (s : State) : KeepsQueue (execNopCmd ws s) s := by
  refine keepsQueue_loadCommand _ _ _ fun t l w p => ?_
  repeat' split
  all_goals simp

@[simp ↓] theorem State.initMcs_pending (s : State) (g : Nat) : (s.initMcs g).pending = s.pending := by simp [State.initMcs]

theorem loadFrame_keeps (a : Nat) (d : List Word) (s : State) (l : Load) : (loadFrame a d s l).Keeps s.pending := by
  have hp := s.putFrame_pending a d
  unfold loadFrame
  dsimp only
  split
  · simp
  split
  · simp
  · next heq =>
    rw [heq] at hp
    split <;> simpa using hp

@[simp ↓] theorem execFrameWrite_keepsQueue (ws : List Word) (s : State) : KeepsQueue (execFrameWrite ws s) s := by
  refine keepsQueue_loadCommand _ _ _ fun t l w p => ?_
  split
  · simp
  · have hf := loadFrame_keeps (w 1) (p.drop 2) t l
    split
    · next heq => simpa [heq] using hf
    · exact hf

theorem repeatOne_keeps (a : Word) (d : List Word) (e : CmdEnd) (b : Nat) {l : List Instr} (h : e.Keeps l) :
    (repeatOne a d e b).Keeps l := by
  unfold repeatOne
  split
  · simp
  · next t x =>
    obtain rfl : t.pending = l := h
    split
    · simp
    · exact loadFrame_keeps b d t x

@[simp ↓] theorem execFrameRepeat_keepsQueue (ws : List Word) (s : State) : KeepsQueue (execFrameRepeat ws s) s := by
  refine keepsQueue_loadCommand _ _ _ fun t l w p => ?_
  split
  · simp
  · next a d _ =>
    split
    · simp
    · have hgo : (CmdEnd.go t l).Keeps t.pending := rfl
      generalize CmdEnd.go t l = e at hgo
      induction repeatAddrs p generalizing e with
      | nil => exact hgo
      | cons b r ih => exact ih _ (repeatOne_keeps a d e b hgo)

@[simp ↓] theorem execFrameFill_keepsQueue (ws : List Word) (s : State) : KeepsQueue (execFrameFill ws s) s := by
  refine keepsQueue_loadCommand _ _ _ fun t l w p => ?_
  split
  · simp
  · next d _ =>
    split
    · simp
    · have hf := loadFrame_keeps (w 1) d t l
      split
      · next heq => simpa [heq] using hf
      · exact hf

@[simp ↓] theorem execMemoryWrite_keepsQueue (ws : List Word) (s : State) : KeepsQueue (execMemoryWrite ws s) s := by
  refine keepsQueue_loadCommand _ _ _ fun t l w p => ?_
  dsimp only
  repeat' split
  all_goals simp

@[simp ↓] theorem execSetDevice_keepsQueue (ws : List Word) (s : State) : KeepsQueue (execSetDevice ws s) s := by
  refine keepsQueue_loadCommand _ _ _ fun t l w p => ?_
  dsimp only
  repeat' split
  all_goals simp

@[simp ↓] theorem execReleaseOrder_keepsQueue (ws : List Word) (s : State) : KeepsQueue (execReleaseOrder ws s) s := by
  refine keepsQueue_loadCommand _ _ _ fun t l w p => ?_
  simp

@[simp ↓] theorem execCheckpoint_keepsQueue (ws : List Word) (s : State) : KeepsQueue (execCheckpoint ws s) s := by
  refine keepsQueue_loadCommand _ _ _ fun t l w p => ?_
  repeat' split
  all_goals simp

@[simp ↓] theorem execEndCmd_keepsQueue (ws : List Word) (s : State) : KeepsQueue (execEndCmd ws s) s := by
  refine keepsQueue_loadCommand _ _ _ fun t l w p => ?_
  repeat' split
  all_goals simp

@[simp ↓] theorem execRecordWrite_keepsQueue (ws : List Word) (s : State) : KeepsQueue (execRecordWrite ws s) s := by
  refine keepsQueue_loadCommand _ _ _ fun t l w p => ?_
  simp

@[simp ↓] theorem execImageVerify_keepsQueue (ws : List Word) (s : State) : KeepsQueue (execImageVerify ws s) s := by
  unfold execImageVerify
  simp only [keepsQueue_next]
  split
  · rfl
  split
  · rfl
  split
  · rfl
  next ht =>
  have hp := State.nextWords_pending _ _ _ _ ht
  split <;> simp [hp]

@[simp ↓] theorem execPllLockWait_keepsQueue (s : State) : KeepsQueue (execPllLockWait s) s := by
  unfold execPllLockWait
  split <;> simp

@[simp ↓] theorem State.stageTaken_pending (s : State) (l : Load) : (s.stageTaken l).pending = s.pending := by simp [State.stageTaken]

@[simp ↓] theorem State.nocAtOut_pending (s : State) : s.nocAtOut.pending = s.pending := by simp [State.nocAtOut]

@[simp ↓] theorem execStageOut_keepsQueue (s : State) : KeepsQueue (execStageOut s) s := by
  unfold execStageOut
  split <;> simp

@[simp ↓] theorem execStageWen_keepsQueue (s : State) : KeepsQueue (execStageWen s) s := by
  unfold execStageWen
  split <;> simp

@[simp ↓] theorem execStageRun_keepsQueue (s : State) : KeepsQueue (execStageRun s) s := by
  unfold execStageRun
  split <;> simp

@[simp ↓] theorem execWatchdogExpiry_keepsQueue (s : State) : KeepsQueue (execWatchdogExpiry s) s := by
  unfold execWatchdogExpiry
  repeat' split
  all_goals simp

@[simp ↓] theorem State.writeCf_pending (s : State) (p : Party) (n : RegName) (w : Word) : (s.writeCf p n w).pending = s.pending := by
  simp [State.writeCf]

@[simp ↓] theorem execWdclr_keepsQueue (p : Party) (w : Word) (s : State) : KeepsQueue (execWdclr p w s) s := by simp [execWdclr]

@[simp ↓] theorem execReload_keepsQueue (p : Party) (w : Word) (s : State) : KeepsQueue (execReload p w s) s := by simp [execReload]

@[simp ↓] theorem execOperatorGraftSession_keepsQueue (ws : List Word) (s : State) : KeepsQueue (execOperatorGraftSession ws s) s := by
  unfold execOperatorGraftSession
  simp only [keepsQueue_next]
  split
  · split
    · rfl
    split
    · rfl
    next ht => simp [State.portWords_pending _ _ _ ht]
  · rfl

@[simp ↓] theorem State.capture_pending (g : Nat) (s : State) : (s.capture g).pending = s.pending := by simp [State.capture]

@[simp ↓] theorem execReadback_keepsQueue (ws : List Word) (s : State) : KeepsQueue (execReadback ws s) s := by
  refine (keepsQueue_next _ _).mpr ?_
  split
  · split
    · rfl
    split
    · rfl
    next ht =>
    have hp := State.portWords_pending _ _ _ ht
    extract_lets w n addrs len bad s1 frames out s2
    have h2 : s2.pending = s.pending := by simp [s2, s1, hp]
    clear_value s2
    split <;> simp [h2]
  · rfl

/-! ## Serial -/

@[simp ↓] theorem State.setTxq_pending (s : State) (k : SerialKind) (n : Nat) (l : List (BitVec 16)) :
    (s.setTxq k n l).pending = s.pending := by
  simp [State.setTxq]

@[simp ↓] theorem State.setRxq_pending (s : State) (k : SerialKind) (n : Nat) (l : List (BitVec 16)) :
    (s.setRxq k n l).pending = s.pending := by
  simp [State.setRxq]

@[simp ↓] theorem State.serSet_pending (s : State) (k : SerialKind) (n b : Nat) : (s.serSet k n b).pending = s.pending := by
  simp [State.serSet]

@[simp ↓] theorem State.serStop_pending (s : State) (k : SerialKind) (n : Nat) : (s.serStop k n).pending = s.pending := by
  simp [State.serStop]

@[simp ↓] theorem State.writeSerCfg_pending (s : State) (p : Party) (k : SerialKind) (n : Nat) (w : Word) :
    (s.writeSerCfg p k n w).pending = s.pending := by
  simp [State.writeSerCfg]

@[simp ↓] theorem State.serQueue_pending (s : State) (k : SerialKind) (n : Nat) (w : Word) :
    (s.serQueue k n w).pending = s.pending := by
  simp [State.serQueue]

@[simp ↓] theorem State.twQueue_pending (s : State) (n : Nat) (w : Word) : (s.twQueue n w).pending = s.pending := by
  simp [State.twQueue]

@[simp ↓] theorem State.mdioQueue_pending (s : State) (n : Nat) (w : Word) : (s.mdioQueue n w).pending = s.pending := by
  simp [State.mdioQueue]

@[simp ↓] theorem State.writeSer_pending (s : State) (p : Party) (n : RegName) (i : Nat) (w : Word) :
    (s.writeSer p n i w).pending = s.pending := by
  unfold State.writeSer
  repeat' split
  all_goals simp

@[simp ↓] theorem State.serTake_pending (s : State) (k : SerialKind) (n : Nat) : (s.serTake k n).2.pending = s.pending := by
  unfold State.serTake
  split <;> simp

@[simp ↓] theorem State.readSer_pending (s : State) (n : RegName) (i : Nat) : (s.readSer n i).2.pending = s.pending := by
  unfold State.readSer
  split <;> simp

@[simp ↓] theorem execSerialReceiveRead_keepsQueue (p : Party) (k : SerialKind) (n : Fin 8) (s : State) :
    KeepsQueue (execSerialReceiveRead p k n s) s := by
  unfold execSerialReceiveRead
  dsimp only
  repeat' split
  all_goals simp

@[simp ↓] theorem State.serStore_pending (s : State) (k : SerialKind) (n : Nat) (b : BitVec 16) :
    (s.serStore k n b).pending = s.pending := by
  unfold State.serStore
  repeat' split
  all_goals simp

@[simp ↓] theorem State.uartSend_pending (s : State) (n : Nat) : (s.uartSend n).pending = s.pending := by
  unfold State.uartSend
  repeat' split
  all_goals simp

@[simp ↓] theorem execUartTransmit_keepsQueue (n : Fin 4) (s : State) : KeepsQueue (execUartTransmit n s) s := by
  simp [execUartTransmit]

@[simp ↓] theorem State.uartTake_pending (s : State) (n : Nat) (byte : Byte) (parity stop : Bool) :
    (s.uartTake n byte parity stop).pending = s.pending := by
  simp [State.uartTake]

@[simp ↓] theorem execUartReceive_keepsQueue (n : Fin 4) (byte : Byte) (parity stop : Bool) (s : State) :
    KeepsQueue (execUartReceive n byte parity stop s) s := by
  simp [execUartReceive]

@[simp ↓] theorem State.spiByte_pending (s : State) (n : Nat) (miso : Byte) : (s.spiByte n miso).pending = s.pending := by
  unfold State.spiByte
  repeat' split
  all_goals simp

@[simp ↓] theorem execSpiTransfer_keepsQueue (n : Fin 4) (miso : Byte) (s : State) : KeepsQueue (execSpiTransfer n miso s) s := by
  simp [execSpiTransfer]

@[simp ↓] theorem State.twPop_pending (s : State) (n : Nat) : (s.twPop n).pending = s.pending := by simp [State.twPop]

@[simp ↓] theorem State.setXfer_pending (s : State) (n : Nat) (v : Bool) : (s.setXfer n v).pending = s.pending := by
  simp [State.setXfer]

@[simp ↓] theorem State.twStart_pending (s : State) (n : Nat) : (s.twStart n).pending = s.pending := by
  unfold State.twStart
  dsimp only
  repeat' split
  all_goals simp

@[simp ↓] theorem execTwStart_keepsQueue (n : Fin 8) (s : State) : KeepsQueue (execTwStart n s) s := by simp [execTwStart]

@[simp ↓] theorem State.twWrite_pending (s : State) (n : Nat) (ack : Bool) : (s.twWrite n ack).pending = s.pending := by
  unfold State.twWrite
  dsimp only
  repeat' split
  all_goals simp

@[simp ↓] theorem execTwWrite_keepsQueue (n : Fin 8) (ack : Bool) (s : State) : KeepsQueue (execTwWrite n ack s) s := by
  simp [execTwWrite]

@[simp ↓] theorem State.twRead_pending (s : State) (n op : Nat) (b : Byte) : (s.twRead n op b).pending = s.pending := by
  unfold State.twRead
  split <;> simp

@[simp ↓] theorem execTwReadAck_keepsQueue (n : Fin 8) (byte : Byte) (s : State) : KeepsQueue (execTwReadAck n byte s) s := by
  simp [execTwReadAck]

@[simp ↓] theorem execTwReadNack_keepsQueue (n : Fin 8) (byte : Byte) (s : State) : KeepsQueue (execTwReadNack n byte s) s := by
  simp [execTwReadNack]

@[simp ↓] theorem State.twStop_pending (s : State) (n : Nat) : (s.twStop n).pending = s.pending := by
  unfold State.twStop
  split <;> simp

@[simp ↓] theorem execTwStop_keepsQueue (n : Fin 8) (s : State) : KeepsQueue (execTwStop n s) s := by simp [execTwStop]

@[simp ↓] theorem State.twStretch_pending (s : State) (n : Nat) : (s.twStretch n).pending = s.pending := by simp [State.twStretch]

@[simp ↓] theorem execStretchTimeout_keepsQueue (n : Fin 8) (s : State) : KeepsQueue (execStretchTimeout n s) s := by
  simp [execStretchTimeout]

@[simp ↓] theorem State.mdioFrame_pending (s : State) (n : Nat) (drives : Bool) (rdata : BitVec 16) :
    (s.mdioFrame n drives rdata).pending = s.pending := by
  unfold State.mdioFrame
  split <;> simp

@[simp ↓] theorem execMdioFrame_keepsQueue (n : Fin 2) (drives : Bool) (rdata : BitVec 16) (s : State) :
    KeepsQueue (execMdioFrame n drives rdata s) s := by
  simp [execMdioFrame]

@[simp ↓] theorem State.periphReset_pending (s : State) : s.periphReset.pending = s.pending := by simp [State.periphReset]

@[simp ↓] theorem State.pinsCanopyReset_pending (s : State) : s.pinsCanopyReset.pending = s.pending := by simp [State.pinsCanopyReset]

/-! ## Resets -/

@[simp ↓] theorem State.tellClock_pending (s : State) : s.tellClock.pending = s.pending := by simp [State.tellClock]

@[simp ↓] theorem State.holdover_pending (s : State) : s.holdover.pending = s.pending := by simp [State.holdover]

@[simp ↓] theorem State.writeRefcfg_pending (s : State) (p : Party) (w : Word) : (s.writeRefcfg p w).pending = s.pending := by
  unfold State.writeRefcfg
  repeat' split
  all_goals simp

@[simp ↓] theorem execReferenceSelect_keepsQueue (p : Party) (w : Word) (s : State) : KeepsQueue (execReferenceSelect p w s) s := by
  simp [execReferenceSelect]

@[simp ↓] theorem execSlewDone_keepsQueue (s : State) : KeepsQueue (execSlewDone s) s := by simp [execSlewDone]

@[simp ↓] theorem execReferenceLoss_keepsQueue (s : State) : KeepsQueue (execReferenceLoss s) s := by simp [execReferenceLoss]

@[simp ↓] theorem execReferenceReturn_keepsQueue (ppm : BitVec 16) (s : State) : KeepsQueue (execReferenceReturn ppm s) s := by
  simp [execReferenceReturn]

@[simp ↓] theorem execPllLockLoss_keepsQueue (s : State) : KeepsQueue (execPllLockLoss s) s := by simp [execPllLockLoss]

@[simp ↓] theorem execTaprootRelock_keepsQueue (s : State) : KeepsQueue (execTaprootRelock s) s := by simp [execTaprootRelock]

@[simp ↓] theorem State.kept_pending (old s : State) : (old.kept s).pending = old.pending := by simp [State.kept]

@[simp ↓] theorem State.setSource_pending (s : State) (kind detail : Nat) : (s.setSource kind detail).pending = s.pending := by
  simp [State.setSource]

@[simp ↓] theorem State.coldState_pending (s : State) (off : Bool) (kind : Nat) : (s.coldState off kind).pending = s.pending := by
  simp [State.coldState]

@[simp ↓] theorem State.bankReturns_pending (s : State) : s.bankReturns.pending = s.pending := by simp [State.bankReturns]

@[simp ↓] theorem execColdReset_keepsQueue (s : State) : KeepsQueue (execColdReset s) s := by simp [execColdReset]

@[simp ↓] theorem execSupplyFailure_keepsQueue (k : SupplyFault) (s : State) : KeepsQueue (execSupplyFailure k s) s := by
  simp [execSupplyFailure]

@[simp ↓] theorem State.warmStart_pending (s : State) (until' : Nat) (thermal : Bool) (kind detail : Nat) :
    (s.warmStart until' thermal kind detail).pending = s.pending := by
  simp [State.warmStart]

@[simp ↓] theorem State.warmTrigger_pending (s : State) (until' : Nat) (thermal : Bool) (kind detail : Nat) :
    (s.warmTrigger until' thermal kind detail).pending = s.pending := by
  unfold State.warmTrigger
  repeat' split
  all_goals simp

@[simp ↓] theorem State.reassert_pending (s : State) : s.reassert.pending = s.pending := by simp [State.reassert]

@[simp ↓] theorem State.canopyReset_pending (s : State) (kind detail : Nat) : (s.canopyReset kind detail).pending = s.pending := by
  simp [State.canopyReset]

@[simp ↓] theorem State.writeRstctl_pending (s : State) (p : Party) (w : Word) : (s.writeRstctl p w).pending = s.pending := by
  unfold State.writeRstctl
  cases p with
  | tenant _ => exact s.barkAns_pending 0
  | heartwood => exact s.plainWrite_pending _ _ _ _
  | core _ | pf0 =>
    dsimp only
    split
    · simp
    split
    · simp
    · split <;> simp

@[simp ↓] theorem execWarmReset_keepsQueue (tr : WarmTrigger) (s : State) : KeepsQueue (execWarmReset tr s) s := by
  unfold execWarmReset
  split <;> simp

@[simp ↓] theorem execWarmResetEnd_keepsQueue (s : State) : KeepsQueue (execWarmResetEnd s) s := by
  unfold execWarmResetEnd
  split <;> simp

@[simp ↓] theorem execCanopyReset_keepsQueue (p : Party) (w : Word) (s : State) : KeepsQueue (execCanopyReset p w s) s := by
  simp [execCanopyReset]

@[simp ↓] theorem execRebuild_keepsQueue (tableOk selfTestOk : Bool) (s : State) : KeepsQueue (execRebuild tableOk selfTestOk s) s := by
  simp [execRebuild]

@[simp ↓] theorem execThermalTrip_keepsQueue (sensor : Fin 16) (s : State) : KeepsQueue (execThermalTrip sensor s) s := by
  simp [execThermalTrip]

@[simp ↓] theorem execThermalHoldEnd_keepsQueue (s : State) : KeepsQueue (execThermalHoldEnd s) s := by
  unfold execThermalHoldEnd
  split <;> simp

@[simp ↓] theorem execTapInstruction_keepsQueue (i : TapInstr) (s : State) : KeepsQueue (execTapInstruction i s) s := by
  unfold execTapInstruction
  split <;> simp

/-! ## Faults -/

@[simp ↓] theorem execEventPending_keepsQueue (e : Fin 2048) (s : State) : KeepsQueue (execEventPending e s) s := by
  simp [execEventPending]

@[simp ↓] theorem State.heartLog_pending (s : State) (r : BitVec 64) : (s.heartLog r).pending = s.pending := by simp [State.heartLog]

@[simp ↓] theorem State.operatorErr_pending (s : State) (r : BitVec 64) : (s.operatorErr r).pending = s.pending := by
  simp [State.operatorErr]

@[simp ↓] theorem State.operatorTake_pending (s : State) : s.operatorTake.pending = s.pending := by simp [State.operatorTake]

@[simp ↓] theorem State.domainErr_pending (s : State) (t : Tag) (rs : List (BitVec 64)) : (s.domainErr t rs).pending = s.pending := by
  unfold State.domainErr
  repeat' split
  all_goals simp

@[simp ↓] theorem execErrorRecordEnqueue_keepsQueue (s : State) : KeepsQueue (execErrorRecordEnqueue s) s := by
  unfold execErrorRecordEnqueue
  repeat' split
  all_goals simp

@[simp ↓] theorem execOperatorErrorRead_keepsQueue (p : Party) (s : State) : KeepsQueue (execOperatorErrorRead p s) s := by
  unfold execOperatorErrorRead
  repeat' split
  all_goals simp

@[simp ↓] theorem execNocFatalReport_keepsQueue (s : State) : KeepsQueue (execNocFatalReport s) s := by simp [execNocFatalReport]

@[simp ↓] theorem State.canopyError_pending (s : State) (n addr : Nat) : (s.canopyError n addr).pending = s.pending := by
  simp [State.canopyError]

@[simp ↓] theorem execCanopyEccError_keepsQueue (n : Fin 8) (addr : BitVec 40) (fetch : Bool) (pc : BitVec 64) (s : State) :
    KeepsQueue (execCanopyEccError n addr fetch pc s) s := by
  simp [execCanopyEccError]

@[simp ↓] theorem State.replaceLat_pending (s : State) (k g i mark : Nat) : (s.replaceLat k g i mark).pending = s.pending := by
  simp [State.replaceLat]

@[simp ↓] theorem State.scrubbed_pending (s : State) (e : ScrubEntry) : (s.scrubbed e).2.2.2.pending = s.pending := by
  cases e <;> simp [State.scrubbed]

@[simp ↓] theorem execScrub_keepsQueue (e : ScrubEntry) (s : State) : KeepsQueue (execScrub e s) s := by simp [execScrub]

@[simp ↓] theorem State.sample_pending (s : State) (signed : Bool) (i x : Nat) : (s.sample signed i x).pending = s.pending := by
  simp [State.sample]

@[simp ↓] theorem execSensorSample_keepsQueue (temps volts : List (BitVec 16)) (s : State) :
    KeepsQueue (execSensorSample temps volts s) s := by
  simp [execSensorSample]

@[simp ↓] theorem State.writeMs_pending (s : State) (p : Party) (n : RegName) (i : Nat) (w : Word) :
    (s.writeMs p n i w).pending = s.pending := by
  unfold State.writeMs
  split
  · simp
  · dsimp only
    split <;> simp

@[simp ↓] theorem execMmclr_keepsQueue (p : Party) (w : Word) (s : State) : KeepsQueue (execMmclr p w s) s := by simp [execMmclr]

@[simp ↓] theorem State.readMeter_pending (s : State) (p : Party) (k : Nat) : (s.readMeter p k).pending = s.pending := by
  unfold State.readMeter
  split <;> simp

@[simp ↓] theorem execMeterReadLatch_keepsQueue (p : Party) (d : Fin 513) (m : Fin 6) (s : State) :
    KeepsQueue (execMeterReadLatch p d m s) s := by
  simp [execMeterReadLatch]

/-! ## Access -/

@[simp ↓] theorem resState_pending {r : Res} {s : State} (h : KeepsQueue r s) : (resState r s).pending = s.pending := by
  obtain ⟨t, rfl, ht⟩ := h
  exact ht

@[simp ↓] theorem State.ccmd_pending (s : State) (n : Fin 8) (w : Word) : (s.ccmd n w).pending = s.pending := by
  unfold State.ccmd
  dsimp only
  split
  case h_21 => exact s.command_pending _ _ fun _ _ => trivial
  all_goals simp

@[simp ↓] theorem State.writeDp_pending (s : State) (p : Party) (n : RegName) (i : Nat) (w : Word) :
    (s.writeDp p n i w).pending = s.pending := by
  unfold State.writeDp
  cases p with
  | tenant _ | pf0 => simp
  | heartwood | core _ =>
    dsimp only
    split
    · split
      · simp
      · split <;> simp
    · split <;> simp

@[simp ↓] theorem State.readDpFor_pending (s : State) (p : Party) (n : RegName) (i : Nat) :
    (s.readDpFor p n i).pending = s.pending := by
  unfold State.readDpFor
  split <;> simp

@[simp ↓] theorem State.writePb_pending (s : State) (p : Party) (n : RegName) (i : Nat) (w : Word) :
    (s.writePb p n i w).pending = s.pending := by
  unfold State.writePb
  split <;> simp

@[simp ↓] theorem State.readPb_pending (s : State) (p : Party) (n : RegName) (i : Nat) : (s.readPb p n i).pending = s.pending := by
  simp [State.readPb]

@[simp ↓] theorem State.onlyHeart_pending (s : State) (p : Party) (reads : Nat) {x : State} (h : x.pending = s.pending) :
    (s.onlyHeart p reads x).pending = s.pending := by simp [State.onlyHeart, h]

@[simp ↓] theorem State.noTenant_pending (s : State) (p : Party) (reads : Nat) {x : State} (h : x.pending = s.pending) :
    (s.noTenant p reads x).pending = s.pending := by
  unfold State.noTenant
  split <;> simp [h]

@[simp ↓] theorem State.onlyTable_pending (s : State) (p : Party) (reads : Nat) {x : State} (h : x.pending = s.pending) :
    (s.onlyTable p reads x).pending = s.pending := by simp [State.onlyTable, h]

@[simp ↓] theorem State.writeReg_pending (s : State) (p : Party) (r : RegId) (w : Word) : (s.writeReg p r w).pending = s.pending := by
  unfold State.writeReg
  split <;> simp

@[simp ↓] theorem execRegisterWrite_keepsQueue (p : Party) (r : RegId) (w : Word) (s : State) :
    KeepsQueue (execRegisterWrite p r w s) s := by
  simp [execRegisterWrite]

@[simp ↓] theorem State.readReg_pending (s : State) (p : Party) (r : RegId) : (s.readReg p r).pending = s.pending := by
  unfold State.readReg
  split <;> simp

@[simp ↓] theorem State.regWord_pending (p : Party) (write : Bool) (map : List MapRow) (off : Nat) (w : Word) (s : State) :
    (s.regWord p write map off w).pending = s.pending := by
  unfold State.regWord
  split <;> simp

@[simp ↓] theorem State.busDone_pending (s : State) (n : Nat) (st : Status) : (s.busDone n st).pending = s.pending := by
  simp [State.busDone]

@[simp ↓] theorem State.busRegs_pending (s : State) (n : Fin 8) (map : List MapRow) (off : Nat) (a : Access) :
    (s.busRegs n map off a).pending = s.pending := by
  unfold State.busRegs
  split <;> simp

@[simp ↓] theorem State.memWrite_pending (s : State) (m : CoreMem) (l : List Byte) : (s.memWrite m l).pending = s.pending := by
  unfold State.memWrite
  split <;> simp

@[simp ↓] theorem State.busMem_pending (s : State) (n : Nat) (pc : Nat) (op : CoreOp) (m : CoreMem) (a : Access) :
    (s.busMem n pc op m a).pending = s.pending := by
  unfold State.busMem
  dsimp only
  split
  · split <;> simp
  · split <;> simp
  · split <;> simp
  · split
    · simp
    · split <;> simp

@[simp ↓] theorem State.busRom_pending (s : State) (n : Nat) (a : Access) : (s.busRom n a).pending = s.pending := by simp [State.busRom]

@[simp ↓] theorem State.hubTake_pending (s : State) : s.hubTake.pending = s.pending := by simp [State.hubTake]

@[simp ↓] theorem State.busDevice_pending (s : State) (n : Fin 8) (b : BusAcc) : (s.busDevice n b).pending = s.pending := by
  unfold State.busDevice
  dsimp only
  repeat' split
  all_goals simp

@[simp ↓] theorem State.busNext_pending (n : Fin 8) (fuel : Nat) (s : State) : (s.busNext n fuel).pending = s.pending := by
  induction fuel generalizing s with
  | zero => rfl
  | succ fuel ih =>
    unfold State.busNext
    split
    · next heq _ =>
      cases heq
      split
      · rfl
      · simp [ih]
    · rfl

@[simp ↓] theorem State.busGo_pending (s : State) (n : Fin 8) : (s.busGo n).pending = s.pending := by simp [State.busGo]

@[simp ↓] theorem State.busQueue_pending (s : State) (n : Fin 8) (a : Access) (x : UnitHealth) :
    (s.busQueue n a x).pending = s.pending := by
  simp [State.busQueue]

@[simp ↓] theorem State.busAccess_pending (s : State) (n : Fin 8) (pc : Nat) (op : CoreOp) (a : Access) (x : UnitHealth) :
    (s.busAccess n pc op a x).pending = s.pending := by
  unfold State.busAccess
  repeat' split
  all_goals simp

@[simp ↓] theorem State.coreDoes_pending (s : State) (n : Fin 8) (pc : Nat) (op : CoreOp) (a : Access) (x : UnitHealth) :
    (s.coreDoes n pc op a x).pending = s.pending := by
  unfold State.coreDoes
  cases op with
  | csrRead c | csrWrite c v | mret =>
    dsimp only
    split <;> simp
  | illegal => exact s.coreTrap_pending _ _ _ _
  | interrupt =>
    dsimp only
    split
    · exact s.coreTrap_pending _ _ _ _
    · rfl
  | _ => exact s.busAccess_pending _ _ _ _ _

@[simp ↓] theorem execCoreBusAccess_keepsQueue (n : Fin 8) (c : CoreAt) (op : CoreOp) (a : Access) (x : UnitHealth) (s : State) :
    KeepsQueue (execCoreBusAccess n c op a x s) s := by
  simp [execCoreBusAccess]

@[simp ↓] theorem execFenceI_keepsQueue (n : Fin 8) (s : State) : KeepsQueue (execFenceI n s) s := by simp [execFenceI]

/-! ## Dma -/

@[simp ↓] theorem execDescriptorFetch_keepsQueue (v : Fin 512) (q : Fin 8) (s : State) : KeepsQueue (execDescriptorFetch v q s) s := by
  simp [execDescriptorFetch]

/-- The kernel would evaluate `boundTag` on the registers just written; the proof puts an arbitrary function in its place. -/
@[simp ↓] theorem State.pairHalt_pending (s : State) (v q : Nat) (st : Status) : (s.pairHalt v q st).pending = s.pending := by
  obtain ⟨f, hf⟩ : ∃ f, f = @State.pairHalt := ⟨_, rfl⟩
  rw [← hf]
  delta State.pairHalt at hf
  obtain ⟨bound, hb⟩ : ∃ b, b = State.boundTag := ⟨_, rfl⟩
  rw [← hb] at hf
  subst hf
  dsimp only
  split <;> simp

@[simp ↓] theorem State.hostAnswer_pending (s : State) (v q : Nat) (a : HostAnswer) : (s.hostAnswer v q a).pending = s.pending := by
  unfold State.hostAnswer
  dsimp only
  repeat' split
  all_goals simp

@[simp ↓] theorem execHostCompletion_keepsQueue (v : Fin 512) (q : Fin 8) (a : HostAnswer) (s : State) :
    KeepsQueue (execHostCompletion v q a s) s := by
  simp [execHostCompletion]

@[simp ↓] theorem State.startChunk_pending (s : State) (v q : Nat) : (s.startChunk v q).pending = s.pending := by
  unfold State.startChunk
  dsimp only
  split
  · rfl
  split
  · split <;> simp
  · rfl

@[simp ↓] theorem execDmaChunk_keepsQueue (v : Fin 512) (q : Fin 8) (s : State) : KeepsQueue (execDmaChunk v q s) s := by
  simp [execDmaChunk]

@[simp ↓] theorem State.chunkDone_pending (s : State) (k : Nat) (st : Status) (data : List Word) :
    (s.chunkDone k st data).pending = s.pending := by
  unfold State.chunkDone
  dsimp only
  split
  · split <;> simp
  · rfl

@[simp ↓] theorem State.completion_pending (s : State) (v q : Nat) : (s.completion v q).pending = s.pending := by
  unfold State.completion
  dsimp only
  split
  · split
    · simp
    split
    · simp
    · split <;> simp
  · rfl

@[simp ↓] theorem execCompletionWrite_keepsQueue (v : Fin 512) (q : Fin 8) (s : State) : KeepsQueue (execCompletionWrite v q s) s := by
  simp [execCompletionWrite]

/-! ## NocEnd -/

@[simp ↓] theorem State.completeReq_pending (s : State) (q : NocReq) (st : Status) (data : List Word) :
    (s.completeReq q st data).pending = s.pending := by
  unfold State.completeReq
  dsimp only
  split <;> simp

@[simp ↓] theorem State.issue_pending (s : State) (ni : Nat) : (s.issue ni).pending = s.pending := by
  unfold State.issue
  dsimp only
  split
  · simp
  split
  · rfl
  split
  · split
    · simp
    · rfl
  · rfl

@[simp ↓] theorem execNocRequestIssue_keepsQueue (ni : Fin 5) (s : State) : KeepsQueue (execNocRequestIssue ni s) s := by
  simp [execNocRequestIssue]

@[simp ↓] theorem State.responseIn_pending (s : State) (node : Nat) : (s.responseIn node).pending = s.pending := by
  unfold State.responseIn
  split
  · rfl
  split
  · rfl
  dsimp only
  split
  · rfl
  · split <;> simp

@[simp ↓] theorem execNocResponseArrive_keepsQueue (ni : Fin 5) (s : State) : KeepsQueue (execNocResponseArrive ni s) s := by
  simp [execNocResponseArrive]

@[simp ↓] theorem execNocTimeout_keepsQueue (ni : Fin 5) (txid : BitVec 8) (s : State) : KeepsQueue (execNocTimeout ni txid s) s := by
  unfold execNocTimeout
  dsimp only
  split <;> simp

@[simp ↓] theorem State.readWords_pending (s : State) (ws : List (Bool × Word)) (mask : Word) :
    (s.readWords ws mask).pending = s.pending := by
  unfold State.readWords
  simp only [State.ans_frame]
  refine foldl_keeps (fun x : List Word × State => x.2.pending) _ _ _ fun x e => ?_
  split <;> simp

@[simp ↓] theorem State.sramAccess_pending (s : State) (k off : Nat) (q : TReq) : (s.sramAccess k off q).pending = s.pending := by
  unfold State.sramAccess
  dsimp only
  split
  · simp
  split
  · simp
  · split <;> simp

@[simp ↓] theorem State.nvmAccess_pending (s : State) (off : Nat) (q : TReq) : (s.nvmAccess off q).pending = s.pending := by
  simp [State.nvmAccess]

@[simp ↓] theorem State.bridgeWord_pending (p : Party) (write : Bool) (off : Nat) (w : Word) (s : State) :
    (s.bridgeWord p write off w).pending = s.pending := by
  simp [State.bridgeWord]

@[simp ↓] theorem State.perform_pending (s : State) (node : Nat) (q : TReq) : (s.perform node q).pending = s.pending := by
  unfold State.perform
  extract_lets off wr p ws zeros regs
  have hregs : ∀ map, (regs map).pending = s.pending := fun map => by simp [regs]
  clear_value regs
  split
  · simp
  split
  · split
    · simp
    split
    · split <;> simp
    · exact hregs _
  split
  · exact hregs _
  split
  · simp
  split
  · split
    · simp
    · exact hregs _
  all_goals simp [hregs]

theorem State.svcUnit_pending (s : State) (v : Svc) (m : Moved) {t : State} {x : Svc} (ht : s.svcUnit v m = some (x, t)) :
    t.pending = s.pending := by
  unfold State.svcUnit at ht
  dsimp only at ht
  split at ht
  · split at ht
    · cases ht
      simp
    · cases ht
      simp
  · split at ht
    · obtain ⟨u, hu, e⟩ := Option.map_eq_some_iff.mp ht
      cases e
      exact State.fifoNocPut_pending _ _ _ hu
    · obtain ⟨u, hu, e⟩ := Option.map_eq_some_iff.mp ht
      cases e
      exact State.fifoNocGive_pending _ _ _ hu
  · split at ht
    · cases ht
    · cases ht
      simp

@[simp ↓] theorem State.setSvc_pending (s : State) (node : Nat) (v : Option Svc) : (s.setSvc node v).pending = s.pending := by
  simp [State.setSvc]

@[simp ↓] theorem State.svcMove_pending (node : Nat) (s : State) : (s.svcMove node).pending = s.pending := by
  unfold State.svcMove
  split
  · rfl
  · split
    · simp
    · split
      · next ht =>
        obtain ⟨m, -, hu⟩ := Option.bind_eq_some_iff.mp ht
        simp [State.svcUnit_pending _ _ _ hu]
      · rfl

theorem State.serveAt_pending (s : State) (node k : Nat) {f : TReq → State → State} (h : ∀ q t, (f q t).pending = t.pending) :
    (s.serveAt node k f).pending = s.pending := by
  unfold State.serveAt
  split
  · rfl
  · simp [h]

@[simp ↓] theorem State.beginServe_pending (s : State) (node k : Nat) (upset : List Nat) :
    (s.beginServe node k upset).pending = s.pending := by
  unfold State.beginServe
  split
  · rfl
  split
  · simp
  · exact s.serveAt_pending _ _ fun q t => t.perform_pending _ _

@[simp ↓] theorem execNocServe_keepsQueue (node : Fin 92) (upset : List Nat) (s : State) :
    KeepsQueue (execNocServe node upset s) s := by
  refine (keepsQueue_next _ _).mpr ?_
  split
  · split <;> simp
  · rfl

@[simp ↓] theorem execFifoNocTimeout_keepsQueue (g : Fin 64) (f : Fin 8) (s : State) : KeepsQueue (execFifoNocTimeout g f s) s := by
  refine (keepsQueue_next _ _).mpr ?_
  split
  · split
    · simp
    · rfl
  split
  · exact s.serveAt_pending _ _ fun _ _ => by simp
  · rfl

@[simp ↓] theorem execStatusRecordSend_keepsQueue (tag : Tag) (s : State) : KeepsQueue (execStatusRecordSend tag s) s := by
  refine (keepsQueue_next _ _).mpr ?_
  split
  · rfl
  dsimp only
  split
  · simp
  split
  · split <;> simp
  · split <;> simp

@[simp ↓] theorem execDomainWake_keepsQueue (ni : Fin 5) (s : State) : KeepsQueue (execDomainWake ni s) s := by
  refine (keepsQueue_next _ _).mpr ?_
  split <;> simp

@[simp ↓] theorem State.deliverDirect_pending (h : HeldDirect) (s : State) : (s.deliverDirect h).pending = s.pending := by
  unfold State.deliverDirect
  dsimp only
  split
  · split <;> simp
  · simp

@[simp ↓] theorem execWakeDelivery_keepsQueue (d : Fin 96) (s : State) : KeepsQueue (execWakeDelivery d s) s := by
  refine (keepsQueue_next _ _).mpr ?_
  split
  · split <;> simp
  · rfl

/-! ## Every command -/

/-- Settles O2: each command keeps the queue by its own lemma, and each of these by the lemmas of the operations that the
command is made of. -/
theorem everyCommandGoesOnAndKeepsTheQueue : Obligations.EveryCommandGoesOnAndKeepsTheQueue := by
  intro c s
  change KeepsQueue (exec c s) s
  cases c <;> simp [exec]

end Sys2Proof.Machine
end

section
/-! SUPPORT. Registers and fields read after a field is set or counted, and the first entry of a table that meets a test. -/

namespace Sys2Proof.Machine

/-- States with one register file read alike. -/
theorem State.reg_congr {s t : State} (h : t.regs = s.regs) (n : RegName) (i : Nat) : t.reg n i = s.reg n i := by
  rw [State.reg, h, State.reg]

theorem State.fld_congr {s t : State} (h : t.regs = s.regs) (n : RegName) (i hi lo : Nat) : t.fld n i hi lo = s.fld n i hi lo := by
  rw [State.fld, State.reg_congr h, State.fld]

section
variable (s : State) {n m : RegName} {i j hi lo hi' lo' : Nat}

/-- A field write leaves the registers of other names. -/
theorem State.reg_setFld_name (v : Nat) (h : m ≠ n) : (s.setFld n i hi lo v).reg m j = s.reg m j :=
  s.reg_setReg_name i j _ h

/-- A count leaves the registers of other names. -/
theorem State.reg_count_name (k : Nat) (h : m ≠ n) : (s.count n i hi lo k).reg m j = s.reg m j :=
  s.reg_setFld_name _ h

/-- A field set is read back, as far as it holds the value. -/
theorem State.fld_setFld (v : Nat) (h : hi < 32) : (s.setFld n i hi lo v).fld n i hi lo = v % 2 ^ (hi + 1 - lo) := by
  rw [State.fld, State.setFld, State.reg_setReg_same, bits_ofNat_toNat _ _ h, bits_setBits]

/-- A field write leaves the other fields of its register. -/
theorem State.fld_setFld_apart (v : Nat) (h : hi' < 32) (ha : hi' < lo ∨ hi < lo') :
    (s.setFld n i hi lo v).fld n i hi' lo' = s.fld n i hi' lo' := by
  rw [State.fld, State.setFld, State.reg_setReg_same, bits_ofNat_toNat _ _ h, bits_setBits_disjoint _ _ ha, State.fld]

/-- A count adds and saturates. -/
theorem State.fld_count (k : Nat) (h : hi < 32) :
    (s.count n i hi lo k).fld n i hi lo = satAdd (hi + 1 - lo) (s.fld n i hi lo) k := by
  rw [State.count, State.fld_setFld _ _ h]
  exact Nat.mod_eq_of_lt (by have := Nat.two_pow_pos (hi + 1 - lo); unfold satAdd; omega)

/-- A count leaves the other fields of its register. -/
theorem State.fld_count_apart (k : Nat) (h : hi' < 32) (ha : hi' < lo ∨ hi < lo') :
    (s.count n i hi lo k).fld n i hi' lo' = s.fld n i hi' lo' :=
  s.fld_setFld_apart _ h ha

/-- A bit set to 1 reads 1. -/
theorem State.flag_setBit_true {b : Nat} (h : b < 32) : (s.setBit n i b true).flag n i b = true := by
  simp [State.flag, State.setBit, State.fld_setFld s _ h, b2n]

end

end Sys2Proof.Machine

namespace Sys2Proof.Tbl

variable {α : Type}

/-- A table whose keys begin at lo lists nothing below. -/
theorem rd_below {t : Tbl α} {lo k : Nat} (d : α) (hr : t.rising lo = true) (hk : k < lo) : t.rd k d = d := by
  induction t generalizing lo with
  | nil => rfl
  | cons e r ih =>
    obtain ⟨a, v⟩ := e
    simp only [Tbl.rising, Bool.and_eq_true, decide_eq_true_eq] at hr
    rw [Tbl.rd_cons, if_neg (by simp only; omega)]
    exact ih hr.2 (by omega)

end Sys2Proof.Tbl

namespace Sys2Proof.Machine

/-- The first key set in a table of marks that also meets a test. -/
def firstSet (q : Nat → Bool) (t : Tbl Bool) : Option Nat := firstSome (fun (e : Nat × Bool) => if e.2 && q e.1 then some e.1 else none) t

/-- The first such key is set and meets the test, and no lower key does; when there is none, no key does. -/
theorem firstSet_spec (q : Nat → Bool) {t : Tbl Bool} {lo : Nat} (hr : t.rising lo = true) :
    (∀ x, firstSet q t = some x → lo ≤ x ∧ (t.rd x false = true ∧ q x = true) ∧ ∀ y, y < x → ¬ (t.rd y false = true ∧ q y = true))
    ∧ (firstSet q t = none → ∀ y, ¬ (t.rd y false = true ∧ q y = true)) := by
  induction t generalizing lo with
  | nil => simp [firstSet, firstSome]
  | cons e r ih =>
    obtain ⟨k, v⟩ := e
    simp only [Tbl.rising, Bool.and_eq_true, decide_eq_true_eq] at hr
    obtain ⟨hlo, hr⟩ := hr
    obtain ⟨ihs, ihn⟩ := ih hr
    have hstep : firstSet q ((k, v) :: r) = if v = true ∧ q k = true then some k else firstSet q r := by
      cases v <;> cases hq : q k <;> simp [firstSet, firstSome, hq]
    rw [hstep]
    split
    · next hk =>
      refine ⟨?_, by simp⟩
      rintro x hx
      obtain rfl : k = x := by simpa using hx
      refine ⟨hlo, by simpa [Tbl.rd_cons] using hk, fun y hy => ?_⟩
      rw [Tbl.rd_cons, if_neg (by simp only; omega), Tbl.rd_below false hr (by omega)]
      simp
    · next hk =>
      have hother (y : Nat) (hy : ¬ (Tbl.rd r y false = true ∧ q y = true)) : ¬ (Tbl.rd ((k, v) :: r) y false = true ∧ q y = true) := by
        by_cases e : k = y
        · subst e; simpa [Tbl.rd_cons] using hk
        · simpa [Tbl.rd_cons, e] using hy
      refine ⟨fun x hx => ?_, fun hx y => hother y (ihn hx y)⟩
      obtain ⟨hle, hset, hmin⟩ := ihs x hx
      exact ⟨by omega, by simpa [Tbl.rd_cons, show k ≠ x by omega] using hset, fun y hy => hother y (hmin y hy)⟩

/-- The lowest key that is set and meets the test is the first. -/
theorem firstSet_eq_some {q : Nat → Bool} {t : Tbl Bool} (hr : t.rising 0 = true) {x : Nat} (hx : t.rd x false = true ∧ q x = true)
    (hmin : ∀ y, y < x → ¬ (t.rd y false = true ∧ q y = true)) : firstSet q t = some x := by
  obtain ⟨hs, hn⟩ := firstSet_spec q hr
  cases hf : firstSet q t with
  | none => exact absurd hx (hn hf x)
  | some z =>
    obtain ⟨-, hz, hzmin⟩ := hs z hf
    rcases Nat.lt_trichotomy z x with h | h | h
    · exact absurd hz (hmin z h)
    · rw [h]
    · exact absurd hx (hzmin x h)

/-- When no key is set and meets the test, there is no first. -/
theorem firstSet_eq_none {q : Nat → Bool} {t : Tbl Bool} (hr : t.rising 0 = true)
    (h : ∀ y, ¬ (t.rd y false = true ∧ q y = true)) : firstSet q t = none := by
  cases hf : firstSet q t with
  | none => rfl
  | some z => exact absurd ((firstSet_spec q hr).1 z hf).2.1 (h z)

end Sys2Proof.Machine
end

section
/-! SUPPORT. The dispatcher's event sources (R394-R396): what its shared operations change and leave, a command judged at once, and the
obligation on event sources. -/

namespace Sys2Proof.Machine

/-! ## Threads, cores, sources -/

theorem State.thr_setThr (s : State) (i j : Nat) (t : Thread) : (s.setThr i t).thr j = if j = i then t else s.thr j := Tbl.rd_wr ..

theorem State.coreSt_setCore (s : State) (n m : Nat) (c : CoreSt) : (s.setCore n c).coreSt m = if m = n then c else s.coreSt m :=
  Tbl.rd_wr ..

theorem State.pending?_setPend (s : State) (e e' : Nat) (v : Bool) : (s.setPend e v).pending? e' = if e' = e then v else s.pending? e' :=
  Tbl.rd_wr ..

@[simp] theorem State.thr_setCore (s : State) (n j : Nat) (c : CoreSt) : (s.setCore n c).thr j = s.thr j := rfl
@[simp] theorem State.coreSt_setThr (s : State) (i m : Nat) (t : Thread) : (s.setThr i t).coreSt m = s.coreSt m := rfl
@[simp] theorem State.setPend_thr (s : State) (e : Nat) (v : Bool) : (s.setPend e v).dp.thr = s.dp.thr := rfl
@[simp] theorem State.setPend_regs (s : State) (e : Nat) (v : Bool) : (s.setPend e v).regs = s.regs := rfl
@[simp] theorem State.setPend_asserting (s : State) (e : Nat) (v : Bool) : (s.setPend e v).dp.asserting = s.dp.asserting := rfl

/-- A trace record changes the trace and its lost count alone. -/
@[simp] theorem State.traceRec_frame (s : State) (k c t d : Nat) :
    (s.traceRec k c t d).dp.thr = s.dp.thr ∧ (s.traceRec k c t d).dp.cores = s.dp.cores ∧ (s.traceRec k c t d).dp.pend = s.dp.pend
    ∧ (s.traceRec k c t d).dp.lastSrc = s.dp.lastSrc := by
  unfold State.traceRec
  dsimp only
  split <;> simp

@[simp] theorem State.traceRec_thr (s : State) (k c t d j : Nat) : (s.traceRec k c t d).thr j = s.thr j := by simp [State.thr]

@[simp] theorem State.traceRec_coreSt (s : State) (k c t d m : Nat) : (s.traceRec k c t d).coreSt m = s.coreSt m := by
  simp [State.coreSt]

@[simp] theorem State.traceRec_pending? (s : State) (k c t d e : Nat) : (s.traceRec k c t d).pending? e = s.pending? e := by
  simp [State.pending?]

theorem State.traceRec_regs (s : State) (k c t d : Nat) :
    (s.traceRec k c t d).regs = if 4096 ≤ s.dp.trace.length then (s.count .dpTrstat 0 31 16 1).regs else s.regs := by
  rw [State.traceRec]
  exact apply_ite State.regs _ _ _

theorem State.traceRec_reg (s : State) (k c t d : Nat) {n : RegName} (i : Nat) (h : n ≠ .dpTrstat) :
    (s.traceRec k c t d).reg n i = s.reg n i := by
  have hregs := s.traceRec_regs k c t d
  split at hregs
  · exact (State.reg_congr hregs n i).trans (s.reg_count_name 1 h)
  · exact State.reg_congr hregs n i

/-! ## Made ready, and waiting (R381, R392) -/

/-- The thread as it stands once made ready. -/
def Thread.readied (t : Thread) (seq val : Word) (reason fc : Nat) : Thread :=
  { t with st := .ready, seq := seq, wakeSet := false, reason := BitVec.ofNat 2 reason, wval := val, since := fc }

theorem State.thr_makeReady (s : State) (i reason : Nat) (val : Word) (detail j : Nat) :
    (s.makeReady i reason val detail).thr j = if j = i then (s.thr i).readied (s.dp.seqc + 1) val reason s.fc else s.thr j := by
  rw [State.makeReady, State.traceRec_thr, State.thr_setThr]
  rfl

@[simp] theorem State.makeReady_frame (s : State) (i reason : Nat) (val : Word) (detail : Nat) :
    (s.makeReady i reason val detail).dp.pend = s.dp.pend ∧ (s.makeReady i reason val detail).dp.lastSrc = s.dp.lastSrc := by
  simp [State.makeReady, State.nextSeq, State.setThr]

@[simp] theorem State.makeReady_pending? (s : State) (i reason : Nat) (val : Word) (detail e : Nat) :
    (s.makeReady i reason val detail).pending? e = s.pending? e := by
  simp [State.pending?]

@[simp] theorem State.stopClock_thr (s : State) (n j : Nat) : (s.stopClock n).thr j = s.thr j := by
  unfold State.stopClock
  dsimp only
  split <;> rfl

theorem State.stopClock_coreSt_other (s : State) {n m : Nat} (h : m ≠ n) : (s.stopClock n).coreSt m = s.coreSt m := by
  unfold State.stopClock
  dsimp only
  split
  · rw [State.coreSt_setCore, if_neg h]
  · rfl

/-- A run that ends leaves its core without a thread, and every thread and other core as it was. -/
theorem State.endRun_kept (s : State) (n i op : Nat) :
    ((s.endRun n i op).coreSt n).cur = none ∧ (∀ m, m ≠ n → (s.endRun n i op).coreSt m = s.coreSt m)
    ∧ ∀ j, (s.endRun n i op).thr j = s.thr j := by
  refine ⟨?_, fun m hm => ?_, fun j => ?_⟩
  · simp [State.endRun, State.coreSt_setCore]
  · simp [State.endRun, State.coreSt_setCore, hm, State.stopClock_coreSt_other]
  · simp [State.endRun]

/-- A thread takes a wake stamp, and keeps its state; every other thread and every core stays. -/
theorem State.setWake_kept (s : State) (i : Nat) (stamp : Word) :
    ((s.setWake i stamp).thr i).st = (s.thr i).st ∧ (∀ j, j ≠ i → (s.setWake i stamp).thr j = s.thr j)
    ∧ ∀ m, (s.setWake i stamp).coreSt m = s.coreSt m := by
  have hthr (j : Nat) : (s.setWake i stamp).thr j
      = if j = i then { s.thr i with wake := stamp, wakeSet := true, wakeOrd := s.dp.ord } else s.thr j := State.thr_setThr ..
  exact ⟨by simp [hthr], fun j hj => by simp [hthr, hj], fun m => rfl⟩

/-- The thread that waits for an event is WAITEV, off its core, and nobody else has changed. -/
theorem State.beginWait_waitEv (s : State) (n i op obj : Nat) (d : Tmo) :
    ((s.beginWait n i op .waitEv obj d).thr i).st = .waitEv ∧ ((s.beginWait n i op .waitEv obj d).coreSt n).cur = none
    ∧ s.othersKept (s.beginWait n i op .waitEv obj d) n i := by
  let u := s.setThr i { s.thr i with st := .waitEv, obj := BitVec.ofNat 10 obj, seq := (s.thr i).seq }
  have hu : (u.thr i).st = .waitEv ∧ (∀ j, j ≠ i → u.thr j = s.thr j) ∧ ∀ m, u.coreSt m = s.coreSt m :=
    ⟨by simp [u, State.thr_setThr], fun j hj => by simp [u, State.thr_setThr, hj], fun m => rfl⟩
  have hends (v : State) (hst : (v.thr i).st = .waitEv) (hthr : ∀ j, j ≠ i → v.thr j = s.thr j) (hcore : ∀ m, v.coreSt m = s.coreSt m) :
      ((v.endRun n i op).thr i).st = .waitEv ∧ ((v.endRun n i op).coreSt n).cur = none ∧ s.othersKept (v.endRun n i op) n i := by
    obtain ⟨hcur, hcores, hthrs⟩ := v.endRun_kept n i op
    exact ⟨by rw [hthrs, hst], hcur, fun j hj => by rw [hthrs, hthr j hj], fun m hm => by rw [hcores m hm, hcore]⟩
  obtain ⟨hst, hthr, hcore⟩ := hu
  cases d with
  | ticks k =>
    obtain ⟨kst, kthr, kcore⟩ := u.setWake_kept i (s.tnow + BitVec.ofNat 32 k)
    exact hends (u.setWake i (s.tnow + BitVec.ofNat 32 k)) (by rw [kst, hst]) (fun j hj => by rw [kthr j hj, hthr j hj])
      (fun m => by rw [kcore, hcore])
  | bad => exact hends u hst hthr hcore
  | noWait => exact hends u hst hthr hcore
  | forever => exact hends u hst hthr hcore

/-- A fault leaves the dispatcher frozen, and its threads and pending bits as they were. -/
theorem State.dispFault_freezes (s : State) (u : DispCheck) :
    (s.dispFault u).frozen = true ∧ (s.dispFault u).dp.thr = s.dp.thr ∧ (s.dispFault u).dp.pend = s.dp.pend := by
  refine ⟨?_, by simp [State.dispFault], by simp [State.dispFault]⟩
  rw [State.dispFault, State.frozen, State.flag, State.fld, State.traceRec_reg _ _ _ _ _ _ (by decide)]
  exact State.flag_setBit_true _ (by decide)

/-! ## A command that is judged at once (R389) -/

/-- The state in which the sequencer judges a command of core n that nothing comes before. -/
def State.served (s : State) (n : Nat) : State := { s with dp := { s.dp with lastCore := n, lastCmd := true } }

theorem State.serveCore_of_cmdOpen {s : State} {n : Nat} (h : s.cmdOpen n) : s.serveCore n = s.served n := by
  obtain ⟨-, -, -, htick, hturn⟩ := h
  have hfirst : s.tickFirst = s := by simp [State.tickFirst, htick]
  have hserve : s.turnFirst = s := by
    rw [State.turnFirst, hfirst]
    rcases hturn with h | h <;> simp [h]
  rw [State.serveCore, hserve, State.served]

/-- The outcome of a command judged in state s has this status, ENDED and value, and leaves a state with P. -/
def CmdOut.Comes (o : CmdOut) (s : State) (st : Status) (ended : Bool) (val : Word) (P : State → Prop) : Prop :=
  match o with
  | .refused st' => st' = st ∧ ended = false ∧ val = 0 ∧ P s
  | .done t ended' val' => st = .ok ∧ ended' = ended ∧ val' = val ∧ P t

section
variable {s : State} {st : Status} {ended : Bool} {val : Word} {P : State → Prop}

@[simp] theorem CmdOut.comes_refused (st' : Status) :
    (CmdOut.refused st').Comes s st ended val P ↔ st' = st ∧ ended = false ∧ val = 0 ∧ P s := Iff.rfl

@[simp] theorem CmdOut.comes_done (t : State) (ended' : Bool) (val' : Word) :
    (CmdOut.done t ended' val').Comes s st ended val P ↔ st = .ok ∧ ended' = ended ∧ val' = val ∧ P t := Iff.rfl

/-- A command that nothing comes before and whose checks find nothing ends with the outcome of its judgement. -/
theorem ends_command {n : Nat} {u : DispCheck} {f : State → Option Nat → CmdOut} (ho : s.cmdOpen n) (hu : dispAny u = false)
    (h : (f (s.served n) ((s.coreSt n).cur.map Fin.val)).Comes (s.served n) st ended val P) :
    Ends (.next (s.command n u f)) n st ended val P := by
  have hserve := State.serveCore_of_cmdOpen ho
  obtain ⟨hheld, hcore, hfrozen, -, -⟩ := ho
  have hcur : (s.served n).coreSt n = s.coreSt n := rfl
  simp only [State.command, hheld, hcore, hfrozen, hserve, hu, hcur, Bool.or_self, Bool.false_eq_true, if_false]
  cases hf : f (s.served n) ((s.coreSt n).cur.map Fin.val) with
  | refused st' =>
    obtain ⟨rfl, rfl, rfl, hP⟩ := (CmdOut.comes_refused _).mp (hf ▸ h)
    exact ⟨_, rfl, hP⟩
  | done t ended' val' =>
    obtain ⟨rfl, rfl, rfl, hP⟩ := (CmdOut.comes_done _ _ _).mp (hf ▸ h)
    exact ⟨_, rfl, hP⟩

end

section
variable (s : State) (n : Nat)

@[simp] theorem State.served_arg0 (m : Nat) : (s.served n).arg0 m = (s.reg .dpCarg0 m).toNat := rfl
@[simp] theorem State.served_arg1 (m : Nat) : (s.served n).arg1 m = (s.reg .dpCarg1 m).toNat := rfl
@[simp] theorem State.served_thr (i : Nat) : (s.served n).thr i = s.thr i := rfl
@[simp] theorem State.served_binding (e : Nat) : (s.served n).binding e = s.binding e := rfl
@[simp] theorem State.served_pending? (e : Nat) : (s.served n).pending? e = s.pending? e := rfl
@[simp] theorem State.served_dp : (s.served n).dp.thr = s.dp.thr ∧ (s.served n).dp.bind = s.dp.bind ∧ (s.served n).dp.pend = s.dp.pend :=
  ⟨rfl, rfl, rfl⟩

end

/-- A timeout that is no reserved value is none, a number of ticks, or without limit (R390). -/
theorem tmoOf_ne_bad {a : Nat} (h : a ≤ 0x7FFFFFFF ∨ a = 0xFFFFFFFF) : tmoOf a ≠ .bad := by
  unfold tmoOf
  split
  · simp
  split
  · simp
  · rw [if_pos (by omega)]; simp

theorem tmoOf_eq_noWait {a : Nat} : tmoOf a = .noWait ↔ a = 0 := by
  unfold tmoOf
  split
  · next h => simp [h]
  · next h =>
    simp only [h, iff_false]
    split
    · simp
    · split <;> simp

/-! ## The event commands (R391, R395, R396) -/

section
variable {n : Fin 8} {ck : DispCheck} {s : State} (obj : BitVec 10) {a : Nat}
variable (ho : s.cmdOpen n.val) (hu : dispAny ck = false) (ha : (s.reg .dpCarg0 n.val).toNat = a)
include ho hu ha

section
variable (h29 : bit a 29 = false) (hres : bits a 23 11 = 0) (hsrc : srcReserved (bits a 10 0) = false)
include h29 hres hsrc

/-- EVBIND of KIND 0 unbinds the source. -/
theorem execEvbind_none (hk : bits a 31 30 = 0) : Ends (execEvbind n obj ck s) n.val .ok false 0 (fun u =>
    u.binding (bits a 10 0) = .none ∧ u.dp.pend = s.dp.pend) :=
  ends_command ho hu (by simp [ha, h29, hres, hsrc, hk, State.binding, Tbl.rd_del_same])

/-- EVBIND of KIND 1 binds the source to a thread that is not FREE. -/
theorem execEvbind_thread (hk : bits a 31 30 = 1) (hst : (s.thr obj.toNat).st ≠ .free) :
    Ends (execEvbind n obj ck s) n.val .ok false 0 (fun u =>
      u.binding (bits a 10 0) = .thread obj ∧ (∀ e', e' ≠ bits a 10 0 → u.binding e' = s.binding e')) :=
  ends_command ho hu (by simp +contextual [ha, h29, hres, hsrc, hk, hst, State.binding, Tbl.rd_wr])

/-- EVBIND to a FREE thread is refused. -/
theorem execEvbind_free (hk : bits a 31 30 = 1) (hst : (s.thr obj.toNat).st = .free) :
    Ends (execEvbind n obj ck s) n.val .denied false 0 (fun u => u.dp.bind = s.dp.bind) :=
  ends_command ho hu (by simp [ha, h29, hres, hsrc, hk, hst])

/-- EVBIND of KIND 2 binds the source to a bit of a group. -/
theorem execEvbind_group (hk : bits a 31 30 = 2) (hobj : obj.toNat < 256) :
    Ends (execEvbind n obj ck s) n.val .ok false 0 (fun u =>
      u.binding (bits a 10 0) = .group obj (BitVec.ofNat 5 (bits a 28 24)) ∧ (∀ e', e' ≠ bits a 10 0 → u.binding e' = s.binding e')) :=
  ends_command ho hu (by
    simp +contextual [ha, h29, hres, hsrc, hk, Nat.not_le.mpr hobj, State.binding, Tbl.rd_wr])

end

/-- An EVBIND of a reserved source is refused. -/
theorem execEvbind_reserved (hsrc : srcReserved (bits a 10 0) = true) :
    Ends (execEvbind n obj ck s) n.val .denied false 0 (fun u => u.dp.bind = s.dp.bind) :=
  ends_command ho hu (by simp [ha, hsrc])

/-- EVCLR clears the pending bit that its argument names and no other. -/
theorem execEvclr_clears (hres : bits a 31 11 = 0) : Ends (execEvclr n obj ck s) n.val .ok false 0 (fun u =>
    u.pending? (bits a 10 0) = false ∧ (∀ e', e' ≠ bits a 10 0 → u.pending? e' = s.pending? e') ∧ u.dp.thr = s.dp.thr) :=
  ends_command ho hu (by simp +contextual [ha, hres, State.pending?_setPend])

/-- EVCLR with a reserved bit of its argument set is refused. -/
theorem execEvclr_reserved (hres : bits a 31 11 ≠ 0) :
    Ends (execEvclr n obj ck s) n.val .denied false 0 (fun u => u.dp.pend = s.dp.pend) :=
  ends_command ho hu (by simp [ha, hres])

end

/-- Source e is bound to thread i. -/
def State.mine (s : State) (i e : Nat) : Bool := s.binding e == .thread (BitVec.ofNat 10 i)

/-- What an EVWAIT of thread i comes to, by the first pending source bound to it. -/
def State.evwaitOut (s : State) (n i b : Nat) : Option Nat → CmdOut
  | some e => .done (s.setPend e false) false (BitVec.ofNat 32 e)
  | none => s.waitOr n i 0x20 .waitEv 0 (tmoOf b)

section
variable {n : Fin 8} {ck : DispCheck} {s : State} (obj : BitVec 10) {b : Nat} {i : Fin 1024}
variable (ho : s.cmdOpen n.val) (hu : dispAny ck = false) (hb : (s.reg .dpCarg1 n.val).toNat = b)
  (hcur : (s.coreSt n.val).cur = some i) (hbad : b ≤ 0x7FFFFFFF ∨ b = 0xFFFFFFFF)
include ho hu hb hcur hbad

theorem execEvwait_ends {st : Status} {ended : Bool} {val : Word} {P : State → Prop}
    (h : ((s.served n.val).evwaitOut n.val i.val b (firstSet (s.mine i.val) s.dp.pend)).Comes (s.served n.val) st ended val P) :
    Ends (execEvwait n obj ck s) n.val st ended val P := by
  refine ends_command ho hu ?_
  simp only [hcur, hb, Option.map_some, State.served_arg1, beq_eq_false_iff_ne.mpr (tmoOf_ne_bad hbad), Bool.false_eq_true, if_false]
  exact h

/-- EVWAIT with a source of the thread's pending takes the first. -/
theorem execEvwait_takes {x : Nat} (hx : firstSet (s.mine i.val) s.dp.pend = some x) :
    Ends (execEvwait n obj ck s) n.val .ok false (BitVec.ofNat 32 x) (fun u => u.pending? x = false ∧ u.dp.thr = s.dp.thr) :=
  execEvwait_ends obj ho hu hb hcur hbad (by simp [hx, State.evwaitOut, State.pending?_setPend])

/-- EVWAIT with none pending waits, when its timeout allows. -/
theorem execEvwait_waits (hx : firstSet (s.mine i.val) s.dp.pend = none) (hne : b ≠ 0) :
    Ends (execEvwait n obj ck s) n.val .ok true 0 (fun u =>
      (u.thr i.val).st = .waitEv ∧ (u.coreSt n.val).cur = none ∧ s.othersKept u n.val i.val) := by
  have hwaits (d : Tmo) := (s.served n.val).beginWait_waitEv n.val i.val 0x20 0 d
  refine execEvwait_ends obj ho hu hb hcur hbad ?_
  rw [hx, State.evwaitOut]
  cases hd : tmoOf b with
  | bad => exact absurd hd (tmoOf_ne_bad hbad)
  | noWait => exact absurd (tmoOf_eq_noWait.mp hd) hne
  | ticks k => exact ⟨rfl, rfl, rfl, hwaits (.ticks k)⟩
  | forever => exact ⟨rfl, rfl, rfl, hwaits .forever⟩

/-- EVWAIT with none pending and no time to wait ends with TIMEOUT. -/
theorem execEvwait_timeout (hx : firstSet (s.mine i.val) s.dp.pend = none) (h0 : b = 0) :
    Ends (execEvwait n obj ck s) n.val .timeout false 0 (fun u => u.dp.thr = s.dp.thr) :=
  execEvwait_ends obj ho hu hb hcur hbad (by
    rw [hx, State.evwaitOut, tmoOf_eq_noWait.mpr h0]
    exact ⟨rfl, rfl, rfl, rfl⟩)

end

/-! ## Pending and delivered (R394, R396) -/

/-- EVENT_PENDING of a source with an assertion due sets its pending bit, and takes out the assertions that are due. -/
theorem execEventPending_sets {e : Fin 2048} {s : State} (h : ∃ c, (e.val, c) ∈ s.dp.asserting ∧ c ≤ s.fc) :
    Goes (execEventPending e s) (fun t => t.pending? e.val = true
      ∧ (∀ x ∈ t.dp.asserting, x ∈ s.dp.asserting ∧ (x.1 = e.val → s.fc < x.2))
      ∧ (∀ e', e' ≠ e.val → t.pending? e' = s.pending? e') ∧ t.regs = s.regs) := by
  obtain ⟨c, hc, hdue⟩ := h
  have hany : s.dp.asserting.any (fun x => x.1 == e.val && decide (x.2 ≤ s.fc)) = true :=
    List.any_eq_true.mpr ⟨_, hc, by simpa using hdue⟩
  rw [execEventPending, if_pos hany]
  refine ⟨_, rfl, by simp [State.pending?_setPend], fun x hx => ?_, fun e' he => ?_, rfl⟩
  · obtain ⟨hmem, hlate⟩ := List.mem_filter.mp hx
    exact ⟨hmem, fun hx => by simpa [hx] using hlate⟩
  · rw [State.pending?_setPend, if_neg he]
    rfl

/-- EVENT_PENDING of a source with no assertion due changes nothing. -/
theorem execEventPending_stays {e : Fin 2048} {s : State} (h : ∀ c, (e.val, c) ∈ s.dp.asserting → s.fc < c) :
    execEventPending e s = .next s := by
  have hany : ¬ s.dp.asserting.any (fun x => x.1 == e.val && decide (x.2 ≤ s.fc)) = true := by
    rw [List.any_eq_true]
    rintro ⟨⟨e', c⟩, hmem, hdue⟩
    simp only [Bool.and_eq_true, beq_iff_eq, decide_eq_true_eq] at hdue
    obtain ⟨rfl, hdue⟩ := hdue
    exact absurd (h c hmem) (by omega)
  rw [execEventPending, if_neg hany]

/-- Source e has been taken for delivery: its pending bit is clear, and it is the one served last. -/
def State.srcTaken (s : State) (e : Nat) : State :=
  { s.setPend e false with dp := { (s.setPend e false).dp with lastSrc := e, lastCmd := false } }

section
variable (s : State) (e : Nat)

@[simp] theorem State.srcTaken_pending? : (s.srcTaken e).pending? e = false :=
  (s.pending?_setPend e e false).trans (if_pos rfl)
@[simp] theorem State.srcTaken_lastSrc : (s.srcTaken e).dp.lastSrc = e := rfl
@[simp] theorem State.srcTaken_thr (i : Nat) : (s.srcTaken e).thr i = s.thr i := rfl

end

/-- What the delivery of source e does by its binding. -/
def State.delivered (s : State) (e : Nat) : Binding → State
  | .group g b => s.egSet g.toNat (BitVec.ofNat 32 (2 ^ b.toNat)) e
  | .thread i => s.makeReady i.toNat 1 (BitVec.ofNat 32 e) e
  | .none => s

theorem State.deliverSrc_eq (s : State) (e : Nat) : s.deliverSrc e = ((s.srcTaken e).delivered e (s.binding e)).passes2 := rfl

/-- Bits set in a group that nobody waits for. -/
theorem State.egSet_no_waiters {s : State} {g : Nat} (h : s.waiters .waitEg g = []) (v : Word) (detail : Nat) :
    s.egSet g v detail = s.setReg .dpEg g (s.reg .dpEg g ||| v) := by
  simp only [State.egSet, h, List.filter_nil, List.foldl_nil, forEach, BitVec.ofNat_eq_ofNat, BitVec.not_zero, BitVec.and_allOnes]

section
variable {e : Fin 2048} {ck : DispCheck} {s : State}

/-- EVENT_DELIVERY out of turn, or while the dispatcher is frozen, changes nothing. -/
theorem execEventDelivery_stays (h : s.frozen = true ∨ (s.dp.tickDue = false ∧ s.nextSource ≠ some e.val)) :
    execEventDelivery e ck s = .next s := by
  rw [execEventDelivery]
  split
  · rfl
  · next hf =>
    obtain ⟨htick, hnext⟩ := h.resolve_left hf
    have hfirst : s.tickFirst = s := by simp [State.tickFirst, htick]
    rw [hfirst, if_pos (by simpa using hnext)]

variable (hf : s.frozen = false) (htick : s.dp.tickDue = false) (hnext : s.nextSource = some e.val)
include hf htick hnext

/-- EVENT_DELIVERY in turn: a check that fails freezes the dispatcher, and otherwise the source is delivered. -/
theorem execEventDelivery_turn :
    execEventDelivery e ck s = .next (if dispAny ck = true then s.dispFault ck else s.deliverSrc e.val) := by
  have hfirst : s.tickFirst = s := by simp [State.tickFirst, htick]
  simp [execEventDelivery, hf, hfirst, hnext]

theorem execEventDelivery_thread {i : BitVec 10} (hu : dispAny ck = false) (hb : s.binding e.val = .thread i) :
    EndsInPasses (execEventDelivery e ck s) (fun u => u.pending? e.val = false
      ∧ u.dp.lastSrc = e.val ∧ (u.thr i.toNat).st = .ready ∧ (u.thr i.toNat).reason = 1
      ∧ (u.thr i.toNat).wval = BitVec.ofNat 32 e.val ∧ (∀ j, j ≠ i.toNat → u.thr j = s.thr j)) := by
  rw [execEventDelivery_turn hf htick hnext, if_neg (by simp [hu]), State.deliverSrc_eq, hb]
  exact ⟨_, rfl, by simp +contextual [State.delivered, State.thr_makeReady, Thread.readied]⟩

theorem execEventDelivery_group {g : BitVec 10} {b : BitVec 5} (hu : dispAny ck = false) (hb : s.binding e.val = .group g b)
    (hw : s.waiters .waitEg g.toNat = []) :
    EndsInPasses (execEventDelivery e ck s) (fun u => u.pending? e.val = false
      ∧ u.reg .dpEg g.toNat = s.reg .dpEg g.toNat ||| BitVec.ofNat 32 (2 ^ b.toNat) ∧ u.dp.thr = s.dp.thr) := by
  rw [execEventDelivery_turn hf htick hnext, if_neg (by simp [hu]), State.deliverSrc_eq, hb,
    State.delivered, State.egSet_no_waiters (s := s.srcTaken e.val) hw]
  exact ⟨_, rfl, s.srcTaken_pending? e.val, State.reg_setReg_same .., rfl⟩

end

/-- Settles O42: each command by its own lemmas; EVWAIT's first source is the lowest, for the pending bits stand in rising order. -/
theorem eventSourcesAreBoundPendingAndDelivered : Obligations.EventSourcesAreBoundPendingAndDelivered := by
  refine ⟨fun e s => ⟨execEventPending_sets, execEventPending_stays⟩, ?_, fun e ck s hf htick hnext => ⟨fun hu => ?_, ?_, ?_⟩,
    fun e ck s => execEventDelivery_stays⟩
  · intro n obj ck s ho hu a e b
    refine ⟨fun h29 hres hsrc => ⟨execEvbind_none obj ho hu rfl h29 hres hsrc, execEvbind_thread obj ho hu rfl h29 hres hsrc,
      execEvbind_free obj ho hu rfl h29 hres hsrc, execEvbind_group obj ho hu rfl h29 hres hsrc⟩,
      execEvbind_reserved obj ho hu rfl, execEvclr_clears obj ho hu rfl, execEvclr_reserved obj ho hu rfl, fun i hcur hr hbad => ?_⟩
    intro mine
    have hmine (x : Nat) : mine x ↔ s.dp.pend.rd x false = true ∧ s.mine i.val x = true := by
      simp only [mine, State.mine, State.pending?, beq_iff_eq]
    have hnone (h : ∀ x, ¬ mine x) : firstSet (s.mine i.val) s.dp.pend = none :=
      firstSet_eq_none hr (fun y hy => h y ((hmine y).mpr hy))
    exact ⟨fun x hx hmin => execEvwait_takes obj ho hu rfl hcur hbad
        (firstSet_eq_some hr ((hmine x).mp hx) (fun y hy h => hmin y hy ((hmine y).mpr h))),
      fun h => execEvwait_waits obj ho hu rfl hcur hbad (hnone h), fun h => execEvwait_timeout obj ho hu rfl hcur hbad (hnone h)⟩
  · refine ⟨_, (execEventDelivery_turn hf htick hnext).trans (by rw [if_pos hu]), s.dispFault_freezes ck⟩
  · exact fun i => execEventDelivery_thread hf htick hnext
  · exact fun g b => execEventDelivery_group hf htick hnext

end Sys2Proof.Machine
end

section
/-! SUPPORT. Cells freed one of each chain at a time (R180, R191), and one word of a cell through the direct window (R200). -/

namespace Sys2Proof.Machine

@[simp] theorem forEach_nil {α : Type} (s : State) (f : α → State → State) : forEach [] s f = s := rfl

/-! ## Freeing (R175, R191) -/

@[simp] theorem State.signalVec_frame (s : State) (fn v : Nat) :
    (s.signalVec fn v).cx = s.cx ∧ (s.signalVec fn v).fc = s.fc := by
  unfold State.signalVec
  split <;> simp

/-- The fill event moves nothing of the cell exchange but its judgement of the fill. -/
@[simp] theorem State.noteFill_frame (s : State) :
    s.noteFill.cx.link = s.cx.link ∧ s.noteFill.cx.words = s.cx.words ∧ s.noteFill.cx.inp = s.cx.inp ∧ s.noteFill.cx.outp = s.cx.outp
    ∧ s.noteFill.cx.tfree = s.cx.tfree ∧ s.noteFill.fc = s.fc := by
  unfold State.noteFill
  dsimp only
  split
  · split
    · simp [State.judgeFill]
    · split <;> simp [State.judgeFill]
  · simp [State.judgeFill]

@[simp] theorem State.freeCell_frame (s : State) (h : Handle) :
    (s.freeCell h).cx.words = s.cx.words ∧ (s.freeCell h).cx.inp = s.cx.inp ∧ (s.freeCell h).cx.outp = s.cx.outp
    ∧ (s.freeCell h).cx.tfree = s.cx.tfree ∧ (s.freeCell h).fc = s.fc := by
  simp [State.freeCell, State.setLink]

theorem State.link_freeCell (s : State) (h h' : Handle) :
    (s.freeCell h).link h' = if h' = h then ⟨.free, (s.link h).owner, none, 0, s.fc + 1⟩ else s.link h' := by
  have hread : (s.freeCell h).link h' = (s.setLink h ⟨.free, (s.link h).owner, none, 0, s.fc + 1⟩).link h' := by
    simp [State.freeCell, State.link]
  rw [hread, State.setLink, State.link, Tbl.rd_wr]
  simp only [BitVec.toNat_inj]
  rfl

/-- Cells freed together. -/
def State.freeCells (s : State) (l : List Handle) : State := forEach l s (fun h s => s.freeCell h)

@[simp] theorem State.freeCells_frame (s : State) (l : List Handle) :
    (s.freeCells l).cx.words = s.cx.words ∧ (s.freeCells l).cx.inp = s.cx.inp ∧ (s.freeCells l).cx.outp = s.cx.outp
    ∧ (s.freeCells l).cx.tfree = s.cx.tfree :=
  ⟨forEach_keeps (·.cx.words) l s _ (by simp), forEach_keeps (·.cx.inp) l s _ (by simp), forEach_keeps (·.cx.outp) l s _ (by simp),
    forEach_keeps (·.cx.tfree) l s _ (by simp)⟩

/-- Each cell freed is FREE and keeps its owner, however often it is named; every other cell stays. -/
theorem State.link_freeCells (s : State) (l : List Handle) (h : Handle) :
    (s.freeCells l).link h = if h ∈ l then ⟨.free, (s.link h).owner, none, 0, s.fc + 1⟩ else s.link h := by
  induction l generalizing s with
  | nil => rfl
  | cons a r ih =>
    have hstep : (s.freeCells (a :: r)).link h = ((s.freeCell a).freeCells r).link h := rfl
    rw [hstep, ih, State.link_freeCell]
    by_cases ha : h = a <;> simp [ha]

/-- The cells freed in an fc are the first ones of the chains that are due. -/
theorem mem_freeNow {fc : Nat} {l : List (List Handle × Nat)} {h : Handle} :
    h ∈ (freeNow fc l).1 ↔ ∃ c ∈ l, c.2 ≤ fc ∧ c.1.head? = some h := by
  simp only [freeNow, List.mem_filterMap, Option.ite_none_right_eq_some]

/-- What CHAIN_FREE does to the link RAM, from a state that has put its chains forward. -/
theorem State.freeNow_link {s u : State} (l : List (List Handle × Nat)) (hl : u.cx.link = s.cx.link) (hfc : u.fc = s.fc) :
    let t := u.freeCells (freeNow s.fc l).1
    (∀ c ∈ l, c.2 ≤ s.fc → ∀ h, c.1.head? = some h → t.link h = ⟨.free, (s.link h).owner, none, 0, s.fc + 1⟩)
    ∧ ∀ h, (∀ c ∈ l, c.2 ≤ s.fc → c.1.head? ≠ some h) → t.link h = s.link h := by
  have hlink (h : Handle) : u.link h = s.link h := by rw [State.link, hl, State.link]
  refine ⟨fun c hc hdue h hh => ?_, fun h hno => ?_⟩
  · rw [State.link_freeCells, if_pos (mem_freeNow.mpr ⟨c, hc, hdue, hh⟩), hlink, hfc]
  · rw [State.link_freeCells, if_neg, hlink]
    rintro hmem
    obtain ⟨c, hc, hdue, hh⟩ := mem_freeNow.mp hmem
    exact hno c hc hdue hh

theorem execChainFree_cellIn (p : Fin 128) (s : State) : let l := (s.cin p.val).freeing
    Goes (execChainFree (.cellIn p) s) (fun t =>
      (∀ c ∈ l, c.2 ≤ s.fc → ∀ h, c.1.head? = some h → t.link h = ⟨.free, (s.link h).owner, none, 0, s.fc + 1⟩)
      ∧ (∀ h, (∀ c ∈ l, c.2 ≤ s.fc → c.1.head? ≠ some h) → t.link h = s.link h)
      ∧ (t.cin p.val).freeing = (l.map (fun c => if c.2 ≤ s.fc then (c.1.drop 1, s.fc + 1) else c)).filter (fun c => !c.1.isEmpty)
      ∧ t.cx.words = s.cx.words) := by
  intro l
  let u := s.setCin p.val { s.cin p.val with freeing := (freeNow s.fc l).2 }
  obtain ⟨hfreed, hkept⟩ := State.freeNow_link (s := s) (u := u) l rfl rfl
  refine ⟨u.freeCells (freeNow s.fc l).1, rfl, hfreed, hkept, ?_, by simp [u, State.setCin]⟩
  have hin : (u.freeCells (freeNow s.fc l).1).cin p.val = { s.cin p.val with freeing := (freeNow s.fc l).2 } := by
    simp [State.cin, u, State.setCin]
  rw [hin, freeNow]

theorem execChainFree_cellOut (p : Fin 128) (s : State) : let l := (s.cout p.val).freeing
    Goes (execChainFree (.cellOut p) s) (fun t =>
      (∀ c ∈ l, c.2 ≤ s.fc → ∀ h, c.1.head? = some h → t.link h = ⟨.free, (s.link h).owner, none, 0, s.fc + 1⟩)
      ∧ (∀ h, (∀ c ∈ l, c.2 ≤ s.fc → c.1.head? ≠ some h) → t.link h = s.link h)
      ∧ (t.cout p.val).freeing = (l.map (fun c => if c.2 ≤ s.fc then (c.1.drop 1, s.fc + 1) else c)).filter (fun c => !c.1.isEmpty)
      ∧ t.cx.words = s.cx.words) := by
  intro l
  let u := s.setCout p.val { s.cout p.val with freeing := (freeNow s.fc l).2 }
  obtain ⟨hfreed, hkept⟩ := State.freeNow_link (s := s) (u := u) l rfl rfl
  refine ⟨u.freeCells (freeNow s.fc l).1, rfl, hfreed, hkept, ?_, by simp [u, State.setCout]⟩
  have hout : (u.freeCells (freeNow s.fc l).1).cout p.val = { s.cout p.val with freeing := (freeNow s.fc l).2 } := by
    simp [State.cout, u, State.setCout]
  rw [hout, freeNow]

theorem bankOf_lt (h : Handle) : bankOf h < 16 := by
  have := h.isLt
  unfold bankOf
  omega

/-- Of the cells that a tenant under reset has in line, each bank that has not freed one in this fc frees its first. -/
def firstPerBank (s : State) (n : Nat) : List Handle :=
  ((List.range 16).filter (fun b => !(s.cx.link.any (fun e => e.1 / 65536 == b && e.2.owner.toNat == n && e.2.freed == s.fc + 1)))).filterMap
    (fun b => ((s.cx.tfree.rd n []).filter (fun h => bankOf h == b)).head?)

/-- A cell alone in line is freed, when its bank has freed none in this fc. -/
theorem firstPerBank_alone {s : State} {n : Nat} {h : Handle} (hl : s.cx.tfree.rd n [] = [h])
    (hb : s.cx.link.any (fun e => e.1 / 65536 == bankOf h && e.2.owner.toNat == n && e.2.freed == s.fc + 1) = false) (h' : Handle) :
    h' ∈ firstPerBank s n ↔ h' = h := by
  simp only [firstPerBank, hl, List.mem_filterMap, List.mem_filter, List.mem_range]
  constructor
  · rintro ⟨b, -, hb'⟩
    by_cases e : bankOf h = b <;> simp_all
  · rintro rfl
    exact ⟨bankOf h', ⟨bankOf_lt h', by rw [hb]; rfl⟩, by simp⟩

theorem execChainFree_tenant (n : Fin 512) (s : State) (h : Handle) (hl : s.cx.tfree.rd n.val [] = [h])
    (hb : s.cx.link.any (fun e => e.1 / 65536 == bankOf h && e.2.owner.toNat == n.val && e.2.freed == s.fc + 1) = false) :
    Goes (execChainFree (.tenant n) s) (fun t => t.link h = ⟨.free, (s.link h).owner, none, 0, s.fc + 1⟩
      ∧ t.cx.tfree.rd n.val [] = [] ∧ (∀ h', h' ≠ h → t.link h' = s.link h')) := by
  have hmem := firstPerBank_alone hl hb
  let u : State := { s with cx := { s.cx with
    tfree := s.cx.tfree.wr n.val [] ((s.cx.tfree.rd n.val []).filter (fun h => !(firstPerBank s n.val).contains h)) } }
  have hlink (h' : Handle) : (u.freeCells (firstPerBank s n.val)).link h'
      = if h' = h then ⟨.free, (s.link h').owner, none, 0, s.fc + 1⟩ else s.link h' := by
    rw [State.link_freeCells]
    simp only [hmem]
    rfl
  refine ⟨u.freeCells (firstPerBank s n.val), rfl, by simp [hlink], ?_, fun h' hne => by simp [hlink, hne]⟩
  have hrest : u.cx.tfree.rd n.val [] = [] := by simp [u, hl, hmem]
  simpa using hrest

/-! ## Bytes of a cell (R6, R174) -/

/-- A field of a word of w bits is read the same from the number the word was given. -/
theorem bits_toNat_ofNat (w v : Nat) {hi : Nat} (lo : Nat) (h : hi < w) : bits (BitVec.ofNat w v).toNat hi lo = bits v hi lo := by
  apply Nat.eq_of_testBit_eq
  intro k
  rw [testBit_bits, testBit_bits, BitVec.toNat_ofNat, Nat.testBit_mod_two_pow]
  by_cases hk : k < hi + 1 - lo
  · simp [show lo + k < w by omega]
  · simp [hk]

/-- A byte set is read back, and every other byte of every cell stays. -/
theorem State.cellByte_setCellByte (s : State) (c c' : Nat) {k k' : Nat} (v : Byte) (hk : k < 192) (hk' : k' < 192) :
    (s.setCellByte c k v).cellByte c' k' = if c' = c ∧ k' = k then v else s.cellByte c' k' := by
  simp only [State.cellByte, State.setCellByte, Tbl.rd_up]
  by_cases hw : 64 * c' + k' / 3 = 64 * c + k / 3
  · obtain rfl : c' = c := by omega
    rw [if_pos hw, bits_toNat_ofNat 24 _ _ (by omega)]
    by_cases hkk : k' = k
    · subst hkk
      have hwidth : 23 - 8 * (k' % 3) + 1 - (16 - 8 * (k' % 3)) = 8 := by omega
      rw [if_pos ⟨rfl, rfl⟩, bits_setBits, hwidth, Nat.mod_eq_of_lt v.isLt, BitVec.ofNat_toNat, BitVec.setWidth_eq]
    · rw [if_neg (by simp [hkk]), bits_setBits_disjoint _ _ (by omega), hw]
  · rw [if_neg hw, if_neg (by rintro ⟨rfl, rfl⟩; exact hw rfl)]

@[simp] theorem State.setCellByte_frame (s : State) (c k : Nat) (v : Byte) :
    (s.setCellByte c k v).cx.link = s.cx.link ∧ (s.setCellByte c k v).regs = s.regs :=
  ⟨rfl, rfl⟩

/-- The four bytes of a word written into a cell from byte k on, the least significant first. -/
def State.setCellWord (s : State) (c k : Nat) (w : Word) : State :=
  (((s.setCellByte c k (BitVec.ofNat 8 w.toNat)).setCellByte c (k + 1) (BitVec.ofNat 8 (w.toNat / 256))).setCellByte c (k + 2)
    (BitVec.ofNat 8 (w.toNat / 256 / 256))).setCellByte c (k + 3) (BitVec.ofNat 8 (w.toNat / 256 / 256 / 256))

/-- A word written is read back byte by byte. -/
theorem State.cellByte_setCellWord_same (s : State) (c : Nat) {k i : Nat} (w : Word) (hk : k + 4 ≤ 192) (hi : i < 4) :
    (s.setCellWord c k w).cellByte c (k + i) = BitVec.ofNat 8 (w.toNat / 256 ^ i) := by
  unfold State.setCellWord
  interval_cases i <;>
    simp [State.cellByte_setCellByte, show k < 192 by omega, show k + 1 < 192 by omega, show k + 2 < 192 by omega,
      show k + 3 < 192 by omega, Nat.div_div_eq_div_mul]

/-- A word written leaves every byte outside it. -/
theorem State.cellByte_setCellWord_other (s : State) (c c' : Nat) {k k' : Nat} (w : Word) (hk : k + 4 ≤ 192) (hk' : k' < 192)
    (h : c' ≠ c ∨ (k' < k ∨ k + 4 ≤ k')) : (s.setCellWord c k w).cellByte c' k' = s.cellByte c' k' := by
  unfold State.setCellWord
  rw [State.cellByte_setCellByte _ _ _ _ (by omega) hk', if_neg (by omega), State.cellByte_setCellByte _ _ _ _ (by omega) hk',
    if_neg (by omega), State.cellByte_setCellByte _ _ _ _ (by omega) hk', if_neg (by omega),
    State.cellByte_setCellByte _ _ _ _ (by omega) hk', if_neg (by omega)]

@[simp] theorem State.setCellWord_frame (s : State) (c k : Nat) (w : Word) :
    (s.setCellWord c k w).cx.link = s.cx.link ∧ (s.setCellWord c k w).regs = s.regs := by
  simp [State.setCellWord]

/-- Bytes written into the window from offset a on. -/
def State.setWindow (s : State) (a : Nat) (l : List Byte) : State :=
  forEach l.zipIdx s (fun e u => u.setCellByte ((a + e.2) / 192) ((a + e.2) % 192) e.1)

@[simp] theorem State.setWindow_frame (s : State) (a : Nat) (l : List Byte) :
    (s.setWindow a l).cx.link = s.cx.link ∧ (s.setWindow a l).regs = s.regs :=
  ⟨forEach_keeps (·.cx.link) _ s _ (by simp), forEach_keeps (·.regs) _ s _ (by simp)⟩

/-- The bytes of a word that lies in one cell. -/
theorem State.setWindow_word (s : State) {a : Nat} (w : Word) (hin : a % 192 + 4 ≤ 192) :
    s.setWindow a ((wordsBytes [w]).take 4) = s.setCellWord (a / 192) (a % 192) w := by
  have hplace (i : Nat) (hi : i < 4) : (a + i) / 192 = a / 192 ∧ (a + i) % 192 = a % 192 + i := by omega
  simp [State.setWindow, wordsBytes, toLE, forEach, State.setCellWord, hplace]

/-! ## One word through the window (R200) -/

/-- An aligned word lies in one unit of one cell. -/
theorem unitsOf_word {a : Nat} (h : a % 4 = 0) : unitsOf a (a + 3) = [(a / 192, a % 192 / 8)] := by
  have h1 : (a + 3) / 8 + 1 - a / 8 = 1 := by omega
  have h2 : a / 8 / 24 = a / 192 := by omega
  have h3 : a / 8 % 24 = a % 192 / 8 := by omega
  simp [unitsOf, h1, h2, h3]

/-- Four bytes are one word. -/
theorem bytesWords_four (f : Nat → Byte) :
    bytesWords ((List.range 4).map f) = [BitVec.ofNat 32 (bytesLE ((List.range 4).map f))] := rfl

/-- The state with the correction of unit j counted, where the ECC made one (R196). -/
def State.corrected (s : State) (x : UnitHealth) (j : Nat) : State :=
  s.count .cxEcc 0 31 16 (b2n (x.corrected.any (fun k => k.val == j)))

@[simp] theorem State.corrected_frame (s : State) (x : UnitHealth) (j : Nat) :
    (s.corrected x j).cx = s.cx ∧ (s.corrected x j).answer = s.answer := by
  simp [State.corrected]

theorem State.corrected_cellByte (s : State) (x : UnitHealth) (j c k : Nat) : (s.corrected x j).cellByte c k = s.cellByte c k := by
  simp [State.cellByte]

theorem State.ans_cellByte (s : State) (st : Status) (ws : List Word) (c k : Nat) : (s.ans st ws).cellByte c k = s.cellByte c k := rfl

/-- A correction is counted in CX_ECC, and no other field or register changes. -/
theorem State.corrected_regs (s : State) (x : UnitHealth) (j : Nat) :
    (s.corrected x j).fld .cxEcc 0 31 16 = satAdd 16 (s.fld .cxEcc 0 31 16) (b2n (x.corrected.any (fun k => k.val == j)))
    ∧ (s.corrected x j).fld .cxEcc 0 15 0 = s.fld .cxEcc 0 15 0
    ∧ ∀ n i, n ≠ RegName.cxEcc → (s.corrected x j).reg n i = s.reg n i :=
  ⟨s.fld_count _ (by decide), s.fld_count_apart _ (by decide) (.inl (by decide)), fun n i hn => s.reg_count_name _ hn⟩

section
variable {s : State} {tag : Tag} {write : Bool} {a : Nat} {data : List Word} {x : UnitHealth}
variable (hal : a % 4 = 0) (hin : a % 192 + 4 ≤ 192) (hr : a + 4 ≤ 192 * 1048576)
include hal hin hr

/-- A closed or unpowered bank answers FENCED, with a zero for a read. -/
theorem direct_shut (h : s.bankShut (a / 192) = true) :
    s.direct tag write a 4 data x = s.ans .fenced (List.replicate (if write then 0 else 1) 0) := by
  simp [State.direct, show (a + 3) / 192 = a / 192 by omega, show ¬ 192 * 1048576 ≤ a + 3 by omega, h]

/-- A cell that is free or another's answers BARK, with a zero for a read, and raises one alarm. -/
theorem direct_bark (h : s.bankShut (a / 192) = false) (hreach : s.reaches tag (a / 192) = false) :
    s.direct tag write a 4 data x = s.barkAns (if write then 0 else 1) := by
  simp [State.direct, show (a + 3) / 192 = a / 192 by omega, show ¬ 192 * 1048576 ≤ a + 3 by omega, h, hreach]

/-- An access of a word of one's own cell, with its unit good or corrected. -/
theorem direct_reaches (h : s.bankShut (a / 192) = false) (hreach : s.reaches tag (a / 192) = true)
    (hx : x.bad = []) (hbad : s.badUnits (BitVec.ofNat 20 (a / 192)) [] = []) :
    let u := s.corrected x (a % 192 / 8)
    s.direct tag write a 4 data x = if write
      then (u.setWindow a ((wordsBytes data).take 4)).ans .ok []
      else u.ans .ok (bytesWords ((List.range 4).map (fun i => u.cellByte ((a + i) / 192) ((a + i) % 192)))) := by
  have hend : (a + 3) / 192 = a / 192 := by omega
  have hrange : ¬ 192 * 1048576 ≤ a + 3 := by omega
  have hpart : ¬ a ≤ 192 * (a / 192) + 8 * (a % 192 / 8) ∨ ¬ 192 * (a / 192) + 8 * (a % 192 / 8) + 4 ≤ a := by omega
  have hfix : s.count .cxEcc 0 31 16 (if ∃ k ∈ x.corrected, k.val = a % 192 / 8 then [(a / 192, a % 192 / 8)] else []).length
      = s.corrected x (a % 192 / 8) := by
    by_cases hc : ∃ k ∈ x.corrected, k.val = a % 192 / 8 <;> simp [State.corrected, b2n, hc]
  rcases hpart with hp | hp <;>
    simp [State.direct, hend, hrange, h, hreach, unitsOf_word hal, hx, hbad, hp, List.filter_cons, hfix, State.setWindow]

/-- A read of one's own cell returns its bytes. -/
theorem direct_read (h : s.bankShut (a / 192) = false) (hreach : s.reaches tag (a / 192) = true)
    (hx : x.bad = []) (hbad : s.badUnits (BitVec.ofNat 20 (a / 192)) [] = []) :
    s.direct tag false a 4 data x = (s.corrected x (a % 192 / 8)).ans .ok
      [BitVec.ofNat 32 (bytesLE ((List.range 4).map (fun i => s.cellByte (a / 192) (a % 192 + i))))] := by
  have hbytes : (List.range 4).map (fun i => (s.corrected x (a % 192 / 8)).cellByte ((a + i) / 192) ((a + i) % 192))
      = (List.range 4).map (fun i => s.cellByte (a / 192) (a % 192 + i)) := by
    refine List.map_congr_left (fun i hi => ?_)
    have hi : i < 4 := List.mem_range.mp hi
    rw [show (a + i) / 192 = a / 192 by omega, show (a + i) % 192 = a % 192 + i by omega, State.corrected_cellByte]
  rw [direct_reaches hal hin hr h hreach hx hbad, if_neg (by decide), hbytes, bytesWords_four]

end

/-- Settles O14: freeing goes through the link RAM cell by cell, and an aligned word lies in one unit of one cell. -/
theorem cellsAreFreedAndReachedByTheirOwner : Obligations.CellsAreFreedAndReachedByTheirOwner := by
  refine ⟨⟨execChainFree_cellIn, execChainFree_cellOut, execChainFree_tenant⟩, ?_⟩
  intro p a x s c hlen hal hin hr hx
  have hdirect (hheld : s.directHeld a.addr 4 = none) :
      exec (.directWindowAccess p a x) s = .next (s.direct p.tag a.write a.addr 4 a.data x) := by
    change Host.Outcome.next (s.directBy p a x false) = _
    rw [State.directBy, hlen, hheld, if_neg (by simp)]
  refine ⟨fun hheld => ?_, fun hheld => ⟨fun hshut => ?_, fun hshut hreach => ?_, fun hshut hreach hbad => ?_⟩⟩
  · refine ⟨{ s with nc := { s.nc with directs := s.nc.directs ++ [⟨p, a, x, false⟩] } }, ?_, rfl, rfl, rfl⟩
    change Host.Outcome.next (s.directBy p a x false) = _
    rw [State.directBy, hlen, if_pos hheld]
  · rw [hdirect hheld, direct_shut hal hin hr hshut]
  · rw [hdirect hheld, direct_bark hal hin hr hshut hreach]
  rw [hdirect hheld]
  obtain ⟨hfix, hother, hregs⟩ := s.corrected_regs x (a.addr % 192 / 8)
  have hkeep {t : State} (ht : t.regs = (s.corrected x (a.addr % 192 / 8)).regs) :
      t.fld .cxEcc 0 31 16 = satAdd 16 (s.fld .cxEcc 0 31 16) (b2n (x.corrected.any (fun j => j.val == a.addr % 192 / 8)))
      ∧ t.fld .cxEcc 0 15 0 = s.fld .cxEcc 0 15 0 ∧ ∀ n i, n ≠ RegName.cxEcc → t.reg n i = s.reg n i :=
    ⟨(State.fld_congr ht ..).trans hfix, (State.fld_congr ht ..).trans hother, fun n i hn => (State.reg_congr ht ..).trans (hregs n i hn)⟩
  cases hw : a.write with
  | false =>
    obtain ⟨hup, hlow, hrest⟩ := hkeep (t := (s.corrected x (a.addr % 192 / 8)).ans .ok
      [BitVec.ofNat 32 (bytesLE ((List.range 4).map (fun i => s.cellByte (a.addr / 192) (a.addr % 192 + i))))]) (by simp)
    rw [direct_read hal hin hr hshut hreach hx hbad]
    exact ⟨_, rfl, by simp, hup, hlow, hrest, fun _ => ⟨by simp, by simp [c]⟩, fun h => absurd h (by decide)⟩
  | true =>
    obtain ⟨hup, hlow, hrest⟩ := hkeep (t := ((s.corrected x (a.addr % 192 / 8)).setWindow a.addr ((wordsBytes a.data).take 4)).ans .ok [])
      (by simp)
    rw [direct_reaches hal hin hr hshut hreach hx hbad, if_pos rfl]
    refine ⟨_, rfl, by simp, hup, hlow, hrest, fun h => absurd h (by decide), fun _ w hdata => ?_⟩
    rw [hdata, State.setWindow_word _ _ hin]
    refine ⟨rfl, fun i hi => ?_, fun c' k hk hout => ?_⟩
    · rw [State.ans_cellByte, State.cellByte_setCellWord_same _ _ _ hin hi]
    · rw [State.ans_cellByte, State.cellByte_setCellWord_other _ _ _ _ hin hk hout, State.corrected_cellByte]

end Sys2Proof.Machine
end

section
/-! SUPPORT. What a canopy core's access reaches (R25, R26, R376-R380): the exceptions it takes, canopy SRAM, and the device regions. -/

namespace Sys2Proof.Machine

/-! ## Control and status registers (R376) -/

theorem State.csrRaw_setCsr (s : State) (n c c' v : Nat) :
    (s.setCsr n c v).csrRaw n c' = if c' = c then v % 2 ^ 64 else s.csrRaw n c' := by
  have hkey : csrKey n c' = csrKey n c ↔ c' = c := by simp [csrKey]
  simp only [State.csrRaw, State.setCsr, Tbl.rd_wr, hkey]
  split
  · exact BitVec.toNat_ofNat _ _
  · rfl

/-- A core's CSRs are a part of the dispatcher's block, apart from the rest. -/
@[simp] theorem State.setCsr_frame (s : State) (n c v : Nat) :
    (s.setCsr n c v).regs = s.regs ∧ (s.setCsr n c v).nc = s.nc ∧ (s.setCsr n c v).dp.csram = s.dp.csram
    ∧ (s.setCsr n c v).dp.busq = s.dp.busq ∧ (s.setCsr n c v).dp.umode = s.dp.umode :=
  ⟨rfl, rfl, rfl, rfl, rfl⟩

/-- A core has taken an exception: its cause, the place it was raised at and the mode it goes to; nothing outside the core has changed. -/
def State.Trapped (s t : State) (n pc cause : Nat) : Prop :=
  t.csrRaw n 0x342 = cause ∧ t.inU n = false ∧ t.csrRaw n 0x341 = pc / 2 * 2 ∧ t.regs = s.regs ∧ t.nc = s.nc
  ∧ t.dp.csram = s.dp.csram ∧ t.dp.busq = s.dp.busq

/-- An exception writes mstatus, mepc, mcause and mtval, sets the mode, and shows on the line where the core goes on. -/
theorem State.coreTrap_eq (s : State) (n cause tval pc : Nat) : ∃ m dest, s.coreTrap n cause tval pc =
    { ((((s.setCsr n 0x300 m).setCsr n 0x341 (setBits pc 0 0 0)).setCsr n 0x342 cause).setCsr n 0x343 tval).setMode n false with
      line := [dest] } :=
  ⟨_, _, rfl⟩

theorem State.coreTrap_trapped (s : State) (n : Nat) {cause pc : Nat} (tval : Nat) (hc : cause < 2 ^ 64) (hpc : pc < 2 ^ 64) :
    s.Trapped (s.coreTrap n cause tval pc) n pc cause := by
  have heven : setBits pc 0 0 0 = pc / 2 * 2 := by
    simp [setBits, bits]
    omega
  obtain ⟨m, dest, htrap⟩ := s.coreTrap_eq n cause tval pc
  rw [htrap, heven]
  have hraw (u : State) (c : Nat) : State.csrRaw { u.setMode n false with line := [dest] } n c = u.csrRaw n c := rfl
  refine ⟨?_, by simp [State.inU, State.setMode], ?_, by simp [State.setMode], by simp [State.setMode], by simp [State.setMode],
    by simp [State.setMode]⟩
  · rw [hraw, State.csrRaw_setCsr, if_neg (by decide), State.csrRaw_setCsr, if_pos rfl, Nat.mod_eq_of_lt hc]
  · rw [hraw, State.csrRaw_setCsr, if_neg (by decide), State.csrRaw_setCsr, if_neg (by decide), State.csrRaw_setCsr, if_pos rfl,
      Nat.mod_eq_of_lt (by omega)]

/-- The state in which a core acts: the instructions it retired are counted. -/
def State.retired (s : State) (n k : Nat) : State := s.setCsr n 0xB02 (s.csrRaw n 0xB02 + k)

theorem exec_coreBusAccess (n : Fin 8) (c : CoreAt) (op : CoreOp) (a : Access) (x : UnitHealth) {s : State} (h : s.dp.coresHeld = false) :
    exec (.coreBusAccess n c op a x) s = .next ((s.retired n.val c.retired).coreDoes n c.pc.toNat op a x) := by
  change execCoreBusAccess n c op a x s = _
  rw [execCoreBusAccess, h]
  rfl

theorem firstSome_congr {α β : Type} {f g : α → Option β} {l : List α} (h : ∀ a ∈ l, f a = g a) : firstSome f l = firstSome g l := by
  induction l with
  | nil => rfl
  | cons a r ih =>
    rw [firstSome, firstSome, h a List.mem_cons_self, ih (fun b hb => h b (List.mem_cons_of_mem _ hb))]

/-- The count of retired instructions takes no part in the protection of memory. -/
theorem State.retired_pmpOk (s : State) (n k x len : Nat) (write : Bool) : (s.retired n k).pmpOk n x len write = s.pmpOk n x len write := by
  have hraw {c : Nat} (h : c ≠ 0xB02) : (s.retired n k).csrRaw n c = s.csrRaw n c := by
    rw [State.retired, State.csrRaw_setCsr, if_neg h]
  have hu : (s.retired n k).inU n = s.inU n := rfl
  have hcfg (i : Nat) : (s.retired n k).pmpCfg n i = s.pmpCfg n i := by
    rw [State.pmpCfg, hraw (by split <;> decide), State.pmpCfg]
  have hrange (i : Nat) (hi : i < 16) : (s.retired n k).pmpRange n i = s.pmpRange n i := by
    have haddr (j : Nat) (hj : j < 16) : (s.retired n k).pmpAddr n j = s.pmpAddr n j := by
      rw [State.pmpAddr, hraw (by omega), State.pmpAddr]
    rw [State.pmpRange, State.pmpRange, hcfg, haddr i hi, haddr (i - 1) (by omega)]
  rw [State.pmpOk, State.pmpOk, hraw (by decide), hu]
  simp only [State.pmpLocked, hcfg]
  rw [firstSome_congr (fun i hi => by rw [hrange i (List.mem_range.mp hi)])]

/-! ## The exceptions of an access (R376, R378) -/

section
variable {s : State} {n : Nat} {a : Access}

theorem busTrap_misaligned (h : a.addr % a.len ≠ 0) : s.busTrap n .plain a = some (if a.write then 6 else 4) := by
  simp [State.busTrap, h]

theorem busTrap_protected (hal : a.addr % a.len = 0) (h : s.pmpOk n a.addr a.len a.write = false) :
    s.busTrap n .plain a = some (if a.write then 7 else 5) := by
  have hplain : (CoreOp.plain == CoreOp.sc) = false := rfl
  simp [State.busTrap, hal, h, hplain]

theorem busTrap_amo_outside (f : AmoFn) (hal : a.addr % a.len = 0) (h : coreMem a.addr = none) :
    s.busTrap n (.amo f) a = some 7 := by
  simp [State.busTrap, hal, h]

theorem busTrap_none {op : CoreOp} (hal : a.addr % a.len = 0) (hpmp : ∀ w, s.pmpOk n a.addr a.len w = true)
    (h : op = .plain ∨ ((coreMem a.addr).isSome = true ∧ 4 ≤ a.len)) : s.busTrap n op a = none := by
  have hatomic : (op != .plain && ((coreMem a.addr).isNone || decide (a.len < 4))) = false := by
    rcases h with rfl | ⟨hmem, hlen⟩
    · rfl
    · simp [Option.isNone_eq_false_iff.mpr hmem, hlen]
  simp only [State.busTrap, hal, hpmp, hatomic, bne_self_eq_false, Bool.not_true, Bool.false_eq_true, if_false]

end

/-! ## Canopy SRAM by words (R25, R377, R378) -/

theorem bytesLE_toLE (k n : Nat) : bytesLE (toLE k n) = n % 256 ^ k := by
  induction k generalizing n with
  | zero => simp [toLE, bytesLE, Nat.mod_one]
  | succ k ih =>
    have h8 : 2 ^ 8 = 256 := rfl
    rw [toLE, bytesLE, ih, BitVec.toNat_ofNat, h8, Nat.pow_succ', Nat.mod_mul]

theorem bytesLE_word (w : Word) : bytesLE (toLE 4 w.toNat) = w.toNat := by
  rw [bytesLE_toLE, Nat.mod_eq_of_lt (show w.toNat < 256 ^ 4 from w.isLt)]

theorem bytesWords_toLE (w : Word) : bytesWords (toLE 4 w.toNat) = [w] := by
  have h : bytesWords (toLE 4 w.toNat) = [BitVec.ofNat 32 (bytesLE (toLE 4 w.toNat))] := rfl
  rw [h, bytesLE_word, BitVec.ofNat_toNat, BitVec.setWidth_eq]

theorem accBytes_word {a : Access} {w : Word} (hlen : a.len = 4) (hd : a.data = [w]) : accBytes a = toLE 4 w.toNat := by
  simp [accBytes, hlen, hd, wordsBytes, toLE]

theorem State.sramBytes_word (s : State) (k : Nat) : s.sramBytes (4 * k) 4 = toLE 4 (s.dp.csram.rd k 0).toNat := by
  have hbyte (i : Nat) (hi : i < 4) : s.sramByte (4 * k + i) = BitVec.ofNat 8 ((s.dp.csram.rd k 0).toNat / 2 ^ (8 * i)) := by
    rw [State.sramByte, show (4 * k + i) / 4 = k by omega, show (4 * k + i) % 4 = i by omega]
  have hrange : List.range 4 = [0, 1, 2, 3] := rfl
  simp [State.sramBytes, hrange, hbyte, toLE, Nat.div_div_eq_div_mul]
  simpa using hbyte 0 (by decide)

/-- A word with byte i set. -/
def setWordByte (i : Nat) (b : Byte) (w : Word) : Word := BitVec.ofNat 32 (setBits w.toNat (8 * i + 7) (8 * i) b.toNat)

theorem testBit_setWordByte (i : Nat) (b : Byte) (w : Word) {j : Nat} (hj : j < 32) :
    (setWordByte i b w).toNat.testBit j = if 8 * i ≤ j ∧ j < 8 * i + 8 then b.toNat.testBit (j - 8 * i) else w.toNat.testBit j := by
  have hwidth : 8 * i + (8 * i + 7 + 1 - 8 * i) = 8 * i + 8 := by omega
  rw [setWordByte, BitVec.toNat_ofNat, Nat.testBit_mod_two_pow, testBit_setBits, hwidth, decide_eq_true hj, Bool.true_and]

/-- A bit of a number is a bit of the byte that it lies in. -/
theorem testBit_byte (n i : Nat) {j : Nat} (h : 8 * i ≤ j ∧ j < 8 * i + 8) :
    (BitVec.ofNat 8 (n / 2 ^ (8 * i))).toNat.testBit (j - 8 * i) = n.testBit j := by
  have hplace : j - 8 * i + 8 * i = j := by omega
  rw [BitVec.toNat_ofNat, Nat.testBit_mod_two_pow, Nat.testBit_div_two_pow, decide_eq_true (show j - 8 * i < 8 by omega), Bool.true_and,
    hplace]

/-- The word that four bytes set one after another leave. -/
theorem setWordByte_four (w : Word) (n : Nat) :
    setWordByte 3 (BitVec.ofNat 8 (n / 256 / 256 / 256)) (setWordByte 2 (BitVec.ofNat 8 (n / 256 / 256))
      (setWordByte 1 (BitVec.ofNat 8 (n / 256)) (setWordByte 0 (BitVec.ofNat 8 n) w))) = BitVec.ofNat 32 n := by
  have h0 : n = n / 2 ^ (8 * 0) := (Nat.div_one n).symm
  have h1 : n / 256 = n / 2 ^ (8 * 1) := rfl
  have h2 : n / 256 / 256 = n / 2 ^ (8 * 2) := Nat.div_div_eq_div_mul ..
  have h3 : n / 256 / 256 / 256 = n / 2 ^ (8 * 3) := (Nat.div_div_eq_div_mul ..).trans (Nat.div_div_eq_div_mul ..)
  apply BitVec.eq_of_toNat_eq
  apply Nat.eq_of_testBit_eq
  intro j
  by_cases hj : j < 32
  · have hn : (BitVec.ofNat 32 n).toNat.testBit j = n.testBit j := by
      rw [BitVec.toNat_ofNat, Nat.testBit_mod_two_pow, decide_eq_true hj, Bool.true_and]
    rw [h3, h2, h1, hn, testBit_setWordByte _ _ _ hj, testBit_setWordByte _ _ _ hj, testBit_setWordByte _ _ _ hj,
      testBit_setWordByte _ _ _ hj]
    split
    · next h => exact testBit_byte n 3 h
    split
    · next h => exact testBit_byte n 2 h
    split
    · next h => exact testBit_byte n 1 h
    · rw [if_pos (by omega)]
      exact (congrArg (fun m => (BitVec.ofNat 8 m).toNat.testBit (j - 8 * 0)) h0).trans (testBit_byte n 0 (by omega))
  · have hbeyond (v : Word) : v.toNat.testBit j = false :=
      Nat.testBit_lt_two_pow (lt_of_lt_of_le v.isLt (Nat.pow_le_pow_right (by decide) (Nat.not_lt.mp hj)))
    rw [hbeyond, hbeyond]

/-- One byte of word k written. -/
theorem State.sramPutByte_word (s : State) (k : Nat) {i : Nat} (hi : i < 4) (b : Byte) :
    (s.sramPutByte (4 * k + i) b).dp.csram = s.dp.csram.up k 0 (setWordByte i b) := by
  rw [State.sramPutByte, show (4 * k + i) / 4 = k by omega, show (4 * k + i) % 4 = i by omega]
  rfl

/-- Word k holds w and bears no mark, every other word of canopy SRAM and every register is as it was. -/
def State.SramSet (s t : State) (k : Nat) (w : Word) : Prop :=
  t.dp.csram.rd k 0 = w ∧ t.dp.cpoison.rd k false = false ∧ (∀ k', k' ≠ k → t.dp.csram.rd k' 0 = s.dp.csram.rd k' 0) ∧ t.regs = s.regs

theorem State.SramSet.ans {s t : State} {k : Nat} {w : Word} (h : s.SramSet t k w) (st : Status) (ws : List Word) :
    s.SramSet (t.ans st ws) k w ∧ (t.ans st ws).answer = ⟨st, ws⟩ :=
  ⟨h, rfl⟩

theorem State.SramSet.setResv {s t : State} {k : Nat} {w : Word} (h : s.SramSet t k w) (n : Nat) (d : Option Nat) :
    s.SramSet (t.setResv n d) k w := h

/-- A table without key k reads there as its default. -/
theorem rd_filter_out {α : Type} (t : Tbl α) {k : Nat} (d : α) (p : Nat × α → Bool) (h : ∀ v, p (k, v) = false) :
    Tbl.rd (t.filter p) k d = d := by
  induction t with
  | nil => rfl
  | cons e r ih =>
    obtain ⟨a, v⟩ := e
    by_cases hp : p (a, v) = true
    · have hne : a ≠ k := fun e => Bool.false_ne_true ((h v).symm.trans (e ▸ hp))
      rw [List.filter_cons_of_pos hp, Tbl.rd_cons, if_neg hne, ih]
    · rw [List.filter_cons_of_neg hp, ih]

theorem State.sramPut_regs (s : State) (a : Nat) (l : List Byte) : (s.sramPut a l).regs = s.regs := by
  have hbytes := forEach_keeps (·.regs) l.zipIdx s (fun x u => u.sramPutByte (a + x.2) x.1) (fun _ _ => rfl)
  simpa [State.sramPut, State.breakResv] using hbytes

/-- A mark stays, but on a word written whole. -/
theorem State.sramPut_cpoison (s : State) (a : Nat) (l : List Byte) : (s.sramPut a l).dp.cpoison
    = s.dp.cpoison.filter (fun e => !(decide (a ≤ 4 * e.1) && decide (4 * e.1 + 4 ≤ a + l.length))) := by
  have hbytes := forEach_keeps (·.dp.cpoison) l.zipIdx s (fun x u => u.sramPutByte (a + x.2) x.1) (fun _ _ => rfl)
  simp only [State.sramPut, State.breakResv, hbytes]

/-- A word written whole into canopy SRAM is read back and loses its mark. -/
theorem State.sramPut_word (s : State) (k n : Nat) :
    s.SramSet (s.sramPut (4 * k) (toLE 4 n)) k (BitVec.ofNat 32 n) := by
  have hcsram : (s.sramPut (4 * k) (toLE 4 n)).dp.csram
      = (((s.dp.csram.up k 0 (setWordByte 0 (BitVec.ofNat 8 n))).up k 0 (setWordByte 1 (BitVec.ofNat 8 (n / 256)))).up k 0
          (setWordByte 2 (BitVec.ofNat 8 (n / 256 / 256)))).up k 0 (setWordByte 3 (BitVec.ofNat 8 (n / 256 / 256 / 256))) := by
    have h0 (u : State) (b : Byte) : (u.sramPutByte (4 * k) b).dp.csram = u.dp.csram.up k 0 (setWordByte 0 b) :=
      u.sramPutByte_word k (i := 0) (by decide) b
    simp [State.sramPut, forEach, toLE, State.breakResv, State.sramPutByte_word, h0]
  refine ⟨?_, ?_, fun k' hk' => ?_, State.sramPut_regs ..⟩
  · rw [hcsram, Tbl.rd_up_same, Tbl.rd_up_same, Tbl.rd_up_same, Tbl.rd_up_same, setWordByte_four]
  · rw [State.sramPut_cpoison]
    exact rd_filter_out _ _ _ (by simp [toLE])
  · rw [hcsram, Tbl.rd_up_other _ _ _ _ hk', Tbl.rd_up_other _ _ _ _ hk', Tbl.rd_up_other _ _ _ _ hk', Tbl.rd_up_other _ _ _ _ hk']

theorem State.resv_setResv (s : State) (n : Nat) (d : Option Nat) : (s.setResv n d).dp.resv.rd n none = d := Tbl.rd_wr_same _ _ _ _

theorem busMem_plain (s : State) (n pc : Nat) (m : CoreMem) (a : Access) : s.busMem n pc .plain m a =
    if a.write then (s.memWrite m (accBytes a)).ans .ok []
    else if s.memBad m a.len then (s.canopyError n a.addr).coreTrap n 5 a.addr pc
    else s.ans .ok (bytesWords (s.memRead m a.len)) := rfl

theorem coreMem_sram {x : Nat} (hlo : sramBase ≤ x) (hhi : x + 4 ≤ sramBase + sramSize) : coreMem x = some (.sram (x - sramBase)) := by
  rw [coreMem, if_pos (by simp; omega)]

section
variable (s : State) (n pc k : Nat) {a : Access} (hlen : a.len = 4)
include hlen

theorem busMem_write {w : Word} (hd : a.data = [w]) (hw : a.write = true) :
    s.SramSet (s.busMem n pc .plain (.sram (4 * k)) a) k w ∧ (s.busMem n pc .plain (.sram (4 * k)) a).answer = ⟨.ok, []⟩ := by
  have hput := s.sramPut_word k w.toNat
  rw [BitVec.ofNat_toNat, BitVec.setWidth_eq] at hput
  rw [busMem_plain]
  simp only [hw, if_true, State.memWrite, accBytes_word hlen hd]
  exact hput.ans _ _

theorem busMem_sc_reserved {w : Word} (hd : a.data = [w]) (h : s.dp.resv.rd n none = some (a.addr / 8)) :
    s.SramSet (s.busMem n pc .sc (.sram (4 * k)) a) k w ∧ (s.busMem n pc .sc (.sram (4 * k)) a).answer = ⟨.ok, [0]⟩ := by
  have hput := s.sramPut_word k w.toNat
  rw [BitVec.ofNat_toNat, BitVec.setWidth_eq] at hput
  rw [State.busMem]
  simp only [h, if_true, State.memWrite, accBytes_word hlen hd]
  exact (hput.setResv _ _).ans _ _

theorem busMem_amo_add {w : Word} (hd : a.data = [w]) (h : s.sramPoison (4 * k) 4 = false) :
    s.SramSet (s.busMem n pc (.amo .add) (.sram (4 * k)) a) k (s.dp.csram.rd k 0 + w)
    ∧ (s.busMem n pc (.amo .add) (.sram (4 * k)) a).answer = ⟨.ok, [s.dp.csram.rd k 0]⟩ := by
  have hsum : amoVal .add 32 (s.dp.csram.rd k 0).toNat w.toNat = (s.dp.csram.rd k 0 + w).toNat := by
    simp [amoVal, BitVec.toNat_add]
  have hput := s.sramPut_word k (s.dp.csram.rd k 0 + w).toNat
  rw [BitVec.ofNat_toNat, BitVec.setWidth_eq] at hput
  rw [State.busMem]
  simp only [State.memBad, hlen, h, Bool.false_eq_true, if_false, State.memRead, State.sramBytes_word, bytesWords_toLE,
    accBytes_word hlen hd, State.memWrite, bytesLE_word, hsum]
  exact hput.ans _ _

theorem busMem_read (hw : a.write = false) (h : s.sramPoison (4 * k) 4 = false) :
    s.busMem n pc .plain (.sram (4 * k)) a = s.ans .ok [s.dp.csram.rd k 0] := by
  rw [busMem_plain]
  simp only [hw, State.memBad, hlen, h, Bool.false_eq_true, if_false, State.memRead, State.sramBytes_word, bytesWords_toLE]

theorem busMem_lr (h : s.sramPoison (4 * k) 4 = false) :
    s.busMem n pc .lr (.sram (4 * k)) a = (s.setResv n (some (a.addr / 8))).ans .ok [s.dp.csram.rd k 0] := by
  rw [State.busMem]
  simp only [State.memBad, hlen, h, Bool.false_eq_true, if_false, State.memRead, State.sramBytes_word, bytesWords_toLE]

end

theorem busMem_sc_unreserved (s : State) (n pc : Nat) (m : CoreMem) (a : Access) (h : s.dp.resv.rd n none ≠ some (a.addr / 8)) :
    s.busMem n pc .sc m a = (s.setResv n none).ans .ok [1] := by
  rw [State.busMem]
  simp only [h, if_false]

/-! ## Device regions (R25, R377-R379) -/

/-- The accesses of a core that wait, set. -/
def State.setBusq (s : State) (n : Fin 8) (l : List BusAcc) : State := { s with dp := { s.dp with busq := s.dp.busq.wr n.val [] l } }

section
variable (s : State) (n : Fin 8)

@[simp] theorem State.setBusq_busq (l : List BusAcc) : (s.setBusq n l).dp.busq.rd n.val [] = l := Tbl.rd_wr_same _ _ _ _
@[simp] theorem State.setBusq_frame (l : List BusAcc) : (s.setBusq n l).regs = s.regs ∧ (s.setBusq n l).nc = s.nc := ⟨rfl, rfl⟩
@[simp] theorem State.setBusq_coreBusy (l : List BusAcc) : (s.setBusq n l).coreBusy n = s.coreBusy n := rfl

/-- Nothing of a core's that waits goes on while an earlier access of it stands. -/
theorem State.busNext_busy (fuel : Nat) (h : s.coreBusy n = true) : State.busNext n fuel s = s := by
  unfold State.busNext
  split
  · rw [h, Bool.true_or, if_pos rfl]
  · rfl

/-- The first access that waits is made, when no earlier one stands and it needs no edge of the hub. -/
theorem State.busNext_step (fuel : Nat) {b : BusAcc} {r : List BusAcc} (h : s.coreBusy n = false) (hq : s.dp.busq.rd n.val [] = b :: r)
    (hhub : inHub b.acc.addr = false) : State.busNext n (fuel + 1) s = State.busNext n fuel ((s.setBusq n r).busDevice n b) := by
  conv_lhs => unfold State.busNext
  simp only [hq, h, hhub, Bool.false_and, Bool.or_self, Bool.false_eq_true, if_false]
  rfl

variable (a : Access) (x : UnitHealth)

/-- The accesses that a core's access becomes, by where it goes. -/
def piecesOf (a : Access) : List Access :=
  if 0x0100000000 ≤ a.addr && a.addr < 0x0180000000
    then busPieces a ((a.addr - 0x0100000000) / 0x1000000) (a.addr % 0x1000000)
    else if inHub a.addr then busPieces a 91 (a.addr % 0x1000000) else [a]

theorem State.busQueue_eq : s.busQueue n a x
    = (s.setBusq n (s.dp.busq.rd n.val [] ++ (piecesOf a).map (⟨·, x⟩))).busGo n := rfl

/-- An access queues behind an earlier one that has not completed. -/
theorem State.busQueue_busy (h : s.coreBusy n = true) :
    s.busQueue n a x = s.setBusq n (s.dp.busq.rd n.val [] ++ (piecesOf a).map (⟨·, x⟩)) := by
  rw [State.busQueue_eq, State.busGo, State.busNext_busy _ _ _ (by rwa [State.setBusq_coreBusy])]

/-- With nothing before it, the first piece of an access is made at once. -/
theorem State.busQueue_free {p : Access} {r : List Access} (hp : piecesOf a = p :: r) (h : s.coreBusy n = false)
    (hq : s.dp.busq.rd n.val [] = []) (hhub : inHub p.addr = false) :
    s.busQueue n a x = State.busNext n r.length
      (((s.setBusq n (((p :: r).map (⟨·, x⟩)))).setBusq n (r.map (⟨·, x⟩))).busDevice n ⟨p, x⟩) := by
  rw [State.busQueue_eq, hq, hp, List.nil_append, State.busGo, State.setBusq_busq, List.length_map, List.length_cons,
    State.busNext_step _ n r.length (b := ⟨p, x⟩) (r := r.map (⟨·, x⟩)) (by rwa [State.setBusq_coreBusy]) (by simp) hhub]

end

/-- The pieces of an access to a node window: the first at its address, a second one for 8 bytes of registers. -/
theorem piecesOf_node {a : Access} (hlo : 0x0100000000 ≤ a.addr) (hhi : a.addr < 0x0180000000) :
    ∃ p r, piecesOf a = p :: r ∧ p.addr = a.addr ∧ p.write = a.write
      ∧ r.map (·.addr) = (if a.len = 8 ∧ windowMemory ((a.addr - 0x0100000000) / 0x1000000) (a.addr % 0x1000000) = false
          then [a.addr + 4] else []) := by
  have hin : (decide (0x0100000000 ≤ a.addr) && decide (a.addr < 0x0180000000)) = true := by simp [hlo, hhi]
  rw [piecesOf, if_pos hin, busPieces]
  by_cases h : a.len = 8 ∧ windowMemory ((a.addr - 0x0100000000) / 0x1000000) (a.addr % 0x1000000) = false
  · rw [if_pos (by simpa using h), if_pos h]
    exact ⟨_, _, rfl, rfl, rfl, rfl⟩
  · rw [if_neg (by simpa using h), if_neg h]
    exact ⟨_, _, rfl, rfl, rfl, rfl⟩

/-- The request of node 84 that a core's access to a node window is. -/
def State.coreReq (s : State) (n : Fin 8) (a : Access) : NocReq :=
  s.accReq a (.core n) opTag 0 ((a.addr - 0x0100000000) / 0x1000000) (a.addr % 0x1000000)

/-- It carries the operator's tag and its core's priority. -/
theorem State.coreReq_fields (s : State) (n : Fin 8) (a : Access) :
    (s.coreReq n a).tag = opTag ∧ (s.coreReq n a).who = .core n ∧ (s.coreReq n a).dst = (a.addr - 0x0100000000) / 0x1000000
    ∧ (s.coreReq n a).addr = a.addr % 0x1000000 ∧ (s.coreReq n a).write = a.write
    ∧ (s.coreReq n a).prio.toNat = s.fld .ncCprio 0 (2 * n.val + 1) (2 * n.val) := by
  have hprio : s.fld .ncCprio 0 (2 * n.val + 1) (2 * n.val) < 2 ^ 2 := by
    have := bits_lt (s.reg .ncCprio 0).toNat (2 * n.val + 1) (2 * n.val)
    rwa [show 2 * n.val + 1 + 1 - 2 * n.val = 2 by omega] at this
  exact ⟨rfl, rfl, rfl, rfl, rfl, (BitVec.toNat_ofNat _ _).trans (Nat.mod_eq_of_lt hprio)⟩

/-- An access to a node window is a request of node 84. -/
theorem State.busDevice_node (s : State) (n : Fin 8) {b : BusAcc} (hlo : 0x0100000000 ≤ b.acc.addr) (hhi : b.acc.addr < 0x0180000000) :
    s.busDevice n b = s.nocSubmit 84 (s.coreReq n b.acc) := by
  rw [State.busDevice, if_pos (by simp [hlo, hhi]), State.coreReq]

theorem State.nocWait_nocSubmit (s : State) (ni : Nat) (q : NocReq) : (s.nocSubmit ni q).nocWait ni = s.nocWait ni ++ [q] :=
  Tbl.rd_wr_same _ _ _ _

/-- A core's request that waits at node 84 stands before the core's later accesses. -/
theorem State.coreBusy_nocSubmit (s : State) (n : Fin 8) (q : NocReq) (h : q.who = .core n) : (s.nocSubmit 84 q).coreBusy n = true := by
  simp [State.coreBusy, State.nocWait_nocSubmit, h]

/-- An address of no device region is answered UNMAPPED. -/
theorem State.busDevice_unmapped (s : State) (n : Fin 8) {b : BusAcc} (hlo : 0x40000000 ≤ b.acc.addr) (hhi : b.acc.addr < 0x100000000) :
    s.busDevice n b = (s.ans .unmapped (if b.acc.write then [] else [0])).busDone n.val .unmapped := by
  have hregion : 0x40 ≤ b.acc.addr / 0x1000000 := by omega
  rw [State.busDevice, if_neg (by simp; omega), if_neg (by simp; omega)]
  split
  · omega
  · omega
  · omega
  · omega
  · omega
  · omega
  · omega
  · rfl

/-- An access to the dispatcher's registers. -/
theorem State.busDevice_dispatcher (s : State) (n : Fin 8) {b : BusAcc} (h : b.acc.addr / 0x1000000 = 0x30) :
    s.busDevice n b = s.busRegs n dpMap (b.acc.addr % 0x1000000) b.acc := by
  rw [State.busDevice, if_neg (by simp; omega), if_neg (by simp; omega)]
  simp only [h]

theorem lookup_dpTnow : lookup dpMap 8 = some ⟨.dpTnow, 0⟩ := by decide

/-- A core reads DP_TNOW as it stands. -/
theorem State.readReg_dpTnow (s : State) (n : Fin 8) : s.readReg (.core n) ⟨.dpTnow, 0⟩ = s.ans .ok [s.reg .dpTnow 0] := by
  have hcount : ¬ RegName.dpTnow.count ≤ 0 := by decide
  simp only [State.readReg, hcount, if_false, State.readDpFor]
  rfl

/-- A core's load of DP_TNOW. -/
theorem State.busDevice_tnow (s : State) (n : Fin 8) (x : UnitHealth) :
    s.busDevice n ⟨⟨false, 0x30000008, 4, []⟩, x⟩ = s.ans .ok [s.reg .dpTnow 0] := by
  have hword (w : Word) : State.regWord (.core n) false dpMap 8 w s = s.ans .ok [s.reg .dpTnow 0] := by
    rw [State.regWord, lookup_dpTnow]
    exact s.readReg_dpTnow n
  rw [State.busDevice_dispatcher s n (by norm_num), State.busRegs]
  simp [State.eachWord, accWords, hword, State.busDone]
  rfl

/-- A status that is not OK is kept in DP_CBUS and counted there. -/
theorem State.busDone_dpCbus (s : State) (n : Nat) {st : Status} (h : st ≠ .ok) :
    (s.busDone n st).answer = s.answer ∧ (s.busDone n st).fld .dpCbus n 3 0 = st.code
    ∧ (s.busDone n st).fld .dpCbus n 31 16 = satAdd 16 (s.fld .dpCbus n 31 16) 1 := by
  have hcode : st.code < 2 ^ 4 := by cases st <;> decide
  rw [State.busDone, if_neg h]
  refine ⟨by simp, ?_, ?_⟩
  · rw [State.fld_setFld _ _ (by decide)]
    exact Nat.mod_eq_of_lt hcode
  · rw [State.fld_setFld_apart _ _ (by decide) (.inr (by decide)), State.fld_count _ _ (by decide)]

/-! ## CORE_BUS_ACCESS (R377-R379) -/

theorem lengthTaken {len : Nat} (h : len ∈ [1, 2, 4, 8]) : (!([1, 2, 4, 8].contains len)) = false := by
  rw [Bool.not_eq_false', List.contains_iff_mem]
  exact h

section
variable {s : State} {n : Fin 8} {pc : Nat} {op : CoreOp} {a : Access} (x : UnitHealth) (hlen : a.len ∈ [1, 2, 4, 8])
include hlen

theorem State.busAccess_trap {c : Nat} (h : s.busTrap n.val op a = some c) :
    s.busAccess n pc op a x = s.coreTrap n.val c a.addr pc := by
  rw [State.busAccess, lengthTaken hlen]
  simp only [h, Bool.false_eq_true, if_false]

/-- An access that takes no exception reaches canopy memory where it lies there. -/
theorem State.busAccess_mem {m : CoreMem} (h : s.busTrap n.val op a = none) (hm : coreMem a.addr = some m) :
    s.busAccess n pc op a x = s.busMem n.val pc op m a := by
  rw [State.busAccess, lengthTaken hlen]
  simp only [h, hm, Bool.false_eq_true, if_false]

/-- An access that takes no exception, above the TCMs, reaches a device region. -/
theorem State.busAccess_device (h : s.busTrap n.val op a = none) (hlo : 0x30000000 ≤ a.addr) :
    s.busAccess n pc op a x = s.busQueue n a x := by
  have hm : coreMem a.addr = none := by
    have hbase : sramBase + sramSize = 0x10800000 := rfl
    rw [coreMem, if_neg (by simp only [Bool.and_eq_true, decide_eq_true_eq]; omega),
      if_neg (by simp; omega)]
  rw [State.busAccess, lengthTaken hlen]
  simp only [h, hm, Bool.false_eq_true, if_false]
  rw [if_neg (by omega), if_neg (by omega)]

end

section
variable {s : State} {n : Fin 8} (a : Access) (x : UnitHealth)

/-- A core's access to a node window with none before it: its first piece is a request at node 84, and the others wait. -/
theorem State.busQueue_node (hlo : 0x0100000000 ≤ a.addr) (hhi : a.addr < 0x0180000000) (h : s.coreBusy n = false)
    (hq : s.dp.busq.rd n.val [] = []) : ∃ (u : State) (p : Access) (r : List BusAcc), s.busQueue n a x = u.nocSubmit 84 (u.coreReq n p)
      ∧ u.regs = s.regs ∧ u.nc = s.nc ∧ u.dp.busq.rd n.val [] = r ∧ p.addr = a.addr ∧ p.write = a.write
      ∧ r.map (·.acc.addr) = (if a.len = 8 ∧ windowMemory ((a.addr - 0x0100000000) / 0x1000000) (a.addr % 0x1000000) = false
          then [a.addr + 4] else []) := by
  obtain ⟨p, r, hp, haddr, hwrite, hrest⟩ := piecesOf_node hlo hhi
  refine ⟨(s.setBusq n ((p :: r).map (⟨·, x⟩))).setBusq n (r.map (⟨·, x⟩)), p, r.map (⟨·, x⟩), ?_, by simp, by simp, by simp, haddr, hwrite, ?_⟩
  · rw [State.busQueue_free s n a x hp h hq (by simp [inHub]; omega), State.busDevice_node _ n (by simp [haddr, hlo]) (by simp [haddr, hhi]),
      State.busNext_busy _ n _ (State.coreBusy_nocSubmit _ n _ rfl)]
  · rw [← hrest, List.map_map]
    rfl

/-- A core's access to a node window behind an earlier one. -/
theorem State.busQueue_node_behind (hlo : 0x0100000000 ≤ a.addr) (hhi : a.addr < 0x0180000000) (h : s.coreBusy n = true) :
    (s.busQueue n a x).nc = s.nc ∧ (s.busQueue n a x).regs = s.regs
    ∧ (s.dp.busq.rd n.val []).length < ((s.busQueue n a x).dp.busq.rd n.val []).length := by
  obtain ⟨p, r, hp, -⟩ := piecesOf_node hlo hhi
  rw [State.busQueue_busy s n a x h, hp]
  exact ⟨rfl, rfl, by simp⟩

/-- A core's access to an address below the node windows that is not the hub's, with none before it, is made at once. -/
theorem State.busQueue_local (hhi : a.addr < 0x100000000) (hhub : inHub a.addr = false) (h : s.coreBusy n = false)
    (hq : s.dp.busq.rd n.val [] = []) : s.busQueue n a x = ((s.setBusq n [⟨a, x⟩]).setBusq n []).busDevice n ⟨a, x⟩ := by
  have hp : piecesOf a = [a] := by
    rw [piecesOf, if_neg (by simp; omega), hhub]
    rfl
  exact State.busQueue_free s n a x hp h hq hhub

end

/-- A core's loads, stores and atomic accesses of word k of canopy SRAM. -/
theorem busAccess_sram {s : State} {n : Fin 8} {pc : Nat} {op : CoreOp} {a : Access} (x : UnitHealth) (hal : a.addr % a.len = 0)
    (hpmp : ∀ w, s.pmpOk n.val a.addr a.len w = true) (hlo : sramBase ≤ a.addr) (hhi : a.addr + 4 ≤ sramBase + sramSize) (hlen : a.len = 4) :
    s.busAccess n pc op a x = s.busMem n.val pc op (.sram (4 * ((a.addr - sramBase) / 4))) a := by
  have hmem := coreMem_sram hlo hhi
  have hword : a.addr - sramBase = 4 * ((a.addr - sramBase) / 4) := by
    have hbase : sramBase % 4 = 0 := rfl
    rw [hlen] at hal
    omega
  rw [hword] at hmem
  exact State.busAccess_mem x (by simp [hlen]) (busTrap_none hal hpmp (.inr ⟨by rw [hmem]; rfl, by omega⟩)) hmem

/-- A core's load or store of a device region. -/
theorem busAccess_region {s : State} {n : Fin 8} {pc : Nat} {a : Access} (x : UnitHealth) (hlen : a.len ∈ [1, 2, 4, 8])
    (hal : a.addr % a.len = 0) (hpmp : ∀ w, s.pmpOk n.val a.addr a.len w = true) (hlo : 0x30000000 ≤ a.addr) :
    s.busAccess n pc .plain a x = s.busQueue n a x :=
  State.busAccess_device x hlen (busTrap_none hal hpmp (.inl rfl)) hlo

section
variable {s : State} {n : Fin 8} {pc : Nat} {a : Access} (x : UnitHealth)

/-- A core's access where no region lies is answered UNMAPPED, and counted. -/
theorem busAccess_unmapped (hlen : a.len ∈ [1, 2, 4, 8]) (hal : a.addr % a.len = 0)
    (hpmp : ∀ w, s.pmpOk n.val a.addr a.len w = true) (hlo : 0x40000000 ≤ a.addr) (hhi : a.addr < 0x100000000) (h : s.coreBusy n = false)
    (hq : s.dp.busq.rd n.val [] = []) :
    (s.busAccess n pc .plain a x).answer.status = .unmapped ∧ (s.busAccess n pc .plain a x).fld .dpCbus n.val 3 0 = 7
    ∧ (s.busAccess n pc .plain a x).fld .dpCbus n.val 31 16 = satAdd 16 (s.fld .dpCbus n.val 31 16) 1 := by
  have hhub : inHub a.addr = false := by
    simp [inHub]
    omega
  rw [busAccess_region x hlen hal hpmp (by omega), State.busQueue_local a x hhi hhub h hq, State.busDevice_unmapped _ n hlo hhi]
  obtain ⟨hans, hcode, hcount⟩ := State.busDone_dpCbus
    (((s.setBusq n [⟨a, x⟩]).setBusq n []).ans .unmapped (if a.write then [] else [0])) n.val (st := .unmapped) (by decide)
  exact ⟨congrArg Answer.status hans, hcode, hcount⟩

/-- A core reads TNOW as it stands. -/
theorem busAccess_tnow (hpmp : ∀ w, s.pmpOk n.val 0x30000008 4 w = true) (h : s.coreBusy n = false) (hq : s.dp.busq.rd n.val [] = []) :
    (s.busAccess n pc .plain ⟨false, 0x30000008, 4, []⟩ x).answer = ⟨.ok, [s.reg .dpTnow 0]⟩
    ∧ (s.busAccess n pc .plain ⟨false, 0x30000008, 4, []⟩ x).regs = s.regs := by
  rw [busAccess_region x (by decide) (by decide) hpmp (by decide), State.busQueue_local _ x (by decide) (by decide) h hq,
    State.busDevice_tnow]
  exact ⟨rfl, rfl⟩

end

/-- FENCE_I empties the core's instruction cache and fetch buffer, and no other's (R380). -/
theorem execFenceI_empties (n : Fin 8) (s : State) :
    Goes (execFenceI n s) (fun t => t.dp.icache.rd n.val [] = [] ∧ t.dp.fbuf.rd n.val [] = []
      ∧ (∀ m, m ≠ n.val → t.dp.icache.rd m [] = s.dp.icache.rd m [] ∧ t.dp.fbuf.rd m [] = s.dp.fbuf.rd m []) ∧ t.regs = s.regs
      ∧ t.dp.csram = s.dp.csram) :=
  ⟨_, rfl, Tbl.rd_del_same .., Tbl.rd_del_same .., fun _ hm => ⟨Tbl.rd_del_other _ _ hm, Tbl.rd_del_other _ _ hm⟩, rfl, rfl⟩

/-- Settles O45: an access either takes an exception, reaches canopy memory, or joins the core's device accesses. -/
theorem coreAccessesReachTheirRegions : Obligations.CoreAccessesReachTheirRegions := by
  refine ⟨?_, fun n c op a x s hheld => ?_, execFenceI_empties⟩
  · intro n c a x s hheld hlen does traps
    let u := s.retired n.val c.retired
    have hdoes (op : CoreOp) : does op = .next (u.coreDoes n c.pc.toNat op a x) := exec_coreBusAccess n c op a x hheld
    have htraps {op : CoreOp} {cause : Nat} (tval : Nat) (hc : cause < 2 ^ 64)
        (h : u.coreDoes n c.pc.toNat op a x = u.coreTrap n.val cause tval c.pc.toNat) : traps op cause :=
      ⟨_, (hdoes op).trans (congrArg _ h), u.coreTrap_trapped n.val tval hc c.pc.isLt⟩
    refine ⟨fun hmis => htraps a.addr (by split <;> decide) (State.busAccess_trap x hlen (busTrap_misaligned hmis)),
      fun hal hpmp => htraps a.addr (by split <;> decide)
        (State.busAccess_trap x hlen (busTrap_protected hal ((s.retired_pmpOk ..).trans hpmp))),
      fun f hal hmem => htraps a.addr (by decide) (State.busAccess_trap x hlen (busTrap_amo_outside f hal hmem)),
      htraps 0 (by decide) rfl, fun hal hpmp => ?_⟩
    have hpmp (w : Bool) : u.pmpOk n.val a.addr a.len w = true := (s.retired_pmpOk ..).trans (hpmp w)
    refine ⟨fun hlo hhi hlen4 => ?_, fun hlo hhi => ?_, fun hlo hhi hbusy hq => ?_, fun ha hbusy hq => ?_⟩
    · intro k sets
      have hsets {t : State} {w : Word} {st : Status} {ws : List Word} (h : u.SramSet t k w ∧ t.answer = ⟨st, ws⟩) :
          sets t w ∧ t.answer = ⟨st, ws⟩ := h
      have hmade (op : CoreOp) (hb : op = .plain ∨ op = .lr ∨ op = .sc ∨ op = .amo .add) :
          does op = .next (u.busMem n.val c.pc.toNat op (.sram (4 * k)) a) := by
        have hbus : u.coreDoes n c.pc.toNat op a x = u.busAccess n c.pc.toNat op a x := by
          rcases hb with rfl | rfl | rfl | rfl <;> rfl
        rw [hdoes, hbus, busAccess_sram x hal hpmp hlo hhi hlen4]
      refine ⟨fun w hd => ⟨fun hw => ⟨_, hmade .plain (by simp), hsets (busMem_write u n.val _ k hlen4 hd hw)⟩,
        fun hres => ⟨_, hmade .sc (by simp), hsets (busMem_sc_reserved u n.val _ k hlen4 hd hres)⟩, fun hres => ?_,
        fun hgood => ⟨_, hmade (.amo .add) (by simp), hsets (busMem_amo_add u n.val _ k hlen4 hd hgood)⟩⟩, fun hgood => ⟨fun hw => ?_, ?_⟩⟩
      · exact ⟨_, (hmade .sc (by simp)).trans (congrArg _ (busMem_sc_unreserved u n.val _ _ a hres)), rfl, rfl⟩
      · exact ⟨_, (hmade .plain (by simp)).trans (congrArg _ (busMem_read u n.val _ k hlen4 hw hgood)), rfl, rfl⟩
      · exact ⟨_, (hmade .lr (by simp)).trans (congrArg _ (busMem_lr u n.val _ k hlen4 hgood)), rfl, u.resv_setResv n.val _⟩
    · intro node off
      have hmade : does .plain = .next (u.busQueue n a x) :=
        (hdoes .plain).trans (congrArg _ (busAccess_region x hlen hal hpmp (by omega)))
      refine ⟨fun hbusy hq => ?_, fun hbusy => ⟨_, hmade, State.busQueue_node_behind a x hlo hhi hbusy⟩⟩
      obtain ⟨v, p, r, hv, hregs, hnc, hwait, haddr, hwrite, hrest⟩ := State.busQueue_node a x hlo hhi (s := u) hbusy hq
      obtain ⟨htag, hwho, hdst, hoff, hdir, hprio⟩ := v.coreReq_fields n p
      rw [haddr] at hdst hoff
      refine ⟨_, hmade.trans (congrArg _ hv), hregs, ?_, v.coreReq n p, ?_, htag, hwho, hdst, hoff, hdir.trans hwrite, ?_⟩
      · exact (congrArg _ hwait).trans hrest
      · rw [State.nocWait_nocSubmit, State.nocWait, hnc]
        rfl
      · rw [hprio, State.fld, State.reg, hregs]
        rfl
    · exact ⟨_, hdoes .plain, busAccess_unmapped x hlen hal hpmp hlo hhi hbusy hq⟩
    · subst ha
      exact ⟨_, hdoes .plain, busAccess_tnow x hpmp hbusy hq⟩
  · change execCoreBusAccess n c op a x s = _
    rw [execCoreBusAccess, if_pos hheld]

end Sys2Proof.Machine
end

section
/-! SUPPORT. The operations that leave tile memory, canopy SRAM and the NVM alone: one lemma per operation that changes the state, under the
names of the model's files and in their order. The lemmas are tagged `simp ↓`: `simp` reads the memories off the outermost operation and
does not look at the states inside it. -/

namespace Sys2Proof.Machine

/-- Tile memory, canopy SRAM and the NVM. -/
structure Mems where
  tile : Tbl W24
  sram : Tbl Word
  nvm  : Tbl Byte

/-- The three memories of a state. -/
def State.mems (s : State) : Mems := ⟨s.tl.mem, s.dp.csram, s.cf.nvm⟩

/-- Each memory stands in its canonical form. -/
def Mems.Canonical (m : Mems) : Prop := m.tile.wf 0 = true ∧ m.sram.wf 0 = true ∧ m.nvm.wf 0 = true

/-- The command leaves a next state with the memories of `s`. -/
def KeepsMems (r : Res) (s : State) : Prop := Goes r (fun t => t.mems = s.mems)

@[simp ↓] theorem keepsMems_next (s t : State) : KeepsMems (.next t) s ↔ t.mems = s.mems := by
  simp [KeepsMems, Goes]

theorem State.mk_parts_mems (q a l f t r c tl sw lt ff cx qe tn ln tb nc hi dp ht cf gr gp pw ms was) :
    (State.mk q a l f t r c tl sw lt ff cx qe tn ln tb nc hi dp ht cf gr gp pw ms was).mems = ⟨tl.mem, dp.csram, cf.nvm⟩ := (rfl)

/-- The three memories, read off their sum. -/
theorem State.mems_parts (s : State) : s.tl.mem = s.mems.tile ∧ s.dp.csram = s.mems.sram ∧ s.cf.nvm = s.mems.nvm :=
  ⟨rfl, rfl, rfl⟩

section
variable (u : State) (q a l f t r c sw lt ff cx qe tn ln tb nc hi ht gr gp pw ms was)

/-! A state with the blocks of `u` that hold memories has the memories of `u`, whatever stands in the other fields of the blocks. -/

@[simp ↓] theorem State.mk_mems :
    (State.mk q a l f t r c u.tl sw lt ff cx qe tn ln tb nc hi u.dp ht u.cf gr gp pw ms was).mems = u.mems := (rfl)

@[simp ↓] theorem State.mk_tl_mems (recs rst held shOwn land steer bad slotAt commitAt) :
    (State.mk q a l f t r c ⟨recs, rst, held, shOwn, land, steer, u.tl.mem, bad, slotAt, commitAt⟩ sw lt ff cx qe tn ln tb nc hi
      u.dp ht u.cf gr gp pw ms was).mems = u.mems := (rfl)

@[simp ↓] theorem State.mk_cf_mems (sess load runSrc runSafe wdogAt cap capped reply outDone wenGrove) :
    (State.mk q a l f t r c u.tl sw lt ff cx qe tn ln tb nc hi u.dp ht
      ⟨sess, load, runSrc, runSafe, wdogAt, u.cf.nvm, cap, capped, reply, outDone, wenGrove⟩ gr gp pw ms was).mems = u.mems := (rfl)

@[simp ↓] theorem State.mk_dp_mems (thr seqc ord cores bind pend asserting miss trace lastCore lastSrc lastCmd tickFrom nextTick tickDue
    audited cpoison tcm icache fbuf coresHeld csr umode resv busq) :
    (State.mk q a l f t r c u.tl sw lt ff cx qe tn ln tb nc hi
      ⟨thr, seqc, ord, cores, bind, pend, asserting, miss, trace, lastCore, lastSrc, lastCmd, tickFrom, nextTick, tickDue, audited,
        u.dp.csram, cpoison, tcm, icache, fbuf, coresHeld, csr, umode, resv, busq⟩ ht u.cf gr gp pw ms was).mems = u.mems := (rfl)

end

@[simp ↓] theorem State.ite_mems (c : Prop) [Decidable c] (a b : State) :
    (if c then a else b).mems = if c then a.mems else b.mems := apply_ite _ c a b

@[simp ↓] theorem forEach_mems {α : Type} (l : List α) (s : State) (f : α → State → State)
    (h : ∀ a s, (f a s).mems = s.mems) : (forEach l s f).mems = s.mems :=
  forEach_keeps _ l s f h

@[simp ↓] theorem foldl_mems {α : Type} (l : List α) (s : State) (f : State → α → State)
    (h : ∀ s a, (f s a).mems = s.mems) : (l.foldl f s).mems = s.mems :=
  foldl_keeps _ l s f h

/-! ## Ops -/

@[simp ↓] theorem State.ans_mems (s : State) (st : Status) (ws : List Word) : (s.ans st ws).mems = s.mems := (rfl)

@[simp ↓] theorem State.setReg_mems (s : State) (n : RegName) (i : Nat) (w : Word) : (s.setReg n i w).mems = s.mems := (rfl)

@[simp ↓] theorem State.setFld_mems (s : State) (n : RegName) (i hi lo v : Nat) : (s.setFld n i hi lo v).mems = s.mems := (rfl)

@[simp ↓] theorem State.setBit_mems (s : State) (n : RegName) (i b : Nat) (v : Bool) : (s.setBit n i b v).mems = s.mems := (rfl)

@[simp ↓] theorem State.count_mems (s : State) (n : RegName) (i hi lo k : Nat) : (s.count n i hi lo k).mems = s.mems := (rfl)

@[simp ↓] theorem State.alarm_mems (s : State) : s.alarm.mems = s.mems := (rfl)

@[simp ↓] theorem State.resetReg_mems (s : State) (n : RegName) (i : Nat) : (s.resetReg n i).mems = s.mems := (rfl)

@[simp ↓] theorem State.setActv_mems (s : State) (n : RegName) (i : Nat) (w : Word) : (s.setActv n i w).mems = s.mems := (rfl)

@[simp ↓] theorem State.assertSrc_mems (s : State) (e : Nat) : (s.assertSrc e).mems = s.mems := (rfl)

@[simp ↓] theorem State.sendRec_mems (s : State) (d : RecDest) (r : BitVec 64) : (s.sendRec d r).mems = s.mems := (rfl)

@[simp ↓] theorem State.tellOwner_mems (s : State) (cls : Nat) (tag : Tag) (block code detail : Nat) :
    (s.tellOwner cls tag block code detail).mems = s.mems := (rfl)

@[simp ↓] theorem State.tellOp_mems (s : State) (cls block code detail : Nat) : (s.tellOp cls block code detail).mems = s.mems := (rfl)

@[simp ↓] theorem State.tellHeart_mems (s : State) (cls : Nat) (tag : Tag) (block code detail : Nat) :
    (s.tellHeart cls tag block code detail).mems = s.mems := (rfl)

@[simp ↓] theorem State.freeWord_mems (s : State) : s.freeWord.2.mems = s.mems := (rfl)

@[simp ↓] theorem State.freeCode_mems (s : State) : s.freeCode.2.mems = s.mems := (rfl)

/-! ## Regs -/

@[simp ↓] theorem State.resetRegs_mems (s : State) (l : List RegName) : (s.resetRegs l).mems = s.mems := by simp [State.resetRegs]

@[simp ↓] theorem State.land_mems (s : State) (n : RegName) (i : Nat) (j : Judged) : (s.land n i j).mems = s.mems := by simp [State.land]

@[simp ↓] theorem State.plainWrite_mems (s : State) (p : Party) (n : RegName) (i : Nat) (w : Word) :
    (s.plainWrite p n i w).mems = s.mems := by simp [State.plainWrite]

@[simp ↓] theorem State.barkAns_mems (s : State) (reads : Nat) : (s.barkAns reads).mems = s.mems := by simp [State.barkAns]

@[simp ↓] theorem State.deniedAlarm_mems (s : State) (reads : Nat) : (s.deniedAlarm reads).mems = s.mems := by simp [State.deniedAlarm]

/-! ## Operands -/

@[simp ↓] theorem State.setRst_mems (s : State) (f : RingTbls → RingTbls) : (s.setRst f).mems = s.mems := by simp [State.setRst]

@[simp ↓] theorem State.setDReg_mems (s : State) (T r i : Nat) (v : W24) : (s.setDReg T r i v).mems = s.mems := by simp [State.setDReg]

@[simp ↓] theorem State.setAcc_mems (s : State) (T r i : Nat) (v : BitVec 56) : (s.setAcc T r i v).mems = s.mems := by simp [State.setAcc]

@[simp ↓] theorem State.setP_mems (s : State) (T r k : Nat) (v : BitVec 11) : (s.setP T r k v).mems = s.mems := by simp [State.setP]

@[simp ↓] theorem State.setBase_mems (s : State) (T r k : Nat) (v : BitVec 11) : (s.setBase T r k v).mems = s.mems := by
  simp [State.setBase]

@[simp ↓] theorem State.setLen_mems (s : State) (T r k : Nat) (v : BitVec 12) : (s.setLen T r k v).mems = s.mems := by simp [State.setLen]

@[simp ↓] theorem State.setFlags_mems (s : State) (T r : Nat) (v : Flags) : (s.setFlags T r v).mems = s.mems := by simp [State.setFlags]

@[simp ↓] theorem State.setSidx_mems (s : State) (T n v : Nat) : (s.setSidx T n v).mems = s.mems := by simp [State.setSidx]

/-! ## Lattice -/

@[simp ↓] theorem State.latEvent_mems (g : Nat) (out prev : Nat) (e : Nat) (s : State) :
    (s.latEvent g out prev e).mems = s.mems := by simp [State.latEvent]

@[simp ↓] theorem State.latPin_mems (g : Nat) (out : Nat) (k : Nat) (s : State) : (s.latPin g out k).mems = s.mems := by simp [State.latPin]

@[simp ↓] theorem State.latEval_mems (s : State) (g : Nat) : (s.latEval g).mems = s.mems := by simp [State.latEval]

/-! ## Switch -/

@[simp ↓] theorem State.setSrc_mems (s : State) (x : Src) (st : Stage) : (s.setSrc x st).mems = s.mems := by simp [State.setSrc]

@[simp ↓] theorem State.barkDrop_mems (s : State) (T i : Nat) (w : CWord) : (s.barkDrop T i w).mems = s.mems := by simp [State.barkDrop]

@[simp ↓] theorem State.parityNote_mems (s : State) (g owner loc : Nat) : (s.parityNote g owner loc).mems = s.mems := by
  simp [State.parityNote]

@[simp ↓] theorem State.parityTold_mems (s : State) (T i : Nat) : (s.parityTold T i).mems = s.mems := by simp [State.parityTold]

@[simp ↓] theorem State.decodes_mems (s : State) (T i : Nat) (w : CWord) : (s.decodes T i w).mems = s.mems := by simp [State.decodes]

@[simp ↓] theorem State.intoStages_mems (s : State) (T i : Nat) (w : CWord) : (s.intoStages T i w).mems = s.mems := by
  simp [State.intoStages]

@[simp ↓] theorem State.arrive_mems (s : State) (T i : Nat) (w : CWord) : (s.arrive T i w).2.mems = s.mems := by
  unfold State.arrive
  dsimp only
  repeat' split
  all_goals simp

@[simp ↓] theorem State.arriveTap_mems (s : State) (T i : Nat) (upset : Bool) (w : CWord) :
    (s.arriveTap T i upset w).mems = s.mems := by simp [State.arriveTap]

@[simp ↓] theorem State.inputStep_mems (s : State) (T i : Nat) (upset : Bool) : (s.inputStep T i upset).mems = s.mems := by
  unfold State.inputStep
  dsimp only
  repeat' split
  all_goals simp

/-! ## Tile -/

@[simp ↓] theorem State.sched_mems (s : State) (T : Nat) (l : List Landing) : (s.sched T l).mems = s.mems := by simp [State.sched]

@[simp ↓] theorem State.steerTo_mems (s : State) (T group due value : Nat) : (s.steerTo T group due value).mems = s.mems := by
  simp [State.steerTo]

@[simp ↓] theorem State.execRing_mems (s0 : State) (T r group i n : Nat) : (s0.execRing T r group i n).mems = s0.mems := by
  unfold State.execRing
  extract_lets rcd own mo act k dual q q3 word op writes inW ring mk tell s1 md ptr s2 a slot
  have htell : ∀ b c d e t, (tell b c d e t).mems = t.mems := fun b c d e t => by
    dsimp only [tell]
    split <;> simp
  have h1 : s1.mems = s0.mems := forEach_mems _ _ _ fun e t => by
    dsimp only
    split <;> simp
  have h2 : s2.mems = s0.mems := by simp [s2, h1]
  clear_value tell s2
  split
  split
  extract_lets z wu fault s3 u s4 s5 s6 s7 s8 s9
  clear_value z wu fault u
  have h3 : s3.mems = s0.mems := by
    dsimp only [s3]
    split
    · exact h2
    · split <;> simp [htell, h2]
  clear_value s3
  have h4 : s4.mems = s0.mems := by simp [s4, h3]
  clear_value s4
  have h5 : s5.mems = s0.mems := by
    dsimp only [s5]
    split
    · split
      · exact h4
      · split <;> simp [htell, h4]
    · exact h4
  clear_value s5
  have h6 : s6.mems = s0.mems := by
    dsimp only [s6]
    split <;> simp [h5]
  clear_value s6
  have h9 : s9.mems = s0.mems := by simp [s9, s8, s7, htell, h6]
  clear_value s9
  split
  · exact h9
  · simp [h9]

@[simp ↓] theorem State.ownerFault_mems (s : State) (T r : Nat) : (s.ownerFault T r).mems = s.mems := by simp [State.ownerFault]

@[simp ↓] theorem State.slot_mems (s : State) (T : Nat) : (s.slot T).mems = s.mems := by simp [State.slot]

@[simp ↓] theorem State.writeGcal_mems (s : State) (p : Party) (g : Nat) (w : Word) : (s.writeGcal p g w).mems = s.mems := by
  unfold State.writeGcal
  split <;> simp

/-! ## Fifo -/

@[simp ↓] theorem State.setFifo_mems (s : State) (F : Nat) (x : FifoSt) : (s.setFifo F x).mems = s.mems := by simp [State.setFifo]

@[simp ↓] theorem State.fifoStore_mems (s : State) (F : Nat) (ws : List CWord) : (s.fifoStore F ws).mems = s.mems := by
  unfold State.fifoStore
  dsimp only
  repeat' split
  all_goals simp

@[simp ↓] theorem State.fifoBark_mems (s : State) (F k : Nat) (w : CWord) : (s.fifoBark F k w).mems = s.mems := by simp [State.fifoBark]

@[simp ↓] theorem State.fifoTapWrite_mems (s : State) (F : Nat) (upset : List Nat) :
    (s.fifoTapWrite F upset).mems = s.mems := by
  unfold State.fifoTapWrite
  extract_lets r T own key taps
  split
  · rfl
  next word s1 here s2 good _ =>
  have h1 : s1.mems = s.mems := forEach_mems _ _ _ fun _ _ => by simp
  have h2 : s2.mems = s1.mems := forEach_mems _ _ _ fun e t => by
    dsimp only
    split
    · split <;> simp
    · rfl
  clear_value s1 s2
  split <;> simp [h2, h1]

@[simp ↓] theorem State.fifoLeave_mems (s : State) (F : Nat) (upset : List Nat) (n : Nat) :
    (s.fifoLeave F upset n).mems = s.mems := by simp [State.fifoLeave]

@[simp ↓] theorem State.fifoTapRead_mems (s : State) (F : Nat) (upset line : List Nat) :
    (s.fifoTapRead F upset line).mems = s.mems := by
  unfold State.fifoTapRead
  extract_lets r T own
  split
  · rfl
  next send _ =>
  have hsend : ∀ ws t u, send ws t = some u → u.mems = t.mems := by
    intro ws t u h
    obtain ⟨-, h⟩ := Option.ite_none_right_eq_some.mp h
    cases h
    exact forEach_mems _ _ _ fun _ _ => State.arriveTap_mems _ _ _ _ _
  clear_value send
  split
  · split
    · next heq => simp [hsend _ _ _ heq]
    · rfl
  split
  · rfl
  · cases ht : send (idleWords own (fifoW r)) s with
    | none => rfl
    | some t => exact hsend _ _ _ ht

theorem State.fifoNocPut_mems (s : State) (F : Nat) (ws : List Word) {t : State} (ht : s.fifoNocPut F ws = some t) :
    t.mems = s.mems := by
  unfold State.fifoNocPut at ht
  split at ht
  · cases ht
    simp
  · cases ht

theorem State.fifoNocGive_mems (s : State) (F : Nat) (upset : List Nat) {t : State} {x : List Word}
    (ht : s.fifoNocGive F upset = some (x, t)) :
    t.mems = s.mems := by
  unfold State.fifoNocGive at ht
  dsimp only at ht
  repeat' split at ht
  all_goals cases ht
  all_goals simp

@[simp ↓] theorem State.fifoFlush_mems (s : State) (F : Nat) : (s.fifoFlush F).mems = s.mems := by simp [State.fifoFlush]

@[simp ↓] theorem State.writeFf_mems (s : State) (p : Party) (n : RegName) (F : Nat) (w : Word) :
    (s.writeFf p n F w).mems = s.mems := by
  unfold State.writeFf
  split <;> simp

/-! ## Shadow -/

@[simp ↓] theorem State.zeroGroup_mems (x : Nat × Nat) (s : State) : (s.zeroGroup x).mems = s.mems := by simp [State.zeroGroup]

@[simp ↓] theorem State.zeroMc_mems (k : Nat) (s : State) : (s.zeroMc k).mems = s.mems := by simp [State.zeroMc]

@[simp ↓] theorem State.commitOwners_mems (s : State) (g : Nat) : (s.commitOwners g).mems = s.mems := by
  simp (disch := (intros; split <;> simp)) [State.commitOwners]

@[simp ↓] theorem State.activateShadows_mems (s : State) (g : Nat) : (s.activateShadows g).mems = s.mems := by simp [State.activateShadows]

@[simp ↓] theorem State.commitShadows_mems (s : State) (g : Nat) : (s.commitShadows g).mems = s.mems := by simp [State.commitShadows]

@[simp ↓] theorem State.writeRingOwner_mems (s : State) (k : Nat) (own : Tag) (ripe : Bool) :
    (s.writeRingOwner k own ripe).mems = s.mems := by simp [State.writeRingOwner]

/-! ## Shared -/

@[simp ↓] theorem State.meterAdd_mems (s : State) (d m k : Nat) : (s.meterAdd d m k).mems = s.mems := by simp [State.meterAdd]

@[simp ↓] theorem State.signalVec_mems (s : State) (fn v : Nat) : (s.signalVec fn v).mems = s.mems := by simp [State.signalVec]

@[simp ↓] theorem State.queueCall_mems (s : State) (c : CallSrc) : (s.queueCall c).mems = s.mems := by simp [State.queueCall]

/-! ## CellIn -/

@[simp ↓] theorem State.setLink_mems (s : State) (h : Handle) (l : Link) : (s.setLink h l).mems = s.mems := by simp [State.setLink]

@[simp ↓] theorem State.setCin_mems (s : State) (p : Nat) (c : CellInSt) : (s.setCin p c).mems = s.mems := by simp [State.setCin]

@[simp ↓] theorem State.setCout_mems (s : State) (p : Nat) (c : CellOutSt) : (s.setCout p c).mems = s.mems := by simp [State.setCout]

@[simp ↓] theorem State.judgeFill_mems (s : State) : s.judgeFill.mems = s.mems := by simp [State.judgeFill]

@[simp ↓] theorem State.noteFill_mems (s : State) : s.noteFill.mems = s.mems := by simp [State.noteFill]

@[simp ↓] theorem State.freeCell_mems (s : State) (h : Handle) : (s.freeCell h).mems = s.mems := by simp [State.freeCell]

@[simp ↓] theorem State.statusRec_mems (s : State) (p : Nat) (tag : Tag) (mdat : Nat) (st handle kind cause len : Nat) :
    (s.statusRec p tag mdat st handle kind cause len).mems = s.mems := by simp [State.statusRec]

@[simp ↓] theorem State.dropCounts_mems (s : State) (p : Nat) (tag : Tag) (mdat : Nat) (cause : Status) (head words : Nat) :
    (s.dropCounts p tag mdat cause head words).mems = s.mems := by simp [State.dropCounts]

@[simp ↓] theorem State.dropPkt_mems (s : State) (p : Nat) (k : OpenPkt) (cause : Status) (more : Bool) :
    (s.dropPkt p k cause more).mems = s.mems := by simp [State.dropPkt]

theorem State.storeWord_mems (s : State) (p : Nat) (k : OpenPkt) (w : CWord) (closing : Option Nat) {t : State}
    (ht : s.storeWord p k w closing = some t) :
    t.mems = s.mems := by
  unfold State.storeWord at ht
  dsimp only at ht
  repeat' split at ht
  all_goals cases ht
  all_goals simp

theorem State.openPkt_mems (s : State) (p : Nat) (w : CWord) (closing : Option Nat) {t : State}
    (ht : s.openPkt p w closing = some t) :
    t.mems = s.mems := by
  unfold State.openPkt at ht
  dsimp only at ht
  repeat' split at ht
  any_goals
    cases ht
    simp
  exact (State.storeWord_mems _ _ _ _ _ ht).trans (by simp)

theorem State.takeWord_mems (s : State) (p : Nat) (w : CWord) {t : State} (ht : s.takeWord p w = some t) :
    t.mems = s.mems := by
  unfold State.takeWord at ht
  dsimp only at ht
  repeat' split at ht
  any_goals
    cases ht
    simp
  any_goals exact State.storeWord_mems _ _ _ _ _ ht
  all_goals exact State.openPkt_mems _ _ _ _ ht

@[simp ↓] theorem State.enqueue_mems (s : State) (q : Nat) (x : Pkt) : (s.enqueue q x).mems = s.mems := by simp [State.enqueue]

@[simp ↓] theorem State.tellForeign_mems (s : State) (tag : Tag) : (s.tellForeign tag).mems = s.mems := by simp [State.tellForeign]

@[simp ↓] theorem State.refuseCmd_mems (s : State) (p : Nat) (tag : Tag) (m handle kind : Nat) (st : Status) :
    (s.refuseCmd p tag m handle kind st).mems = s.mems := by simp [State.refuseCmd]

@[simp ↓] theorem State.cellCmd_mems (s : State) (p : Nat) (w0 w1 : CWord) : (s.cellCmd p w0 w1).mems = s.mems := by simp [State.cellCmd]

/-- Taking a beat's words one after the other leaves the memories. -/
theorem State.takeWords_mems (p : Nat) (ws : List CWord) {s t : State}
    (h : ws.foldl (fun o w => o.bind fun s => s.takeWord p w) (some s) = some t) : t.mems = s.mems := by
  have hfold : ∀ (ws : List CWord) (o : Option State), (∀ t, o = some t → t.mems = s.mems) →
      ∀ t, ws.foldl (fun o w => o.bind (fun s => s.takeWord p w)) o = some t → t.mems = s.mems := by
    intro ws
    induction ws with
    | nil => exact fun o ho => ho
    | cons w r ih =>
      refine fun o ho => ih _ fun t ht => ?_
      obtain ⟨u, hu, ht⟩ := Option.bind_eq_some_iff.mp ht
      exact (State.takeWord_mems _ _ _ ht).trans (ho u hu)
  exact hfold ws (some s) (fun u hu => by cases hu; rfl) t h

@[simp ↓] theorem State.cellIn_mems (s : State) (p : Nat) : (s.cellIn p).mems = s.mems := by
  unfold State.cellIn
  extract_lets ws
  split
  · rfl
  next w0 c after _ =>
  have hafter : ∀ t, after = some t → t.mems = s.mems := by
    intro t ht
    dsimp only [after] at ht
    split at ht
    · cases ht
      simp
    · exact State.takeWords_mems p ws ht
  clear_value after
  split
  · next t => exact (forEach_mems _ _ _ fun _ _ => by simp).trans (hafter t rfl)
  · rfl

@[simp ↓] theorem State.grant_mems (s : State) (r : Req) : (s.grant r).mems = s.mems := by simp [State.grant]

@[simp ↓] theorem State.nobuf_mems (r : Req) (s : State) : (s.nobuf r).mems = s.mems := by
  unfold State.nobuf
  split <;> simp

@[simp ↓] theorem State.bankGrants_mems (s : State) : s.bankGrants.mems = s.mems := by
  unfold State.bankGrants
  split
  · rfl
  extract_lets rs wins s1
  split
  next t lost won heq =>
  have ht : t.mems = s.mems := by
    refine (congrArg (·.1.mems) heq).symm.trans ?_
    refine foldl_keeps (fun x : State × List Req × List Req => x.1.mems) _ _ _ fun x r => ?_
    dsimp only
    split
    · rfl
    · split <;> simp
  simp [ht]

@[simp ↓] theorem State.linkChain_mems (s : State) (head : CellState) (len : Nat) (hs : List Handle) :
    (s.linkChain head len hs).mems = s.mems := by simp [State.linkChain]

@[simp ↓] theorem State.complete_mems (s : State) (p : Nat) (k : OpenPkt) (last : Nat) :
    (s.complete p k last).mems = s.mems := by simp [State.complete]

@[simp ↓] theorem State.writeCell_mems (s : State) (h : Handle) (ws : List W24) : (s.writeCell h ws).mems = s.mems := by
  simp [State.writeCell]

@[simp ↓] theorem State.bankWrite_mems (s : State) (b : Nat) : (s.bankWrite b).mems = s.mems := by
  unfold State.bankWrite
  dsimp only
  repeat' split
  all_goals simp

/-! ## Capacity -/

@[simp ↓] theorem State.tellReduced_mems (s : State) (tag : Tag) (block item index old new : Nat) :
    (s.tellReduced tag block item index old new).mems = s.mems := by simp [State.tellReduced]

@[simp ↓] theorem State.reduceTo_mems (s : State) (lim t w new : Nat) : (s.reduceTo lim t w new).mems = s.mems := by simp [State.reduceTo]

@[simp ↓] theorem State.shedLimit_mems (s : State) (lim : Nat) (granted limit : Int) :
    (s.shedLimit lim granted limit).mems = s.mems := by simp [State.shedLimit]

@[simp ↓] theorem State.shed_mems (s : State) : s.shed.mems = s.mems := by simp [State.shed]

@[simp ↓] theorem State.bankOffline_mems (s : State) (b : Nat) : (s.bankOffline b).mems = s.mems := by simp [State.bankOffline]

@[simp ↓] theorem State.badUnitFound_mems (s : State) (h : Handle) (port : Nat) (read direct : Bool) :
    (s.badUnitFound h port read direct).mems = s.mems := by
  unfold State.badUnitFound
  extract_lets b s1 own s2 recent cx s3
  have h3 : s3.mems = s.mems := rfl
  clear_value s3
  split <;> simp [h3]

/-! ## Cells -/

@[simp ↓] theorem State.markBad_mems (s : State) (h : Handle) (units : List Nat) : (s.markBad h units).mems = s.mems := by
  simp [State.markBad]

@[simp ↓] theorem State.readCell_mems (s : State) (p : Nat) (o : OutPkt) (h : Handle) (health : CellHealth) :
    (s.readCell p o h health).2.mems = s.mems := by simp [State.readCell]

@[simp ↓] theorem State.bankRead_mems (s : State) (b : Nat) (health : CellHealth) : (s.bankRead b health).mems = s.mems := by
  unfold State.bankRead
  dsimp only
  repeat' split
  all_goals simp

theorem State.deliver_mems (s : State) (p : Nat) (line : List Nat) (ws : List CWord) {t : State}
    (ht : s.deliver p line ws = some t) :
    t.mems = s.mems := by
  unfold State.deliver at ht
  dsimp only at ht
  repeat' split at ht
  all_goals cases ht
  all_goals simp

@[simp ↓] theorem State.metaBeat_mems (s : State) (p : Nat) (o : OutPkt) (line : List Nat) :
    (s.metaBeat p o line).mems = s.mems := by
  unfold State.metaBeat
  split
  · next t ht => simp [State.deliver_mems _ _ _ _ ht]
  · rfl

@[simp ↓] theorem State.dataBeat_mems (s : State) (p : Nat) (o : OutPkt) (line : List Nat) :
    (s.dataBeat p o line).mems = s.mems := by
  unfold State.dataBeat
  dsimp only
  split
  · rfl
  · split
    · rfl
    · next t ht => split <;> simp [State.deliver_mems _ _ _ _ ht]

@[simp ↓] theorem State.setCellByte_mems (s : State) (c k : Nat) (v : Byte) : (s.setCellByte c k v).mems = s.mems := by
  simp [State.setCellByte]

@[simp ↓] theorem State.direct_mems (s : State) (tag : Tag) (write : Bool) (a len : Nat) (data : List Word) (x : UnitHealth) :
    (s.direct tag write a len data x).mems = s.mems := by simp [State.direct]

@[simp ↓] theorem State.directBy_mems (s : State) (p : Party) (a : Access) (x : UnitHealth) (bus : Bool) :
    (s.directBy p a x bus).mems = s.mems := by simp [State.directBy]

@[simp ↓] theorem State.writeCx_mems (s : State) (p : Party) (n : RegName) (i : Nat) (w : Word) :
    (s.writeCx p n i w).mems = s.mems := by simp [State.writeCx]

/-! ## Noc -/

@[simp ↓] theorem State.writeRteH_mems (s : State) (p : Party) (ni d : Nat) (w : Word) :
    (s.writeRteH p ni d w).mems = s.mems := by simp [State.writeRteH]

@[simp ↓] theorem State.putRoute_mems (s : State) (ni d cred : Nat) : (s.putRoute ni d cred).mems = s.mems := by simp [State.putRoute]

@[simp ↓] theorem State.injInForce_mems (s : State) (k : Nat) : (s.injInForce k).mems = s.mems := by simp [State.injInForce]

@[simp ↓] theorem State.writeInjB_mems (s : State) (p : Party) (ni i : Nat) (w : Word) :
    (s.writeInjB p ni i w).mems = s.mems := by simp [State.writeInjB]

@[simp ↓] theorem State.putInj_mems (s : State) (ni i : Nat) (valid : Bool) (tag : Tag) (dst prio rate burst : Nat) :
    (s.putInj ni i valid tag dst prio rate burst).mems = s.mems := by simp [State.putInj]

@[simp ↓] theorem State.dropInj_mems (s : State) (ni : Nat) (tag : Tag) (dst prio : Nat) :
    (s.dropInj ni tag dst prio).mems = s.mems := by
  unfold State.dropInj
  split <;> simp

@[simp ↓] theorem State.enterBuf_mems (s : State) (k t : Nat) (f : Flit) : (s.enterBuf k t f).mems = s.mems := by simp [State.enterBuf]

@[simp ↓] theorem State.setOut_mems (s : State) (ni : Nat) (l : List Outst) : (s.setOut ni l).mems = s.mems := by simp [State.setOut]

@[simp ↓] theorem State.noteSent_mems (s : State) (f : Flit) : (s.noteSent f).mems = s.mems := by simp [State.noteSent]

@[simp ↓] theorem State.niMove_mems (k : Nat) (s : State) : (s.niMove k).mems = s.mems := by
  unfold State.niMove
  split <;> simp

@[simp ↓] theorem State.inject_mems (s : State) (resp : Bool) (node : Nat) (fs : List Flit) :
    (s.inject resp node fs).mems = s.mems := by
  unfold State.inject
  split <;> simp

@[simp ↓] theorem State.setWait_mems (s : State) (ni : Nat) (l : List NocReq) : (s.setWait ni l).mems = s.mems := by simp [State.setWait]

@[simp ↓] theorem State.nocSubmit_mems (s : State) (ni : Nat) (q : NocReq) : (s.nocSubmit ni q).mems = s.mems := by simp [State.nocSubmit]

@[simp ↓] theorem State.nocSend_mems (s : State) (ni : Nat) (q : NocReq) (sealed : Bool) :
    (s.nocSend ni q sealed).mems = s.mems := by
  unfold State.nocSend
  repeat' split
  all_goals simp

@[simp ↓] theorem State.wormIn_mems (s : State) (resp : Bool) (node : Nat) (fs : List Flit) :
    (s.wormIn resp node fs).mems = s.mems := by
  unfold State.wormIn
  split <;> simp

@[simp ↓] theorem State.passFlit_mems (s : State) (resp : Bool) (r out : Nat) (f : Flit) :
    (s.passFlit resp r out f).mems = s.mems := by
  unfold State.passFlit
  repeat' split
  all_goals simp

@[simp ↓] theorem State.forward_mems (s : State) (resp : Bool) (r out : Nat) (u : FlitUpset) :
    (s.forward resp r out u).mems = s.mems := by
  unfold State.forward
  split <;> simp

@[simp ↓] theorem State.respond_mems (s : State) (node : Nat) (q : TReq) (st : Status) (data : List Word) :
    (s.respond node q st data).mems = s.mems := by simp [State.respond]

@[simp ↓] theorem State.resetRequester_mems (s : State) (ni : Nat) (who : NocReq → Bool) :
    (s.resetRequester ni who).mems = s.mems := by simp [State.resetRequester]

/-! ## Host -/

@[simp ↓] theorem State.hostDone_mems (s : State) (f : HostFn) (st : Status) : (s.hostDone f st).mems = s.mems := by
  unfold State.hostDone
  repeat' split
  all_goals simp

@[simp ↓] theorem State.setDma_mems (s : State) (k : Nat) (d : DmaSt) : (s.setDma k d).mems = s.mems := by simp [State.setDma]

@[simp ↓] theorem State.vfErr_mems (s : State) (v : Nat) (r : BitVec 64) : (s.vfErr v r).mems = s.mems := by simp [State.vfErr]

@[simp ↓] theorem State.vfErrTake_mems (s : State) (v : Nat) : (s.vfErrTake v).mems = s.mems := by simp [State.vfErrTake]

@[simp ↓] theorem State.readTakes_mems (s : State) (n : RegName) (i : Nat) : (s.readTakes n i).mems = s.mems := by
  unfold State.readTakes
  split <;> simp

@[simp ↓] theorem State.writeMsix_mems (s : State) (p : Party) (i : Nat) (w : Word) : (s.writeMsix p i w).mems = s.mems := by
  simp [State.writeMsix]

@[simp ↓] theorem State.writeMail_mems (s : State) (p : Party) (n : RegName) (i : Nat) (w : Word) :
    (s.writeMail p n i w).mems = s.mems := by
  unfold State.writeMail
  split <;> simp

@[simp ↓] theorem State.pfDone_mems (s : State) (p : Party) : (s.pfDone p).mems = s.mems := by simp [State.pfDone]

@[simp ↓] theorem State.graftDone_mems (s : State) (v st reason : Nat) : (s.graftDone v st reason).mems = s.mems := by
  simp [State.graftDone]

@[simp ↓] theorem State.graftIdle_mems (s : State) (v : Nat) : (s.graftIdle v).mems = s.mems := by simp [State.graftIdle]

@[simp ↓] theorem State.writeGctl_mems (s : State) (p : Party) (v : Nat) (w : Word) : (s.writeGctl p v w).mems = s.mems := by
  unfold State.writeGctl
  split <;> simp

@[simp ↓] theorem State.writeGdata_mems (s : State) (v : Nat) (ws : List Word) : (s.writeGdata v ws).mems = s.mems := by
  simp [State.writeGdata]

@[simp ↓] theorem State.writeQcfgDma_mems (s : State) (p : Party) (k : Nat) (w : Word) :
    (s.writeQcfgDma p k w).mems = s.mems := by simp [State.writeQcfgDma]

@[simp ↓] theorem State.writeRingPtr_mems (s : State) (p : Party) (n : RegName) (k : Nat) (w : Word) :
    (s.writeRingPtr p n k w).mems = s.mems := by simp [State.writeRingPtr]

@[simp ↓] theorem State.writeVf_mems (s : State) (p : Party) (n : RegName) (i : Nat) (w : Word) :
    (s.writeVf p n i w).mems = s.mems := by
  unfold State.writeVf
  dsimp only
  repeat' split
  all_goals simp

@[simp ↓] theorem State.vfDone_mems (s : State) (v : Fin 512) : (s.vfDone v).mems = s.mems := by simp [State.vfDone]

@[simp ↓] theorem State.vfWrite_mems (s : State) (v : Fin 512) (n : RegName) (i : Nat) (w : Word) :
    (s.vfWrite v n i w).mems = s.mems := by
  unfold State.vfWrite
  split <;> simp

@[simp ↓] theorem State.bar2Write_mems (s : State) (len : Nat) (ws : List Word) : (s.bar2Write len ws).mems = s.mems := by
  simp [State.bar2Write]

@[simp ↓] theorem State.writeHi_mems (s : State) (p : Party) (n : RegName) (i : Nat) (w : Word) :
    (s.writeHi p n i w).mems = s.mems := by
  unfold State.writeHi
  repeat' split
  all_goals simp

@[simp ↓] theorem State.eachWord_mems (s : State) {f : Nat → Word → State → State} (addr : Nat) (ws : List Word)
    (h : ∀ a w t, (f a w t).mems = t.mems) : (s.eachWord f addr ws).mems = s.mems := by
  simp only [State.eachWord, State.ans_mems]
  exact foldl_keeps (fun x : Status × List Word × State => x.2.2.mems) _ _ _ fun x e => h _ _ _

@[simp ↓] theorem State.hiWord_mems (s : State) (p : Party) (write : Bool) (r : Option RegId) (w : Word) :
    (s.hiWord p write r w).mems = s.mems := by
  unfold State.hiWord
  split <;> simp

@[simp ↓] theorem State.hostAccess_mems (s : State) (f : HostFn) (a : Access) : (s.hostAccess f a).mems = s.mems := by
  unfold State.hostAccess
  repeat' split
  all_goals simp

@[simp ↓] theorem State.vfReset_mems (v : Nat) (s : State) : (s.vfReset v).mems = s.mems := by simp [State.vfReset]

@[simp ↓] theorem State.pf0Reset_mems (s : State) : s.pf0Reset.mems = s.mems := by simp [State.pf0Reset]

/-! ## Dispatcher -/

@[simp ↓] theorem State.setThr_mems (s : State) (i : Nat) (t : Thread) : (s.setThr i t).mems = s.mems := by simp [State.setThr]

@[simp ↓] theorem State.setCore_mems (s : State) (n : Nat) (c : CoreSt) : (s.setCore n c).mems = s.mems := by simp [State.setCore]

@[simp ↓] theorem State.traceRec_mems (s : State) (kind core thread detail : Nat) :
    (s.traceRec kind core thread detail).mems = s.mems := by simp [State.traceRec]

@[simp ↓] theorem State.nextSeq_mems (s : State) : s.nextSeq.2.mems = s.mems := by simp [State.nextSeq]

@[simp ↓] theorem State.makeReady_mems (s : State) (i reason : Nat) (val : Word) (detail : Nat) :
    (s.makeReady i reason val detail).mems = s.mems := by simp [State.makeReady]

@[simp ↓] theorem State.readyAtHead_mems (s : State) (i : Nat) : (s.readyAtHead i).mems = s.mems := by simp [State.readyAtHead]

theorem State.assignOne_mems (s : State) {t : State} (ht : s.assignOne = some t) : t.mems = s.mems := by
  unfold State.assignOne at ht
  dsimp only at ht
  repeat' split at ht
  all_goals cases ht
  all_goals simp

@[simp ↓] theorem State.assignPass_mems (fuel : Nat) (s : State) : (s.assignPass fuel).mems = s.mems := by
  induction fuel generalizing s with
  | zero => rfl
  | succ fuel ih =>
    unfold State.assignPass
    split
    · next t ht => exact (ih t).trans (State.assignOne_mems s ht)
    · rfl

@[simp ↓] theorem State.preemptPass_mems (s : State) : s.preemptPass.mems = s.mems := by
  simp (disch := (intros; split <;> simp)) [State.preemptPass]

@[simp ↓] theorem State.passes2_mems (s : State) : s.passes2.mems = s.mems := by simp [State.passes2]

@[simp ↓] theorem State.stopClock_mems (s : State) (n : Nat) : (s.stopClock n).mems = s.mems := by simp [State.stopClock]

@[simp ↓] theorem State.endRun_mems (s : State) (n i op : Nat) : (s.endRun n i op).mems = s.mems := by simp [State.endRun]

@[simp ↓] theorem State.freeThr_mems (s : State) (i : Nat) : (s.freeThr i).mems = s.mems := by simp [State.freeThr]

@[simp ↓] theorem State.setWake_mems (s : State) (i : Nat) (stamp : Word) : (s.setWake i stamp).mems = s.mems := by simp [State.setWake]

@[simp ↓] theorem State.setDl_mems (s : State) (i : Nat) (stamp : Word) : (s.setDl i stamp).mems = s.mems := by simp [State.setDl]

@[simp ↓] theorem State.wakeNow_mems (e : Nat × Thread) (s : State) : (s.wakeNow e).mems = s.mems := by simp [State.wakeNow]

@[simp ↓] theorem State.missNow_mems (e : Nat × Thread) (s : State) : (s.missNow e).mems = s.mems := by simp [State.missNow]

@[simp ↓] theorem State.dispFault_mems (s : State) (u : DispCheck) : (s.dispFault u).mems = s.mems := by simp [State.dispFault]

@[simp ↓] theorem State.tickOp_mems (s : State) (u : DispCheck) : (s.tickOp u).mems = s.mems := by simp [State.tickOp]

@[simp ↓] theorem State.tickFirst_mems (s : State) : s.tickFirst.mems = s.mems := by simp [State.tickFirst]

@[simp ↓] theorem State.setPend_mems (s : State) (e : Nat) (v : Bool) : (s.setPend e v).mems = s.mems := by simp [State.setPend]

@[simp ↓] theorem State.egSet_mems (s : State) (g : Nat) (v : Word) (detail : Nat) : (s.egSet g v detail).mems = s.mems := by
  simp [State.egSet]

@[simp ↓] theorem State.deliverSrc_mems (s : State) (e : Nat) : (s.deliverSrc e).mems = s.mems := by
  unfold State.deliverSrc
  dsimp only
  split <;> simp

@[simp ↓] theorem State.turnFirst_mems (s : State) : s.turnFirst.mems = s.mems := by
  unfold State.turnFirst
  dsimp only
  repeat' split
  all_goals simp

@[simp ↓] theorem State.cmdResult_mems (s : State) (n : Nat) (st : Status) (ended : Bool) (val : Word) :
    (s.cmdResult n st ended val).mems = s.mems := by simp [State.cmdResult]

@[simp ↓] theorem State.serveCore_mems (s : State) (n : Nat) : (s.serveCore n).mems = s.mems := by simp [State.serveCore]

/-- What a dispatcher command comes to holds the memories `m`. -/
def CmdOut.KeepsMems (o : CmdOut) (m : Mems) : Prop :=
  match o with
  | .refused _ => True
  | .done t _ _ => t.mems = m

@[simp ↓] theorem CmdOut.keepsMems_refused (st : Status) (m : Mems) : (CmdOut.refused st).KeepsMems m := trivial

@[simp ↓] theorem CmdOut.keepsMems_done (t : State) (e : Bool) (v : Word) (m : Mems) : (CmdOut.done t e v).KeepsMems m ↔ t.mems = m :=
  Iff.rfl

/-- A dispatcher command leaves the memories when its own effect does. -/
theorem State.command_mems (s : State) (n : Nat) (u : DispCheck) {f : State → Option Nat → CmdOut}
    (h : ∀ t cur, (f t cur).KeepsMems t.mems) : (s.command n u f).mems = s.mems := by
  have hf := h (s.serveCore n) (((s.serveCore n).coreSt n).cur.map (·.val))
  unfold State.command
  dsimp only
  split
  · rfl
  split
  · simp
  split
  · simp
  split
  · simp
  · next t e v heq =>
    rw [heq] at hf
    simpa using hf

theorem keepsMems_command (s : State) (n : Nat) (u : DispCheck) {f : State → Option Nat → CmdOut}
    (h : ∀ t cur, (f t cur).KeepsMems t.mems) : KeepsMems (.next (s.command n u f)) s :=
  (keepsMems_next _ _).mpr (s.command_mems n u h)

@[simp ↓] theorem State.beginWait_mems (s : State) (n i op : Nat) (st : ThState) (obj : Nat) (d : Tmo) :
    (s.beginWait n i op st obj d).mems = s.mems := by
  unfold State.beginWait
  dsimp only
  repeat' split
  all_goals simp

@[simp ↓] theorem State.waitOr_keepsMems (s : State) (n i op : Nat) (st : ThState) (obj : Nat) (d : Tmo) :
    (s.waitOr n i op st obj d).KeepsMems s.mems := by
  unfold State.waitOr
  split <;> simp

@[simp ↓] theorem State.unbind_mems (s : State) (i : Nat) : (s.unbind i).mems = s.mems := by simp [State.unbind]

@[simp ↓] theorem State.exitCur_keepsMems (s : State) (n i : Nat) : (s.exitCur n i).KeepsMems s.mems := by simp [State.exitCur]

@[simp ↓] theorem State.yieldCur_keepsMems (s : State) (n i op : Nat) : (s.yieldCur n i op).KeepsMems s.mems := by simp [State.yieldCur]

@[simp ↓] theorem State.delayCur_keepsMems (s : State) (n i op : Nat) (stamp : Word) : (s.delayCur n i op stamp).KeepsMems s.mems := by
  simp [State.delayCur]

@[simp ↓] theorem State.rebuilt_mems (s : State) : s.rebuilt.mems = s.mems := by
  unfold State.rebuilt
  extract_lets s1 s2 s3 s4
  have h4 : s4.mems = s3.mems := forEach_mems _ _ _ fun n t => by
    split
    · split <;> simp
    · rfl
  have h3 : s3.mems = s.mems := by simp [s3, s2, s1]
  clear_value s3 s4
  simp [h4, h3]

@[simp ↓] theorem State.dispReset_mems (s : State) (from' : Nat) : (s.dispReset from').mems = s.mems := by simp [State.dispReset]

/-- The commands of threads, semaphores, event groups and event sources leave the memories. -/
@[simp ↓] theorem threadCommands_keepMems (n : Fin 8) (obj : BitVec 10) (u : DispCheck) (s : State) :
    KeepsMems (execCreate n obj u s) s ∧ KeepsMems (execDestroy n obj u s) s ∧ KeepsMems (execSetprio n obj u s) s ∧
    KeepsMems (execSetaff n obj u s) s ∧ KeepsMems (execWakeThread n obj u s) s ∧ KeepsMems (execYieldThread n obj u s) s ∧
    KeepsMems (execExitThread n obj u s) s ∧ KeepsMems (execDelay n obj u s) s ∧ KeepsMems (execDelayto n obj u s) s ∧
    KeepsMems (execSetdl n obj u s) s ∧ KeepsMems (execClrdl n obj u s) s ∧ KeepsMems (execSemtake n obj u s) s ∧
    KeepsMems (execSemgive n obj u s) s ∧ KeepsMems (execSeminit n obj u s) s ∧ KeepsMems (execEgset n obj u s) s ∧
    KeepsMems (execEgclr n obj u s) s ∧ KeepsMems (execEvwait n obj u s) s ∧ KeepsMems (execEvbind n obj u s) s ∧
    KeepsMems (execEvclr n obj u s) s := by
  and_intros
  all_goals
    refine keepsMems_command _ _ _ fun t cur => ?_
    try dsimp only
    repeat' split
  all_goals simp

@[simp ↓] theorem execEgwait_keepsMems (n : Fin 8) (obj : BitVec 10) (all clr : Bool) (u : DispCheck) (s : State) :
    KeepsMems (execEgwait n obj all clr u s) s := by
  refine keepsMems_command _ _ _ fun t cur => ?_
  dsimp only
  split
  · next i =>
    split
    · simp
    split
    · simp
    have hw := t.waitOr_keepsMems n.val i 0x1A .waitEg obj.toNat (tmoOf (t.arg1 n.val))
    generalize t.waitOr n.val i 0x1A .waitEg obj.toNat (tmoOf (t.arg1 n.val)) = o at hw ⊢
    cases o with
    | refused st => trivial
    | done t' e v => simpa using hw
  · simp

@[simp ↓] theorem execTake_keepsMems (n : Fin 8) (u : DispCheck) (s : State) : KeepsMems (execTake n u s) s := by
  unfold execTake
  dsimp only
  repeat' split
  all_goals simp

@[simp ↓] theorem execTraceRead_keepsMems (p : Party) (s : State) : KeepsMems (execTraceRead p s) s := by
  unfold execTraceRead
  split <;> simp

@[simp ↓] theorem execDlmissRead_keepsMems (p : Party) (s : State) : KeepsMems (execDlmissRead p s) s := by
  unfold execDlmissRead
  split <;> simp

/-! ## Cores -/

@[simp ↓] theorem State.setCsr_mems (s : State) (n c v : Nat) : (s.setCsr n c v).mems = s.mems := by simp [State.setCsr]

@[simp ↓] theorem State.csrWrite_mems (s : State) (n c v : Nat) : (s.csrWrite n c v).mems = s.mems := by
  unfold State.csrWrite
  split <;> simp

@[simp ↓] theorem State.setMode_mems (s : State) (n : Nat) (u : Bool) : (s.setMode n u).mems = s.mems := by simp [State.setMode]

@[simp ↓] theorem State.coreTrap_mems (s : State) (n cause tval pc : Nat) : (s.coreTrap n cause tval pc).mems = s.mems := by
  simp [State.coreTrap]

@[simp ↓] theorem State.coreRet_mems (s : State) (n : Nat) : (s.coreRet n).mems = s.mems := by simp [State.coreRet]

@[simp ↓] theorem State.breakResv_mems (s : State) (lo len : Nat) : (s.breakResv lo len).mems = s.mems := by simp [State.breakResv]

@[simp ↓] theorem State.setResv_mems (s : State) (n : Nat) (d : Option Nat) : (s.setResv n d).mems = s.mems := by simp [State.setResv]

/-! ## TimeBase -/

@[simp ↓] theorem State.putTime_mems (s : State) (h l n f : RegName) (t : Nat) : (s.putTime h l n f t).mems = s.mems := by
  simp [State.putTime]

@[simp ↓] theorem State.writeTbcmd_mems (s : State) (p : Party) (w : Word) : (s.writeTbcmd p w).mems = s.mems := by simp [State.writeTbcmd]

@[simp ↓] theorem State.writeTb_mems (s : State) (p : Party) (n : RegName) (i : Nat) (w : Word) :
    (s.writeTb p n i w).mems = s.mems := by
  unfold State.writeTb
  repeat' split
  all_goals simp

/-! ## Pins -/

@[simp ↓] theorem State.timerLoad_mems (s : State) (n : Nat) : (s.timerLoad n).mems = s.mems := by simp [State.timerLoad]

@[simp ↓] theorem State.timerStep_mems (n : Nat) (s : State) : (s.timerStep n).mems = s.mems := by simp [State.timerStep]

@[simp ↓] theorem State.timerCapture_mems (s : State) (n : Nat) : (s.timerCapture n).mems = s.mems := by simp [State.timerCapture]

@[simp ↓] theorem State.patEval_mems (u : Nat) (s : State) : (s.patEval u).mems = s.mems := by simp [State.patEval]

@[simp ↓] theorem State.patAssert_mems (u : Nat) (s : State) : (s.patAssert u).mems = s.mems := by simp [State.patAssert]

@[simp ↓] theorem State.hubStep_mems (s : State) (pads : BitVec 64) : (s.hubStep pads).mems = s.mems := by simp [State.hubStep]

@[simp ↓] theorem State.pinBits_mems (s : State) (p : Party) (n : RegName) (i mask : Nat) (apply : Nat → Nat → Nat) :
    (s.pinBits p n i mask apply).mems = s.mems := by simp [State.pinBits]

@[simp ↓] theorem State.writePin_mems (s : State) (p : Party) (n : RegName) (i : Nat) (w : Word) :
    (s.writePin p n i w).mems = s.mems := by
  unfold State.writePin
  split <;> simp

@[simp ↓] theorem State.writePcfg_mems (s : State) (p : Party) (n : Nat) (w : Word) : (s.writePcfg p n w).mems = s.mems := by
  simp [State.writePcfg]

@[simp ↓] theorem State.writePat_mems (s : State) (p : Party) (n : RegName) (u : Nat) (w : Word) :
    (s.writePat p n u w).mems = s.mems := by simp [State.writePat]

@[simp ↓] theorem State.writeTimer_mems (s : State) (p : Party) (n : RegName) (i : Nat) (w : Word) :
    (s.writeTimer p n i w).mems = s.mems := by simp [State.writeTimer]

@[simp ↓] theorem State.writeGp_mems (s : State) (p : Party) (n : RegName) (i : Nat) (w : Word) :
    (s.writeGp p n i w).mems = s.mems := by
  unfold State.writeGp
  repeat' split
  all_goals simp

@[simp ↓] theorem State.pinsAtLoad_mems (s : State) (service : Bool) : (s.pinsAtLoad service).mems = s.mems := by simp [State.pinsAtLoad]

@[simp ↓] theorem State.putPinFrame_mems (s : State) (sub : Nat) (ws : List Word) : (s.putPinFrame sub ws).mems = s.mems := by
  simp [State.putPinFrame]

@[simp ↓] theorem State.pinsAtOut_mems (s : State) (supply : Nat) : (s.pinsAtOut supply).mems = s.mems := by
  unfold State.pinsAtOut
  dsimp only
  repeat' split
  all_goals simp

/-! ## Image -/

@[simp ↓] theorem State.readSlot_mems (s : State) (t : Nat) : (s.readSlot t).2.mems = s.mems := by
  unfold State.readSlot
  dsimp only
  repeat' split
  all_goals simp

/-! ## Lanes -/

@[simp ↓] theorem State.laneSticky_mems (s : State) (j b : Nat) : (s.laneSticky j b).mems = s.mems := by simp [State.laneSticky]

@[simp ↓] theorem State.setPy_mems (s : State) (j : Nat) (x : PyrilSt) : (s.setPy j x).mems = s.mems := by simp [State.setPy]

@[simp ↓] theorem State.setPySt_mems (s : State) (j v : Nat) : (s.setPySt j v).mems = s.mems := by simp [State.setPySt]

@[simp ↓] theorem State.pyDown_mems (s : State) (j : Nat) : (s.pyDown j).mems = s.mems := by simp [State.pyDown]

@[simp ↓] theorem State.setTx_mems (s : State) (j : Nat) (x : TxSt) : (s.setTx j x).mems = s.mems := by simp [State.setTx]

@[simp ↓] theorem State.laneLoses_mems (s : State) (j b sticky : Nat) : (s.laneLoses j b sticky).mems = s.mems := by simp [State.laneLoses]

@[simp ↓] theorem State.laneUp_mems (s : State) (j : Nat) : (s.laneUp j).mems = s.mems := by simp [State.laneUp]

@[simp ↓] theorem State.laneDown_mems (s : State) (j : Nat) : (s.laneDown j).mems = s.mems := by simp [State.laneDown]

@[simp ↓] theorem State.writeLnCfg_mems (s : State) (p : Party) (j : Nat) (w : Word) : (s.writeLnCfg p j w).mems = s.mems := by
  simp [State.writeLnCfg]

@[simp ↓] theorem State.writeWhole_mems (s : State) (p : Party) (n : RegName) (i : Nat) (ok : Bool) (w : Word) :
    (s.writeWhole p n i ok w).mems = s.mems := by simp [State.writeWhole]

@[simp ↓] theorem State.writeTrain_mems (s : State) (p : Party) (j : Nat) (w : Word) : (s.writeTrain p j w).mems = s.mems := by
  simp [State.writeTrain]

@[simp ↓] theorem State.writeEye_mems (s : State) (p : Party) (j : Nat) (w : Word) : (s.writeEye p j w).mems = s.mems := by
  simp [State.writeEye]

@[simp ↓] theorem State.lnCount_mems (s : State) (j i k : Nat) : (s.lnCount j i k).mems = s.mems := by simp [State.lnCount]

@[simp ↓] theorem State.writeCntctl_mems (s : State) (p : Party) (j : Nat) (w : Word) :
    (s.writeCntctl p j w).mems = s.mems := by simp [State.writeCntctl]

@[simp ↓] theorem State.writeLn_mems (s : State) (p : Party) (n : RegName) (i : Nat) (w : Word) :
    (s.writeLn p n i w).mems = s.mems := by
  unfold State.writeLn
  repeat' split
  all_goals simp

@[simp ↓] theorem State.rxPush_mems (s : State) (j : Nat) (rows : List (List (List CWord))) :
    (s.rxPush j rows).mems = s.mems := by simp [State.rxPush]

@[simp ↓] theorem State.rxStore_mems (s : State) (j : Nat) (m : List CWord) (words : List CWord) :
    (s.rxStore j m words).2.mems = s.mems := by
  unfold State.rxStore
  dsimp only
  repeat' split
  all_goals simp

@[simp ↓] theorem State.rxCause_mems (s : State) (j : Nat) (f : RxFrame) : (s.rxCause j f).2.mems = s.mems := by
  unfold State.rxCause
  split <;> simp

@[simp ↓] theorem State.fecCount_mems (s : State) (j : Nat) (l : List FecWord) : (s.fecCount j l).mems = s.mems := by
  simp (disch := (intros; split <;> simp)) [State.fecCount]

/-- What `rxStore` stores and the count that follows leave the memories. -/
theorem State.rxStore_count_mems (s : State) (j n : Nat) (m ws : List CWord) :
    (match s.rxStore j m ws with
      | (whole, t) => if whole then t.lnCount j n 1 else t).mems = s.mems := by
  have hs := s.rxStore_mems j m ws
  split
  next whole t heq =>
  rw [heq] at hs
  split
  · exact (t.lnCount_mems j n 1).trans hs
  · exact hs

@[simp ↓] theorem State.rxDeliver_mems (s : State) (j : Nat) (f : RxFrame) (low : Nat) (body : List Byte) :
    (s.rxDeliver j f low body).mems = s.mems := by
  unfold State.rxDeliver
  extract_lets i m cs s1
  have h1 : s1.mems = s.mems := by simp [s1]
  clear_value s1
  have hc := s1.rxCause_mems j f
  split
  · next s2 heq =>
    rw [heq] at hc
    exact (s2.rxStore_count_mems j 0 _ _).trans (hc.trans h1)
  · next c s2 heq =>
    rw [heq] at hc
    exact (s2.rxStore_count_mems j 1 _ _).trans (hc.trans h1)

@[simp ↓] theorem State.rawStore_mems (s : State) (j units : Nat) (bs : List (List CWord)) :
    (s.rawStore j units bs).2.mems = s.mems := by
  unfold State.rawStore
  dsimp only
  repeat' split
  all_goals simp

@[simp ↓] theorem State.cwLock_mems (s : State) (j : Nat) (good : Bool) : (s.cwLock j good).mems = s.mems := by simp [State.cwLock]

@[simp ↓] theorem State.laneBark_mems (s : State) (j : Nat) (w : CWord) : (s.laneBark j w).mems = s.mems := by simp [State.laneBark]

@[simp ↓] theorem State.txHeads_mems (s : State) (j : Nat) (upset : List Nat) : (s.txHeads j upset).2.mems = s.mems := by
  unfold State.txHeads
  refine foldl_keeps (fun x : List CWord × State => x.2.mems) _ _ _ fun x e => ?_
  dsimp only
  split
  · split <;> simp
  · rfl

@[simp ↓] theorem State.txRow_mems (s : State) (j : Nat) (upset : List (Fin 48)) : (s.txRow j upset).2.mems = s.mems := by
  unfold State.txRow
  dsimp only
  refine foldl_keeps (fun x : List (List CWord) × State => x.2.mems) _ _ _ fun x e => ?_
  simp

@[simp ↓] theorem State.popRow_mems (s : State) (j : Nat) : (s.popRow j).mems = s.mems := by simp [State.popRow]

@[simp ↓] theorem State.txDiscard_mems (s : State) (j : Nat) (ws : List CWord) : (s.txDiscard j ws).mems = s.mems := by
  simp [State.txDiscard]

@[simp ↓] theorem State.txTake_mems (s : State) (j : Nat) (kind : TxRow) (upset : List (Fin 48)) :
    (s.txTake j kind upset).mems = s.mems := by
  have hrow := s.txRow_mems j upset
  unfold State.txTake
  dsimp only
  split
  · next heq =>
    rw [heq] at hrow
    exact hrow
  · next rows t heq =>
    have ht : t.mems = s.mems := by
      rw [heq] at hrow
      exact hrow
    simp [ht]

@[simp ↓] theorem State.txCapture_mems (s : State) (j tag t : Nat) : (s.txCapture j tag t).mems = s.mems := by simp [State.txCapture]

@[simp ↓] theorem State.onLine_mems (s : State) (l : List Byte) : (s.onLine l).mems = s.mems := by simp [State.onLine]

@[simp ↓] theorem State.txSend_mems (s : State) (j : Nat) (f : TxFrame) : (s.txSend j f).mems = s.mems := by simp [State.txSend]

@[simp ↓] theorem State.txAbort_mems (s : State) (j : Nat) (f : TxFrame) : (s.txAbort j f).mems = s.mems := by simp [State.txAbort]

/-- What becomes of a frame that could start holds the memories `m`. -/
def TxBegin.KeepsMems (b : TxBegin) (m : Mems) : Prop :=
  match b with
  | .hold => True
  | .drop t | .go t _ _ => t.mems = m

@[simp ↓] theorem TxBegin.keepsMems_hold (m : Mems) : TxBegin.hold.KeepsMems m := trivial

@[simp ↓] theorem TxBegin.keepsMems_drop (t : State) (m : Mems) : (TxBegin.drop t).KeepsMems m ↔ t.mems = m := Iff.rfl

@[simp ↓] theorem TxBegin.keepsMems_go (t : State) (e : Nat) (hdr : List Byte) (m : Mems) :
    (TxBegin.go t e hdr).KeepsMems m ↔ t.mems = m := Iff.rfl

@[simp ↓] theorem TxBegin.keepsMems_ite (c : Prop) [Decidable c] (a b : TxBegin) (m : Mems) :
    (if c then a else b).KeepsMems m ↔ if c then a.KeepsMems m else b.KeepsMems m := by
  split <;> rfl

@[simp ↓] theorem State.beginFrame_keepsMems (lane j : Nat) (f : TxFrame) (s : State) : (s.beginFrame lane j f).KeepsMems s.mems := by
  simp [State.beginFrame]

@[simp ↓] theorem State.txDrop_mems (s : State) (j : Nat) (f : TxFrame) : (s.txDrop j f).mems = s.mems := by simp [State.txDrop]

@[simp ↓] theorem State.txBeat_mems (s : State) (j : Nat) (f : TxFrame) : (s.txBeat j f).2.mems = s.mems := by
  unfold State.txBeat
  dsimp only
  split <;> simp

/-- The line leaves the memories when the beginning of a frame does. -/
@[simp ↓] theorem State.txDrain_mems (j : Nat) (kind due : Bool) {begin' : TxFrame → State → TxBegin}
    (h : ∀ f t, (begin' f t).KeepsMems t.mems) (fuel : Nat) (s : State) : (State.txDrain j kind due begin' fuel s).mems = s.mems := by
  induction fuel generalizing s with
  | zero => rfl
  | succ fuel ih =>
    unfold State.txDrain
    split
    · rfl
    next f _ _ =>
    have hb := h f s
    dsimp only
    split
    · rfl
    split
    · split <;> simp [ih]
    split
    · rfl
    split
    · rfl
    · next heq => simpa [heq] using hb
    · next heq =>
      have hq := (congrArg (TxBegin.KeepsMems · s.mems) heq).mp hb
      split <;> simpa [ih] using hq

@[simp ↓] theorem State.txRot_mems (s : State) (j : Nat) (kind rot : Bool) : (s.txRot j kind rot).mems = s.mems := by
  unfold State.txRot
  split <;> simp

@[simp ↓] theorem State.edgeDiscard_mems (s : State) (j : Nat) : (s.edgeDiscard j).mems = s.mems := by simp [State.edgeDiscard]

@[simp ↓] theorem State.rawAssemble_mems (j : Nat) (l : List CWord) (s : State) : (State.rawAssemble j l s).mems = s.mems := by
  induction l generalizing s with
  | nil => rfl
  | cons w r ih =>
    unfold State.rawAssemble
    simp [ih]

@[simp ↓] theorem State.rawSend_mems (s : State) (j : Nat) : (s.rawSend j).mems = s.mems := by simp [State.rawSend]

/-! ## Pyril -/

@[simp ↓] theorem State.told_mems (s : State) (ks : List Nat) : (s.told ks).mems = s.mems := by simp [State.told]

@[simp ↓] theorem State.creditBeat_mems (s : State) (j st : Nat) : (s.creditBeat j st).mems = s.mems := by simp [State.creditBeat]

@[simp ↓] theorem State.peerEntry_mems (j st : Nat) (granted : Word) (s : State) :
    (s.peerEntry j st granted).mems = s.mems := by simp [State.peerEntry]

@[simp ↓] theorem State.beginPyril_keepsMems (j : Nat) (f : TxFrame) (s : State) : (s.beginPyril j f).KeepsMems s.mems := by
  simp [State.beginPyril]

/-! ## Queues -/

@[simp ↓] theorem State.setLevel_mems (s : State) (k : Bucket) (v : Int) : (s.setLevel k v).mems = s.mems := by simp [State.setLevel]

@[simp ↓] theorem State.setResid_mems (s : State) (k : Bucket) (v : Nat) : (s.setResid k v).mems = s.mems := by simp [State.setResid]

@[simp ↓] theorem State.settle_mems (k : Bucket) (s : State) : (s.settle k).mems = s.mems := by simp [State.settle]

@[simp ↓] theorem State.befall_mems (s : State) (k : Bucket) (f : BucketDay → BucketDay) : (s.befall k f).mems = s.mems := by
  simp [State.befall]

@[simp ↓] theorem State.debit_mems (s : State) (k : Bucket) (cost : Nat) : (s.debit k cost).mems = s.mems := by simp [State.debit]

@[simp ↓] theorem State.resettle_mems (s : State) (k : Bucket) : (s.resettle k).mems = s.mems := by simp [State.resettle]

@[simp ↓] theorem State.levelAct_mems (s : State) (k : Bucket) (a : LevelAct) : (s.levelAct k a).mems = s.mems := by simp [State.levelAct]

@[simp ↓] theorem State.histRecord_mems (s : State) (h soj : Nat) : (s.histRecord h soj).mems = s.mems := by simp [State.histRecord]

@[simp ↓] theorem State.histOne_mems (x : Selected) (h : Nat) (s : State) : (s.histOne x h).mems = s.mems := by simp [State.histOne]

@[simp ↓] theorem State.histAll_mems (s : State) (x : Selected) : (s.histAll x).mems = s.mems := by simp [State.histAll]

@[simp ↓] theorem State.histClear_mems (s : State) (h : Nat) : (s.histClear h).mems = s.mems := by simp [State.histClear]

@[simp ↓] theorem State.selectPkt_mems (s : State) (p b q : Nat) (committed : Bool) (x : Pkt) :
    (s.selectPkt p b q committed x).mems = s.mems := by simp [State.selectPkt]

@[simp ↓] theorem State.landDwrr_mems (s : State) (set : Nat) (members : List Nat) (keep : Nat → Bool) (ptr : Nat) (df : Tbl Nat) :
    (s.landDwrr set members keep ptr df).mems = s.mems := by simp [State.landDwrr]

theorem State.selectPhase_mems (s : State) (p : Nat) (committed : Bool) {t : State} (ht : s.selectPhase p committed = some t) :
    t.mems = s.mems := by
  unfold State.selectPhase at ht
  dsimp only at ht
  repeat' split at ht
  all_goals cases ht
  all_goals simp

@[simp ↓] theorem State.queueRot_mems (q : Nat) (s : State) : (s.queueRot q).mems = s.mems := by simp [State.queueRot]

@[simp ↓] theorem State.boughReset_mems (s : State) (b : Nat) : (s.boughReset b).mems = s.mems := by simp [State.boughReset]

@[simp ↓] theorem State.landBough_mems (s : State) (b : Nat) (j : Judged) : (s.landBough b j).mems = s.mems := by simp [State.landBough]

@[simp ↓] theorem State.writeQcfg_mems (s : State) (p : Party) (q : Nat) (w : Word) : (s.writeQcfg p q w).mems = s.mems := by
  simp [State.writeQcfg]

@[simp ↓] theorem State.writeRate_mems (s : State) (p : Party) (n : RegName) (i : Nat) (k : Bucket) (w : Word) :
    (s.writeRate p n i k w).mems = s.mems := by simp [State.writeRate]

@[simp ↓] theorem State.writeBurst_mems (s : State) (p : Party) (n : RegName) (i : Nat) (k : Bucket) (w : Word) :
    (s.writeBurst p n i k w).mems = s.mems := by simp [State.writeBurst]

@[simp ↓] theorem State.histAnew_mems (s : State) (h : Nat) : (s.histAnew h).mems = s.mems := by simp [State.histAnew]

@[simp ↓] theorem State.writeHcfg_mems (s : State) (p : Party) (h : Nat) (w : Word) : (s.writeHcfg p h w).mems = s.mems := by
  simp [State.writeHcfg]

@[simp ↓] theorem State.writeQe_mems (s : State) (p : Party) (n : RegName) (i : Nat) (w : Word) :
    (s.writeQe p n i w).mems = s.mems := by
  unfold State.writeQe
  repeat' split
  all_goals simp

/-! ## Tenancy -/

@[simp ↓] theorem State.freeWheel_mems (s : State) (tag : Tag) (res unit : Nat) :
    (s.freeWheel tag res unit).mems = s.mems := by simp [State.freeWheel]

@[simp ↓] theorem State.reserve_mems (s : State) (tag : Tag) (items : List Nat) (res unit k : Nat) :
    (s.reserve tag items res unit k).mems = s.mems := by
  unfold State.reserve
  repeat' split
  all_goals simp

@[simp ↓] theorem State.takeWheel_mems (s : State) (tag : Tag) (w : Nat) (items : List Nat) :
    (s.takeWheel tag w items).mems = s.mems := by
  unfold State.takeWheel
  split <;> simp

@[simp ↓] theorem State.needRoutes_mems (s : State) (a b : Nat) : (s.needRoutes a b).mems = s.mems := by simp [State.needRoutes]

@[simp ↓] theorem State.nocItem_mems (s : State) (tag : Tag) (w : Nat) : (s.nocItem tag w).mems = s.mems := by
  unfold State.nocItem
  dsimp only
  split <;> simp

@[simp ↓] theorem State.recordEntry_mems (s : State) (tag : Tag) (g : Nat) : (s.recordEntry tag g).mems = s.mems := by
  unfold State.recordEntry
  repeat' split
  all_goals simp

@[simp ↓] theorem State.askCommit_mems (s : State) (g : Nat) : (s.askCommit g).mems = s.mems := by simp [State.askCommit]

@[simp ↓] theorem State.ownPin_mems (s : State) (n own tag : Nat) : (s.ownPin n own tag).mems = s.mems := by simp [State.ownPin]

@[simp ↓] theorem State.ownBough_mems (s : State) (b own port weight : Nat) :
    (s.ownBough b own port weight).mems = s.mems := by simp [State.ownBough]

@[simp ↓] theorem State.grantItem_mems (tag : Tag) (items : List Nat) (w : Nat) (s : State) :
    (s.grantItem tag items w).mems = s.mems := by
  unfold State.grantItem
  split <;> simp

@[simp ↓] theorem State.grantItems_mems (s : State) (tag : Tag) (items : List Nat) :
    (s.grantItems tag items).mems = s.mems := by simp [State.grantItems]

@[simp ↓] theorem State.admitVector_mems (s : State) (hdr : Nat) (items : List Nat) :
    (s.admitVector hdr items).mems = s.mems := by simp [State.admitVector]

@[simp ↓] theorem State.zeroRing_mems (k : Nat) (s : State) : (s.zeroRing k).mems = s.mems := by simp [State.zeroRing]

@[simp ↓] theorem State.holdRing_mems (k : Nat) (s : State) : (s.holdRing k).mems = s.mems := by simp [State.holdRing]

@[simp ↓] theorem State.holdFifo_mems (F : Nat) (s : State) : (s.holdFifo F).mems = s.mems := by simp [State.holdFifo]

@[simp ↓] theorem State.holdMc_mems (k : Nat) (s : State) : (s.holdMc k).mems = s.mems := by simp [State.holdMc]

@[simp ↓] theorem State.releaseItem_mems (tag : Tag) (left : List Nat) (w : Nat) (s : State) :
    (s.releaseItem tag left w).mems = s.mems := by
  unfold State.releaseItem
  repeat' split
  all_goals simp

@[simp ↓] theorem State.releaseItems_mems (s : State) (t : Nat) (items : List Nat) :
    (s.releaseItems t items).mems = s.mems := by simp [State.releaseItems]

/-! ## Records -/

@[simp ↓] theorem State.setBoth_mems (s : State) (n : RegName) (i hi lo v : Nat) : (s.setBoth n i hi lo v).mems = s.mems := by
  simp [State.setBoth]

@[simp ↓] theorem State.putRec_mems (s : State) (k T i : Nat) (b : BitVec 192) : (s.putRec k T i b).mems = s.mems := by
  unfold State.putRec
  split <;> simp

@[simp ↓] theorem State.putCfg_mems (s : State) (T x : Nat) : (s.putCfg T x).mems = s.mems := by
  unfold State.putCfg
  split <;> simp

@[simp ↓] theorem State.putState_mems (s : State) (T x : Nat) : (s.putState T x).mems = s.mems := by simp [State.putState, -Nat.reducePow]

@[simp ↓] theorem State.putLat_mems (s : State) (g sub x : Nat) : (s.putLat g sub x).mems = s.mems := by simp [State.putLat]

@[simp ↓] theorem State.writeAll_mems (s : State) (l : List (RegName × Nat × Word)) : (s.writeAll l).2.mems = s.mems := by
  unfold State.writeAll
  refine foldl_keeps (fun x : Bool × State => x.2.mems) _ _ _ fun x e => ?_
  simp

@[simp ↓] theorem State.putLanes_mems (s : State) (g : Nat) (ws : List Word) : (s.putLanes g ws).2.mems = s.mems := by simp [State.putLanes]

@[simp ↓] theorem State.putStreams_mems (s : State) (g : Nat) (ws : List Word) : (s.putStreams g ws).2.mems = s.mems := by
  simp [State.putStreams]

@[simp ↓] theorem State.putRoutes_mems (s : State) (ni : Nat) (ws : List Word) : (s.putRoutes ni ws).2.mems = s.mems := by
  unfold State.putRoutes
  dsimp only
  refine foldl_keeps (fun x : Bool × State => x.2.mems) _ _ _ fun x e => ?_
  simp

@[simp ↓] theorem State.putInjA_mems (s : State) (k : Nat) (a : Word) : (s.putInjA k a).mems = s.mems := by simp [State.putInjA]

@[simp ↓] theorem State.putInjEntry_mems (s : State) (ni i : Nat) (a b : Word) : (s.putInjEntry ni i a b).2.mems = s.mems := by
  unfold State.putInjEntry
  dsimp only
  repeat' split
  all_goals simp

@[simp ↓] theorem State.putInjBlock_mems (s : State) (ni blk : Nat) (ws : List Word) :
    (s.putInjBlock ni blk ws).2.mems = s.mems := by
  unfold State.putInjBlock
  dsimp only
  refine foldl_keeps (fun x : Bool × State => x.2.mems) _ _ _ fun x e => ?_
  simp

@[simp ↓] theorem State.putPorts_mems (s : State) (ws : List Word) : (s.putPorts ws).mems = s.mems := by simp [State.putPorts]

@[simp ↓] theorem State.putHists_mems (s : State) (ws : List Word) : (s.putHists ws).mems = s.mems := by simp [State.putHists]

@[simp ↓] theorem State.putVector_mems (s : State) (ws : List Word) : (s.putVector ws).2.mems = s.mems := by
  unfold State.putVector
  dsimp only
  split
  · rfl
  split
  · rfl
  · split <;> simp

/-! ## Graft -/

@[simp ↓] theorem State.ogDone_mems (s : State) (st reason : Nat) : (s.ogDone st reason).mems = s.mems := by simp [State.ogDone]

@[simp ↓] theorem State.fileDone_mems (s : State) (vf : Option (Fin 512)) (st reason : Nat) :
    (s.fileDone vf st reason).mems = s.mems := by
  unfold State.fileDone
  split <;> simp

@[simp ↓] theorem State.settleGrafts_mems (s : State) : s.settleGrafts.mems = s.mems := by simp [State.settleGrafts]

@[simp ↓] theorem State.dropShadows_mems (s : State) (p : GShadow → Bool) : (s.dropShadows p).mems = s.mems := by simp [State.dropShadows]

@[simp ↓] theorem State.checkFile_mems (s : State) (tag : Tag) (vf : Option (Fin 512)) (ws : List Word) :
    (s.checkFile tag vf ws).mems = s.mems := by
  unfold State.checkFile
  dsimp only
  split <;> simp

@[simp ↓] theorem State.portRefuse_mems (s : State) (ws : List CWord) (reason : Nat) :
    (s.portRefuse ws reason).mems = s.mems := by simp [State.portRefuse]

@[simp ↓] theorem State.popPort_mems (s : State) : s.popPort.mems = s.mems := by simp [State.popPort]

@[simp ↓] theorem State.commitGraft_mems (org : Origin) (at' g : Nat) (s : State) :
    (s.commitGraft org at' g).mems = s.mems := by simp [State.commitGraft]

@[simp ↓] theorem State.graftCommitAll_mems (s : State) (g : Nat) : (s.graftCommitAll g).mems = s.mems := by simp [State.graftCommitAll]

@[simp ↓] theorem State.stagedWen_mems (others : List Staged) (x : Staged) (s : State) :
    (s.stagedWen others x).mems = s.mems := by simp [State.stagedWen]

@[simp ↓] theorem State.stagedRun_mems (others : List Staged) (x : Staged) (s : State) :
    (s.stagedRun others x).mems = s.mems := by
  unfold State.stagedRun
  dsimp only
  split <;> simp

/-! ## Power -/

@[simp ↓] theorem State.setPwr_mems (s : State) (d : Nat) (on : Bool) : (s.setPwr d on).mems = s.mems := by simp [State.setPwr]

@[simp ↓] theorem State.setFen_mems (s : State) (d : Nat) (on : Bool) : (s.setFen d on).mems = s.mems := by simp [State.setFen]

@[simp ↓] theorem State.tellCapacity_mems (s : State) (d code : Nat) : (s.tellCapacity d code).mems = s.mems := by simp [State.tellCapacity]

@[simp ↓] theorem State.laneLost_mems (j : Nat) (s : State) : (s.laneLost j).mems = s.mems := by simp [State.laneLost]

/-- A lane group that drops its up bit and tells it leaves the memories. -/
theorem State.dropGroupUp_mems (s : State) (g e : Nat) :
    (if s.flag .lnGcfg g 30 then (s.setBit .lnGcfg g 30 false).assertSrc e else s).mems = s.mems := by
  split
  · simp
  · rfl

@[simp ↓] theorem State.laneGroupLost_mems (s : State) (d : Nat) : (s.laneGroupLost d).mems = s.mems := by
  unfold State.laneGroupLost
  extract_lets s1 s2 cl l s3
  have h1 : s1.mems = s.mems := by simp [s1]
  clear_value s1
  have h2 : s2.mems = s1.mems := s1.dropGroupUp_mems (d - 64) _
  clear_value s2
  simp [s3, h1, h2]

@[simp ↓] theorem State.bankLost_mems (s : State) (b : Nat) : (s.bankLost b).mems = s.mems := by simp [State.bankLost]

@[simp ↓] theorem State.tellRail_mems (s : State) (d : Nat) : (s.tellRail d).mems = s.mems := by simp [State.tellRail]

@[simp ↓] theorem State.groveBack_mems (s : State) (g : Nat) : (s.groveBack g).mems = s.mems := by simp [State.groveBack]

@[simp ↓] theorem State.laneGroupBack_mems (s : State) (d : Nat) : (s.laneGroupBack d).mems = s.mems := by simp [State.laneGroupBack]

/-! ## Heartwood -/

@[simp ↓] theorem State.restoreMono_mems (s : State) : s.restoreMono.mems = s.mems := by simp [State.restoreMono]

@[simp ↓] theorem State.recordReset_mems (s : State) : s.recordReset.mems = s.mems := by simp [State.recordReset]

@[simp ↓] theorem State.newKey_mems (s : State) (counted : Bool) : (s.newKey counted).mems = s.mems := by simp [State.newKey]

@[simp ↓] theorem State.setChan_mems (s : State) (c v : Nat) : (s.setChan c v).mems = s.mems := by simp [State.setChan]

@[simp ↓] theorem State.respondCall_mems (s : State) (c st reason : Nat) (res : List Word) :
    (s.respondCall c st reason res).mems = s.mems := by simp [State.respondCall]

@[simp ↓] theorem State.undoCall_mems (s : State) : s.undoCall.mems = s.mems := by
  unfold State.undoCall
  repeat' split
  all_goals simp

@[simp ↓] theorem State.allFenced_mems (s : State) : s.allFenced.mems = s.mems := by
  unfold State.allFenced
  dsimp only
  refine (forEach_mems _ _ _ fun e t => ?_).trans (by simp)
  split <;> simp

@[simp ↓] theorem State.htFault_mems (s : State) (cause : Nat) : (s.htFault cause).mems = s.mems := by simp [State.htFault]

@[simp ↓] theorem State.writeHt_mems (s : State) (p : Party) (n : RegName) (i : Nat) (w : Word) :
    (s.writeHt p n i w).mems = s.mems := by simp [State.writeHt]

@[simp ↓] theorem State.keepBlock_mems (s : State) (l : List Byte) : (s.keepBlock l).mems = s.mems := by simp [State.keepBlock]

@[simp ↓] theorem State.extendItems_mems (s : State) (t : Nat) (v : AVec) (items : List Nat) :
    (s.extendItems t v items).mems = s.mems := by simp [State.extendItems]

@[simp ↓] theorem State.regrantItem_mems (tag : Tag) (all : List Nat) (w : Nat) (s : State) :
    (s.regrantItem tag all w).mems = s.mems := by simp [State.regrantItem]

@[simp ↓] theorem State.tenantCells_mems (s : State) (t : Nat) : (s.tenantCells t).mems = s.mems := by simp [State.tenantCells]

@[simp ↓] theorem State.tenantReset_mems (s : State) (t : Nat) : (s.tenantReset t).mems = s.mems := by
  unfold State.tenantReset
  dsimp only
  split <;> simp

@[simp ↓] theorem State.tenantGrove_mems (s : State) (g t : Nat) : (s.tenantGrove g t).mems = s.mems := by simp [State.tenantGrove]

/-! ## Loader -/

@[simp ↓] theorem State.setCfState_mems (s : State) (v : Nat) : (s.setCfState v).mems = s.mems := by simp [State.setCfState]

@[simp ↓] theorem State.setLoad_mems (s : State) (l : Option Load) : (s.setLoad l).mems = s.mems := by simp [State.setLoad]

@[simp ↓] theorem State.setSess_mems (s : State) (x : Option Session) : (s.setSess x).mems = s.mems := by simp [State.setSess]

@[simp ↓] theorem State.failBefore_mems (s : State) (src : LoadSrc) (cause : Nat) :
    (s.failBefore src cause).mems = s.mems := by simp [State.failBefore]

@[simp ↓] theorem State.endGraftSession_mems (s : State) (st reason : Nat) : (s.endGraftSession st reason).mems = s.mems := by
  unfold State.endGraftSession
  split <;> simp

theorem State.portWords_mems (s : State) (port : CfgPort) (ws : List Word) {t : State} (ht : s.portWords port ws = some t) :
    t.mems = s.mems := by
  unfold State.portWords at ht
  dsimp only at ht
  repeat' split at ht
  all_goals cases ht
  all_goals simp

theorem State.nextWords_mems (s : State) (l : Load) (pos : Nat) (ws : List Word) {t : State} (ht : s.nextWords l pos ws = some t) :
    t.mems = s.mems := by
  unfold State.nextWords at ht
  split at ht
  · split at ht
    · cases ht
      rfl
    · cases ht
  · obtain ⟨u, hu, rfl⟩ := Option.map_eq_some_iff.mp ht
    simp [State.portWords_mems _ _ _ hu]

@[simp ↓] theorem State.initMcs_mems (s : State) (g : Nat) : (s.initMcs g).mems = s.mems := by simp [State.initMcs]

@[simp ↓] theorem State.stageTaken_mems (s : State) (l : Load) : (s.stageTaken l).mems = s.mems := by simp [State.stageTaken]

@[simp ↓] theorem State.nocAtOut_mems (s : State) : s.nocAtOut.mems = s.mems := by simp [State.nocAtOut]

@[simp ↓] theorem State.writeCf_mems (s : State) (p : Party) (n : RegName) (w : Word) : (s.writeCf p n w).mems = s.mems := by
  simp [State.writeCf]

@[simp ↓] theorem State.capture_mems (g : Nat) (s : State) : (s.capture g).mems = s.mems := by simp [State.capture]

/-! ## Serial -/

@[simp ↓] theorem State.setTxq_mems (s : State) (k : SerialKind) (n : Nat) (l : List (BitVec 16)) :
    (s.setTxq k n l).mems = s.mems := by simp [State.setTxq]

@[simp ↓] theorem State.setRxq_mems (s : State) (k : SerialKind) (n : Nat) (l : List (BitVec 16)) :
    (s.setRxq k n l).mems = s.mems := by simp [State.setRxq]

@[simp ↓] theorem State.serSet_mems (s : State) (k : SerialKind) (n b : Nat) : (s.serSet k n b).mems = s.mems := by simp [State.serSet]

@[simp ↓] theorem State.serStop_mems (s : State) (k : SerialKind) (n : Nat) : (s.serStop k n).mems = s.mems := by simp [State.serStop]

@[simp ↓] theorem State.writeSerCfg_mems (s : State) (p : Party) (k : SerialKind) (n : Nat) (w : Word) :
    (s.writeSerCfg p k n w).mems = s.mems := by simp [State.writeSerCfg]

@[simp ↓] theorem State.serQueue_mems (s : State) (k : SerialKind) (n : Nat) (w : Word) :
    (s.serQueue k n w).mems = s.mems := by simp [State.serQueue]

@[simp ↓] theorem State.twQueue_mems (s : State) (n : Nat) (w : Word) : (s.twQueue n w).mems = s.mems := by simp [State.twQueue]

@[simp ↓] theorem State.mdioQueue_mems (s : State) (n : Nat) (w : Word) : (s.mdioQueue n w).mems = s.mems := by simp [State.mdioQueue]

@[simp ↓] theorem State.writeSer_mems (s : State) (p : Party) (n : RegName) (i : Nat) (w : Word) :
    (s.writeSer p n i w).mems = s.mems := by
  unfold State.writeSer
  repeat' split
  all_goals simp

@[simp ↓] theorem State.serTake_mems (s : State) (k : SerialKind) (n : Nat) : (s.serTake k n).2.mems = s.mems := by
  unfold State.serTake
  split <;> simp

@[simp ↓] theorem State.readSer_mems (s : State) (n : RegName) (i : Nat) : (s.readSer n i).2.mems = s.mems := by
  unfold State.readSer
  split <;> simp

@[simp ↓] theorem State.serStore_mems (s : State) (k : SerialKind) (n : Nat) (b : BitVec 16) :
    (s.serStore k n b).mems = s.mems := by
  unfold State.serStore
  repeat' split
  all_goals simp

@[simp ↓] theorem State.uartSend_mems (s : State) (n : Nat) : (s.uartSend n).mems = s.mems := by
  unfold State.uartSend
  repeat' split
  all_goals simp

@[simp ↓] theorem State.uartTake_mems (s : State) (n : Nat) (byte : Byte) (parity stop : Bool) :
    (s.uartTake n byte parity stop).mems = s.mems := by simp [State.uartTake]

@[simp ↓] theorem State.spiByte_mems (s : State) (n : Nat) (miso : Byte) : (s.spiByte n miso).mems = s.mems := by
  unfold State.spiByte
  repeat' split
  all_goals simp

@[simp ↓] theorem State.twPop_mems (s : State) (n : Nat) : (s.twPop n).mems = s.mems := by simp [State.twPop]

@[simp ↓] theorem State.setXfer_mems (s : State) (n : Nat) (v : Bool) : (s.setXfer n v).mems = s.mems := by simp [State.setXfer]

@[simp ↓] theorem State.twStart_mems (s : State) (n : Nat) : (s.twStart n).mems = s.mems := by
  unfold State.twStart
  dsimp only
  repeat' split
  all_goals simp

@[simp ↓] theorem State.twWrite_mems (s : State) (n : Nat) (ack : Bool) : (s.twWrite n ack).mems = s.mems := by
  unfold State.twWrite
  dsimp only
  repeat' split
  all_goals simp

@[simp ↓] theorem State.twRead_mems (s : State) (n op : Nat) (b : Byte) : (s.twRead n op b).mems = s.mems := by
  unfold State.twRead
  split <;> simp

@[simp ↓] theorem State.twStop_mems (s : State) (n : Nat) : (s.twStop n).mems = s.mems := by
  unfold State.twStop
  split <;> simp

@[simp ↓] theorem State.twStretch_mems (s : State) (n : Nat) : (s.twStretch n).mems = s.mems := by simp [State.twStretch]

@[simp ↓] theorem State.mdioFrame_mems (s : State) (n : Nat) (drives : Bool) (rdata : BitVec 16) :
    (s.mdioFrame n drives rdata).mems = s.mems := by
  unfold State.mdioFrame
  split <;> simp

@[simp ↓] theorem State.periphReset_mems (s : State) : s.periphReset.mems = s.mems := by simp [State.periphReset]

@[simp ↓] theorem State.pinsCanopyReset_mems (s : State) : s.pinsCanopyReset.mems = s.mems := by simp [State.pinsCanopyReset]

/-! ## Resets -/

@[simp ↓] theorem State.tellClock_mems (s : State) : s.tellClock.mems = s.mems := by simp [State.tellClock]

@[simp ↓] theorem State.holdover_mems (s : State) : s.holdover.mems = s.mems := by simp [State.holdover]

@[simp ↓] theorem State.writeRefcfg_mems (s : State) (p : Party) (w : Word) : (s.writeRefcfg p w).mems = s.mems := by
  unfold State.writeRefcfg
  repeat' split
  all_goals simp

@[simp ↓] theorem State.setSource_mems (s : State) (kind detail : Nat) : (s.setSource kind detail).mems = s.mems := by
  simp [State.setSource]

@[simp ↓] theorem State.bankReturns_mems (s : State) : s.bankReturns.mems = s.mems := by simp [State.bankReturns]

@[simp ↓] theorem State.reassert_mems (s : State) : s.reassert.mems = s.mems := by simp [State.reassert]

/-! ## Faults -/

@[simp ↓] theorem State.heartLog_mems (s : State) (r : BitVec 64) : (s.heartLog r).mems = s.mems := by simp [State.heartLog]

@[simp ↓] theorem State.operatorErr_mems (s : State) (r : BitVec 64) : (s.operatorErr r).mems = s.mems := by simp [State.operatorErr]

@[simp ↓] theorem State.operatorTake_mems (s : State) : s.operatorTake.mems = s.mems := by simp [State.operatorTake]

@[simp ↓] theorem State.domainErr_mems (s : State) (t : Tag) (rs : List (BitVec 64)) : (s.domainErr t rs).mems = s.mems := by
  unfold State.domainErr
  repeat' split
  all_goals simp

@[simp ↓] theorem State.canopyError_mems (s : State) (n addr : Nat) : (s.canopyError n addr).mems = s.mems := by simp [State.canopyError]

@[simp ↓] theorem State.replaceLat_mems (s : State) (k g i mark : Nat) : (s.replaceLat k g i mark).mems = s.mems := by
  simp [State.replaceLat]

@[simp ↓] theorem State.scrubbed_mems (s : State) (e : ScrubEntry) : (s.scrubbed e).2.2.2.mems = s.mems := by
  cases e <;> simp [State.scrubbed]

@[simp ↓] theorem State.sample_mems (s : State) (signed : Bool) (i x : Nat) : (s.sample signed i x).mems = s.mems := by simp [State.sample]

@[simp ↓] theorem State.writeMs_mems (s : State) (p : Party) (n : RegName) (i : Nat) (w : Word) :
    (s.writeMs p n i w).mems = s.mems := by
  unfold State.writeMs
  split
  · simp
  · dsimp only
    split <;> simp

@[simp ↓] theorem State.readMeter_mems (s : State) (p : Party) (k : Nat) : (s.readMeter p k).mems = s.mems := by
  unfold State.readMeter
  split <;> simp

@[simp ↓] theorem execRtcReadLatch_keepsMems (p : Party) (s : State) : KeepsMems (execRtcReadLatch p s) s := by
  unfold execRtcReadLatch
  split <;> simp

@[simp ↓] theorem execOperatorErrorRead_keepsMems (p : Party) (s : State) : KeepsMems (execOperatorErrorRead p s) s := by
  unfold execOperatorErrorRead
  repeat' split
  all_goals simp

/-! ## Access -/

@[simp ↓] theorem resState_mems {r : Res} {s : State} (h : KeepsMems r s) : (resState r s).mems = s.mems := by
  obtain ⟨t, rfl, ht⟩ := h
  exact ht

@[simp ↓] theorem State.ccmd_mems (s : State) (n : Fin 8) (w : Word) : (s.ccmd n w).mems = s.mems := by
  unfold State.ccmd
  dsimp only
  split
  case h_21 => exact s.command_mems _ _ fun _ _ => trivial
  all_goals simp

@[simp ↓] theorem State.writeDp_mems (s : State) (p : Party) (n : RegName) (i : Nat) (w : Word) :
    (s.writeDp p n i w).mems = s.mems := by
  unfold State.writeDp
  cases p with
  | tenant _ | pf0 => simp
  | heartwood | core _ =>
    dsimp only
    split
    · split
      · simp
      · split <;> simp
    · split <;> simp

@[simp ↓] theorem State.readDpFor_mems (s : State) (p : Party) (n : RegName) (i : Nat) :
    (s.readDpFor p n i).mems = s.mems := by
  unfold State.readDpFor
  split <;> simp

@[simp ↓] theorem State.writePb_mems (s : State) (p : Party) (n : RegName) (i : Nat) (w : Word) :
    (s.writePb p n i w).mems = s.mems := by
  unfold State.writePb
  split <;> simp

@[simp ↓] theorem State.readPb_mems (s : State) (p : Party) (n : RegName) (i : Nat) : (s.readPb p n i).mems = s.mems := by
  simp [State.readPb]

@[simp ↓] theorem State.onlyHeart_mems (s : State) (p : Party) (reads : Nat) {x : State} (h : x.mems = s.mems) :
    (s.onlyHeart p reads x).mems = s.mems := by simp [State.onlyHeart, h]

@[simp ↓] theorem State.noTenant_mems (s : State) (p : Party) (reads : Nat) {x : State} (h : x.mems = s.mems) :
    (s.noTenant p reads x).mems = s.mems := by
  unfold State.noTenant
  split <;> simp [h]

@[simp ↓] theorem State.onlyTable_mems (s : State) (p : Party) (reads : Nat) {x : State} (h : x.mems = s.mems) :
    (s.onlyTable p reads x).mems = s.mems := by simp [State.onlyTable, h]

@[simp ↓] theorem State.readReg_mems (s : State) (p : Party) (r : RegId) : (s.readReg p r).mems = s.mems := by
  unfold State.readReg
  split <;> simp

@[simp ↓] theorem State.busDone_mems (s : State) (n : Nat) (st : Status) : (s.busDone n st).mems = s.mems := by simp [State.busDone]

@[simp ↓] theorem State.busRom_mems (s : State) (n : Nat) (a : Access) : (s.busRom n a).mems = s.mems := by simp [State.busRom]

@[simp ↓] theorem State.hubTake_mems (s : State) : s.hubTake.mems = s.mems := by simp [State.hubTake]

/-! ## Dma -/

/-- The kernel would evaluate `boundTag` on the registers just written; the proof puts an arbitrary function in its place. -/
@[simp ↓] theorem State.pairHalt_mems (s : State) (v q : Nat) (st : Status) : (s.pairHalt v q st).mems = s.mems := by
  obtain ⟨f, hf⟩ : ∃ f, f = @State.pairHalt := ⟨_, rfl⟩
  rw [← hf]
  delta State.pairHalt at hf
  obtain ⟨bound, hb⟩ : ∃ b, b = State.boundTag := ⟨_, rfl⟩
  rw [← hb] at hf
  subst hf
  dsimp only
  split <;> simp

@[simp ↓] theorem State.hostAnswer_mems (s : State) (v q : Nat) (a : HostAnswer) : (s.hostAnswer v q a).mems = s.mems := by
  unfold State.hostAnswer
  dsimp only
  repeat' split
  all_goals simp

@[simp ↓] theorem State.startChunk_mems (s : State) (v q : Nat) : (s.startChunk v q).mems = s.mems := by
  unfold State.startChunk
  dsimp only
  split
  · rfl
  split
  · split <;> simp
  · rfl

@[simp ↓] theorem State.chunkDone_mems (s : State) (k : Nat) (st : Status) (data : List Word) :
    (s.chunkDone k st data).mems = s.mems := by
  unfold State.chunkDone
  dsimp only
  split
  · split <;> simp
  · rfl

@[simp ↓] theorem State.completion_mems (s : State) (v q : Nat) : (s.completion v q).mems = s.mems := by
  unfold State.completion
  dsimp only
  split
  · split
    · simp
    split
    · simp
    · split <;> simp
  · rfl

/-! ## NocEnd -/

@[simp ↓] theorem State.readWords_mems (s : State) (ws : List (Bool × Word)) (mask : Word) :
    (s.readWords ws mask).mems = s.mems := by
  unfold State.readWords
  simp only [State.ans_mems]
  refine foldl_keeps (fun x : List Word × State => x.2.mems) _ _ _ fun x e => ?_
  split <;> simp

@[simp ↓] theorem State.nvmAccess_mems (s : State) (off : Nat) (q : TReq) : (s.nvmAccess off q).mems = s.mems := by simp [State.nvmAccess]

@[simp ↓] theorem State.bridgeWord_mems (p : Party) (write : Bool) (off : Nat) (w : Word) (s : State) :
    (s.bridgeWord p write off w).mems = s.mems := by simp [State.bridgeWord]

@[simp ↓] theorem State.setSvc_mems (s : State) (node : Nat) (v : Option Svc) : (s.setSvc node v).mems = s.mems := by simp [State.setSvc]

theorem State.serveAt_mems (s : State) (node k : Nat) {f : TReq → State → State} (h : ∀ q t, (f q t).mems = t.mems) :
    (s.serveAt node k f).mems = s.mems := by
  unfold State.serveAt
  split
  · rfl
  · simp [h]

/-! ## One fc -/

@[simp ↓] theorem State.beginFc_mems (s : State) : s.beginFc.mems = s.mems := (rfl)

@[simp ↓] theorem State.toPort_mems (s : State) (T k : Nat) (w : CWord) : (s.toPort T k w).mems = s.mems := by simp [State.toPort]

@[simp ↓] theorem State.landStore_mems (s : State) (T : Nat) (x : Landing) (outsel code : Nat) (mem : Option Nat) (st : StoreAct)
    (v : BitVec 56) (bad : Bool) : (s.landStore T x outsel code mem st v bad).mems = s.mems := by
  unfold State.landStore
  dsimp only
  repeat' split
  all_goals simp

@[simp ↓] theorem State.accActs_mems (s : State) (T r : Nat) (l : List (Fin 4 × AccAct)) : (s.accActs T r l).1.mems = s.mems :=
  foldl_keeps (fun x : State × Bool => x.1.mems) _ _ _ fun x e => by simp

@[simp ↓] theorem State.landMac_mems (s : State) (T : Nat) (x : Landing) (j : MacJob) : (s.landMac T x j).mems = s.mems := by
  unfold State.landMac
  extract_lets r aov store clear
  have haov (t : State) (b : Bool) : (aov t b).mems = t.mems := by simp [aov]
  have hstore (code : Nat) (mem : Option Nat) (st : Option StoreAct) (val : Nat → BitVec 56) (bad : Bool) (t : State) :
      (store code mem st val bad t).mems = t.mems := by
    cases st <;> simp [store]
  have hclear (st : Option StoreAct) (t : State) : (clear st t).mems = t.mems := by cases st <;> simp [clear]
  clear_value aov store clear
  split <;> simp [haov, hstore, hclear]

@[simp ↓] theorem State.landSteer_mems (T : Nat) (u : Steer) (s : State) : (s.landSteer T u).mems = s.mems := by
  simp [State.landSteer]

@[simp ↓] theorem State.setNow_mems (s : State) (t : Nat) : (s.setNow t).mems = s.mems := by simp [State.setNow]

@[simp ↓] theorem State.tickTime_mems (s : State) : s.tickTime.mems = s.mems := by
  unfold State.tickTime
  dsimp only
  simp

@[simp ↓] theorem State.vfErrDrop_mems (s : State) :
    s.vfErrDrop.mems = s.mems := by simp [State.vfErrDrop, State.mk_parts_mems, State.mems_parts]

@[simp ↓] theorem State.operatorDrop_mems (s : State) : s.operatorDrop.mems = s.mems := by simp [State.operatorDrop]

@[simp ↓] theorem State.tickRtc_mems (s : State) : s.tickRtc.mems = s.mems := by simp [State.tickRtc]

@[simp ↓] theorem State.noteTime_mems (s : State) (incr : Nat) : (s.noteTime incr).mems = s.mems := by
  unfold State.noteTime
  repeat' split
  all_goals simp

@[simp ↓] theorem State.tickPhase_mems (s : State) (start : Tbl Bool) : (s.tickPhase start).mems = s.mems := by
  simp [State.tickPhase]

@[simp ↓] theorem State.vfFifoEvent_mems (s : State) (tag : Tag) (F : Nat) : (s.vfFifoEvent tag F).mems = s.mems := by
  unfold State.vfFifoEvent
  dsimp only
  repeat' split
  all_goals simp

@[simp ↓] theorem State.tickFifo_mems (F : Nat) (s : State) : (State.tickFifo F s).mems = s.mems := by simp [State.tickFifo]

@[simp ↓] theorem State.presentRow_mems (j : Nat) (s : State) : (State.presentRow j s).mems = s.mems := by
  unfold State.presentRow
  dsimp only
  repeat' split
  all_goals simp

@[simp ↓] theorem State.closeLoad_mems (n : Nat) (s : State) : (State.closeLoad n s).mems = s.mems := by simp [State.closeLoad]

@[simp ↓] theorem State.tickBoundary_mems (s : State) : s.tickBoundary.mems = s.mems := by simp [State.tickBoundary]

@[simp ↓] theorem State.tickGraftPort_mems (s : State) : s.tickGraftPort.mems = s.mems := by
  unfold State.tickGraftPort
  extract_lets key s1 s2
  have h1 : s1.mems = s.mems := forEach_mems _ _ _ fun k t => by split <;> simp
  clear_value s1
  have h2 : s2.mems = s.mems := by simp [s2, h1]
  clear_value s2
  split
  · exact h1
  cases (s1.stageAt (key 0)).head s1.fc with
  | none => exact h1
  | some w => simp [h2]

@[simp ↓] theorem State.closePort_mems (p : Nat) (s : State) : (State.closePort p s).mems = s.mems := by simp [State.closePort]

@[simp ↓] theorem State.closeLane_mems (j : Nat) (s : State) : (State.closeLane j s).mems = s.mems := by
  unfold State.closeLane
  extract_lets s1 s2
  have h1 : s1.mems = s.mems := by
    dsimp only [s1]
    split <;> simp
  clear_value s1
  have h2 : s2.mems = s.mems := by
    dsimp only [s2]
    split <;> simp [h1]
  simp [h2]

@[simp ↓] theorem State.graftFenced_mems (s : State) (g : Nat) : (s.graftFenced g).mems = s.mems := by simp [State.graftFenced]

@[simp ↓] theorem State.settleCalls_mems (s : State) : s.settleCalls.mems = s.mems := by
  unfold State.settleCalls
  repeat' split
  all_goals simp

@[simp ↓] theorem State.tickRelease_mems (s : State) : s.tickRelease.mems = s.mems := by
  unfold State.tickRelease
  repeat' split
  all_goals simp

@[simp ↓] theorem State.tickLevels_mems (s : State) : s.tickLevels.mems = s.mems := by simp [State.tickLevels]

end Sys2Proof.Machine
end

section
/-! SUPPORT. The operations that write tile memory, canopy SRAM or the NVM, or that reach one that does, keep the three memories canonical. -/

namespace Sys2Proof.Machine

@[simp ↓] theorem Mems.canonical_ite (c : Prop) [Decidable c] (a b : Mems) :
    (if c then a else b).Canonical ↔ if c then a.Canonical else b.Canonical := by
  split <;> rfl

/-- What every step of a fold keeps of an accumulator, the whole fold keeps. -/
theorem foldl_invariant {α β : Type} (P : β → Prop) (f : β → α → β) (hf : ∀ b a, P b → P (f b a)) (l : List α) {b : β} (hb : P b) :
    P (l.foldl f b) := by
  induction l generalizing b with
  | nil => exact hb
  | cons a r ih => exact ih (hf b a hb)

theorem forEach_canonical {α : Type} (l : List α) {f : α → State → State}
    (hf : ∀ a s, s.mems.Canonical → (f a s).mems.Canonical) {s : State} (h : s.mems.Canonical) : (forEach l s f).mems.Canonical :=
  foldl_invariant (·.mems.Canonical) _ (fun s a => hf a s) l h

theorem eachWord_canonical {f : Nat → Word → State → State} (hf : ∀ a w t, t.mems.Canonical → (f a w t).mems.Canonical) (addr : Nat)
    (ws : List Word) {s : State} (h : s.mems.Canonical) : (s.eachWord f addr ws).mems.Canonical := by
  simp only [State.eachWord, State.ans_mems]
  exact foldl_invariant (fun x : Status × List Word × State => x.2.2.mems.Canonical) _ (fun x e hx => hf _ _ _ hx) _ h

section
variable {s : State} (h : s.mems.Canonical)
include h

/-! ## Operands -/

@[simp ↓] theorem State.setTmem_canonical (T w : Nat) (v : W24) : (s.setTmem T w v).mems.Canonical := by
  obtain ⟨htile, hsram, hnvm⟩ := h
  exact ⟨Tbl.wf_wr _ _ _ _ htile, hsram, hnvm⟩

/-! ## Image -/

@[simp ↓] theorem State.nvmPut_canonical (a : Nat) (l : List Byte) : (s.nvmPut a l).mems.Canonical := by
  obtain ⟨htile, hsram, hnvm⟩ := h
  exact ⟨htile, hsram, foldl_invariant (fun t : Tbl Byte => t.wf 0 = true) _ (fun t x ht => Tbl.wf_wr t _ 0 x.1 ht) _ hnvm⟩

/-! ## Records -/

@[simp ↓] theorem State.putFrame_canonical (a : Nat) (ws : List Word) : (s.putFrame a ws).2.mems.Canonical := by
  unfold State.putFrame
  dsimp only
  split
  case h_3 => exact forEach_canonical _ (fun x t ht => State.setTmem_canonical ht _ _ _) h
  all_goals repeat' split
  all_goals simp [h]

/-! ## Power -/

@[simp ↓] theorem State.groveLost_canonical (g : Nat) : (s.groveLost g).mems.Canonical := by
  have hlost : (s.groveLost g).mems = { s.mems with tile := s.mems.tile.clr (131072 * g) (131072 * (g + 1)) } := by
    simp [State.groveLost, State.mk_parts_mems, State.mems_parts]
  obtain ⟨htile, hsram, hnvm⟩ := h
  exact (congrArg Mems.Canonical hlost).mpr ⟨Tbl.wf_clr _ _ _ _ htile, hsram, hnvm⟩

@[simp ↓] theorem State.domainOff_canonical (d : Nat) : (s.domainOff d).mems.Canonical := by simp [State.domainOff, h]

@[simp ↓] theorem State.allOff_canonical : s.allOff.mems.Canonical := by
  have hoff := forEach_canonical ((List.range 96).filter s.powered) (fun d t ht => State.domainOff_canonical ht d) h
  simp [State.allOff, hoff]

/-! ## Heartwood -/

@[simp ↓] theorem State.sramPutByte_canonical (a : Nat) (b : Byte) : (s.sramPutByte a b).mems.Canonical := by
  obtain ⟨htile, hsram, hnvm⟩ := h
  exact ⟨htile, Tbl.wf_wr s.dp.csram (a / 4) 0 _ hsram, hnvm⟩

@[simp ↓] theorem State.sramPut_canonical (a : Nat) (l : List Byte) : (s.sramPut a l).mems.Canonical := by
  simpa [State.sramPut] using forEach_canonical _ (fun x t ht => State.sramPutByte_canonical ht _ _) h

@[simp ↓] theorem State.loadCanopy_canonical : s.loadCanopy.mems.Canonical := by simp [State.loadCanopy, h]

/-! ## Loader -/

@[simp ↓] theorem State.enterSafe_canonical : s.enterSafe.mems.Canonical := by simp [State.enterSafe, h]

@[simp ↓] theorem State.failStarted_canonical (src : LoadSrc) (fromSafe : Bool) (cause reason : Nat) :
    (s.failStarted src fromSafe cause reason).mems.Canonical := by
  simp [State.failStarted, State.mk_parts_mems, State.mems_parts, h]

@[simp ↓] theorem State.failLoad_canonical (cause reason : Nat) : (s.failLoad cause reason).mems.Canonical := by
  unfold State.failLoad
  split <;> simp [h]

/-- A load starts from empty tiles. -/
@[simp ↓] theorem State.loadState_canonical : s.loadState.mems.Canonical := by
  have hload : s.loadState.mems = { s.mems with tile := [] } := by
    simp [State.loadState, State.mk_parts_mems, State.mems_parts, TileB.zero]
  obtain ⟨-, hsram, hnvm⟩ := h
  exact (congrArg Mems.Canonical hload).mpr ⟨rfl, hsram, hnvm⟩

/-! ## Resets -/

/-- Out of a reset tile memory and canopy SRAM list nothing, and the NVM is as it was. -/
@[simp ↓] theorem State.kept_reset_canonical : (s.kept State.reset).mems.Canonical := ⟨rfl, rfl, h.2.2⟩

@[simp ↓] theorem State.coldState_canonical (off : Bool) (kind : Nat) : (s.coldState off kind).mems.Canonical := by
  simp [State.coldState, h]

@[simp ↓] theorem State.warmStart_canonical (until' : Nat) (thermal : Bool) (kind detail : Nat) :
    (s.warmStart until' thermal kind detail).mems.Canonical := by
  simp [State.warmStart, h]

@[simp ↓] theorem State.warmTrigger_canonical (until' : Nat) (thermal : Bool) (kind detail : Nat) :
    (s.warmTrigger until' thermal kind detail).mems.Canonical := by
  unfold State.warmTrigger
  repeat' split
  all_goals simp [h]

@[simp ↓] theorem State.canopyReset_canonical (kind detail : Nat) : (s.canopyReset kind detail).mems.Canonical := by
  simp [State.canopyReset, h]

@[simp ↓] theorem State.writeRstctl_canonical (p : Party) (w : Word) : (s.writeRstctl p w).mems.Canonical := by
  unfold State.writeRstctl
  cases p with
  | tenant _ | heartwood => simp [h]
  | core _ | pf0 =>
    dsimp only
    repeat' split
    all_goals simp [h]

/-! ## Access -/

@[simp ↓] theorem State.writeReg_canonical (p : Party) (r : RegId) (w : Word) : (s.writeReg p r w).mems.Canonical := by
  unfold State.writeReg
  split <;> simp [h]

@[simp ↓] theorem State.regWord_canonical (p : Party) (write : Bool) (map : List MapRow) (off : Nat) (w : Word) :
    (State.regWord p write map off w s).mems.Canonical := by
  unfold State.regWord
  split <;> simp [h]

@[simp ↓] theorem State.memWrite_canonical (m : CoreMem) (l : List Byte) : (s.memWrite m l).mems.Canonical := by
  unfold State.memWrite
  split <;> simp [h]

@[simp ↓] theorem State.busMem_canonical (n : Nat) (pc : Nat) (op : CoreOp) (m : CoreMem) (a : Access) :
    (s.busMem n pc op m a).mems.Canonical := by
  unfold State.busMem
  dsimp only
  repeat' split
  all_goals simp [h]

@[simp ↓] theorem State.busRegs_canonical (n : Fin 8) (map : List MapRow) (off : Nat) (a : Access) :
    (s.busRegs n map off a).mems.Canonical := by
  unfold State.busRegs
  split
  · exact eachWord_canonical (fun o w t ht => by simp [ht]) _ _ h
  · simp [h]

@[simp ↓] theorem State.busDevice_canonical (n : Fin 8) (b : BusAcc) : (s.busDevice n b).mems.Canonical := by
  unfold State.busDevice
  dsimp only
  repeat' split
  all_goals simp [h]

omit h in
@[simp ↓] theorem State.busNext_canonical (n : Fin 8) (fuel : Nat) (h : s.mems.Canonical) : (State.busNext n fuel s).mems.Canonical := by
  induction fuel generalizing s with
  | zero => exact h
  | succ fuel ih =>
    unfold State.busNext
    split
    · next heq _ =>
      cases heq
      split
      · exact h
      · exact ih (by simp [h])
    · exact h

@[simp ↓] theorem State.busGo_canonical (n : Fin 8) : (s.busGo n).mems.Canonical := by simp [State.busGo, h]

@[simp ↓] theorem State.busQueue_canonical (n : Fin 8) (a : Access) (x : UnitHealth) : (s.busQueue n a x).mems.Canonical := by
  simp [State.busQueue, h]

@[simp ↓] theorem State.busAccess_canonical (n : Fin 8) (pc : Nat) (op : CoreOp) (a : Access) (x : UnitHealth) :
    (s.busAccess n pc op a x).mems.Canonical := by
  unfold State.busAccess
  repeat' split
  all_goals simp [h]

@[simp ↓] theorem State.coreDoes_canonical (n : Fin 8) (pc : Nat) (op : CoreOp) (a : Access) (x : UnitHealth) :
    (s.coreDoes n pc op a x).mems.Canonical := by
  unfold State.coreDoes
  cases op with
  | csrRead c | csrWrite c v | mret | illegal | interrupt =>
    dsimp only
    repeat' split
    all_goals simp [h]
  | _ => exact State.busAccess_canonical h _ _ _ _ _

/-! ## NocEnd -/

@[simp ↓] theorem State.completeReq_canonical (q : NocReq) (st : Status) (data : List Word) :
    (s.completeReq q st data).mems.Canonical := by
  unfold State.completeReq
  dsimp only
  split <;> simp [h]

@[simp ↓] theorem State.issue_canonical (ni : Nat) : (s.issue ni).mems.Canonical := by
  unfold State.issue
  dsimp only
  repeat' split
  all_goals simp [h]

@[simp ↓] theorem State.responseIn_canonical (node : Nat) : (s.responseIn node).mems.Canonical := by
  unfold State.responseIn
  dsimp only
  repeat' split
  all_goals simp [h]

@[simp ↓] theorem State.sramAccess_canonical (k off : Nat) (q : TReq) : (s.sramAccess k off q).mems.Canonical := by
  unfold State.sramAccess
  dsimp only
  repeat' split
  all_goals simp [h]

@[simp ↓] theorem State.perform_canonical (node : Nat) (q : TReq) : (s.perform node q).mems.Canonical := by
  unfold State.perform
  extract_lets off wr p ws zeros regs
  have hregs (map : List MapRow) : (regs map).mems.Canonical :=
    eachWord_canonical (fun a w t ht => State.regWord_canonical ht _ _ _ _ _) _ _ h
  clear_value regs
  split
  · simp [h]
  split
  · split
    · simp [h]
    split
    · split <;> simp [h]
    · exact hregs _
  split
  · exact hregs _
  split
  · simp [h]
  split
  · split
    · exact eachWord_canonical (fun a w t ht => State.regWord_canonical ht _ _ _ _ _) _ _ h
    · exact hregs _
  all_goals simp [hregs, h]

theorem State.svcUnit_canonical {v x : Svc} {m : Moved} {t : State} (ht : s.svcUnit v m = some (x, t)) : t.mems.Canonical := by
  unfold State.svcUnit at ht
  dsimp only at ht
  split at ht
  · split at ht
    · cases ht
      simp [h]
    · cases ht
      simp [h]
  · split at ht
    · obtain ⟨u, hu, e⟩ := Option.map_eq_some_iff.mp ht
      cases e
      rwa [State.fifoNocPut_mems _ _ _ hu]
    · obtain ⟨u, hu, e⟩ := Option.map_eq_some_iff.mp ht
      cases e
      rwa [State.fifoNocGive_mems _ _ _ hu]
  · split at ht
    · cases ht
    · cases ht
      simp [h]

@[simp ↓] theorem State.svcMove_canonical (node : Nat) : (State.svcMove node s).mems.Canonical := by
  unfold State.svcMove
  split
  · exact h
  split
  · simp [h]
  split
  · next ht =>
    obtain ⟨m, -, hu⟩ := Option.bind_eq_some_iff.mp ht
    simp [State.svcUnit_canonical h hu]
  · exact h

theorem State.serveAt_canonical (node k : Nat) {f : TReq → State → State}
    (hf : ∀ q t, t.mems.Canonical → (f q t).mems.Canonical) : (s.serveAt node k f).mems.Canonical := by
  unfold State.serveAt
  dsimp only
  repeat' split
  · exact h
  · simp [h]
  · simpa using hf _ _ (by simp [h])

@[simp ↓] theorem State.beginServe_canonical (node k : Nat) (upset : List Nat) : (s.beginServe node k upset).mems.Canonical := by
  unfold State.beginServe
  split
  · exact h
  split
  · simp [h]
  · exact State.serveAt_canonical h _ _ fun q t ht => State.perform_canonical ht _ _

@[simp ↓] theorem State.deliverDirect_canonical (x : HeldDirect) : (s.deliverDirect x).mems.Canonical := by
  unfold State.deliverDirect
  dsimp only
  repeat' split
  all_goals simp [h]

end

/-! ## One fc -/

section
variable {s : State} (h : s.mems.Canonical)
include h

@[simp ↓] theorem State.landOne_canonical (T : Nat) (x : Landing) : (State.landOne T x s).mems.Canonical := by
  unfold State.landOne
  split <;> simp [h]

theorem State.landTile_canonical (T : Nat) : (State.landTile T s).mems.Canonical := by
  have hland (l : List Landing) {t : State} (ht : t.mems.Canonical) : (forEach l t (State.landOne T)).mems.Canonical :=
    forEach_canonical l (fun x _ ht => State.landOne_canonical ht T x) ht
  simp [State.landTile, hland, h]

@[simp ↓] theorem State.landAll_canonical : s.landAll.mems.Canonical :=
  forEach_canonical _ (fun T _ ht => State.landTile_canonical ht T) h

@[simp ↓] theorem State.tickNoc_canonical : s.tickNoc.mems.Canonical := by
  simpa [State.tickNoc] using forEach_canonical _ (fun n _ ht => State.svcMove_canonical ht n) h

@[simp ↓] theorem State.tickBus_canonical : s.tickBus.mems.Canonical :=
  forEach_canonical _ (fun _ _ ht => State.busGo_canonical ht _) h

@[simp ↓] theorem State.finishOff_canonical (d : Nat) : (s.finishOff d).mems.Canonical := by
  simp [State.finishOff, h]

@[simp ↓] theorem State.fence_canonical (d : Nat) : (s.fence d).mems.Canonical := by
  simp [State.fence, h]

@[simp ↓] theorem State.drain_canonical (d : Nat) : (State.drain d s).mems.Canonical := by
  simp [State.drain, h]

@[simp ↓] theorem State.tickFence_canonical : s.tickFence.mems.Canonical :=
  forEach_canonical _ (fun d _ ht => State.drain_canonical ht d) h

@[simp ↓] theorem State.tickPower_canonical : s.tickPower.mems.Canonical :=
  forEach_canonical _ (fun _ _ ht => by simp [ht]) (forEach_canonical _ (fun _ _ ht => State.finishOff_canonical ht _) h)

end

end Sys2Proof.Machine
end

section
/-! SUPPORT. Every command and every fc keep tile memory, canopy SRAM and the NVM canonical, and the obligation. -/

namespace Sys2Proof.Machine

/-- The command leaves a next state whose memories are canonical. -/
def GoesCanonical (r : Res) : Prop := Goes r (fun t => t.mems.Canonical)

@[simp ↓] theorem goesCanonical_next (t : State) : GoesCanonical (.next t) ↔ t.mems.Canonical := by
  simp [GoesCanonical, Goes]

@[simp ↓] theorem goesCanonical_ite (c : Prop) [Decidable c] (a b : Res) :
    GoesCanonical (if c then a else b) ↔ if c then GoesCanonical a else GoesCanonical b := by
  split <;> rfl

theorem KeepsMems.goesCanonical {r : Res} {s : State} (hr : KeepsMems r s) (h : s.mems.Canonical) : GoesCanonical r := by
  obtain ⟨t, rfl, ht⟩ := hr
  exact ⟨t, rfl, (congrArg Mems.Canonical ht).mpr h⟩

/-! ## Heartwood's calls -/

/-- What a call comes to holds canonical memories. -/
def Verdict.Canonical : Verdict → Prop
  | .refused _ _ | .poison => True
  | .done t _ | .waits t _ _ => t.mems.Canonical

@[simp] theorem Verdict.canonical_refused (r w : Nat) : (Verdict.refused r w).Canonical := trivial

@[simp] theorem Verdict.canonical_poison : Verdict.poison.Canonical := trivial

@[simp ↓] theorem Verdict.canonical_done (t : State) (r : List Nat) : (Verdict.done t r).Canonical ↔ t.mems.Canonical := Iff.rfl

@[simp ↓] theorem Verdict.canonical_waits (t : State) (u : CallUntil) (r : List Nat) :
    (Verdict.waits t u r).Canonical ↔ t.mems.Canonical := Iff.rfl

/-- A call keeps the memories canonical when its own effect does. -/
theorem runCall_canonical {s : State} (h : s.mems.Canonical) {ch : Fin 9} {opc : Nat} {used : List Nat}
    {body : State → (Nat → Nat) → Verdict} (hb : ∀ t w, t.mems.Canonical → (body t w).Canonical) :
    GoesCanonical (.next (s.runCall ch opc used body)) := by
  rw [goesCanonical_next]
  unfold State.runCall
  dsimp only
  split
  · exact h
  split
  · simp [h]
  split
  · simp [h]
  have hv := hb { s with ht := { s.ht with callq := s.ht.callq.filter (fun x => x.2 != .chan ch) } } (fun k => s.reqW ch.val k)
    (by simp [h])
  split
  · simp [h]
  · simp [h]
  · next heq =>
    rw [heq] at hv
    simpa using hv
  · next heq =>
    rw [heq] at hv
    simpa using hv

/-- Unfolded as a function: with its arguments in place the kernel would evaluate `sramBlock` on them. -/
theorem State.block_canonical (s : State) (w : Nat → Nat) (n : Nat) {k : List Byte → Verdict} (hk : ∀ b, (k b).Canonical) :
    (s.block w n k).Canonical := by
  generalize hf : @State.block = f
  delta State.block at hf
  subst hf
  beta_reduce
  split
  · simp
  split
  · simp
  extract_lets b
  have hb := hk b
  split
  · next heq =>
    rw [heq] at hb
    simpa using hb
  · next heq =>
    rw [heq] at hb
    simpa using hb
  · exact hb

theorem State.vector_canonical (s : State) (w : Nat → Nat) {k : Nat → List Nat → Verdict} (hk : ∀ a b, (k a b).Canonical) :
    (s.vector w k).Canonical := by
  refine s.block_canonical w 8 fun b => ?_
  dsimp only
  split
  · simp
  · exact s.block_canonical w _ fun _ => hk _ _

section
variable {s : State} (h : s.mems.Canonical)
include h

/-- The calls that take no block of arguments. -/
@[simp ↓] theorem plainCalls_canonical (ch : Fin 9) :
    GoesCanonical (execInfoCall ch s) ∧ GoesCanonical (execTkeyclr ch s) ∧ GoesCanonical (execRollfwd ch s) ∧
    GoesCanonical (execRekey ch s) ∧ GoesCanonical (execBankCall ch s) ∧ GoesCanonical (execDomainCall ch s) ∧
    GoesCanonical (execPortrate ch s) ∧ GoesCanonical (execPinown ch s) ∧ GoesCanonical (execTrnom ch s) ∧
    GoesCanonical (execBootcfg ch s) ∧ GoesCanonical (execPbread ch s) ∧ GoesCanonical (execRtcset ch s) ∧
    GoesCanonical (execDebugend ch s) ∧ GoesCanonical (execTreset ch s) := by
  and_intros
  all_goals
    refine runCall_canonical h fun t w ht => ?_
    try dsimp only
    repeat' split
  all_goals simp [ht]

/-- The calls that take a block of arguments. -/
@[simp ↓] theorem blockCalls_canonical (ch : Fin 9) :
    GoesCanonical (execTkeyset ch s) ∧ GoesCanonical (execOpkeyprog ch s) ∧ GoesCanonical (execOpkeyrev ch s) ∧
    GoesCanonical (execFwwrite ch s) ∧ GoesCanonical (execDebugCall ch s) := by
  and_intros
  all_goals
    refine runCall_canonical h fun t w ht => t.block_canonical w _ fun l => ?_
    try dsimp only
    repeat' split
  all_goals simp [ht]

/-- The calls that take a resource vector. -/
@[simp ↓] theorem vectorCalls_canonical (ch : Fin 9) :
    GoesCanonical (execAdmitTenant ch s) ∧ GoesCanonical (execExtend ch s) ∧ GoesCanonical (execReleaseCall ch s) ∧
    GoesCanonical (execRegrant ch s) := by
  and_intros
  all_goals
    refine runCall_canonical h fun t w ht => t.vector_canonical w fun hdr items => ?_
    try dsimp only
    repeat' split
  all_goals simp [ht]

@[simp ↓] theorem execNvmwrite_canonical (ch : Fin 9) : GoesCanonical (execNvmwrite ch s) := by
  refine runCall_canonical h fun t w ht => ?_
  dsimp only
  split
  · simp
  · exact t.block_canonical w _ fun l => by simp [ht]

/-- As in `State.block_canonical`, an arbitrary function stands for `sramBlock`. -/
@[simp ↓] theorem execVread_canonical (ch : Fin 9) : GoesCanonical (execVread ch s) := by
  refine runCall_canonical h fun t w ht => ?_
  obtain ⟨f, hf⟩ : ∃ f, f = sramBlock := ⟨_, rfl⟩
  rw [← hf]
  dsimp only
  split
  · simp
  · split <;> simp [ht]

end

/-! ## Commands of an image -/

/-- What a command of an image comes to holds canonical memories. -/
def CmdEnd.Canonical : CmdEnd → Prop
  | .fail _ _ => True
  | .go t _ => t.mems.Canonical

@[simp] theorem CmdEnd.canonical_fail (c r : Nat) : (CmdEnd.fail c r).Canonical := trivial

@[simp] theorem CmdEnd.canonical_format : CmdEnd.format.Canonical := trivial

@[simp ↓] theorem CmdEnd.canonical_go (t : State) (x : Load) : (CmdEnd.go t x).Canonical ↔ t.mems.Canonical := Iff.rfl

section
variable {s : State} (h : s.mems.Canonical)
include h

/-- A command of an image keeps the memories canonical when its own effect does. -/
theorem loadCommand_canonical {op : Nat} {ws : List Word} {body : State → Load → (Nat → Nat) → List Word → CmdEnd}
    (hb : ∀ t l w p, t.mems.Canonical → (body t l w p).Canonical) : GoesCanonical (.next (s.loadCommand op ws body)) := by
  rw [goesCanonical_next]
  unfold State.loadCommand
  dsimp only
  split
  · exact h
  split
  · exact h
  split
  · exact h
  next t ht =>
  have hw : t.mems.Canonical := by rwa [State.nextWords_mems _ _ _ _ ht]
  split
  · simp [hw]
  split
  · simp [hw]
  · next heq =>
    have hgo := (congrArg CmdEnd.Canonical heq).mp (hb _ _ _ _ hw)
    simpa using hgo

theorem loadFrame_canonical (a : Nat) (d : List Word) (l : Load) : (loadFrame a d s l).Canonical := by
  have hp := State.putFrame_canonical h a d
  unfold loadFrame
  dsimp only
  split
  · simp
  split
  · simp
  · next heq =>
    rw [heq] at hp
    split <;> simpa using hp

omit h in
theorem repeatOne_canonical (a : Word) (d : List Word) (e : CmdEnd) (b : Nat) (h : e.Canonical) : (repeatOne a d e b).Canonical := by
  unfold repeatOne
  split
  · simp
  · split
    · simp
    · exact loadFrame_canonical h b d _

/-- The commands that write no frame. -/
@[simp ↓] theorem plainImageCommands_canonical (ws : List Word) :
    GoesCanonical (execNopCmd ws s) ∧ GoesCanonical (execMemoryWrite ws s) ∧ GoesCanonical (execSetDevice ws s) ∧
    GoesCanonical (execReleaseOrder ws s) ∧ GoesCanonical (execCheckpoint ws s) ∧ GoesCanonical (execEndCmd ws s) ∧
    GoesCanonical (execRecordWrite ws s) := by
  and_intros
  all_goals
    refine loadCommand_canonical h fun t l w p ht => ?_
    try dsimp only
    repeat' split
  all_goals simp [ht]

@[simp ↓] theorem execFrameWrite_canonical (ws : List Word) : GoesCanonical (execFrameWrite ws s) := by
  refine loadCommand_canonical h fun t l w p ht => ?_
  split
  · simp
  · have hf := loadFrame_canonical ht (w 1) (p.drop 2) l
    split
    · next heq => simpa [heq] using hf
    · exact hf

@[simp ↓] theorem execFrameFill_canonical (ws : List Word) : GoesCanonical (execFrameFill ws s) := by
  refine loadCommand_canonical h fun t l w p ht => ?_
  split
  · simp
  next d _ =>
  split
  · simp
  · have hf := loadFrame_canonical ht (w 1) d l
    split
    · next heq => simpa [heq] using hf
    · exact hf

@[simp ↓] theorem execFrameRepeat_canonical (ws : List Word) : GoesCanonical (execFrameRepeat ws s) := by
  refine loadCommand_canonical h fun t l w p ht => ?_
  split
  · simp
  · split
    · simp
    · exact foldl_invariant CmdEnd.Canonical _ (fun e b he => repeatOne_canonical _ _ e b he) _ ht

end

/-! ## Commands that take words or items where they are -/

@[simp ↓] theorem execRawTransmit_keepsMems (j : Fin 128) (due : Bool) (upset : List (Fin 48)) (s : State) :
    KeepsMems (execRawTransmit j due upset s) s := by
  refine (keepsMems_next _ _).mpr ?_
  extract_lets s1
  have h1 : s1.mems = s.mems := by simp [s1]
  clear_value s1
  split
  · simp
  split
  · rfl
  have hrow := s1.txRow_mems j upset
  split
  · next t heq =>
    rw [heq] at hrow
    exact hrow.trans h1
  · next rows t heq =>
    rw [heq] at hrow
    have ht : t.mems = s.mems := hrow.trans h1
    extract_lets ws x
    split
    · exact ht
    split
    · simp [ht]
    · next u _ _ => simp [u, ht]

@[simp ↓] theorem execCreditReturn_keepsMems (j : Fin 128) (upset : List (Fin 48)) (s : State) :
    KeepsMems (execCreditReturn j upset s) s := by
  unfold execCreditReturn
  simp only [keepsMems_next]
  split
  · rfl
  have hrow := s.txRow_mems j.val upset
  split
  · next heq =>
    rw [heq] at hrow
    exact hrow
  · next rows t heq =>
    have ht : t.mems = s.mems := by
      rw [heq] at hrow
      exact hrow
    simp [ht]

@[simp ↓] theorem execQueueSelect_keepsMems (p : Fin 128) (bad : Option (Fin 16384)) (s : State) :
    KeepsMems (execQueueSelect p bad s) s := by
  unfold execQueueSelect
  simp only [keepsMems_next]
  split
  · simp
  split
  · split
    · next t ht => exact s.selectPhase_mems _ _ ht
    · cases hs : s.selectPhase p.val false with
      | none => rfl
      | some t => exact s.selectPhase_mems _ _ hs
  · rfl

@[simp ↓] theorem execSessionStart_keepsMems (port : CfgPort) (w : Word) (s : State) : KeepsMems (execSessionStart port w s) s := by
  unfold execSessionStart
  simp only [keepsMems_next]
  split
  · split
    · split
      · split
        · next ht => simp [State.portWords_mems _ _ _ ht]
        · rfl
      · rfl
    split
    · rfl
    split
    · simp
    · simp
    · split
      · next ht => simp [State.portWords_mems _ _ _ ht]
      · rfl
  · split
    · rfl
    · next ht => simp [State.portWords_mems _ _ _ ht]

@[simp ↓] theorem execHeaderCheck_keepsMems (ws : List Word) (s : State) : KeepsMems (execHeaderCheck ws s) s := by
  unfold execHeaderCheck
  simp only [keepsMems_next]
  split
  · split
    · rfl
    split
    · rfl
    next ht =>
    have hp := State.portWords_mems _ _ _ ht
    split
    · simp [hp]
    · split <;> simp [hp]
  · rfl

@[simp ↓] theorem execOperatorGraftSession_keepsMems (ws : List Word) (s : State) : KeepsMems (execOperatorGraftSession ws s) s := by
  unfold execOperatorGraftSession
  simp only [keepsMems_next]
  split
  · split
    · rfl
    split
    · rfl
    next ht => simp [State.portWords_mems _ _ _ ht]
  · rfl

@[simp ↓] theorem execFifoNocTimeout_keepsMems (g : Fin 64) (f : Fin 8) (s : State) : KeepsMems (execFifoNocTimeout g f s) s := by
  refine (keepsMems_next _ _).mpr ?_
  split
  · split
    · simp
    · rfl
  split
  · exact s.serveAt_mems _ _ fun _ _ => by simp
  · rfl

@[simp ↓] theorem execStatusRecordSend_keepsMems (tag : Tag) (s : State) : KeepsMems (execStatusRecordSend tag s) s := by
  refine (keepsMems_next _ _).mpr ?_
  split
  · rfl
  dsimp only
  split
  · simp
  split
  · split <;> simp
  · split <;> simp

@[simp ↓] theorem execDomainWake_keepsMems (ni : Fin 5) (s : State) : KeepsMems (execDomainWake ni s) s := by
  refine (keepsMems_next _ _).mpr ?_
  split <;> simp

section
variable {s : State} (h : s.mems.Canonical)
include h

@[simp ↓] theorem execImageVerify_canonical (ws : List Word) : GoesCanonical (execImageVerify ws s) := by
  unfold execImageVerify
  simp only [goesCanonical_next]
  split
  · exact h
  split
  · exact h
  split
  · exact h
  next ht =>
  have hp := State.nextWords_mems _ _ _ _ ht
  split <;> simp [hp, h]

@[simp ↓] theorem execReadback_canonical (ws : List Word) : GoesCanonical (execReadback ws s) := by
  refine (goesCanonical_next _).mpr ?_
  split
  · split
    · exact h
    split
    · exact h
    next ht =>
    have hp := State.portWords_mems _ _ _ ht
    dsimp only
    split <;> simp [hp, h]
  · exact h

@[simp ↓] theorem execNvmPreverify_canonical (eccBad : Bool) : GoesCanonical (execNvmPreverify eccBad s) := by
  unfold execNvmPreverify
  dsimp only
  repeat' split
  all_goals simp [State.mk_parts_mems, State.mems_parts, h]

@[simp ↓] theorem execNocTimeout_canonical (ni : Fin 5) (txid : BitVec 8) : GoesCanonical (execNocTimeout ni txid s) := by
  unfold execNocTimeout
  dsimp only
  split <;> simp [h]

@[simp ↓] theorem execNocServe_canonical (node : Fin 92) (upset : List Nat) : GoesCanonical (execNocServe node upset s) := by
  refine (goesCanonical_next _).mpr ?_
  repeat' split
  all_goals simp [h]

@[simp ↓] theorem execWakeDelivery_canonical (d : Fin 96) : GoesCanonical (execWakeDelivery d s) := by
  refine (goesCanonical_next _).mpr ?_
  split
  · split
    · exact forEach_canonical _ (fun x t ht => State.deliverDirect_canonical ht x) (by simp [h])
    · exact h
  · exact h

/-! ## Every command and every fc -/

/-- Every command keeps the memories canonical: those that leave them alone by the lemma of what they do, and the others by the lemma of
the operation that writes. -/
theorem exec_canonical (c : Instr) : GoesCanonical (exec c s) := by
  cases c
  case
      fifoNocTimeout | statusRecordSend | queueSelect | rawTransmit | creditReturn | domainWake | take | create | destroy | setprio |
      setaff | wakeThread | yieldThread | exitThread | delay | delayto | setdl | clrdl | semtake | semgive | seminit | egset | egclr |
      egwait | evwait | evbind | evclr | dlmissRead | traceRead | rtcReadLatch | sessionStart | headerCheck | operatorGraftSession |
      operatorErrorRead =>
    exact KeepsMems.goesCanonical (by simp [exec]) h
  case
      stageTransfer | packetComplete | chainFree | cellOutBeat | rawReceive | nocModeSwitch | errorRecordEnqueue | graftCheck |
      wakeExpiry | deadlineMiss | loadFail | sessionTimeout | scpTruncation | pllLockWait | stageOut | stageWen | stageRun |
      watchdogExpiry | fullLoadStart | graftPortRecord | graftPortCommit | graftPortDiscard | graftPortCommandDiscard |
      serialReceiveRead | warmReset | warmResetEnd | thermalHoldEnd | domainReady | tenantResetRelease | tapInstruction =>
    simp only [exec,
      execStageTransfer, execPacketComplete, execChainFree, execCellOutBeat, execRawReceive, execNocModeSwitch, execErrorRecordEnqueue,
      execGraftCheck, execWakeExpiry, execDeadlineMiss, execLoadFail, execSessionTimeout, execScpTruncation, execPllLockWait,
      execStageOut, execStageWen, execStageRun, execWatchdogExpiry, execFullLoadStart, execGraftPortRecord, execGraftPortCommit,
      execGraftPortDiscard, execGraftPortCommandDiscard, execSerialReceiveRead, execWarmReset, execWarmResetEnd, execThermalHoldEnd,
      execDomainReady, execTenantResetRelease, execTapInstruction]
    repeat' split
    all_goals simp [h]
  all_goals simp [h, exec,
    execTileSlot, execTlGcalCommit, execShadowCommit, execLatticeEvaluate, execBarkCheck, execFifoWrite, execFifoRead, execFlush,
    execCellInBeat, execBankGrant, execCellWrite, execCellRead, execDirectWindowAccess, execBucketRefill, execForgive, execQueueAttach,
    execBoughChange, execHistogramClear, execLaneEnable, execPllLockChange, execCalibrationDone, execLockChange, execReceiveFrame,
    execTransmitFrame, execTrainingStart, execTrainingEnd, execEyeStart, execEyeDone, execLaneCounterSnap, execTimeBaseSet,
    execTimeBaseAdj, execTimeBaseSnap, execPpsOutPulse, execPpsInCapture, execHelloSend, execHelloReceive, execHelloTimeout,
    execCreditSend, execCreditReceive, execPyrilDataSend, execPyrilDataReceive, execNocRequestIssue, execFlitForward,
    execNocResponseArrive, execNocBucketRefill, execFenceReq, execRouteEntryWrite, execInjectionEntryWrite, execHostBarAccess,
    execConfigStreamWrite, execH2cDoorbell, execC2hDoorbell, execVopdbDoorbell, execVfErrorRead, execVfFifoEventRead,
    execSubmissionTail, execDescriptorFetch, execDmaChunk, execCompletionWrite, execQueuePairEnable, execQueuePairDisable,
    execGraftOpen, execGraftDataWrite, execGraftCommitWrite, execGraftCancel, execGraftSubmissionTimeout, execVfFunctionLevelReset,
    execPf0Reset, execEventPending, execEventDelivery, execTick, execAudit, execRebuild, execCoreBusAccess, execHeartwoodBoot,
    execComparatorSelfTest, execHeartwoodFault, execGo, execDebugTokenExpiry, execWdclr, execReload, execGraftCommit, execGraftWen,
    execGraftRun, execGpioSet, execGpioClear, execGpioToggle, execPatternMatch, execTimerWrap, execTimerCapture, execUartTransmit,
    execUartReceive, execSpiTransfer, execTwStart, execTwWrite, execTwReadAck, execTwReadNack, execTwStop, execStretchTimeout,
    execMdioFrame, execReferenceSelect, execSlewDone, execReferenceLoss, execPllLockLoss, execColdReset, execSupplyFailure,
    execCanopyReset, execThermalTrip, execSensorSample, execRailFault, execCanopyEccError, execScrub, execNocFatalReport,
    execMeterReadLatch, execMmclr, execRegisterWrite, execHubEdge, execPgoodChange, execReferenceReturn, execTaprootRelock,
    execHostCompletion, execFenceI]

theorem passFc_canonical : (passFc s).mems.Canonical := by
  unfold passFc
  split
  · exact h
  extract_lets held s1 _ s2 s3 start _ _ s4 s5 s6 s7 s8 s9 s10
  have h2 : s2.mems.Canonical := by simp [s2, s1, h]
  clear_value s2
  have h5 : s5.mems.Canonical := by simp [s5, s4, s3, h2]
  clear_value s5
  have h6 : s6.mems.Canonical := by simp [s6, h5]
  clear_value s6
  have h7 : s7.mems.Canonical := State.tickBus_canonical (State.tickNoc_canonical (State.tickFence_canonical h6))
  clear_value s7
  have h10 : s10.mems.Canonical := by simp [s10, s9, s8, h7]
  clear_value s10
  simp [h10]

end

theorem step_canonical {s t : State} (h : s.mems.Canonical) (hst : step s = .next t) : t.mems.Canonical := by
  unfold step at hst
  split at hst
  · cases hst
    exact passFc_canonical h
  · next c r _ =>
    obtain ⟨u, hu, hcan⟩ := exec_canonical (s := { s with pending := r }) h c
    obtain rfl : u = t := by simpa [hu] using hst
    exact hcan

/-- Settles O60: a write, a cleared range or a reset leaves a table canonical, and nothing else touches the three memories. -/
theorem memoriesKeepTheirCanonicalForm : Obligations.MemoriesKeepTheirCanonicalForm := fun _ _ h hst => step_canonical h hst

end Sys2Proof.Machine
end

section
/-! SUPPORT. Calendars (R57, R62): a commit's request is a write of TL_GCAL, and the commit merges the shadows of one grove into the
active copies; the obligation on commits. -/

namespace Sys2Proof.Tbl

variable {α : Type}

/-- A key put into a table that does not list it reads as what was put in. -/
theorem rd_ins_new {t : Tbl α} {k : Nat} (v d : α) (h : ∀ e ∈ t, e.1 ≠ k) : (t.ins k v).rd k d = v := by
  induction t with
  | nil => simp [Tbl.ins, rd_cons]
  | cons e r ih =>
    obtain ⟨a, w⟩ := e
    obtain ⟨ha, hr⟩ := List.forall_mem_cons.mp h
    have hak : a ≠ k := ha
    by_cases hk : k < a <;> simp [Tbl.ins, hk, rd_cons, hak, ih hr]

/-- A table whose keys begin at lo lists no lower one. -/
theorem le_of_mem_rising {t : Tbl α} {lo : Nat} (hr : t.rising lo = true) {e : Nat × α} (he : e ∈ t) : lo ≤ e.1 := by
  induction t generalizing lo with
  | nil => cases he
  | cons a r ih =>
    simp only [Tbl.rising, Bool.and_eq_true, decide_eq_true_eq] at hr
    rcases List.mem_cons.mp he with rfl | he
    · exact hr.1
    · exact Nat.le_of_succ_le ((Nat.succ_le_succ hr.1).trans (ih hr.2 he))

/-- Dropping entries by key leaves the other keys. -/
theorem rd_filter_key (t : Tbl α) (p : Nat → Bool) (k : Nat) (d : α) :
    Tbl.rd (t.filter (fun e => p e.1)) k d = if p k then t.rd k d else d := by
  induction t with
  | nil => simp
  | cons e r ih =>
    obtain ⟨a, v⟩ := e
    by_cases hk : a = k
    · subst hk
      cases hp : p a <;> simp [hp, rd_cons, ih]
    · cases hp : p a <;> simp [hp, rd_cons, hk, ih]

/-- Entries with rising keys, put one after the other into a table that lists none of them: each reads as itself, and the other keys as
before. -/
theorem rd_foldl_ins {l t : Tbl α} {lo : Nat} (k : Nat) (d : α) (hl : l.rising lo = true)
    (hnew : ∀ e ∈ l, ∀ e' ∈ t, e'.1 ≠ e.1) :
    Tbl.rd (l.foldl (fun t e => t.ins e.1 e.2) t) k d = l.rd k (t.rd k d) := by
  induction l generalizing t lo with
  | nil => rfl
  | cons e r ih =>
    obtain ⟨a, v⟩ := e
    simp only [Tbl.rising, Bool.and_eq_true, decide_eq_true_eq] at hl
    obtain ⟨ha, hr⟩ := List.forall_mem_cons.mp hnew
    have habove : ∀ e ∈ r, e.1 ≠ a := fun e he =>
      Nat.ne_of_gt (le_of_mem_rising hl.2 he)
    rw [List.foldl_cons, ih hl.2 ?_, rd_cons]
    · by_cases hk : a = k
      · subst hk
        simp [rd_below _ hl.2, rd_ins_new v d ha]
      · simp [hk, rd_ins_other t v d (Ne.symm hk)]
    · intro e he e' he'
      rcases mem_ins he' with rfl | he'
      · exact (habove e he).symm
      · exact hr e he e' he'

end Sys2Proof.Tbl

namespace Sys2Proof.Machine

/-! ## The request (R57, R62) -/

/-- COMMIT and CALLEN of TL_GCAL. -/
def commitField : Field := ⟨31, 31, .w1s, 0, true, false, false⟩

def callenField : Field := fH 6 0 64

theorem gcalFields_apart : [commitField, callenField].Pairwise Field.Apart := by
  simp [Field.Apart, commitField, callenField, fH]

/-- A field that is only written puts no bit among those that act. -/
theorem judgeField_acts_rw (p : Writer) (ok : Nat → Nat → Bool) (w : Nat) (j : Judged) {f : Field} (h : f.ty = .rw) :
    (judgeField p ok w j f).acts = j.acts := by
  unfold judgeField
  dsimp only
  split_ifs <;> simp [h]

/-- The judgement of heartwood's write of TL_GCAL. -/
def State.gcalJudged (s : State) (g : Nat) (w : Word) : Judged := s.judgeW .heartwood .tlGcal g (fun _ _ => true) w

theorem State.gcalJudged_eq (s : State) (g : Nat) (w : Word) :
    s.gcalJudged g w = [commitField, callenField].foldl (judgeField .h (RegName.tlGcal.okVal g) w.toNat)
      ⟨(s.reg .tlGcal g).toNat, 0, false, false⟩ :=
  s.judgeW_plain _ _ _ _

section
variable (s : State) (g : Nat) {w : Word}

theorem State.gcalJudged_byWriter : (s.gcalJudged g w).byWriter = false := by
  rw [s.gcalJudged_eq, Bool.eq_false_iff, Ne, foldl_judgeField_byWriter _ _ _ gcalFields_apart]
  simp [commitField, callenField, Field.names, fH]

/-- Heartwood's write lands, and notes the fc of a request that is new. -/
theorem State.writeGcal_heartwood (w : Word) :
    s.writeGcal .heartwood g w = (let t := s.land .tlGcal g (s.gcalJudged g w)
      if bit (s.gcalJudged g w).acts 31 && !s.flag .tlGcal g 31 then
        { t with tl := { t.tl with commitAt := t.tl.commitAt.wr g 0 (t.fc + 1) } } else t) := rfl

/-- Heartwood's write is answered, and changes one register alone. -/
theorem State.land_gcal :
    s.land .tlGcal g (s.gcalJudged g w)
      = (s.setReg .tlGcal g (BitVec.ofNat 32 (s.gcalJudged g w).val)).ans (s.gcalJudged g w).status [] := by
  simp [State.land, s.gcalJudged_byWriter]

section
variable (hcommit : bits w.toNat 31 31 = 1)
include hcommit

/-- A write of COMMIT 1 sets COMMIT. -/
theorem State.gcalJudged_commit : bits (s.gcalJudged g w).val 31 31 = 1 := by
  have hold : bits (s.reg .tlGcal g).toNat 31 31 < 2 := bits_lt _ 31 31
  have hset : commitField.landed .h (RegName.tlGcal.okVal g) (bits (s.reg .tlGcal g).toNat 31 31) 1 = 1 := by
    simp only [Field.landed, Field.takes, Field.judged, Field.names, Field.after, RegName.okVal, commitField]
    generalize bits (s.reg .tlGcal g).toNat 31 31 = b at hold
    interval_cases b <;> rfl
  rw [s.gcalJudged_eq]
  refine (foldl_judgeField_bits _ _ _ gcalFields_apart _ (f := commitField) (by simp)).trans ?_
  exact (congrArg _ hcommit).trans hset

/-- COMMIT acts. -/
theorem State.gcalJudged_acts : bit (s.gcalJudged g w).acts 31 = true := by
  rw [s.gcalJudged_eq, List.foldl_cons, List.foldl_cons, List.foldl_nil, judgeField_acts_rw _ _ _ _ rfl]
  have hact : judgeField .h (RegName.tlGcal.okVal g) w.toNat ⟨(s.reg .tlGcal g).toNat, 0, false, false⟩ commitField
      = ⟨setBits (s.reg .tlGcal g).toNat 31 31 (bits (s.reg .tlGcal g).toNat 31 31 ||| 1), setBits 0 31 31 1, false, false⟩ := by
    simp [judgeField, commitField, Field.judged, Field.names, Field.after, RegName.okVal, hcommit]
  rw [hact]
  exact (by decide : bit (setBits 0 31 31 1) 31 = true)

end

section
variable (hlo : 1 ≤ bits w.toNat 6 0) (hhi : bits w.toNat 6 0 ≤ 64)
include hlo hhi

theorem State.gcalJudged_callen : bits (s.gcalJudged g w).val 6 0 = bits w.toNat 6 0 := by
  rw [s.gcalJudged_eq]
  refine (foldl_judgeField_bits _ _ _ gcalFields_apart _ (f := callenField) (by simp)).trans ?_
  exact Field.landed_rw _ rfl rfl (by simp [RegName.okVal, callenField, fH, hlo, hhi])

theorem State.gcalJudged_status : (s.gcalJudged g w).status = .ok := by
  have hvalue : (s.gcalJudged g w).byValue = false := by
    rw [s.gcalJudged_eq, Bool.eq_false_iff, Ne, foldl_judgeField_byValue _ _ _ gcalFields_apart]
    simp [commitField, callenField, Field.names, fH, RegName.okVal, hlo, hhi]
  exact Judged.status_ok (by simp [s.gcalJudged_byWriter]) (by simp [hvalue])

end

end

/-- A field of TL_GCAL after heartwood's write. -/
theorem State.writeGcal_fld (s : State) (g : Nat) (w : Word) {hi : Nat} (lo : Nat) (h : hi < 32) :
    (s.writeGcal .heartwood g w).fld .tlGcal g hi lo = bits (s.gcalJudged g w).val hi lo := by
  have hregs : (s.writeGcal .heartwood g w).regs = (s.land .tlGcal g (s.gcalJudged g w)).regs := by
    rw [s.writeGcal_heartwood]
    dsimp only
    split <;> rfl
  rw [State.fld_congr hregs, State.fld, State.land_reg_self _ _ _ (by decide), bits_ofNat_toNat _ _ h]

/-! ## The commit (R57) -/

/-- No two kinds of shadow register have one name. -/
theorem shadowKinds_names : ∀ p ∈ shadowKinds, ∀ q ∈ shadowKinds, q.1.ctorIdx = p.1.ctorIdx → q = p := by decide

/-- Among the keys of shadow registers are those of grove g's instances. -/
theorem shadowKey_key {p : RegName × Nat} (hp : p ∈ shadowKinds) (g k : Nat) : shadowKey g (p.1.key k) = decide (k / p.2 = g) := by
  have hlt := ctorIdx_lt p.1
  have hmod : p.1.key k % 256 = p.1.ctorIdx := by
    unfold RegName.key
    omega
  have hdiv : p.1.key k / 256 = k := by
    unfold RegName.key
    omega
  rw [Bool.eq_iff_iff, shadowKey, hmod, hdiv]
  simp only [List.any_eq_true, Bool.and_eq_true, beq_iff_eq, decide_eq_true_eq]
  constructor
  · rintro ⟨q, hq, hname, hg⟩
    obtain rfl := shadowKinds_names p hp q hq hname
    exact hg
  · exact fun hg => ⟨p, hp, rfl, hg⟩

/-- After a commit the active copies of grove g's registers hold the shadows', and those of the others what they held. -/
theorem rd_commitActive {regs act : Tbl Word} (hr : regs.rising 0 = true) (g k : Nat) (d : Word) :
    (commitActive regs act g).rd k d = if shadowKey g k then regs.rd k d else act.rd k d := by
  have hnew : ∀ e ∈ regs.filter (fun e => shadowKey g e.1), ∀ e' ∈ act.filter (fun e => !shadowKey g e.1), e'.1 ≠ e.1 := by
    intro e he e' he' heq
    have h1 := (List.mem_filter.mp he).2
    have h2 := (List.mem_filter.mp he').2
    simp [heq, h1] at h2
  unfold commitActive
  rw [Tbl.rd_foldl_ins k d (Tbl.rising_filter _ _ 0 hr) hnew, Tbl.rd_filter_key regs (shadowKey g) k,
    Tbl.rd_filter_key act (fun k => !shadowKey g k) k]
  cases shadowKey g k <;> rfl

/-- What a commit's resets and releases leave: the registers, the active copies and the requests outstanding. -/
def State.calendars (s : State) : Tbl Word × Tbl Word × Tbl Nat := (s.regs, s.act, s.tl.commitAt)

/-- A tile block with the same requests leaves the calendars. -/
theorem State.setTl_calendars (s : State) {tl : TileB} (h : tl.commitAt = s.tl.commitAt) : { s with tl := tl }.calendars = s.calendars := by
  simp [State.calendars, h]

theorem State.commitOwners_calendars (s : State) (g : Nat) : (s.commitOwners g).calendars = s.calendars := by
  unfold State.commitOwners
  dsimp only
  refine (State.setTl_calendars _ rfl).trans (forEach_keeps State.calendars _ s _ fun e t => ?_)
  split
  · exact State.setTl_calendars t rfl
  · rfl

theorem State.zeroGroup_calendars (x : Nat × Nat) (s : State) : (s.zeroGroup x).calendars = s.calendars := by
  unfold State.zeroGroup State.setSidx State.setRst
  dsimp only
  exact (State.setTl_calendars _ rfl).trans (State.setTl_calendars s rfl)

theorem State.zeroMc_calendars (k : Nat) (s : State) : (s.zeroMc k).calendars = s.calendars :=
  State.setTl_calendars s rfl

theorem State.fifoFlush_calendars (s : State) (F : Nat) : (s.fifoFlush F).calendars = s.calendars := by
  simp [State.calendars, State.fifoFlush, State.setFifo]

/-- The state in which grove g's shadows have become active and its request is settled, but for what the commit resets. -/
def State.committed (s : State) (g : Nat) : State :=
  let t := (s.activateShadows g).setBit .tlGcal g 31 false
  { t with tl := { t.tl with commitAt := t.tl.commitAt.wr g 0 0 } }

theorem State.commitShadows_calendars (s : State) (g : Nat) : (s.commitShadows g).calendars = (s.committed g).calendars := by
  unfold State.commitShadows
  dsimp only
  rw [forEach_keeps State.calendars _ _ _ fun F s => s.fifoFlush_calendars F, forEach_keeps State.calendars _ _ _ State.zeroMc_calendars,
    forEach_keeps State.calendars _ _ _ State.zeroGroup_calendars]
  rfl

theorem State.activateShadows_act (s : State) (g : Nat) : (s.activateShadows g).act = commitActive s.regs s.act g :=
  congrArg (·.2.1) (State.commitOwners_calendars { s with act := commitActive s.regs s.act g } g)

/-- CALLEN in use is the one staged. -/
theorem State.activateShadows_callen (s : State) (g : Nat) : (s.activateShadows g).fld .tlGcalact g 6 0 = s.fld .tlGcal g 6 0 := by
  have hregs : (State.commitOwners { s with act := commitActive s.regs s.act g } g).regs = s.regs :=
    congrArg (·.1) (State.commitOwners_calendars { s with act := commitActive s.regs s.act g } g)
  unfold State.activateShadows
  dsimp only
  rw [State.fld_setFld _ _ (by decide), State.fld_congr hregs]
  exact Nat.mod_eq_of_lt (bits_lt _ 6 0)

theorem State.committed_callen (s : State) (g : Nat) : (s.committed g).fld .tlGcalact g 6 0 = s.fld .tlGcal g 6 0 := by
  have hregs : (s.committed g).regs = ((s.activateShadows g).setBit .tlGcal g 31 false).regs := rfl
  rw [State.fld_congr hregs, ← s.activateShadows_callen, State.fld, State.setBit, State.reg_setFld_name _ _ (by decide), State.fld]

theorem State.committed_flag (s : State) (g : Nat) : (s.committed g).flag .tlGcal g 31 = false := by
  have hregs : (s.committed g).regs = ((s.activateShadows g).setBit .tlGcal g 31 false).regs := rfl
  rw [State.flag, State.fld_congr hregs, State.setBit, State.fld_setFld _ _ (by decide)]
  rfl

theorem State.commitDue_of_pass {s : State} {g : Nat} (hpower : s.powered g = true) (hflag : s.flag .tlGcal g 31 = true)
    (hat : s.tl.commitAt.rd g 0 ≤ s.fc) (hphase : s.fld .tlGphase g 5 0 = 0) : s.commitDue g = true := by
  simp [State.commitDue, hpower, hflag, hat, hphase]

/-- Settles O6: the request is judged field by field, and the commit puts the shadows of grove g, whose keys rise, in place of its active
copies. -/
theorem calendarsCommitTogetherAtTheWrap : Obligations.CalendarsCommitTogetherAtTheWrap := by
  refine ⟨fun g w s => ⟨fun hcommit hlo hhi => ⟨_, rfl, ?_⟩, fun n => rfl⟩, ?_⟩
  · have hland := s.land_gcal (w := w) g.val
    refine ⟨?_, ?_, ?_, ?_, ?_, ?_⟩
    · simp [State.flag, s.writeGcal_fld, s.gcalJudged_commit g.val hcommit]
    · rw [s.writeGcal_fld g.val w 0 (by decide), s.gcalJudged_callen g.val hlo hhi]
    · intro hfresh
      simp [s.writeGcal_heartwood, s.gcalJudged_acts g.val hcommit, hfresh, hland]
    all_goals
      rw [s.writeGcal_heartwood, hland]
      dsimp only
      split <;> simp [s.gcalJudged_status g.val hlo hhi]
  · intro g s hregs hact hpower _ hflag hat hphase
    have hexec : exec (.shadowCommit g) s = .next (s.commitShadows g.val) :=
      congrArg Host.Outcome.next (if_pos (State.commitDue_of_pass hpower hflag hat hphase))
    refine ⟨_, hexec, ?_⟩
    obtain ⟨hr, ha, hc⟩ : (s.commitShadows g.val).regs = (s.committed g.val).regs
        ∧ (s.commitShadows g.val).act = (s.committed g.val).act
        ∧ (s.commitShadows g.val).tl.commitAt = (s.committed g.val).tl.commitAt := by
      simpa [State.calendars] using s.commitShadows_calendars g.val
    have hactive (n : RegName) (k : Nat) :
        (s.commitShadows g.val).actv n k = if shadowKey g.val (n.key k) then s.reg n k else s.actv n k := by
      rw [State.actv, ha, show (s.committed g.val).act = commitActive s.regs s.act g.val from s.activateShadows_act g.val,
        rd_commitActive hregs]
      rfl
    refine ⟨fun p hp k hk => ?_, fun p hp k hk => ?_, ?_, ?_, ?_⟩
    · simp [hactive, shadowKey_key hp, hk]
    · simp [hactive, shadowKey_key hp, hk]
    · rw [State.fld_congr hr, s.committed_callen]
    · rw [State.flag, State.fld_congr hr]
      exact s.committed_flag g.val
    · rw [hc]
      simp [State.committed]

end Sys2Proof.Machine
end

section
/-! SUPPORT. Tile slots (R46, R47, R52, R53, R73): what a slot does by what it finds, what an issuing ring leaves and what it puts in
flight; the obligation on tile slots. -/

namespace Sys2Proof.Machine

/-! ## What a slot finds (R46, R47) -/

/-- A slot that finds ring r passes over it, counts its owner fault, waits or executes it. -/
theorem State.slot_found {s : State} {T e i n r : Nat} (h : s.slotFinds T e i n r) :
    s.slot T = (if !s.ripe T r then (s.slotTaken T).steerTo T e (s.fc + 1) ((i % n + 1) % n)
      else if rOwner (s.ringRec T r) != s.actFld .tlGrp (16 * T + e) 31 22 || !s.portsOwned T (s.ringRec T r) (rOwner (s.ringRec T r)) then
        ((s.slotTaken T).ownerFault T r).steerTo T e (s.fc + 1) ((i % n + 1) % n)
      else if !s.canIssue T (s.ringRec T r) then s.slotTaken T
      else (s.slotTaken T).execRing T r e i n) := by
  obtain ⟨hrun, hpower, hfree, rfl, he, rfl, hn, rfl, rfl⟩ := h
  have hopen : ¬ (!s.running (T / 64) || !s.powered (T / 64) || decide (s.tl.slotAt.rd T 0 = s.fc + 1)) = true := by
    simp [hrun, hpower, hfree]
  have hmembers : ¬ (decide (s.calEntry T (s.fld .tlGphase (T / 64) 5 0) = 15)
      || decide ((ones 16 (s.actFld .tlGrp (16 * T + s.calEntry T (s.fld .tlGphase (T / 64) 5 0)) 15 0)).length = 0)) = true := by
    simp only [Bool.or_eq_true, decide_eq_true_eq]
    exact not_or.mpr ⟨he, hn⟩
  exact (if_neg hopen).trans (if_neg hmembers)

theorem exec_tileSlot (g t : Fin 64) (s : State) : exec (.tileSlot g t []) s = .next (s.slot (tileIx g.val t.val)) := rfl

/-! ## The owner fault (R47) -/

theorem State.ownerFault_tl (s : State) (T r : Nat) : (s.ownerFault T r).tl = s.tl := rfl

theorem State.ownerFault_regs (s : State) (T r : Nat) : (s.ownerFault T r).regs = (s.count .tlGfault (T / 64) 31 0 1).regs := rfl

theorem State.ownerFault_recs (s : State) (T r : Nat) : ∃ rec, (s.ownerFault T r).ht.recs = s.ht.recs ++ [(.heartwood, rec)] :=
  ⟨_, rfl⟩

/-- An owner fault, and the index moved on: counted, told to heartwood, and nothing put in flight. -/
theorem State.ownerFault_steered (s : State) (T r group due v : Nat) :
    let u := (s.ownerFault T r).steerTo T group due v
    u.fld .tlGfault (T / 64) 31 0 = satAdd 32 (s.fld .tlGfault (T / 64) 31 0) 1
    ∧ (∃ rec, u.ht.recs = s.ht.recs ++ [(.heartwood, rec)])
    ∧ u.tl.land = s.tl.land ∧ u.tl.rst = s.tl.rst ∧ u.tl.mem = s.tl.mem := by
  have htl := s.ownerFault_tl T r
  have hrecs := s.ownerFault_recs T r
  have hcount : (s.ownerFault T r).fld .tlGfault (T / 64) 31 0 = satAdd 32 (s.fld .tlGfault (T / 64) 31 0) 1 :=
    (State.fld_congr (s.ownerFault_regs T r) ..).trans (s.fld_count 1 (by decide))
  generalize s.ownerFault T r = f at htl hrecs hcount
  exact ⟨hcount, hrecs, by simp [State.steerTo, htl], by simp [State.steerTo, htl], by simp [State.steerTo, htl]⟩

/-! ## What an issuing ring leaves and adds (R53, R73) -/

/-- From `s` to `u` tile T has put `l` in flight: what was in flight still is, and registers, the state of rings and tile memory stand. -/
structure State.Issues (T : Nat) (l : List Landing) (s u : State) : Prop where
  rst : u.tl.rst = s.tl.rst
  mem : u.tl.mem = s.tl.mem
  regs : u.regs = s.regs
  act : u.act = s.act
  land : ∀ x ∈ s.tl.land.rd T [] ++ l, x ∈ u.tl.land.rd T []

/-- What is put in flight comes after what was. -/
theorem State.sched_land (s : State) (T : Nat) (l : List Landing) : (s.sched T l).tl.land.rd T [] = s.tl.land.rd T [] ++ l := by
  unfold State.sched
  split <;> simp_all

namespace State.Issues

variable {T : Nat} {l : List Landing} {s t u : State}

/-- An operation that leaves the register files and, in the tiles, all but steering puts nothing in flight. -/
theorem nothing (hrst : u.tl.rst = s.tl.rst) (hmem : u.tl.mem = s.tl.mem) (hland : u.tl.land = s.tl.land) (hregs : u.regs = s.regs)
    (hact : u.act = s.act) : s.Issues T [] u :=
  ⟨hrst, hmem, hregs, hact, fun x hx => by simpa [hland] using hx⟩

theorem refl (s : State) : s.Issues T [] s := nothing rfl rfl rfl rfl rfl

theorem trans (h : s.Issues T l t) (h' : t.Issues T [] u) : s.Issues T l u :=
  ⟨h'.rst.trans h.rst, h'.mem.trans h.mem, h'.regs.trans h.regs, h'.act.trans h.act,
    fun x hx => h'.land x (by simpa using h.land x hx)⟩

theorem setSrc (h : s.Issues T l t) (x : Src) (st : Stage) : s.Issues T l (t.setSrc x st) := h.trans (nothing rfl rfl rfl rfl rfl)

theorem tellOwner (h : s.Issues T l t) (cls : Nat) (tag : Tag) (block code detail : Nat) :
    s.Issues T l (t.tellOwner cls tag block code detail) :=
  h.trans (nothing rfl rfl rfl rfl rfl)

theorem steerTo (h : s.Issues T l t) (group due value : Nat) : s.Issues T l (t.steerTo T group due value) :=
  h.trans (nothing rfl rfl rfl rfl rfl)

/-- What is put in flight joins what was. -/
theorem sched_add (h : s.Issues T l t) (l' : List Landing) : s.Issues T (l ++ l') (t.sched T l') where
  rst := by rw [← h.rst]; unfold State.sched; split <;> rfl
  mem := by rw [← h.mem]; unfold State.sched; split <;> rfl
  regs := by rw [← h.regs]; unfold State.sched; split <;> rfl
  act := by rw [← h.act]; unfold State.sched; split <;> rfl
  land x hx := by
    rw [← List.append_assoc] at hx
    rw [State.sched_land]
    exact List.mem_append.mpr ((List.mem_append.mp hx).imp_left (h.land x))

theorem sched (h : s.Issues T l t) (l' : List Landing) : s.Issues T l (t.sched T l') :=
  let h' := h.sched_add l'
  ⟨h'.rst, h'.mem, h'.regs, h'.act, fun x hx => h'.land x (by rw [← List.append_assoc]; exact List.mem_append_left _ hx)⟩

theorem forEach {α : Type} {f : α → State → State} (hf : ∀ a t, State.Issues T [] t (f a t)) (l : List α) (s : State) :
    s.Issues T [] (forEach l s f) := by
  unfold Machine.forEach
  induction l generalizing s with
  | nil => exact .refl s
  | cons a r ih => exact (hf a s).trans (ih (f a s))

end State.Issues

/-- What a ring puts in flight for its W to the ports that OUTSEL gives W (R53). -/
def Slot.wPorts (z : Slot) (fc : Nat) (w : WuRes) : List Landing :=
  ((List.range 4).filter (fun k => outCode (rOutsel z.rcd) k == 1)).map (fun k =>
    ⟨fc + 2, ⟨z.r % 16, Nat.mod_lt _ (by decide)⟩, BitVec.ofNat 10 (rOwner z.rcd),
      .port ⟨k % 4, Nat.mod_lt _ (by decide)⟩ (w.w.cword (BitVec.ofNat 10 (rOwner z.rcd)))⟩)

/-- What a ring puts in flight for its W to the registers W is written to (R73). -/
def Slot.wRegs (z : Slot) (fc : Nat) (w : WuRes) : List Landing :=
  (z.wWrites w.w.data).map (fun e => ⟨fc + 2, ⟨z.r % 16, Nat.mod_lt _ (by decide)⟩, BitVec.ofNat 10 (rOwner z.rcd), e⟩)

/-- A ring without MEMOP takes X and Y from the feeds its INSEL names. -/
def State.ringSlot (s : State) (T r : Nat) : Slot :=
  let word (en : Nat) (port : Nat) : Opd :=
    if bit (rInsel (s.ringRec T r)) en then ((s.portWord T port).map CWord.opd).getD Opd.idle else Opd.idle
  ⟨T, r, s.ringRec T r, word 15 (bits (rInsel (s.ringRec T r)) 14 13), word 11 (bits (rInsel (s.ringRec T r)) 10 9), Opd.idle, Opd.idle⟩

/-- What its word unit gives. -/
def State.ringW (s : State) (T r : Nat) : Option WuRes :=
  let rcd := s.ringRec T r
  wordUnit (rWuop rcd) (rImm rcd) ((s.ringSlot T r).src s (bits (rWuop rcd) 13 10)) ((s.ringSlot T r).src s (bits (rWuop rcd) 9 6))
    (s.flagsOf T r) (s.pReg T r (bits (rWuop rcd) 1 0))

/-- A ring without MEMOP whose word unit gives W without poison only puts results in flight, W's among them. -/
theorem State.execRing_issues {s0 : State} {T r : Nat} (group i n : Nat) {w : WuRes} (hmem : rMemop (s0.ringRec T r) = 0)
    (hw : s0.ringW T r = some w) (hpoison : w.w.poison = false) :
    s0.Issues T ((s0.ringSlot T r).wPorts s0.fc w ++ (s0.ringSlot T r).wRegs s0.fc w) (s0.execRing T r group i n) := by
  generalize hl : (s0.ringSlot T r).wPorts s0.fc w ++ (s0.ringSlot T r).wRegs s0.fc w = l
  unfold State.execRing
  extract_lets rcd own mo act k dual q q3 word op writes inW ring mk tell s1 md ptr s2 a slot
  have htell : ∀ b c d e t, s0.Issues T l t → s0.Issues T l (tell b c d e t) := fun b c d e t h => by
    dsimp only [tell]
    split
    · exact h.tellOwner ..
    · exact h
  have h1 : s0.Issues T [] s1 := .forEach (fun e t => by
    dsimp only
    split
    · exact (State.Issues.refl t).setSrc ..
    · exact .refl t) _ s0
  have h2 : s0.Issues T [] s2 := h1.sched _
  clear_value tell s2
  have hact : act = 0 := by simp only [act, mo, rcd, hmem]; rfl
  have hdual : dual = false := by simp only [dual, mo, rcd, hmem]; rfl
  split
  next m e1 hm =>
  split
  next m1 e2 hm1 =>
  obtain rfl : Opd.idle = m := by simpa [hact] using congrArg Prod.fst hm
  obtain rfl : Opd.idle = m1 := by simpa [hdual] using congrArg Prod.fst hm1
  extract_lets z wu fault s3 u s4 s5 s6 s7 s8 s9
  have hwu : wu = some w := hw
  have h3 : s0.Issues T l s3 := by
    simp only [s3, hwu, hpoison, Bool.false_eq_true, if_false, ← hl]
    exact (h2.sched_add _).sched_add _
  clear_value z wu fault u s3
  have h4 : s0.Issues T l s4 := by
    dsimp only [s4]
    split
    · exact h3
    · exact h3.sched _
  clear_value s4
  have h5 : s0.Issues T l s5 := by
    dsimp only [s5]
    split
    · split
      · exact h4
      · split
        · exact htell _ _ _ _ _ h4
        · exact h4.sched _
    · exact h4
  clear_value s5
  have h6 : s0.Issues T l s6 := by
    dsimp only [s6]
    split
    · exact h5
    · exact h5.sched _
  clear_value s6
  have h9 : s0.Issues T l s9 := htell _ _ _ _ _ (htell _ _ _ _ _ (htell _ _ _ _ _ h6))
  clear_value s9
  split
  · exact h9
  · exact h9.steerTo ..

theorem Slot.mem_wRegs {z : Slot} {w : WuRes} {ef : Effect} (fc : Nat) (h : ef ∈ z.wWrites w.w.data) :
    ∃ x ∈ z.wRegs fc w, x.due = fc + 2 ∧ x.ring.val = z.r % 16 ∧ x.tag = BitVec.ofNat 10 (rOwner z.rcd) ∧ x.eff = ef :=
  ⟨_, List.mem_map_of_mem h, rfl, rfl, rfl, rfl⟩

theorem Slot.mem_wPorts {z : Slot} (w : WuRes) (fc : Nat) {k : Fin 4} (h : outCode (rOutsel z.rcd) k.val = 1) :
    ∃ x ∈ z.wPorts fc w, x.due = fc + 2 ∧ x.eff = .port k (w.w.cword (BitVec.ofNat 10 (rOwner z.rcd))) := by
  refine ⟨_, List.mem_map_of_mem (List.mem_filter.mpr ⟨List.mem_range.mpr k.isLt, ?_⟩), rfl, ?_⟩
  · simp [h]
  · simp only [Nat.mod_eq_of_lt k.isLt]

/-- Settles O4: a slot goes one of the ways of `State.slot_found`, and an executing ring only puts results in flight. -/
theorem tileSlotsExecuteAndPutResultsInFlight : Obligations.TileSlotsExecuteAndPutResultsInFlight := by
  refine ⟨fun g t s e i n r hfinds => ?_, fun s T r e i n x y m m1 w hmem hx hy hm hm1 hw hpoison => ?_⟩
  · rw [exec_tileSlot]
    generalize tileIx g.val t.val = T at hfinds ⊢
    rw [State.slot_found hfinds]
    refine ⟨fun hripe => by simp [hripe], fun hripe howner => ?_, fun hripe howner hports => ?_⟩
    · have hfault : (rOwner (s.ringRec T r) != s.actFld .tlGrp (16 * T + e) 31 22) = true := bne_iff_ne.mpr howner
      simp only [hripe, hfault, Bool.not_true, Bool.false_eq_true, Bool.true_or, if_false, if_true]
      exact ⟨_, rfl, (s.slotTaken T).ownerFault_steered ..⟩
    · have howned : (rOwner (s.ringRec T r) != s.actFld .tlGrp (16 * T + e) 31 22) = false := bne_eq_false_iff_eq.mpr howner
      simp only [hripe, howned, hports, Bool.not_true, Bool.or_self, Bool.false_eq_true, if_false]
      exact ⟨fun hissue => by simp [hissue], fun hissue => by simp [hissue]⟩
  · subst hx hy hm hm1
    have h : s.Issues T _ (s.execRing T r e i n) := State.execRing_issues e i n hmem hw hpoison
    refine ⟨fun ef hef => ?_, fun k hk => ?_, h.rst, h.mem, h.regs, h.act⟩
    · obtain ⟨l, hl, hspec⟩ := Slot.mem_wRegs s.fc hef
      exact ⟨l, h.land l (by simp [hl, State.ringSlot]), hspec⟩
    · obtain ⟨l, hl, hspec⟩ := Slot.mem_wPorts (z := s.ringSlot T r) w s.fc hk
      exact ⟨l, h.land l (by simp [hl]), hspec⟩

end Sys2Proof.Machine
end

section
/-! SUPPORT. Word unit and accumulator arithmetic (R76, R84, R85): a word's signed value is its balanced residue modulo 2^24, so a result
wrapped to 24 bits, or an accumulator wrapped to 56, differs from the exact result exactly when that lies outside the width. -/

namespace Sys2Proof.Machine

/-! ## Signed words -/

theorem sgn_eq_bmod (w n : Nat) : sgn w n = (n : Int).bmod (2 ^ w) := by
  have hhalf : (2 ^ w + 1) / 2 = 2 ^ (w - 1) := by
    cases w with
    | zero => rfl
    | succ k => rw [Nat.add_sub_cancel, Nat.pow_succ]; omega
  unfold sgn Int.bmod
  dsimp only
  split <;> split <;> omega

/-- The signed value of a word and the word itself leave the same residue. -/
theorem sgn_emod (w n : Nat) : sgn w n % (2 ^ w : Nat) = (n : Int) % (2 ^ w : Nat) := by
  rw [sgn_eq_bmod, Int.bmod_emod]

theorem natCast_unsgn (w : Nat) (i : Int) : (unsgn w i : Int) = i % (2 ^ w : Nat) :=
  Int.toNat_of_nonneg (Int.emod_nonneg _ (by positivity))

theorem unsgn_lt (w : Nat) (i : Int) : unsgn w i < 2 ^ w := by
  have := Int.emod_lt_of_pos i (b := (2 ^ w : Nat)) (by positivity)
  rw [← natCast_unsgn] at this
  omega

@[simp] theorem sgn_unsgn (w : Nat) (i : Int) : sgn w (unsgn w i) = i.bmod (2 ^ w) := by
  rw [sgn_eq_bmod, natCast_unsgn, Int.emod_bmod]

/-! ## Wrapping and overflow -/

/-- A balanced residue differs from the number exactly when the number lies outside the range of residues. -/
theorem bmod_ne_self_iff (i : Int) {m : Nat} (hm : 0 < m) : i.bmod m ≠ i ↔ i < -(m / 2) ∨ (m + 1) / 2 ≤ i := by
  rw [ne_eq, Int.bmod_eq_iff hm, Int.sub_self]
  simp only [dvd_zero, and_true]
  omega

/-- Signed overflow (R76): a word congruent to the exact result differs from it exactly when the result does not fit in 24 bits. -/
theorem ovf24_iff_sgn_ne {n : Nat} {i : Int} (h : sgn 24 n = i.bmod (2 ^ 24)) : ovf24 i = true ↔ sgn 24 n ≠ i := by
  rw [h, bmod_ne_self_iff i (by decide)]
  simp only [ovf24, Bool.or_eq_true, decide_eq_true_eq]
  omega

/-! ## Sums and differences (R76) -/

/-- A sum kept modulo 2^24 is congruent to the sum of the signed values. -/
theorem sgn_add_mod (a b c : Nat) : sgn 24 ((a + b + c) % 2 ^ 24) = (sgn 24 a + sgn 24 b + c).bmod (2 ^ 24) := by
  simp only [sgn_eq_bmod, Int.natCast_emod, Int.natCast_add, Int.emod_bmod]
  exact Int.add_bmod_eq_add_bmod_right c (Int.add_bmod ..)

/-- A signed difference wrapped to a word is the difference of the words. -/
theorem unsgn_sub_emod (a b c : Nat) : ((unsgn 24 (sgn 24 a - sgn 24 b - c) + b + c : Nat) : Int) % (2 ^ 24 : Nat)
    = a % (2 ^ 24 : Nat) := by
  have ha := sgn_emod 24 a
  have hb := sgn_emod 24 b
  have hw := natCast_unsgn 24 (sgn 24 a - sgn 24 b - c)
  omega

/-! ## Clipping (R76, R85) -/

theorem clip24_eq (i : Int) : clip 24 i = max (-(2 ^ 23 : Int)) (min (2 ^ 23 - 1) i) := by
  simp only [clip]
  omega

/-- A clipped number fits in a word. -/
theorem sgn_unsgn_clip24 (i : Int) : sgn 24 (unsgn 24 (clip 24 i)) = max (-(2 ^ 23 : Int)) (min (2 ^ 23 - 1) i) := by
  rw [sgn_unsgn, clip24_eq, Int.bmod_eq_iff (by decide)]
  omega

/-- Saturation is told exactly when the clip changed the number. -/
theorem ovf24_iff_clip24_ne (i : Int) : ovf24 i = true ↔ sgn 24 (unsgn 24 (clip 24 i)) ≠ i := by
  rw [sgn_unsgn_clip24]
  simp only [ovf24, Bool.or_eq_true, decide_eq_true_eq]
  omega

/-- The saturating pair (R76). -/
theorem wuSat_spec (i : Int) : (wuSat i).w < 2 ^ 24 ∧ sgn 24 (wuSat i).w = max (-(2 ^ 23 : Int)) (min (2 ^ 23 - 1) i)
    ∧ ((wuSat i).sat = true ↔ sgn 24 (wuSat i).w ≠ i) :=
  ⟨unsgn_lt .., sgn_unsgn_clip24 i, ovf24_iff_clip24_ne i⟩

/-! ## Accumulators (R84, R85) -/

theorem accAct_add_fst (v : BitVec 56) (x : Int) : (accAct v (.add x)).1 = v + BitVec.ofInt 56 x := by
  change BitVec.ofInt 56 (v.toInt + x) = _
  rw [BitVec.ofInt_add, BitVec.ofInt_toInt]

theorem accAct_add_wraps_iff (v : BitVec 56) (x : Int) :
    (accAct v (.add x)).2 = true ↔ (accAct v (.add x)).1.toInt ≠ v.toInt + x := by
  simp only [accAct, BitVec.toInt_ofInt, bmod_ne_self_iff _ (Nat.two_pow_pos 56), Bool.or_eq_true, decide_eq_true_eq]
  omega

/-- Rounding is off by at most half of what it divides by, and at exactly half the quotient is even (R85). -/
theorem roundEven_nearest (v : Int) (sh : Nat) :
    2 * (v - roundEven v sh * 2 ^ sh) ≤ 2 ^ sh ∧ 2 * (roundEven v sh * 2 ^ sh - v) ≤ 2 ^ sh
      ∧ (2 * (v - roundEven v sh * 2 ^ sh) = 2 ^ sh ∨ 2 * (roundEven v sh * 2 ^ sh - v) = 2 ^ sh → roundEven v sh % 2 = 0) := by
  have hpos : (0 : Int) < 2 ^ sh := by positivity
  have hdiv : v / 2 ^ sh * 2 ^ sh + v % 2 ^ sh = v := Int.ediv_mul_add_emod ..
  have hlt : v % 2 ^ sh < 2 ^ sh := Int.emod_lt_of_pos _ hpos
  have hnn : 0 ≤ v % 2 ^ sh := Int.emod_nonneg _ hpos.ne'
  have hup : (v / 2 ^ sh + 1) * 2 ^ sh = v / 2 ^ sh * 2 ^ sh + 2 ^ sh := by ring
  simp only [roundEven, Int.natCast_pow, Int.cast_ofNat_Int]
  generalize v / 2 ^ sh = q at *
  generalize v % 2 ^ sh = r at *
  generalize (2 : Int) ^ sh = d at *
  split
  next => omega
  next =>
    split
    next => omega
    next => split <;> omega

/-- A store clips the rounded quotient, and tells when that changed it (R85). -/
theorem macStore_spec (v : BitVec 56) (sh : Nat) :
    sgn 24 (macStore v sh).1 = max (-(2 ^ 23 : Int)) (min (2 ^ 23 - 1) (roundEven v.toInt sh))
      ∧ ((macStore v sh).2 = true ↔ sgn 24 (macStore v sh).1 ≠ roundEven v.toInt sh) :=
  ⟨sgn_unsgn_clip24 _, ovf24_iff_clip24_ne _⟩

/-- Settles O5: every wrapped result is congruent to the exact one, and every clipped result is the nearest that fits. -/
theorem wordUnitAndAccumulatorArithmetic : Obligations.WordUnitAndAccumulatorArithmetic := by
  refine ⟨fun var imm bcode pv a b c cond ha hb => ⟨?add, ?adc, ?sub, ?sbb, ?adds, ?subs⟩,
    fun v x => ⟨accAct_add_fst v x, accAct_add_wraps_iff v x, rfl⟩, fun v sh => ?store⟩
  case add => exact ⟨_, rfl, rfl, decide_eq_true_iff, ovf24_iff_sgn_ne (by simpa using sgn_add_mod a b 0)⟩
  case adc => exact ⟨_, rfl, rfl, decide_eq_true_iff, ovf24_iff_sgn_ne (sgn_add_mod a b (b2n c))⟩
  case sub =>
    have hdiff := unsgn_sub_emod a b 0
    have hlt := unsgn_lt 24 (sgn 24 a - sgn 24 b)
    have hw : unsgn 24 (sgn 24 a - sgn 24 b) = (a + 2 ^ 24 - b) % 2 ^ 24 := by
      simp only [Int.natCast_zero, sub_zero] at hdiff
      omega
    exact ⟨_, rfl, hw, decide_eq_true_iff, ovf24_iff_sgn_ne (sgn_unsgn ..)⟩
  case sbb =>
    exact ⟨_, rfl, by exact_mod_cast unsgn_sub_emod a b (b2n c), decide_eq_true_iff, ovf24_iff_sgn_ne (sgn_unsgn ..)⟩
  case adds => exact ⟨_, rfl, wuSat_spec _⟩
  case subs => exact ⟨_, rfl, wuSat_spec _⟩
  case store =>
    obtain ⟨hbelow, habove, htie⟩ := roundEven_nearest v.toInt sh
    exact ⟨hbelow, habove, htie, macStore_spec v sh⟩

end Sys2Proof.Machine
end

section
/-! SUPPORT. Switch inputs (R110-R116): what a stage set is read back as, what a drop and a parity replacement leave and count, and the
judgement of a presented word case by case; the obligation on switch inputs. -/

namespace Sys2Proof.Machine

/-! ## Stages, drops and replacements -/

/-- A grove is read off the number of each of its tiles. -/
theorem tileIx_grove (g : Nat) (t : Fin 64) : tileIx g t.val / 64 = g := by
  unfold tileIx
  omega

/-- Setting a stage changes the switch alone. -/
@[simp] theorem State.setSrc_frame (s : State) (x : Src) (st : Stage) :
    (s.setSrc x st).fc = s.fc ∧ (s.setSrc x st).regs = s.regs ∧ (s.setSrc x st).act = s.act ∧ (s.setSrc x st).tl = s.tl
      ∧ (s.setSrc x st).lt = s.lt ∧ (s.setSrc x st).ht = s.ht :=
  ⟨rfl, rfl, rfl, rfl, rfl, rfl⟩

/-- A stage set is what is then read from it. -/
@[simp] theorem State.srcStage_setSrc (s : State) (x : Src) (st : Stage) : (s.setSrc x st).srcStage x = st := by
  cases x <;> exact Tbl.rd_wr_same _ _ _ _

section
variable (s : State) (T i : Nat) (w : CWord)

/-- A drop changes registers and heartwood alone. -/
@[simp] theorem State.barkDrop_frame :
    (s.barkDrop T i w).fc = s.fc ∧ (s.barkDrop T i w).sw = s.sw ∧ (s.barkDrop T i w).tl = s.tl ∧ (s.barkDrop T i w).lt = s.lt := by
  unfold State.barkDrop
  dsimp only
  split <;> exact ⟨rfl, rfl, rfl, rfl⟩

theorem State.srcStage_barkDrop (x : Src) : (s.barkDrop T i w).srcStage x = s.srcStage x := by
  cases x <;> simp [State.srcStage]

/-- Counting a drop leaves DROPSEEN. -/
theorem State.dropSeen_count : (s.count .swGbark (T / 64) 31 0 1).flag .swIn (64 * T + i) 0 = s.flag .swIn (64 * T + i) 0 := by
  rw [State.flag, State.fld, s.reg_count_name _ (by decide)]
  rfl

/-- A drop is counted in its grove (R112). -/
theorem State.barkDrop_count :
    (s.barkDrop T i w).fld .swGbark (T / 64) 31 0 = satAdd 32 (s.fld .swGbark (T / 64) 31 0) 1 := by
  have hcount := s.fld_count (n := .swGbark) (i := T / 64) (hi := 31) (lo := 0) 1 (by decide)
  unfold State.barkDrop
  dsimp only
  split
  · exact hcount
  · rw [State.fld, State.setBit, State.reg_setFld_name _ _ (by decide)]
    exact hcount

/-- After a drop DROPSEEN is 1 (R113). -/
theorem State.barkDrop_dropSeen : (s.barkDrop T i w).flag .swIn (64 * T + i) 0 = true := by
  unfold State.barkDrop
  dsimp only
  split
  case isTrue hseen => exact hseen
  case isFalse => exact State.flag_setBit_true _ (by decide)

/-- The first drop since DROPSEEN was clear is told to heartwood, a later one to nobody (R113). -/
theorem State.barkDrop_recs :
    (s.barkDrop T i w).ht.recs = s.ht.recs ++ (if s.flag .swIn (64 * T + i) 0 then [] else
      [(.heartwood, mkRec 2 (BitVec.ofNat 10 (s.swOwner T i)) 1 5 (T * 2 ^ 20 + i * 2 ^ 14 + w.tag.toNat))]) := by
  unfold State.barkDrop
  simp only [s.dropSeen_count T i]
  split
  · simp
  · rfl

/-- A replacement is counted in its grove (R115). -/
theorem State.parityTold_count :
    (s.parityTold T i).fld .swGpar (T / 64) 31 0 = satAdd 32 (s.fld .swGpar (T / 64) 31 0) 1 :=
  s.fld_count 1 (by decide)

/-- A replacement is told to the owner of the input (R115). -/
theorem State.parityTold_recs :
    (s.parityTold T i).ht.recs = s.ht.recs ++ [(.domain (BitVec.ofNat 10 (s.swOwner T i)),
      mkRec 1 (BitVec.ofNat 10 (s.swOwner T i)) 1 6 (T * 2 ^ 20 + i * 2 ^ 14))] := rfl

/-! ## A word arrives (R112, R116) -/

/-- An input that no output selects takes no word, not even a foreign one (log entry 26). -/
theorem State.arrive_unselected (hsel : s.selects T i = []) : s.arrive T i w = (false, s) := by
  simp [State.arrive, hsel]

/-- Where an output selects the input, a foreign word is taken and dropped. -/
theorem State.arrive_foreign (hsel : s.selects T i ≠ []) (hbad : barkOk (s.swOwner T i) (s.gateWord T i w) = false) :
    s.arrive T i w = (true, s.barkDrop T i (s.gateWord T i w)) := by
  simp [State.arrive, hsel, hbad]

/-- A word that passes enters every output that selects the input, when all have room. -/
theorem State.arrive_forwarded (hok : barkOk (s.swOwner T i) (s.gateWord T i w) = true) (hroom : s.canTake T i = true) :
    s.arrive T i w = (true, (s.intoStages T i (s.gateWord T i w)).decodes T i (s.gateWord T i w)) := by
  have hsel : (s.selects T i).isEmpty = false := by
    simp only [State.canTake, Bool.and_eq_true, Bool.not_eq_true'] at hroom
    exact hroom.1
  simp [State.arrive, hsel, hok, hroom]

/-- A word that passes is not taken without room. -/
theorem State.arrive_full (hok : barkOk (s.swOwner T i) (s.gateWord T i w) = true) (hroom : s.canTake T i = false) :
    s.arrive T i w = (false, s) := by
  simp [State.arrive, hok, hroom]

end

/-! ## An input judges what its source presents (R112, R115-R117) -/

/-- A word at input i of tile T is judged, and leaves source x when it is dropped or forwarded; at a tile port one that passes stays. -/
def State.judgeInput (s : State) (x : Src) (T i : Nat) (w : CWord) : State :=
  if 42 ≤ i then
    if barkOk (s.swOwner T i) (s.gateWord T i w) then s
    else (s.barkDrop T i (s.gateWord T i w)).setSrc x ((s.srcStage x).pop s.fc)
  else if (s.arrive T i w).1 then (s.arrive T i w).2.setSrc x (((s.arrive T i w).2.srcStage x).pop s.fc)
  else s

/-- A parity failure replaces the word where it stands. -/
def State.replaceAt (s : State) (x : Src) (T i : Nat) : State :=
  (s.parityTold T i).setSrc x ((s.srcStage x).swap (parityWord (s.swOwner T i)))

/-- In a powered grove, with no closed boundary on the way, an input replaces a damaged word and judges what then stands there. -/
theorem State.inputStep_presented {s : State} {x : Src} {T i : Nat} {w : CWord} (hsrc : srcOf T i = some x)
    (hhead : (s.srcStage x).head s.fc = some w) (hpower : s.powered (T / 64) = true)
    (hopen : srcGrove T i = T / 64 ∨ (s.closed (srcGrove T i) = false ∧ s.closed (T / 64) = false)) (upset : Bool) :
    s.inputStep T i upset
      = (if upset then s.replaceAt x T i else s).judgeInput x T i (parityIn (s.swOwner T i) upset w) := by
  have hout : (T / 64 != srcGrove T i && s.closed (srcGrove T i)) = false := by
    obtain hsame | ⟨hfrom, _⟩ := hopen
    · simp [hsame]
    · simp [hfrom]
  have hin : (T / 64 != srcGrove T i && s.closed (T / 64)) = false := by
    obtain hsame | ⟨_, hto⟩ := hopen
    · simp [hsame]
    · simp [hto]
  unfold State.inputStep
  simp only [hsrc, hhead, hpower, hout, hin, Bool.not_true, Bool.false_eq_true, if_false]
  cases upset <;> rfl

section
variable {s : State} {x : Src} {T i : Nat} {w : CWord}

theorem State.judgeInput_foreign (hbad : barkOk (s.swOwner T i) (s.gateWord T i w) = false) (hsel : i < 42 → s.selects T i ≠ []) :
    s.judgeInput x T i w = (s.barkDrop T i (s.gateWord T i w)).setSrc x ((s.srcStage x).pop s.fc) := by
  unfold State.judgeInput
  by_cases hport : 42 ≤ i
  · simp [hport, hbad]
  · simp [hport, s.arrive_foreign T i w (hsel (by omega)) hbad, State.srcStage_barkDrop]

theorem State.judgeInput_forwarded (hok : barkOk (s.swOwner T i) (s.gateWord T i w) = true) (hbox : i < 42)
    (hroom : s.canTake T i = true) :
    s.judgeInput x T i w = (let u := (s.intoStages T i (s.gateWord T i w)).decodes T i (s.gateWord T i w)
      u.setSrc x ((u.srcStage x).pop s.fc)) := by
  rw [State.judgeInput, if_neg (by omega), s.arrive_forwarded T i w hok hroom]
  rfl

theorem State.judgeInput_stays (hok : barkOk (s.swOwner T i) (s.gateWord T i w) = true) (hroom : i < 42 → s.canTake T i = false) :
    s.judgeInput x T i w = s := by
  unfold State.judgeInput
  by_cases hport : 42 ≤ i
  · simp [hport, hok]
  · simp [hport, s.arrive_full T i w hok (hroom (by omega))]

theorem State.judgeInput_unselected (hbox : i < 42) (hsel : s.selects T i = []) : s.judgeInput x T i w = s := by
  rw [State.judgeInput, if_neg (by omega), s.arrive_unselected T i w hsel]
  rfl

end

/-- A drop as the input's owner and heartwood see it, and the word gone from its source. -/
theorem State.barkDrop_setSrc (s : State) (x : Src) (T i : Nat) (v : CWord) (st : Stage) :
    let u := (s.barkDrop T i v).setSrc x st
    u.srcStage x = st
    ∧ u.fld .swGbark (T / 64) 31 0 = satAdd 32 (s.fld .swGbark (T / 64) 31 0) 1
    ∧ u.flag .swIn (64 * T + i) 0 = true
    ∧ u.ht.recs = s.ht.recs ++ (if s.flag .swIn (64 * T + i) 0 then [] else
        [(.heartwood, mkRec 2 (BitVec.ofNat 10 (s.swOwner T i)) 1 5 (T * 2 ^ 20 + i * 2 ^ 14 + v.tag.toNat))])
    ∧ u.tl = s.tl ∧ u.lt = s.lt :=
  ⟨State.srcStage_setSrc .., s.barkDrop_count T i v, s.barkDrop_dropSeen T i v, s.barkDrop_recs T i v, by simp, by simp⟩

theorem exec_barkCheck (g t : Fin 64) (i : Fin 46) (upset : Bool) (s : State) :
    exec (.barkCheck g t i upset) s = .next (s.inputStep (tileIx g.val t.val) i.val upset) := rfl

/-- A stage that faces an input has its word judged there. -/
theorem exec_stageTransfer {g t : Fin 64} {o : Fin 42} {T i : Nat} (hsink : sinkOf (tileIx g.val t.val) o.val = some (T, i)) (s : State) :
    exec (.stageTransfer g t o) s = .next (s.inputStep T i false) := by
  change execStageTransfer g t o s = _
  rw [execStageTransfer, hsink]

/-- Settles O9: an input judges what its source presents, and each clause is one case of that judgement. -/
theorem inputsBarkPoisonAndForward : Obligations.InputsBarkPoisonAndForward := by
  refine ⟨fun g t i s x w => ?check, fun g t i s x w => ?parity, fun g t o s T i w => ?transfer⟩
  case check =>
    intro T v hsrc hhead hpower hopen
    have hgrove : T / 64 = g.val := tileIx_grove ..
    rw [← hgrove] at hpower hopen ⊢
    have hstep : s.inputStep T i.val false = s.judgeInput x T i.val w := State.inputStep_presented hsrc hhead hpower hopen false
    rw [exec_barkCheck, hstep]
    refine ⟨fun hbad hsel => ?_, fun hok hbox hroom => ?_, fun hok hroom => ?_, fun hbox hsel => ?_⟩
    · rw [State.judgeInput_foreign hbad hsel]
      exact ⟨_, rfl, s.barkDrop_setSrc ..⟩
    · rw [State.judgeInput_forwarded hok hbox hroom]
    · rw [State.judgeInput_stays hok hroom]
    · rw [State.judgeInput_unselected hbox hsel]
  case parity =>
    intro T p hsrc hhead hpower hsame hport hok
    have hgrove : T / 64 = g.val := tileIx_grove ..
    rw [← hgrove] at hpower hsame ⊢
    have hstep : s.inputStep T i.val true = (s.replaceAt x T i.val).judgeInput x T i.val p :=
      State.inputStep_presented hsrc hhead hpower (.inl hsame) true
    have hstays : (s.replaceAt x T i.val).judgeInput x T i.val p = s.replaceAt x T i.val :=
      State.judgeInput_stays hok (fun hbox => by omega)
    rw [exec_barkCheck, hstep, hstays]
    exact ⟨_, rfl, State.srcStage_setSrc .., s.parityTold_count T i.val, s.parityTold_recs T i.val⟩
  case transfer =>
    intro T₀ k hsink hsrc hhead hbox hpower hsame hok hroom
    have hstep : s.inputStep T i false = s.judgeInput (.stage k) T i w :=
      State.inputStep_presented hsrc hhead hpower (.inl hsame) false
    rw [exec_stageTransfer hsink, hstep, State.judgeInput_forwarded hok hbox hroom]
    rfl

end Sys2Proof.Machine
end

section
/-! SUPPORT. Lattice records that the scrubber has replaced (R566): a lost term is 0 and a macrocell with one outputs 0, whatever the masks,
the mode and the polarity say; the refutations of the two obligations on the lattice, which leave the loss out. -/

namespace Sys2Proof.Tbl

/-- A table of marks that reads true somewhere lists something. -/
theorem isEmpty_eq_false_of_rd {t : Tbl Bool} {k : Nat} (h : t.rd k false = true) : t.isEmpty = false := by
  cases t with
  | nil => cases h
  | cons => rfl

end Sys2Proof.Tbl

namespace Sys2Proof.Machine

/-! ## Lost records (R566) -/

section
variable {s : State} {g m n : Nat}

/-- A lost term is 0, whatever its mask. -/
theorem State.term_of_dead (h : s.lt.dead.rd (deadTerm g n) false = true) (own : Nat) (vals : List Bool) : s.term g own vals n = false := by
  simp [State.term, h]

/-- A macrocell is dead when one of its dedicated terms is lost. -/
theorem State.mcDead_of_deadTerm {j : Nat} (hj : j < 5) (h : s.lt.dead.rd (deadTerm g (5 * m + j)) false = true) : s.mcDead g m = true := by
  have hterm : ∃ j, j < 5 ∧ s.lt.dead.rd (deadTerm g (5 * m + j)) false = true := ⟨j, hj, h⟩
  simp [State.mcDead, Tbl.isEmpty_eq_false_of_rd h, hterm]

/-- A dead macrocell outputs 0 and keeps its register, in every mode and polarity. -/
theorem State.mcEval_of_dead (h : s.mcDead g m = true) (vals : List Bool) : s.mcEval g m vals = (false, s.mcQ g m) := by
  unfold State.mcEval
  split
  · rfl
  · rw [h, Bool.or_true, if_pos rfl]

end

/-! ## A grove that has lost a term -/

/-- Macrocell 0 of grove 0, powered and running, is tenant 5's: combinational (MODE 0), its output inverted (POL 1), and its dedicated term
0, of an empty mask, in role SUM. -/
def invertingMc : State :=
  (((State.reset.setReg .pwDompwr 0 1).setBit .tlGphase 0 7 true).setBoth .ltMcown 0 31 22 5).putRec 7 0 0 0x10002000

/-- That grove after the scrubber found an uncorrectable error in term 0. -/
def lostTerm : State :=
  match exec (.scrub (.term 0 0)) invertingMc with
  | .next t => t
  | _ => invertingMc

theorem exec_scrub_invertingMc : exec (.scrub (.term 0 0)) invertingMc = .next lostTerm := rfl

/-- The term is marked lost and its mask is empty. -/
theorem lostTerm_term : lostTerm.lt.dead.rd (deadTerm 0 0) false = true ∧ (lostTerm.lt.pt.rd 0 0).toNat = 0 := by
  decide +kernel

/-- The macrocell stays in use, released, running, combinational and inverted. -/
theorem lostTerm_macrocell :
    lostTerm.mcConsumed 0 0 = false ∧ lostTerm.lt.held.rd 0 false = false ∧ lostTerm.running 0 = true ∧ lostTerm.mcOwner 0 0 = 5
      ∧ bits (lostTerm.mcRec 0 0) 31 30 = 0 ∧ bit (lostTerm.mcRec 0 0) 28 = true := by
  decide +kernel

/-- With its only term lost, D of the macrocell is 0. -/
theorem lostTerm_sum : (lostTerm.mcSum 0 0 [] != lostTerm.roleOr 0 (lostTerm.mcOwner 0 0) [] 0 2) = false := by
  decide +kernel

/-! ## The obligations -/

/-- Refutes O7: macrocell 0 of grove 0 is combinational with its output inverted, and the scrubber has lost its only term (R566). It is dead
and outputs 0, where its mode would give D = 0 inverted, which is 1. -/
theorem not_latticeEvaluatesItsMacrocells : ¬ Obligations.LatticeEvaluatesItsMacrocells := by
  rintro ⟨-, hmodes⟩
  obtain ⟨hconsumed, hheld, hrunning, -, hmode, hpol⟩ := lostTerm_macrocell
  obtain ⟨hcomb, -, -, -⟩ := hmodes lostTerm 0 0 [] hconsumed hheld hrunning
  have hdead : lostTerm.mcDead 0 0 = true := State.mcDead_of_deadTerm (j := 0) (by decide) lostTerm_term.1
  have hout := hcomb hmode
  rw [State.mcEval_of_dead hdead, lostTerm_sum, hpol] at hout
  exact absurd hout (by decide)

/-- Refutes O8: term 0 of grove 0, lost to the scrubber (R566), has an empty mask and yet is 0. -/
theorem not_productTermsSeeOnlyTheirOwnersSlots : ¬ Obligations.ProductTermsSeeOnlyTheirOwnersSlots := by
  intro h
  obtain ⟨hlost, hmask⟩ := lostTerm_term
  obtain ⟨-, hempty, -⟩ := h lostTerm 0 5 0 [] []
  have hone := hempty hmask
  rw [State.term_of_dead hlost] at hone
  exact absurd hone (by decide)

end Sys2Proof.Machine
end

section
/-! SUPPORT. Stream FIFOs (R148-R159): the item at a tap write end, the entry at a tap read end and the write of FLUSH, each as one equation
per case; the obligation on the FIFOs. -/

namespace Sys2Proof.Machine

/-! ## FIFOs and the switch around them -/

/-- FIFO g.f is the f-th of grove g. -/
theorem fifo_index (g : Nat) (f : Fin 8) : (8 * g + f.val) / 8 = g ∧ (8 * g + f.val) % 8 = f.val := by
  omega

@[simp] theorem State.fifo_setFifo_same (s : State) (F : Nat) (x : FifoSt) : (s.setFifo F x).fifo F = x :=
  Tbl.rd_wr_same _ _ _ _

theorem State.fifo_setFifo_other (s : State) {F F' : Nat} (x : FifoSt) (h : F' ≠ F) : (s.setFifo F x).fifo F' = s.fifo F' :=
  Tbl.rd_wr_other _ _ _ _ h

theorem State.fifo_congr {s t : State} (h : t.ff = s.ff) (F : Nat) : t.fifo F = s.fifo F := by
  rw [State.fifo, h, State.fifo]

theorem State.fifoRec_congr {s t : State} (h : t.ff = s.ff) (F : Nat) : t.fifoRec F = s.fifoRec F := by
  rw [State.fifoRec, h, State.fifoRec]

theorem State.fifoWas_congr {s t : State} (h : t.was = s.was) (F : Nat) : t.fifoWas F = s.fifoWas F := by
  rw [State.fifoWas, h, State.fifoWas]

theorem State.stageAt_setSrc_same (s : State) (k : Nat) (st : Stage) : (s.setSrc (.stage k) st).stageAt k = st :=
  Tbl.rd_wr_same _ _ _ _

theorem State.stageAt_setSrc_other (s : State) {k k' : Nat} (st : Stage) (h : k' ≠ k) :
    (s.setSrc (.stage k) st).stageAt k' = s.stageAt k' :=
  Tbl.rd_wr_other _ _ _ _ h

/-- A change that leaves the state at every element leaves it. -/
theorem forEach_eq_self {α : Type} {l : List α} {s : State} {f : α → State → State} (h : ∀ a ∈ l, f a s = s) :
    forEach l s f = s := by
  induction l with
  | nil => rfl
  | cons a r ih =>
    rw [forEach, List.foldl_cons, h a List.mem_cons_self]
    exact ih fun b hb => h b (List.mem_cons_of_mem _ hb)

/-! ## The tap write end (R150, R154) -/

/-- The words on taps 0 to w-1 of tile T leave them. -/
def State.popTaps (s : State) (T w : Nat) : State :=
  forEach (List.range w) s (fun k s => s.setSrc (.stage (64 * T + (36 + k))) ((s.stageAt (64 * T + (36 + k))).pop s.fc))

section
variable (s : State) (T w : Nat)

@[simp] theorem State.popTaps_frame :
    (s.popTaps T w).fc = s.fc ∧ (s.popTaps T w).regs = s.regs ∧ (s.popTaps T w).ht = s.ht ∧ (s.popTaps T w).ff = s.ff
      ∧ (s.popTaps T w).was = s.was :=
  ⟨forEach_keeps (·.fc) _ s _ fun _ _ => rfl, forEach_keeps (·.regs) _ s _ fun _ _ => rfl, forEach_keeps (·.ht) _ s _ fun _ _ => rfl,
    forEach_keeps (·.ff) _ s _ fun _ _ => rfl, forEach_keeps (·.was) _ s _ fun _ _ => rfl⟩

/-- The last tap is popped after the others. -/
theorem State.popTaps_succ :
    s.popTaps T (w + 1) = (s.popTaps T w).setSrc (.stage (64 * T + (36 + w)))
      (((s.popTaps T w).stageAt (64 * T + (36 + w))).pop s.fc) := by
  obtain ⟨hfc, -⟩ := s.popTaps_frame T w
  rw [← hfc, State.popTaps, forEach, List.range_succ, List.foldl_append]
  rfl

/-- Each of the taps loses its oldest word, once. -/
theorem State.popTaps_stageAt (k : Nat) :
    (s.popTaps T w).stageAt (64 * T + (36 + k))
      = if k < w then (s.stageAt (64 * T + (36 + k))).pop s.fc else s.stageAt (64 * T + (36 + k)) := by
  induction w with
  | zero => rfl
  | succ w ih =>
    rw [State.popTaps_succ]
    by_cases hk : k = w
    · subst hk
      rw [if_pos (by omega), ← ih.trans (if_neg (by omega))]
      exact State.stageAt_setSrc_same ..
    · rw [State.stageAt_setSrc_other _ _ (by omega), ih]
      simp only [show k < w + 1 ↔ k < w by omega]

end

section
variable {s : State} {F g f : Nat} {ws : List CWord}

/-- An open tap write end, with a word of the owner on each tap and no entry taken in this fc, takes the words as one item. -/
theorem State.fifoTapWrite_item (hg : F / 8 = g) (hf : F % 8 = f) (huse : fifoConsumed (s.fifoRec F) = false)
    (htap : bit (s.fifoRec F) 27 = false) (hopen : s.fifoOpen F = true) (hout : s.cf.outDone = true)
    (hws : (List.range (fifoW (s.fifoRec F))).map (fun k => (s.stageAt (64 * tileIx g (24 + f) + (36 + k))).head s.fc) = ws.map some)
    (hown : ws.all (barkOk (s.ffOwner g f)) = true) (hacc : (s.fifo F).acc ≠ s.fc + 1) :
    s.fifoTapWrite F [] = (s.popTaps (tileIx g (24 + f)) (fifoW (s.fifoRec F))).fifoStore F ws := by
  subst hg hf
  have hbark : ∀ w ∈ ws, barkOk (s.ffOwner (F / 8) (F % 8)) w = true := List.all_eq_true.mp hown
  have hlen : ws.length = fifoW (s.fifoRec F) := by simpa using (congrArg List.length hws).symm
  have hgood : (List.range (fifoW (s.fifoRec F))).filterMap (fun k =>
      ((s.stageAt (64 * tileIx (F / 8) (24 + F % 8) + (36 + k))).head s.fc).bind
        (fun w => if barkOk (s.ffOwner (F / 8) (F % 8)) w then some w else none)) = ws := by
    have hall := congrArg (List.filterMap fun w => w.bind fun w => if barkOk (s.ffOwner (F / 8) (F % 8)) w then some w else none) hws
    rw [List.filterMap_map, List.filterMap_map] at hall
    exact hall.trans ((List.filterMap_congr (g := some) fun w hw => by simp [hbark w hw]).trans List.filterMap_some)
  unfold State.fifoTapWrite
  simp only [huse, htap, hopen, hout, List.contains_nil, Bool.false_and, List.filter_false, forEach_nil, Bool.not_true, Bool.or_self,
    Bool.false_eq_true, if_false, List.filterMap_map, Function.comp_def, hgood, hlen, decide_true, Bool.true_and, bne_iff_ne, ne_eq,
    hacc, not_false_eq_true, if_true]
  refine congrArg (fun u : State => (u.popTaps _ _).fifoStore F ws) (forEach_eq_self fun a ha => ?_)
  obtain ⟨k, hk, rfl⟩ := List.mem_map.mp ha
  obtain ⟨w, hw, hhead⟩ := List.mem_map.mp (hws ▸ List.mem_map_of_mem hk)
  simp only [← hhead, hbark w hw, if_true]

end

/-! ## What the write end does with an item (R154) -/

/-- The state that has counted an item dropped at FIFO F, and shows it in GAPSEEN (R154, R171). -/
def State.fifoDropped (s : State) (F : Nat) : State := (s.count .ffDrop F 31 0 1).setBit .ffStat F 0 true

/-- A gap marker of w words that stands for cnt dropped items (R155). -/
def gapMarker (w cnt : Nat) (m : Bool) (fc : Nat) : FEntry := ⟨gapWords w cnt m, true, cnt, fc⟩

/-- The gap marker that one more dropped item makes of e. -/
def FEntry.joined (e : FEntry) (w : Nat) : FEntry := gapMarker w (min (e.cnt + 1) 0xFFFFFF) ((e.ws.head?.map CWord.m).getD false) e.fc

/-- A dropped item is counted, and GAPSEEN reads 1. -/
theorem State.fifoDropped_told (s : State) (F : Nat) :
    (s.fifoDropped F).fld .ffDrop F 31 0 = satAdd 32 (s.fld .ffDrop F 31 0) 1 ∧ (s.fifoDropped F).flag .ffStat F 0 = true := by
  refine ⟨?_, State.flag_setBit_true _ (by decide)⟩
  rw [State.fifoDropped, State.fld, State.setBit, State.reg_setFld_name _ _ (by decide)]
  exact s.fld_count 1 (by decide)

section
variable {s : State} {F : Nat} {ws : List CWord}

/-- With room as the fc began the item is stored at the tail. -/
theorem State.fifoStore_stored (hflush : (s.fifo F).flushAt ≠ s.fc + 1)
    (hroom : (s.fifoWas F).q.length < fifoCap (s.fifoRec F) - 1) :
    s.fifoStore F ws = s.setFifo F { s.fifo F with
      q := (s.fifo F).q ++ [⟨ws.map (fun w => { w with tag := 0, m := w.m || (s.fifo F).markM }), false, 0, s.fc⟩],
      acc := s.fc + 1, markM := false } := by
  have hfull : decide (fifoCap (s.fifoRec F) - 1 ≤ (s.fifoWas F).q.length) = false := decide_eq_false (by omega)
  unfold State.fifoStore
  simp only [hfull, Bool.false_eq_true, if_false, hflush, Bool.not_false, if_true]

/-- With the reserved entry alone left, an item joins the gap marker at the tail. -/
theorem State.fifoStore_joinsMarker (hflush : (s.fifo F).flushAt ≠ s.fc + 1)
    (hfull : fifoCap (s.fifoRec F) - 1 ≤ (s.fifoWas F).q.length) {e : FEntry} (htail : (s.fifo F).q.getLast? = some e)
    (hgap : e.gap = true) :
    s.fifoStore F ws = (s.fifoDropped F).setFifo F { s.fifo F with
      q := (s.fifo F).q.dropLast ++ [e.joined (fifoW (s.fifoRec F))], acc := s.fc + 1 } := by
  unfold State.fifoStore
  simp only [hfull, decide_true, if_true, Bool.not_true, Bool.false_eq_true, if_false, htail, hgap]
  exact if_neg hflush

/-- With the reserved entry alone left and no gap marker at the tail, an item becomes one. -/
theorem State.fifoStore_newMarker (hflush : (s.fifo F).flushAt ≠ s.fc + 1)
    (hfull : fifoCap (s.fifoRec F) - 1 ≤ (s.fifoWas F).q.length)
    (htail : ((s.fifo F).q.getLast?.map FEntry.gap).getD false = false) :
    s.fifoStore F ws = (s.fifoDropped F).setFifo F { s.fifo F with
      q := (s.fifo F).q ++ [gapMarker (fifoW (s.fifoRec F)) 1 (s.fifo F).markM s.fc], acc := s.fc + 1, markM := false } := by
  unfold State.fifoStore
  simp only [hfull, decide_true, if_true, Bool.not_true, Bool.false_eq_true, if_false]
  refine (if_neg hflush).trans ?_
  split
  case h_1 e he =>
    have hgap : e.gap = false := by simpa [he] using htail
    rw [if_neg (by simp [hgap])]
    rfl
  case h_2 => rfl

/-- With the reserved entry alone left an item is counted as dropped, and stands in a gap marker at the tail. -/
theorem State.fifoStore_full (hflush : (s.fifo F).flushAt ≠ s.fc + 1) (hfull : fifoCap (s.fifoRec F) - 1 ≤ (s.fifoWas F).q.length) :
    ∃ x, s.fifoStore F ws = (s.fifoDropped F).setFifo F x
      ∧ (∀ e, (s.fifo F).q.getLast? = some e → e.gap = true →
          x.q = (s.fifo F).q.dropLast ++ [e.joined (fifoW (s.fifoRec F))])
      ∧ (((s.fifo F).q.getLast?.map FEntry.gap).getD false = false →
          x.q = (s.fifo F).q ++ [gapMarker (fifoW (s.fifoRec F)) 1 (s.fifo F).markM s.fc]) := by
  cases hmarker : ((s.fifo F).q.getLast?.map FEntry.gap).getD false with
  | false =>
    refine ⟨_, State.fifoStore_newMarker hflush hfull hmarker, fun e he hgap => ?_, fun _ => rfl⟩
    simp [he, hgap] at hmarker
  | true =>
    obtain ⟨e, he, hgap⟩ : ∃ e, (s.fifo F).q.getLast? = some e ∧ e.gap = true := by
      cases he : (s.fifo F).q.getLast? with
      | none => simp [he] at hmarker
      | some e => exact ⟨e, rfl, by simpa [he] using hmarker⟩
    refine ⟨_, State.fifoStore_joinsMarker hflush hfull he hgap, fun e' he' _ => ?_, fun h => absurd h (by decide)⟩
    obtain rfl : e = e' := Option.some.inj (he.symm.trans he')
    rfl

end

/-! ## The tap read end (R150, R153) -/

section
variable (s : State) (T i : Nat) (w : CWord)

theorem State.barkDrop_ff : (s.barkDrop T i w).ff = s.ff := by
  unfold State.barkDrop
  dsimp only
  split <;> rfl

/-- Entering the outputs changes the switch alone. -/
theorem State.intoStages_frame :
    (s.intoStages T i w).fc = s.fc ∧ (s.intoStages T i w).ff = s.ff ∧ (s.intoStages T i w).tl = s.tl :=
  ⟨forEach_keeps (·.fc) _ s _ fun _ _ => rfl, forEach_keeps (·.ff) _ s _ fun _ _ => rfl, forEach_keeps (·.tl) _ s _ fun _ _ => rfl⟩

/-- A sideband decode changes the lattice alone. -/
theorem State.decodes_frame : (s.decodes T i w).fc = s.fc ∧ (s.decodes T i w).ff = s.ff ∧ (s.decodes T i w).tl = s.tl := by
  unfold State.decodes
  dsimp only
  split <;> exact ⟨rfl, rfl, rfl⟩

/-- A word that arrives at a box input leaves the stream FIFOs and the tiles as they are. -/
theorem State.arrive_frame : (s.arrive T i w).2.fc = s.fc ∧ (s.arrive T i w).2.ff = s.ff ∧ (s.arrive T i w).2.tl = s.tl := by
  by_cases hsel : s.selects T i = []
  · simp [s.arrive_unselected T i w hsel]
  · cases hok : barkOk (s.swOwner T i) (s.gateWord T i w) with
    | false => simp [s.arrive_foreign T i w hsel hok, State.barkDrop_ff]
    | true =>
      cases hroom : s.canTake T i with
      | false => simp [s.arrive_full T i w hok hroom]
      | true => simp [s.arrive_forwarded T i w hok hroom, State.decodes_frame, State.intoStages_frame]

end

/-- Words presented at taps 0 on of tile T, each with good parity, arrive there. -/
def State.sendTaps (s : State) (T : Nat) (ws : List CWord) : State :=
  forEach ws.zipIdx s (fun p s => s.arriveTap T (36 + p.2) false p.1)

@[simp] theorem State.sendTaps_frame (s : State) (T : Nat) (ws : List CWord) :
    (s.sendTaps T ws).fc = s.fc ∧ (s.sendTaps T ws).ff = s.ff ∧ (s.sendTaps T ws).tl = s.tl :=
  ⟨forEach_keeps (·.fc) _ s _ fun p t => (t.arrive_frame T (36 + p.2) p.1).1,
    forEach_keeps (·.ff) _ s _ fun p t => (t.arrive_frame T (36 + p.2) p.1).2.1,
    forEach_keeps (·.tl) _ s _ fun p t => (t.arrive_frame T (36 + p.2) p.1).2.2⟩

/-- Whether every tap takes the word presented there. -/
def State.tapsTake (s : State) (T : Nat) (ws : List CWord) : Bool := ws.zipIdx.all (fun p => s.wouldTake T (36 + p.2) p.1)

/-- An entry whose words all have good parity leaves with no count and no record. -/
theorem State.fifoLeave_sound (s : State) (F n : Nat) :
    s.fifoLeave F [] n = s.setFifo F { s.fifo F with
      q := if (s.fifo F).flushAt = s.fc + 1 then (s.fifo F).q else (s.fifo F).q.drop 1, rel := s.fc + 1 } := by
  have hnone : (List.range n).filter ([] : List Nat).contains = [] := List.filter_eq_nil_iff.mpr (by simp)
  rw [State.fifoLeave, hnone]
  rfl

section
variable {s : State} {F g f : Nat}

/-- A powered tap read end that has released nothing in this fc presents its head, or what an empty one presents. -/
theorem State.fifoTapRead_open (hg : F / 8 = g) (hf : F % 8 = f) (huse : fifoConsumed (s.fifoRec F) = false)
    (htap : bit (s.fifoRec F) 26 = false) (hpower : s.powered g = true) (hrel : (s.fifo F).rel ≠ s.fc + 1) :
    (∀ e, s.fifoHead F = some e → s.fifoTapRead F [] [] =
      if s.tapsTake (tileIx g (24 + f)) (fifoOuts (s.ffOwner g f) [] e.ws) then
        (s.sendTaps (tileIx g (24 + f)) (fifoOuts (s.ffOwner g f) [] e.ws)).fifoLeave F [] e.ws.length
      else s)
    ∧ (s.fifoHead F = none → s.fifoTapRead F [] [] =
      if fifoQuad (s.fifoRec F) then s
      else if s.tapsTake (tileIx g (24 + f)) (idleWords (s.ffOwner g f) (fifoW (s.fifoRec F))) then
        s.sendTaps (tileIx g (24 + f)) (idleWords (s.ffOwner g f) (fifoW (s.fifoRec F)))
      else s) := by
  subst hg hf
  have hguard : ¬ (fifoConsumed (s.fifoRec F) || bit (s.fifoRec F) 26 || !s.powered (F / 8) || (s.fifo F).rel = s.fc + 1) = true := by
    simp [huse, htap, hpower, hrel]
  unfold State.fifoTapRead
  rw [if_neg hguard]
  refine ⟨fun e he => ?_, fun he => ?_⟩
  · cases htake : s.tapsTake (tileIx (F / 8) (24 + F % 8)) (fifoOuts (s.ffOwner (F / 8) (F % 8)) [] e.ws)
    all_goals
      rw [State.tapsTake] at htake
      simp [he, parityIn, htake, State.sendTaps]
  · cases htake : s.tapsTake (tileIx (F / 8) (24 + F % 8)) (idleWords (s.ffOwner (F / 8) (F % 8)) (fifoW (s.fifoRec F)))
    all_goals
      rw [State.tapsTake] at htake
      simp [he, parityIn, htake, State.sendTaps]

end

/-! ## FLUSH (R159, R165, R169) -/

/-- Setting a field to what it holds changes nothing. -/
theorem setBits_bits_self (n hi lo : Nat) : setBits n hi lo (bits n hi lo) = n := by
  have hle : bits n hi lo * 2 ^ lo ≤ n := (Nat.mul_le_mul_right _ (Nat.mod_le _ _)).trans (Nat.div_mul_le_self _ _)
  rw [setBits, Nat.mod_eq_of_lt (bits_lt n hi lo)]
  omega

/-- A write of 1 to FLUSH acts for the writers that FF_CTL names, and is refused the others; the register keeps its word. -/
theorem judge_flush (F cur : Nat) (wr : Writer) :
    judge (RegName.ffCtl.fields F) wr (RegName.ffCtl.okVal F) cur 0x80000000
      = if wr = .o ∨ wr = .t then ⟨cur, 0x80000000, false, false⟩ else ⟨cur, 0, true, false⟩ := by
  have hone : bits 0x80000000 31 31 = 1 := by decide
  have hacts : setBits 0 31 31 1 = 0x80000000 := by decide
  cases wr <;>
    simp [judge, RegName.fields, act, judgeField, Field.judged, Field.names, Field.after, RegName.okVal, hone, hacts, setBits_bits_self]

/-- A landed write changes registers and the answer alone. -/
theorem State.land_blocks (s : State) (n : RegName) (i : Nat) (j : Judged) :
    (s.land n i j).ff = s.ff ∧ (s.land n i j).sw = s.sw ∧ (s.land n i j).ht = s.ht := by
  unfold State.land
  dsimp only
  split <;> exact ⟨rfl, rfl, rfl⟩

/-- A write that keeps the word of a register and is not refused for its writer leaves every register. -/
theorem State.land_same_word (s : State) (n m : RegName) (i k acts : Nat) (v : Bool) :
    (s.land n i ⟨(s.reg n i).toNat, acts, false, v⟩).reg m k = s.reg m k := by
  change (s.setReg n i (BitVec.ofNat 32 (s.reg n i).toNat)).reg m k = s.reg m k
  rw [BitVec.ofNat_toNat, BitVec.setWidth_eq]
  by_cases hk : m.key k = n.key i
  · obtain ⟨rfl, rfl⟩ := regKey_inj hk
    exact s.reg_setReg_same ..
  · exact s.reg_setReg_other _ _ _ _ _ hk

section
variable {s : State} {p : Party} {F g f : Nat} {wr : Writer}

/-- The party that owns a FIFO, a tenant or the operator, is a writer that FF_CTL names. -/
theorem State.ffWriter_owner (hg : F / 8 = g) (hf : F % 8 = f)
    (hown : (∃ n : Fin 512, p = .tenant n ∧ s.ffOwner g f = n.val) ∨ (p.isOp = true ∧ s.ffOwner g f = 0x200)) :
    ∃ wr, s.ffWriter p F = some wr ∧ (wr = .o ∨ wr = .t) := by
  subst hg hf
  obtain ⟨n, rfl, hn⟩ | ⟨hop, hn⟩ := hown
  · exact ⟨.t, if_pos hn, .inr rfl⟩
  · cases p with
    | heartwood => cases hop
    | tenant n => cases hop
    | _ => exact ⟨.o, if_pos hn, .inl rfl⟩

/-- A tenant that does not own a FIFO may not read its registers. -/
theorem State.ffWriter_foreign (hg : F / 8 = g) (hf : F % 8 = f) {n : Fin 512} (hn : s.ffOwner g f ≠ n.val) :
    s.ffWriter (.tenant n) F = none := by
  subst hg hf
  exact if_neg hn

/-- Heartwood, and the operator at a FIFO that is not its own, may read FF_CTL but are no writer of it. -/
theorem State.ffWriter_unnamed (hg : F / 8 = g) (hf : F % 8 = f)
    (hp : p = .heartwood ∨ (p.isOp = true ∧ s.ffOwner g f ≠ 0x200)) :
    ∃ wr, s.ffWriter p F = some wr ∧ ¬ (wr = .o ∨ wr = .t) := by
  subst hg hf
  obtain rfl | ⟨hop, hn⟩ := hp
  · exact ⟨.h, rfl, by decide⟩
  · cases p with
    | heartwood => cases hop
    | tenant n => cases hop
    | _ => exact ⟨.none, if_neg hn, by decide⟩

theorem State.writeFf_foreign (hwr : s.ffWriter p F = none) (n : RegName) (w : Word) :
    s.writeFf p n F w = s.alarm.ans .bark [] := by
  rw [State.writeFf, hwr]
  rfl

/-- A writer of FF_CTL flushes a FIFO in use. -/
theorem State.writeFf_flush (hwr : s.ffWriter p F = some wr) (hnamed : wr = .o ∨ wr = .t) (huse : fifoConsumed (s.fifoRec F) = false) :
    s.writeFf p .ffCtl F 0x80000000
      = (s.fifoFlush F).land .ffCtl F ⟨((s.fifoFlush F).reg .ffCtl F).toNat, 0x80000000, false, false⟩ := by
  have hj := judge_flush F (s.reg .ffCtl F).toNat wr
  rw [if_pos hnamed] at hj
  rw [State.writeFf, hwr]
  simp only [huse, Bool.false_and, Bool.false_eq_true, if_false]
  rw [show (0x80000000 : Word).toNat = 0x80000000 from rfl, hj, if_pos (show (decide True && bit 0x80000000 31) = true from rfl)]
  rfl

/-- A write of FLUSH to a consumed FIFO does nothing. -/
theorem State.writeFf_flush_consumed (hwr : s.ffWriter p F = some wr) (hnamed : wr = .o ∨ wr = .t)
    (huse : fifoConsumed (s.fifoRec F) = true) : s.writeFf p .ffCtl F 0x80000000 = s.ans .ok [] := by
  have hj := judge_flush F 0 wr
  rw [if_pos hnamed] at hj
  rw [State.writeFf, hwr]
  simp [huse, hj, Judged.status]

/-- A party that FF_CTL does not name is denied, with one alarm, and flushes nothing. -/
theorem State.writeFf_flush_denied (hwr : s.ffWriter p F = some wr) (hnamed : ¬ (wr = .o ∨ wr = .t)) :
    let t := s.writeFf p .ffCtl F 0x80000000
    t.answer.status = .denied ∧ t.ff = s.ff ∧ t.fld .msAlarm 0 31 0 = satAdd 32 (s.fld .msAlarm 0 31 0) 1 := by
  have hj (cur : Nat) := judge_flush F cur wr
  simp only [if_neg hnamed] at hj
  rw [State.writeFf, hwr]
  cases huse : fifoConsumed (s.fifoRec F) with
  | true =>
    simp only [Bool.true_and, show (RegName.ffCtl != .ffOwn) = true from rfl, if_true, show (0x80000000 : Word).toNat = 0x80000000 from rfl,
      hj]
    exact ⟨rfl, rfl, s.alarm_fld⟩
  | false =>
    simp only [Bool.false_and, Bool.false_eq_true, if_false, show (0x80000000 : Word).toNat = 0x80000000 from rfl, hj]
    rw [if_neg (by decide)]
    exact ⟨rfl, (s.land_blocks ..).1, s.land_alarm_rises F _ (by decide) rfl⟩

end

/-! ## The obligation -/

/-- Settles O10: each clause is one case of the write end (R150, R154), of the read end (R151, R153, R159), or of the judgement of a write
of FLUSH (R12, R148, R165). -/
theorem fifosStoreDeliverAndFlush : Obligations.FifosStoreDeliverAndFlush := by
  refine ⟨fun g f s ws => ?write, fun g f s => ?read, fun g f s p => ?flush⟩
  case write =>
    intro F T x huse htap hopen hout hws hown hacc hflush
    have ⟨hg, hf⟩ : F / 8 = g.val ∧ F % 8 = f.val := fifo_index g.val f
    have hstep : exec (.fifoWrite g f []) s = .next ((s.popTaps T (fifoW (s.fifoRec F))).fifoStore F ws) :=
      congrArg Host.Outcome.next (State.fifoTapWrite_item hg hf huse htap hopen hout hws hown hacc)
    obtain ⟨hfc, hregs, hht, hff, hwas⟩ := s.popTaps_frame T (fifoW (s.fifoRec F))
    have hfifo := State.fifo_congr hff F
    have hrec := State.fifoRec_congr hff F
    have hfill := State.fifoWas_congr hwas F
    have hkept : ((s.popTaps T (fifoW (s.fifoRec F))).fifo F).flushAt ≠ (s.popTaps T (fifoW (s.fifoRec F))).fc + 1 := by
      rw [hfifo, hfc]
      exact hflush
    rw [hstep]
    refine ⟨fun hroom => ?_, fun hfull => ?_⟩
    · rw [State.fifoStore_stored hkept (by rwa [hrec, hfill]), hfifo, hfc]
      exact ⟨_, rfl, State.fifo_setFifo_same .., fun k hk => (s.popTaps_stageAt ..).trans (if_pos hk), hregs, hht⟩
    · obtain ⟨y, hstore, hjoins, hnew⟩ := State.fifoStore_full (ws := ws) hkept (by rwa [hrec, hfill])
      obtain ⟨hcount, hflag⟩ := (s.popTaps T (fifoW (s.fifoRec F))).fifoDropped_told F
      rw [hfifo, hrec] at hjoins hnew
      rw [hfc] at hnew
      rw [State.fld_congr hregs] at hcount
      rw [hstore]
      refine ⟨_, rfl, hcount, hflag, fun e he hgap => ?_, fun hgap => ?_⟩
      · rw [State.fifo_setFifo_same]
        exact hjoins e he hgap
      · rw [State.fifo_setFifo_same]
        exact hnew hgap
  case read =>
    intro F T own huse htap hpower hrel
    have ⟨hg, hf⟩ : F / 8 = g.val ∧ F % 8 = f.val := fifo_index g.val f
    obtain ⟨hhead, hempty⟩ := State.fifoTapRead_open hg hf huse htap hpower hrel
    have hstep : exec (.fifoRead g f [] []) s = .next (s.fifoTapRead F [] []) := rfl
    rw [hstep]
    refine ⟨fun e he => ⟨fun htake => ?_, fun htake => ?_⟩, fun he hquad => ?_, fun he hquad => ?_⟩
    · rw [(hhead e he).trans (if_pos htake), State.fifoLeave_sound]
      obtain ⟨hfc, hff, htl⟩ := s.sendTaps_frame T (fifoOuts own [] e.ws)
      refine ⟨_, rfl, ?_, htl⟩
      rw [State.fifo_setFifo_same, State.fifo_congr hff, hfc]
    · rw [(hhead e he).trans (if_neg (Bool.eq_false_iff.mp htake))]
    · rw [hempty he, if_pos hquad]
    · rw [(hempty he).trans (if_neg (Bool.eq_false_iff.mp hquad))]
      split
      · exact ⟨_, rfl, (s.sendTaps_frame ..).2⟩
      · exact ⟨_, rfl, rfl, rfl⟩
  case flush =>
    intro F
    have ⟨hg, hf⟩ : F / 8 = g.val ∧ F % 8 = f.val := fifo_index g.val f
    have hstep : exec (.flush p g f) s = .next (s.writeFf p .ffCtl F 0x80000000) := rfl
    rw [hstep]
    refine ⟨fun hown => ?_, fun n hp hn => ?_, fun hp => ?_⟩
    · obtain ⟨wr, hwr, hnamed⟩ := State.ffWriter_owner hg hf hown
      refine ⟨fun huse => ?_, fun huse => ?_⟩
      · rw [State.writeFf_flush hwr hnamed huse]
        obtain ⟨hff, hsw, hht⟩ := (s.fifoFlush F).land_blocks .ffCtl F
          ⟨((s.fifoFlush F).reg .ffCtl F).toNat, 0x80000000, false, false⟩
        refine ⟨_, rfl, ?_, ?_, rfl, fun F' hF' => ?_, hsw, hht, fun n i => ?_⟩
        · rw [State.fifo_congr hff, State.fifoFlush, State.fifo_setFifo_same]
        · rw [State.fifo_congr hff, State.fifoFlush, State.fifo_setFifo_same]
        · rw [State.fifo_congr hff, State.fifoFlush, State.fifo_setFifo_other _ _ hF']
        · rw [State.land_same_word]
          rfl
      · rw [State.writeFf_flush_consumed hwr hnamed huse]
    · subst hp
      rw [State.writeFf_foreign (State.ffWriter_foreign hg hf hn)]
    · obtain ⟨wr, hwr, hnamed⟩ := State.ffWriter_unnamed hg hf hp
      exact ⟨_, rfl, State.writeFf_flush_denied hwr hnamed⟩

end Sys2Proof.Machine
end

section
/-! SUPPORT. Cell-in ports (R176-R185): a beat is a command or six words, what each word of a packet does, and what a command does to the
packet it names; the obligation on cell-in ports. -/

namespace Sys2Proof.Machine

/-! ## Links and ports -/

@[simp] theorem State.cin_setCin (s : State) (p : Nat) (c : CellInSt) : (s.setCin p c).cin p = c := Tbl.rd_wr_same _ _ _ _

@[simp] theorem State.setCin_frame (s : State) (p : Nat) (c : CellInSt) :
    (s.setCin p c).cx.tfree = s.cx.tfree ∧ (s.setCin p c).cx.link = s.cx.link ∧ (s.setCin p c).was = s.was ∧ (s.setCin p c).fc = s.fc
      ∧ (s.setCin p c).qe = s.qe ∧ (s.setCin p c).regs = s.regs :=
  ⟨rfl, rfl, rfl, rfl, rfl, rfl⟩

/-- A port's state has no part in what a domain may hold and holds. -/
@[simp] theorem State.link_setCin (s : State) (p : Nat) (c : CellInSt) (h : Handle) : (s.setCin p c).link h = s.link h := rfl

@[simp] theorem State.setCin_limit (s : State) (p : Nat) (c : CellInSt) (tag : Tag) :
    (s.setCin p c).cellLimit tag = s.cellLimit tag ∧ (s.setCin p c).usedWas tag = s.usedWas tag :=
  ⟨rfl, rfl⟩

theorem State.link_congr {s t : State} (h : t.cx.link = s.cx.link) (x : Handle) : t.link x = s.link x := by
  rw [State.link, h, State.link]

theorem State.link_setLink (s : State) (h : Handle) (l : Link) (h' : Handle) :
    (s.setLink h l).link h' = if h' = h then l else s.link h' := by
  rw [State.link, State.setLink, Tbl.rd_wr]
  simp only [BitVec.toNat_inj]
  rfl

/-- A signalled vector leaves the switch and the cells, and every register but the pending bits. -/
theorem State.signalVec_leaves (s : State) (fn v : Nat) :
    (s.signalVec fn v).sw = s.sw ∧ (s.signalVec fn v).cx = s.cx ∧ ∀ n i, n ≠ .hiPba → (s.signalVec fn v).reg n i = s.reg n i := by
  unfold State.signalVec
  split
  · exact ⟨rfl, rfl, fun n i hn => s.reg_setFld_name _ hn⟩
  · exact ⟨rfl, rfl, fun _ _ _ => rfl⟩

/-- The state that has seen the allocated count cross the fill limit (R195). -/
def State.fillSeen (s : State) : State := (s.judgeFill.setBit .cxStat 0 30 true).assertSrc 720

theorem State.noteFill_eq (s : State) : s.noteFill =
    if (s.judgeFill.cx.above && !s.cx.above) = true then
      if s.fillSeen.flag .hiPfevt 0 31 then s.fillSeen
      else if (s.fillSeen.setBit .hiPfevt 0 31 true).flag .hiPfevt 0 0 then (s.fillSeen.setBit .hiPfevt 0 31 true).signalVec 0 8
      else s.fillSeen.setBit .hiPfevt 0 31 true
    else s.judgeFill := by
  unfold State.noteFill
  rfl

@[simp] theorem State.judgeFill_frame (s : State) :
    s.judgeFill.regs = s.regs ∧ s.judgeFill.sw = s.sw ∧ s.judgeFill.cx.grantAt = s.cx.grantAt
      ∧ s.judgeFill.cx.ptrGrant = s.cx.ptrGrant :=
  ⟨rfl, rfl, rfl, rfl⟩

@[simp] theorem State.fillSeen_frame (s : State) :
    s.fillSeen.sw = s.sw ∧ s.fillSeen.cx.grantAt = s.cx.grantAt ∧ s.fillSeen.cx.ptrGrant = s.cx.ptrGrant := by
  simp [State.fillSeen]

theorem State.fillSeen_reg (s : State) (n : RegName) (i : Nat) (h : n ≠ .cxStat) : s.fillSeen.reg n i = s.reg n i := by
  have hbit : s.fillSeen.regs = (s.judgeFill.setBit .cxStat 0 30 true).regs := by simp [State.fillSeen]
  rw [State.reg_congr hbit, State.setBit, State.reg_setFld_name _ _ h, State.reg_congr s.judgeFill_frame.1]

/-- The fill event leaves the switch, what the banks grant, and every register but those that tell of it. -/
theorem State.noteFill_leaves (s : State) :
    s.noteFill.sw = s.sw ∧ s.noteFill.cx.grantAt = s.cx.grantAt ∧ s.noteFill.cx.ptrGrant = s.cx.ptrGrant
    ∧ ∀ n i, n ≠ .cxStat → n ≠ .hiPfevt → n ≠ .hiPba → s.noteFill.reg n i = s.reg n i := by
  have htold (n : RegName) (i : Nat) (hstat : n ≠ .cxStat) (hevt : n ≠ .hiPfevt) :
      (s.fillSeen.setBit .hiPfevt 0 31 true).reg n i = s.reg n i := by
    rw [State.setBit, State.reg_setFld_name _ _ hevt, s.fillSeen_reg n i hstat]
  obtain ⟨hsw, hcx, hreg⟩ := (s.fillSeen.setBit .hiPfevt 0 31 true).signalVec_leaves 0 8
  rw [State.noteFill_eq]
  split_ifs
  · simpa using fun n i hstat _ _ => s.fillSeen_reg n i hstat
  · simpa [hsw, hcx] using fun n i hstat hevt hpba => (hreg n i hpba).trans (htold n i hstat hevt)
  · simpa using fun n i hstat hevt _ => htold n i hstat hevt
  · simpa using fun n i _ _ _ => State.reg_congr s.judgeFill_frame.1 n i

@[simp] theorem State.freeCell_sw (s : State) (h : Handle) : (s.freeCell h).sw = s.sw := (State.noteFill_leaves _).1

/-! ## A beat leaves its taps (R176) -/

/-- The oldest word leaves each of some stages. -/
def State.popStages (s : State) (l : List Nat) : State := forEach l s (fun k s => s.setSrc (.stage k) ((s.stageAt k).pop s.fc))

@[simp] theorem State.popStages_frame (s : State) (l : List Nat) :
    (s.popStages l).fc = s.fc ∧ (s.popStages l).regs = s.regs ∧ (s.popStages l).cx = s.cx ∧ (s.popStages l).qe = s.qe
      ∧ (s.popStages l).ht = s.ht :=
  ⟨forEach_keeps (·.fc) l s _ fun _ _ => rfl, forEach_keeps (·.regs) l s _ fun _ _ => rfl, forEach_keeps (·.cx) l s _ fun _ _ => rfl,
    forEach_keeps (·.qe) l s _ fun _ _ => rfl, forEach_keeps (·.ht) l s _ fun _ _ => rfl⟩

@[simp] theorem State.link_popStages (s : State) (l : List Nat) (h : Handle) : (s.popStages l).link h = s.link h := by
  simp [State.link]

@[simp] theorem State.cin_popStages (s : State) (l : List Nat) (p : Nat) : (s.popStages l).cin p = s.cin p := by
  simp [State.cin]

/-- Each of some different stages loses its oldest word, once. -/
theorem State.popStages_stageAt (s : State) {l : List Nat} (hl : l.Nodup) (k : Nat) :
    (s.popStages l).stageAt k = if k ∈ l then (s.stageAt k).pop s.fc else s.stageAt k := by
  induction l generalizing s with
  | nil => rfl
  | cons a r ih =>
    obtain ⟨ha, hr⟩ := List.nodup_cons.mp hl
    have hstep : s.popStages (a :: r) = (s.setSrc (.stage a) ((s.stageAt a).pop s.fc)).popStages r := rfl
    rw [hstep, ih _ hr]
    by_cases hk : k = a
    · subst hk
      simp [ha, State.stageAt_setSrc_same]
    · simp [hk, State.stageAt_setSrc_other _ _ hk]

theorem cinStages_nodup (p : Nat) : (cinStages p).Nodup :=
  List.Nodup.map (fun a b h => by simpa using h) List.nodup_range

/-- What a state says of anything but the switch stands after a beat has left its taps; each tap has lost its oldest word. -/
theorem State.popStages_popped {s u : State} (p : Nat) (hsw : u.sw = s.sw) (hfc : u.fc = s.fc) :
    ∀ k ∈ cinStages p, (u.popStages (cinStages p)).stageAt k = (s.stageAt k).pop s.fc := by
  intro k hk
  rw [State.popStages_stageAt _ (cinStages_nodup p), if_pos hk, hfc, State.stageAt, hsw, State.stageAt]

/-! ## A beat (R176, R178, R184) -/

/-- The words of a beat, judged in order; none when one of them cannot be taken in this fc. -/
def State.takeBeat (s : State) (p : Nat) : Option State := (s.cinBeat p).foldl (fun o w => o.bind (fun s => s.takeWord p w)) (some s)

section
variable {s : State} {p : Nat} (hopen : s.cellInOpen p)
include hopen

/-- A beat that is no command is taken when each of its words is. -/
theorem State.cellIn_words (hlen : (s.cinBeat p).length = 6) (hcode : ((s.cinBeat p).headD ⟨0, false, 0, 0⟩).code.toNat ≠ codeCTRL) :
    s.cellIn p = match s.takeBeat p with
      | some u => u.popStages (cinStages p)
      | none => s := by
  obtain ⟨hpower, hclosed, hwen, hout⟩ := hopen
  unfold State.cellIn
  rw [if_neg (by simp [hlen, hpower, hclosed, hwen, hout])]
  simp only [beq_eq_false_iff_ne.mpr hcode, Bool.false_and, Bool.false_eq_true, if_false]
  rfl

/-- A beat that begins with CTRL is a command, between packets and where its tag's words are not discarded. -/
theorem State.cellIn_command {w0 w1 : CWord} {l : List CWord} (hbeat : s.cinBeat p = w0 :: w1 :: l) (hlen : l.length = 4)
    (hcode : w0.code.toNat = codeCTRL) (hcur : (s.cin p).cur = none) (hskip : (s.cin p).skip.contains w0.tag = false) :
    s.cellIn p = (s.cellCmd p w0 w1).popStages (cinStages p) := by
  obtain ⟨hpower, hclosed, hwen, hout⟩ := hopen
  unfold State.cellIn
  rw [if_neg (by simp [hbeat, hlen, hpower, hclosed, hwen, hout])]
  simp only [hbeat, List.headD_cons, hcode, beq_self_eq_true, hcur, Option.isNone_none, Bool.and_self, hskip, Bool.not_false, if_true]
  rfl

end

/-! ## The words of a packet (R177-R179, R186) -/

theorem CellInSt.cur_alone {c : CellInSt} {k : OpenPkt} (hk : c.pkts = [k]) (hopen : k.closed = none) : c.cur = some k := by
  simp [CellInSt.cur, hk, firstSome, hopen]

theorem CellInSt.cur_nil {c : CellInSt} (hk : c.pkts = []) : c.cur = none := by
  simp [CellInSt.cur, hk, firstSome]

/-- META between packets is kept for the packet to come. -/
theorem State.takeWord_meta {s : State} {p : Nat} {tag : Tag} (m : Bool) (d : W24) (hcur : (s.cin p).cur = none)
    (hskip : (s.cin p).skip.contains tag = false) (hm : (s.cin p).mpend = none) :
    s.takeWord p ⟨tag, m, BitVec.ofNat 4 codeMETA, d⟩ = some (s.setCin p { s.cin p with mpend := some (tag, d) }) := by
  have hcode : (BitVec.ofNat 4 codeMETA).toNat = codeMETA := rfl
  simp only [State.takeWord, hcode, hcur, hskip, hm, show (codeMETA == codeIDLE) = false from rfl, beq_self_eq_true, Bool.false_eq_true,
    if_false, if_true]

/-- The cell that a port stages for a packet's first word, with its request (R186). -/
def firstCell (s : State) (p : Nat) (tag : Tag) (d : W24) : StCell :=
  let b := candidates s.was.cx.key p (s.cin p).cnt.toNat
  ⟨(s.cin p).nextId, 0, tag, [d], b.1, b.2, none, false⟩

/-- SOP at an empty port, after a META of its tag for a queue of its own tenant with room in the quota, opens a packet and stages a
cell. -/
theorem State.takeWord_sop {s : State} {p : Nat} {tag : Tag} (m : Bool) (d : W24) {md : W24} (hpkts : (s.cin p).pkts = [])
    (hstaging : (s.cin p).staging = []) (hskip : (s.cin p).skip.contains tag = false) (hm : (s.cin p).mpend = some (tag, md))
    (hres : metaRes md.toNat = 0) (hmode : metaHmode md.toNat = false) (hq : metaQueue md.toNat / 32 = tag.toNat)
    (hroom : s.usedWas tag < s.cellLimit tag) (hfree : s.cx.tfree.rd tag.toNat [] = []) :
    ∃ u, s.takeWord p ⟨tag, m, BitVec.ofNat 4 codeSOP, d⟩ = some u
      ∧ u.cin p = { s.cin p with mpend := none, cnt := (s.cin p).cnt + 1, nextId := (s.cin p).nextId + 1
                                 pkts := [⟨(s.cin p).nextId, tag, md, [(none, 1)], 1, none⟩], staging := [firstCell s p tag d] } := by
  have hcode : (BitVec.ofNat 4 codeSOP).toNat = codeSOP := rfl
  have hlimit : ¬ s.cellLimit tag ≤ s.usedWas tag := by omega
  simp only [State.takeWord, hcode, CellInSt.cur_nil hpkts, hskip, show (codeSOP == codeIDLE) = false from rfl,
    show (codeSOP == codeMETA) = false from rfl, show codeOpens codeSOP = true from rfl, show codeEnds codeSOP = false from rfl,
    Bool.false_eq_true, if_false, if_true, State.openPkt, hm, bne_self_eq_false, hres, hmode, Bool.false_and, hq, Bool.and_false,
    State.cin_setCin, State.storeWord, CellInSt.filling, hstaging, hpkts]
  simp [firstSome, hlimit, hfree, firstCell, CellInSt.setPkt]

/-- DATA of an open packet joins the cell being filled. -/
theorem State.takeWord_data {s : State} {p : Nat} {w : CWord} {k : OpenPkt} {x : StCell} (hpkts : (s.cin p).pkts = [k])
    (hstaging : (s.cin p).staging = [x]) (hopen : k.closed = none) (hx : x.pkt = k.id) (hfill : x.closed = false)
    (hlen : x.ws.length < 63) (hwords : k.words < 21845) (htag : w.tag = k.tag) (hcode : w.code.toNat = codeDATA) :
    s.takeWord p w = some (s.setCin p { s.cin p with
      staging := [{ x with ws := x.ws ++ [w.data] }], pkts := [{ k with words := k.words + 1, cells := countWord k.cells }] }) := by
  have hcell : (s.cin p).filling k = some x := by
    simp [CellInSt.filling, hstaging, firstSome, hx, hfill, show x.ws.length < 64 by omega]
  have hfull : (x.ws.length + 1 == 64) = false := beq_eq_false_iff_ne.mpr (by omega)
  simp [State.takeWord, hcode, show (codeDATA == codeIDLE) = false from rfl, CellInSt.cur_alone hpkts hopen, htag, State.storeWord,
    show ¬ 21845 ≤ k.words by omega, hcell, hstaging, CellInSt.setPkt, hpkts, hfull, hfill, hopen]

/-! ## Commands (R184, R185) -/

theorem State.statusRec_unasked (s : State) (p : Nat) (tag : Tag) {mdat : Nat} (st handle kind cause len : Nat)
    (h : metaSten mdat = false) : s.statusRec p tag mdat st handle kind cause len = s := by
  simp [State.statusRec, h]

/-- A packet that joins a queue is in it. -/
theorem State.mem_enqueue (s : State) (q : Nat) (x : Pkt) : x ∈ (s.enqueue q x).qe.pkts.rd q [] := by
  simp [State.enqueue]

@[simp] theorem State.enqueue_frame (s : State) (q : Nat) (x : Pkt) :
    (s.enqueue q x).cx = s.cx ∧ (s.enqueue q x).regs = s.regs ∧ (s.enqueue q x).sw = s.sw ∧ (s.enqueue q x).fc = s.fc
      ∧ (s.enqueue q x).ms = s.ms :=
  ⟨rfl, rfl, rfl, rfl, rfl⟩

@[simp] theorem State.link_enqueue (s : State) (q : Nat) (x : Pkt) (h : Handle) : (s.enqueue q x).link h = s.link h := rfl

@[simp] theorem State.cin_enqueue (s : State) (q : Nat) (x : Pkt) (p : Nat) : (s.enqueue q x).cin p = s.cin p := rfl

/-- A command refused with an alarm, as it is counted (R185). -/
def State.cmdRefused (s : State) (p : Nat) (tag : Tag) : State := ((s.count .cxTerr (domOf tag) 31 0 1).count .cxIndrop p 31 0 1).alarm

/-- Each of the three counts of a refused command rises by one. -/
theorem State.cmdRefused_counts (s : State) (p : Nat) (tag : Tag) :
    (s.cmdRefused p tag).fld .cxTerr (domOf tag) 31 0 = satAdd 32 (s.fld .cxTerr (domOf tag) 31 0) 1
    ∧ (s.cmdRefused p tag).fld .cxIndrop p 31 0 = satAdd 32 (s.fld .cxIndrop p 31 0) 1
    ∧ (s.cmdRefused p tag).fld .msAlarm 0 31 0 = satAdd 32 (s.fld .msAlarm 0 31 0) 1 := by
  refine ⟨?_, ?_, ?_⟩
  · rw [State.fld, State.cmdRefused, State.alarm_reg _ _ (by decide), State.reg_count_name _ _ (by decide)]
    exact s.fld_count 1 (by decide)
  · rw [State.fld, State.cmdRefused, State.alarm_reg _ _ (by decide), ← State.fld, State.fld_count _ _ (by decide), State.fld,
      State.reg_count_name _ _ (by decide), State.fld]
  · rw [State.cmdRefused, State.alarm_fld, State.fld, State.reg_count_name _ _ (by decide), State.reg_count_name _ _ (by decide), State.fld]

@[simp] theorem State.cmdRefused_frame (s : State) (p : Nat) (tag : Tag) :
    (s.cmdRefused p tag).cx = s.cx ∧ (s.cmdRefused p tag).qe = s.qe ∧ (s.cmdRefused p tag).sw = s.sw ∧ (s.cmdRefused p tag).fc = s.fc
      ∧ (s.cmdRefused p tag).ht = s.ht := by
  simp [State.cmdRefused]

/-- Telling heartwood of a foreign FREE sends it one record. -/
theorem State.tellForeign_frame (s : State) (tag : Tag) :
    (s.tellForeign tag).regs = s.regs ∧ (s.tellForeign tag).cx = s.cx ∧ (s.tellForeign tag).qe = s.qe ∧ (s.tellForeign tag).sw = s.sw
      ∧ (s.tellForeign tag).fc = s.fc ∧ ∃ r, (s.tellForeign tag).ht.recs = s.ht.recs ++ [(.heartwood, r)] :=
  ⟨rfl, rfl, rfl, rfl, rfl, _, rfl⟩

/-- The handle that a command's first word names. -/
def cmdHandle (w : CWord) : Handle := BitVec.ofNat 20 (bits w.data.toNat 19 0)

section
variable {s : State} {p : Nat} {w0 w1 : CWord} (hcode : w1.code.toNat = codeCTRL) (htag : w1.tag = w0.tag)
variable (hbit : bit w1.data.toNat 23 = false) (hres : metaRes w1.data.toNat = 0) (hsten : metaSten w1.data.toNat = false)
include hcode htag hbit hres hsten

/-- ENQUEUE of a held packet of its own to a queue of its own. -/
theorem State.cellCmd_enqueue (hop : bits w0.data.toNat 23 20 = 1) (hown : (s.link (cmdHandle w0)).owner = w0.tag)
    (hheld : (s.link (cmdHandle w0)).st = .held) (hq : metaQueue w1.data.toNat / 32 = w0.tag.toNat) :
    ∃ n, s.cellCmd p w0 w1 = (s.setLink (cmdHandle w0) { s.link (cmdHandle w0) with st := .queued }).enqueue (metaQueue w1.data.toNat)
      ⟨cmdHandle w0, (s.link (cmdHandle w0)).len, n, s.fc, p⟩ := by
  unfold cmdHandle at *
  let u := s.setLink (cmdHandle w0) { s.link (cmdHandle w0) with st := .queued }
  refine ⟨(u.chain 342 (cmdHandle w0)).length, ?_⟩
  simp [State.cellCmd, hcode, htag, hop, hbit, hres, hown, hheld, hq, State.statusRec_unasked _ _ _ _ _ _ _ _ hsten, u, cmdHandle,
    State.setLink]

/-- FREE of a held packet of its own. -/
theorem State.cellCmd_free (hop : bits w0.data.toNat 23 20 = 2) (hown : (s.link (cmdHandle w0)).owner = w0.tag)
    (hheld : (s.link (cmdHandle w0)).st = .held) :
    s.cellCmd p w0 w1 = (s.freeCell (cmdHandle w0)).setCin p { s.cin p with
      freeing := queueFree s.fc (s.cin p).freeing ((s.chain 342 (cmdHandle w0)).drop 1) } := by
  have hcin : (s.freeCell (cmdHandle w0)).cin p = s.cin p := by simp [State.cin]
  unfold cmdHandle at *
  simp [State.cellCmd, hcode, htag, hop, hbit, hres, hown, hheld, hcin, State.statusRec_unasked _ _ _ _ _ _ _ _ hsten]

/-- A command on a packet of another domain is refused, counted and alarmed, and changes nothing else; of a FREE heartwood is told. -/
theorem State.cellCmd_foreign (hop : bits w0.data.toNat 23 20 = 1 ∨ bits w0.data.toNat 23 20 = 2)
    (hown : (s.link (cmdHandle w0)).owner ≠ w0.tag) :
    let t := s.cellCmd p w0 w1
    t.regs = (s.cmdRefused p w0.tag).regs ∧ t.cx = s.cx ∧ t.qe = s.qe ∧ t.sw = s.sw ∧ t.fc = s.fc
      ∧ ∃ l, t.ht.recs = s.ht.recs ++ l ∧ l.map Prod.fst = if bits w0.data.toNat 23 20 = 2 then [RecDest.heartwood] else [] := by
  unfold cmdHandle at hown
  obtain hop | hop := hop
  · have hcmd : s.cellCmd p w0 w1 = s.cmdRefused p w0.tag := by
      simp [State.cellCmd, hcode, htag, hop, hbit, hres, hown, State.refuseCmd, State.cmdRefused,
        State.statusRec_unasked _ _ _ _ _ _ _ _ hsten]
    rw [hcmd, hop]
    simp
  · have hcmd : s.cellCmd p w0 w1 = (s.cmdRefused p w0.tag).tellForeign w0.tag := by
      simp [State.cellCmd, hcode, htag, hop, hbit, hres, hown, State.refuseCmd, State.cmdRefused,
        State.statusRec_unasked _ _ _ _ _ _ _ _ hsten]
    obtain ⟨hregs, hcx, hqe, hsw, hfc, r, hrecs⟩ := (s.cmdRefused p w0.tag).tellForeign_frame w0.tag
    rw [hcmd, hop]
    simp [hregs, hcx, hqe, hsw, hfc, hrecs]

end

/-! ## The obligation -/

/-- Settles O11: a beat is judged as six words or as one command, and each clause is one case of a word (R177-R179) or of a command on a
packet that the link RAM shows held or another's (R185). -/
theorem cellInBeatsAndCommands : Obligations.CellInBeatsAndCommands := by
  refine ⟨⟨fun p s hopen hlen hcode => ?words, fun s p tag m d hcur hskip hm => State.takeWord_meta m d hcur hskip hm, ?sop, ?data⟩, ?command⟩
  case words =>
    have hstep : exec (.cellInBeat p) s = .next (match s.takeBeat p.val with
        | some u => u.popStages (cinStages p.val)
        | none => s) := congrArg Host.Outcome.next (State.cellIn_words hopen hlen hcode)
    refine ⟨fun u hu => ?_, fun hu => ?_⟩
    · rw [hstep, State.takeBeat, hu]
      rfl
    · rw [hstep, State.takeBeat, hu]
  case sop =>
    intro s p tag m d md hpkts hstaging hskip hm hres hmode hq hroom hfree
    obtain ⟨u, hu, hcin⟩ := State.takeWord_sop m d hpkts hstaging hskip hm hres hmode hq hroom hfree
    exact ⟨u, hu, by rw [hcin], by rw [hcin], ⟨_, by rw [hcin], rfl, rfl, rfl, rfl, rfl⟩, by rw [hcin]; rfl⟩
  case data =>
    intro s p w k x hpkts hstaging hopen hx hfill hlen hwords htag hcode
    exact ⟨_, State.takeWord_data hpkts hstaging hopen hx hfill hlen hwords htag hcode, by rw [State.cin_setCin],
      by rw [State.cin_setCin]⟩
  case command =>
    intro p s w0 w1 l h q tag hopen hbeat hlen hcode0 hcode1 htag hcur hskip hbit hres hsten
    have hstep : exec (.cellInBeat p) s = .next ((s.cellCmd p.val w0 w1).popStages (cinStages p.val)) :=
      congrArg Host.Outcome.next (State.cellIn_command hopen hbeat hlen hcode0 hcur hskip)
    rw [hstep]
    refine ⟨fun hop hown hheld hq => ?_, fun hop hown hheld => ?_, fun hop hown => ?_⟩
    · obtain ⟨n, hcmd⟩ := State.cellCmd_enqueue (p := p.val) hcode1 htag hbit hres hsten hop hown hheld hq
      have hlink (h' : Handle) : ((s.cellCmd p.val w0 w1).popStages (cinStages p.val)).link h'
          = if h' = h then { s.link h with st := .queued } else s.link h' := by
        rw [State.link_popStages, hcmd, State.link_enqueue, State.link_setLink]
        rfl
      refine ⟨_, rfl, by rw [hlink, if_pos rfl], by rw [hlink, if_pos rfl]; exact hown,
        ⟨⟨h, (s.link h).len, n, s.fc, p.val⟩, ?_, rfl, rfl, rfl, rfl⟩, fun h' hne => by rw [hlink, if_neg hne],
        by simp [hcmd, State.setLink], State.popStages_popped p.val ?_ ?_⟩
      · rw [(State.popStages_frame ..).2.2.2.1, hcmd]
        exact State.mem_enqueue _ _ _
      · rw [hcmd]; rfl
      · rw [hcmd]; rfl
    · have hcmd := State.cellCmd_free (p := p.val) hcode1 htag hbit hres hsten hop hown hheld
      have hlink (h' : Handle) : ((s.cellCmd p.val w0 w1).popStages (cinStages p.val)).link h'
          = if h' = h then ⟨.free, (s.link h).owner, none, 0, s.fc + 1⟩ else s.link h' := by
        rw [State.link_popStages, hcmd, State.link_setCin, State.link_freeCell]
        rfl
      refine ⟨_, rfl, by rw [hlink, if_pos rfl], by rw [hlink, if_pos rfl]; exact hown, by rw [hlink, if_pos rfl], ?_,
        fun h' hne => by rw [hlink, if_neg hne], State.popStages_popped p.val ?_ ?_⟩
      · rw [State.cin_popStages, hcmd, State.cin_setCin]
        rfl
      · rw [hcmd]; exact State.freeCell_sw ..
      · simp [hcmd]
    · obtain ⟨hregs, hcx, hqe, hsw, hfc, hrecs⟩ := State.cellCmd_foreign (p := p.val) hcode1 htag hbit hres hsten hop hown
      obtain ⟨hterr, hdrop, halarm⟩ := s.cmdRefused_counts p.val tag
      obtain ⟨pfc, pregs, pcx, pqe, pht⟩ := (s.cellCmd p.val w0 w1).popStages_frame (cinStages p.val)
      have hfld := State.fld_congr (pregs.trans hregs)
      exact ⟨_, rfl, by rw [pcx, hcx], pqe.trans hqe, (hfld ..).trans hterr, (hfld ..).trans hdrop, (hfld ..).trans halarm, by rwa [pht],
        State.popStages_popped p.val hsw hfc⟩

end Sys2Proof.Machine
end

section
/-! SUPPORT. Grants and completion (R181, R186-R190): the free cell a bank gives, the round with one request standing, and the chain of a
complete packet; the obligation on both. -/

namespace Sys2Proof.Machine

/-! ## The free cells of a bank (R189) -/

/-- The n-th missing number counts from `lo`, is not listed, and stays below B while at most that many are listed. -/
theorem nthMissing_spec {used : List Nat} {lo n B : Nat} (hs : used.Pairwise (· < ·)) (hlo : ∀ u ∈ used, lo ≤ u)
    (hn : lo + n + used.length < B) : lo ≤ nthMissing used lo n ∧ nthMissing used lo n < B ∧ nthMissing used lo n ∉ used := by
  induction used generalizing lo n with
  | nil => simpa [nthMissing] using hn
  | cons u r ih =>
    obtain ⟨hu, hr⟩ := List.pairwise_cons.mp hs
    have hle := hlo u List.mem_cons_self
    rw [List.length_cons] at hn
    unfold nthMissing
    split
    · obtain ⟨h1, h2, h3⟩ := ih (lo := u + 1) (n := n - (u - lo)) hr hu (by omega)
      exact ⟨by omega, h2, fun hmem => (List.mem_cons.mp hmem).elim (by omega) h3⟩
    · refine ⟨by omega, by omega, fun hmem => ?_⟩
      rcases List.mem_cons.mp hmem with he | he
      · omega
      · have := hu _ he
        omega

theorem rising_pairwise {α : Type} {t : Tbl α} {lo : Nat} (hr : t.rising lo = true) : t.Pairwise (fun a b => a.1 < b.1) := by
  induction t generalizing lo with
  | nil => exact .nil
  | cons e r ih =>
    obtain ⟨k, v⟩ := e
    simp only [Tbl.rising, Bool.and_eq_true, decide_eq_true_eq] at hr
    exact .cons (fun b hb => Tbl.le_of_mem_rising hr.2 hb) (ih hr.2)

/-- A key reads as the default, or as an entry of the table. -/
theorem rd_eq_or_mem {α : Type} (t : Tbl α) (k : Nat) (d : α) : t.rd k d = d ∨ (k, t.rd k d) ∈ t := by
  induction t with
  | nil => exact .inl rfl
  | cons e r ih =>
    rw [Tbl.rd_cons]
    split
    · next h => exact .inr (h ▸ List.mem_cons_self)
    · exact ih.imp_right (List.mem_cons_of_mem _)

theorem State.bankUsed_pairwise {s : State} (hr : s.cx.link.rising 0 = true) (b : Nat) : (s.bankUsed b).Pairwise (· < ·) := by
  refine List.pairwise_map.mpr (((rising_pairwise hr).filter _).imp_of_mem fun ha hb hlt => ?_)
  simp only [List.mem_filter, Bool.and_eq_true, beq_iff_eq] at ha hb
  omega

/-- The cell that a bank gives to the next request (R189). -/
def State.freeHandle (s : State) (b : Nat) : Handle :=
  BitVec.ofNat 20 (b * 65536 + nthMissing (s.bankUsed b) 0 (Config.freeCell s.free % (65536 - (s.bankUsed b).length)))

/-- A bank with a free cell gives a cell of its own that is free. -/
theorem State.freeHandle_spec {s : State} {b : Nat} (hr : s.cx.link.rising 0 = true) (hb : b < 16) (hfree : 0 < s.bankFree b) :
    bankOf (s.freeHandle b) = b ∧ (s.link (s.freeHandle b)).taken s.fc = false := by
  unfold State.bankFree at hfree
  have hn := Nat.mod_lt (Config.freeCell s.free) hfree
  obtain ⟨-, hlt, hnot⟩ := nthMissing_spec (lo := 0) (B := 65536) (s.bankUsed_pairwise hr b) (by simp)
    (n := Config.freeCell s.free % (65536 - (s.bankUsed b).length)) (by omega)
  have hnat : (s.freeHandle b).toNat
      = b * 65536 + nthMissing (s.bankUsed b) 0 (Config.freeCell s.free % (65536 - (s.bankUsed b).length)) := by
    rw [State.freeHandle, BitVec.toNat_ofNat]
    omega
  refine ⟨by rw [bankOf, hnat]; omega, Bool.eq_false_iff.mpr fun htaken => hnot ?_⟩
  rcases rd_eq_or_mem s.cx.link (s.freeHandle b).toNat linkZero with hd | hmem
  · rw [State.link, hd] at htaken
    simp [Link.taken, linkZero] at htaken
  · refine List.mem_map.mpr ⟨_, List.mem_filter.mpr ⟨hmem, ?_⟩, ?_⟩
    · rw [Bool.and_eq_true, beq_iff_eq]
      exact ⟨by omega, htaken⟩
    · simp only
      omega

/-! ## The round with one request standing (R189, R190) -/

/-- A bank's winner among one request is that request, at the bank it is presented to. -/
theorem State.winner_alone (s : State) (b : Nat) (r : Req) : s.winner b [r] = if r.bank = b then some r else none := by
  have hfirst (ptr : Nat) : firstFrom ptr [r] = some r := by
    unfold firstFrom
    by_cases h : ptr ≤ r.port <;> simp [h]
  have hnone (ptr : Nat) : firstFrom ptr [] = none := rfl
  unfold State.winner
  by_cases hb : r.bank = b
  · cases hw : s.wheelPort s.tn.wheelIn with
    | none => cases hl : r.low <;> simp [hb, hl, hfirst, hnone]
    | some p => by_cases hp : r.port = p <;> cases hl : r.low <;> simp [hb, hl, hp, hfirst, hnone]
  · cases hw : s.wheelPort s.tn.wheelIn <;> simp [hb, hnone]

theorem filterMap_one {α β : Type} [DecidableEq α] {l : List α} (hl : l.Nodup) {a : α} (ha : a ∈ l) (x : β) :
    l.filterMap (fun b => if a = b then some x else none) = [x] := by
  induction l with
  | nil => cases ha
  | cons c r ih =>
    obtain ⟨hc, hr⟩ := List.nodup_cons.mp hl
    by_cases hac : a = c
    · subst hac
      have hnone : r.filterMap (fun b => if a = b then some x else none) = [] :=
        List.filterMap_eq_nil_iff.mpr fun b hb => if_neg fun (e : a = b) => hc (e ▸ hb)
      simp [hnone]
    · simpa [hac] using ih hr ((List.mem_cons.mp ha).resolve_left hac)

/-- With one request standing, presented to an online bank, it is the one winner. -/
theorem State.winners_alone {s : State} {r : Req} (hon : s.online r.bank = true) (hb : r.bank < 16) :
    ((List.range 16).filter s.online).filterMap (fun b => s.winner b [r]) = [r] := by
  simp only [State.winner_alone]
  exact filterMap_one (List.nodup_range.filter _) (List.mem_filter.mpr ⟨List.mem_range.mpr hb, hon⟩) r

/-- The round of this fc begins. -/
def State.granting (s : State) : State := { s with cx := { s.cx with grantAt := s.fc + 1 } }

section
variable {s : State} {r : Req} (hat : s.cx.grantAt ≠ s.fc + 1) (hreq : s.requests = [r]) (hon : s.online r.bank = true) (hb : r.bank < 16)
include hat hreq hon hb

/-- A request under its quota takes a cell of its bank. -/
theorem State.bankGrants_taken (hover : s.over r.tag r.low = false) (hfree : 0 < s.bankFree r.bank) :
    s.bankGrants = (s.granting.grant r).noteFill := by
  have hover' : s.granting.over r.tag r.low = false := hover
  have hfree' : s.granting.bankFree r.bank ≠ 0 := Nat.pos_iff_ne_zero.mp hfree
  unfold State.granting at hover' hfree'
  rw [State.bankGrants, if_neg hat]
  simp [hreq, State.winners_alone hon hb, hover', hfree', State.granting]

/-- A request over its quota is answered NOBUF. -/
theorem State.bankGrants_nobuf (hover : s.over r.tag r.low = true) : s.bankGrants = (State.nobuf r s.granting).noteFill := by
  have hover' : s.granting.over r.tag r.low = true := hover
  unfold State.granting at hover'
  rw [State.bankGrants, if_neg hat]
  simp [hreq, State.winners_alone hon hb, hover', State.granting, forEach]

end

/-! ## A request takes a cell (R189) -/

section
variable (s : State) (r : Req)

/-- The cell taken is the tag's, in the state its place in the packet asks for; every other cell stays. -/
theorem State.link_grant (h : Handle) : (s.grant r).link h
    = if h = s.freeHandle r.bank then ⟨if r.idx = 0 then .assembling else .body, r.tag, none, 0, 0⟩ else s.link h :=
  State.link_setLink { s with free := s.free + 1 } _ _ h

theorem State.grant_staging : ((s.grant r).cin r.port).staging = (s.cin r.port).staging.map (fun x =>
    if x.pkt = r.pkt && x.idx = r.idx then { x with grant := some (s.freeHandle r.bank) } else x) :=
  congrArg CellInSt.staging (Tbl.rd_wr_same ..)

theorem State.grant_pointer : (s.grant r).cx.ptrGrant.rd r.bank 0 = (r.port + 1) % 128 ∧ (s.grant r).cx.grantAt = s.cx.grantAt :=
  ⟨Tbl.rd_wr_same .., rfl⟩

end

/-! ## A dropped packet (R180, R190) -/

theorem State.meterAdd_rd (s : State) (d m k x : Nat) : (s.meterAdd d m k).ms.meter.rd x 0
    = if x = 8 * d + m then s.ms.meter.rd x 0 + BitVec.ofNat 64 k else s.ms.meter.rd x 0 := by
  rw [State.meterAdd, Tbl.rd_up]
  split
  · next h => rw [h]
  · rfl

/-- What a meter counts no register and no cell shows. -/
@[simp] theorem State.meterAdd_frame (s : State) (d m k : Nat) :
    (s.meterAdd d m k).regs = s.regs ∧ (s.meterAdd d m k).cx = s.cx ∧ (s.meterAdd d m k).qe = s.qe ∧ (s.meterAdd d m k).fc = s.fc :=
  ⟨rfl, rfl, rfl, rfl⟩

/-- A drop for want of a cell, of a packet that asks for no status record, is counted at the port and at the domain. -/
theorem State.dropCounts_nobuf (s : State) (p : Nat) (tag : Tag) {mdat : Nat} (head words : Nat) (hsten : metaSten mdat = false) :
    let t := s.dropCounts p tag mdat .nobuf head words
    t.cx = s.cx ∧ t.fld .cxIndrop p 31 0 = satAdd 32 (s.fld .cxIndrop p 31 0) 1
    ∧ t.fld .cxTnobuf (domOf tag) 31 0 = satAdd 32 (s.fld .cxTnobuf (domOf tag) 31 0) 1 := by
  have hregs : (s.dropCounts p tag mdat .nobuf head words).regs
      = ((s.count .cxIndrop p 31 0 1).count .cxTnobuf (domOf tag) 31 0 1).regs := by
    simp [State.dropCounts, State.statusRec_unasked _ _ _ _ _ _ _ _ hsten]
  refine ⟨by simp [State.dropCounts, State.statusRec_unasked _ _ _ _ _ _ _ _ hsten], ?_, ?_⟩
  · rw [State.fld_congr hregs, State.fld, State.reg_count_name _ _ (by decide)]
    exact s.fld_count 1 (by decide)
  · rw [State.fld_congr hregs, State.fld_count _ _ (by decide), State.fld, State.reg_count_name _ _ (by decide), State.fld]

/-- Such a packet leaves its port, with its staged cells; no cell changes in this fc. -/
theorem State.dropPkt_nobuf (s : State) (p : Nat) {k : OpenPkt} (more : Bool) (hsten : metaSten k.mdat.toNat = false) :
    let t := s.dropPkt p k .nobuf more
    t.cx.link = s.cx.link
    ∧ t.fld .cxIndrop p 31 0 = satAdd 32 (s.fld .cxIndrop p 31 0) 1
    ∧ t.fld .cxTnobuf (domOf k.tag) 31 0 = satAdd 32 (s.fld .cxTnobuf (domOf k.tag) 31 0) 1
    ∧ (t.cin p).pkts = (s.cin p).pkts.filter (fun q => q.id != k.id)
    ∧ (t.cin p).staging = (s.cin p).staging.filter (fun x => x.pkt != k.id) := by
  obtain ⟨hcx, hdrop, hnobuf⟩ := State.dropCounts_nobuf (s.setCin p { s.cin p with
      pkts := (s.cin p).pkts.filter (fun q => q.id != k.id)
      staging := (s.cin p).staging.filter (fun x => x.pkt != k.id)
      skip := if more then addTag k.tag (s.cin p).skip else (s.cin p).skip
      freeing := queueFree s.fc (s.cin p).freeing (k.cells.filterMap (·.1)) }) p k.tag
    ((k.cells.head?.bind (·.1)).map (·.toNat) |>.getD 0) (((k.cells.filter (fun x => x.1.isSome)).map (·.2)).sum) hsten
  have hlink := congrArg CellB.link hcx
  have hcin := congrArg (fun x : CellB => x.inp.rd p cellInZero) hcx
  exact ⟨hlink, hdrop, hnobuf, congrArg CellInSt.pkts (hcin.trans (Tbl.rd_wr_same ..)),
    congrArg CellInSt.staging (hcin.trans (Tbl.rd_wr_same ..))⟩

/-- The packet of a request answered NOBUF is dropped. -/
theorem State.nobuf_drops {s : State} {r : Req} (hk : ∃ k ∈ (s.cin r.port).pkts, k.id = r.pkt) :
    ∃ k ∈ (s.cin r.port).pkts, k.id = r.pkt ∧ State.nobuf r s = s.dropPkt r.port k .nobuf k.closed.isNone := by
  have hfirst (l : List OpenPkt) (h : ∃ k ∈ l, k.id = r.pkt) :
      ∃ k ∈ l, k.id = r.pkt ∧ firstSome (fun k => if k.id = r.pkt then some k else none) l = some k := by
    induction l with
    | nil => simp at h
    | cons a l ih =>
      by_cases ha : a.id = r.pkt
      · exact ⟨a, List.mem_cons_self, ha, by simp [firstSome, ha]⟩
      · obtain ⟨k, hk, hid, hf⟩ := ih (by simpa [ha] using h)
        exact ⟨k, List.mem_cons_of_mem _ hk, hid, by simpa [firstSome, ha] using hf⟩
  obtain ⟨k, hmem, hid, hf⟩ := hfirst _ hk
  exact ⟨k, hmem, hid, by rw [State.nobuf, hf]⟩

/-! ## A chain (R181) -/

/-- Links set one after the other at different cells are each set as from the start, and every other link stays. -/
theorem State.link_forEach_setLink {β : Type} (f : Handle × β → Link → Link) {l : List (Handle × β)} (hl : (l.map Prod.fst).Nodup)
    (s : State) : let t := forEach l s (fun x s => s.setLink x.1 (f x (s.link x.1)))
    (∀ x ∈ l, t.link x.1 = f x (s.link x.1)) ∧ ∀ h, h ∉ l.map Prod.fst → t.link h = s.link h := by
  induction l generalizing s with
  | nil => simp
  | cons a r ih =>
    rw [List.map_cons] at hl
    obtain ⟨ha, hr⟩ := List.nodup_cons.mp hl
    obtain ⟨hset, hkept⟩ := ih hr (s.setLink a.1 (f a (s.link a.1)))
    refine ⟨fun x hx => ?_, fun h hh => ?_⟩
    · rcases List.mem_cons.mp hx with rfl | hx
      · exact (hkept _ ha).trans (by rw [State.link_setLink, if_pos rfl])
      · have hne : x.1 ≠ a.1 := fun e => ha (e ▸ List.mem_map_of_mem hx)
        exact (hset x hx).trans (by rw [State.link_setLink, if_neg hne])
    · rw [List.map_cons, List.mem_cons, not_or] at hh
      exact (hkept h hh.2).trans (by rw [State.link_setLink, if_neg hh.1])

/-- Each cell of a chain is linked to the next, the head with the packet's state and length; every other cell stays. -/
theorem State.link_linkChain (s : State) (head : CellState) (len : Nat) (h : Handle) {hs : List Handle} (hl : (h :: hs).Nodup) :
    let t := s.linkChain head len (h :: hs)
    t.link h = { s.link h with st := head, next := hs.head?, len := len }
    ∧ (∀ h' ∈ hs, (t.link h').st = .body) ∧ ∀ h', h' ∉ h :: hs → t.link h' = s.link h' := by
  have hfst : (h :: hs).zipIdx.map Prod.fst = h :: hs := List.zipIdx_map_fst ..
  obtain ⟨hset, hkept⟩ := State.link_forEach_setLink (fun (x : Handle × Nat) (l : Link) =>
    { l with st := if x.2 = 0 then head else .body, next := (h :: hs)[x.2 + 1]?, len := if x.2 = 0 then len else 0 })
    (l := (h :: hs).zipIdx) (by rwa [hfst]) s
  refine ⟨?_, fun h' hh' => ?_, fun h' hh' => hkept h' (by rwa [hfst])⟩
  · refine (hset (h, 0) (by simp)).trans ?_
    simp [List.head?_eq_getElem?]
  · obtain ⟨i, hi, rfl⟩ := List.getElem_of_mem hh'
    exact congrArg Link.st (hset (hs[i], i + 1) (List.mem_zipIdx_iff_getElem?.mpr (by simp [hi])))

@[simp] theorem State.linkChain_frame (s : State) (head : CellState) (len : Nat) (hs : List Handle) :
    (s.linkChain head len hs).regs = s.regs ∧ (s.linkChain head len hs).qe = s.qe ∧ (s.linkChain head len hs).ms = s.ms
      ∧ (s.linkChain head len hs).fc = s.fc ∧ (s.linkChain head len hs).cx.inp = s.cx.inp :=
  ⟨forEach_keeps (·.regs) _ s _ fun _ _ => rfl, forEach_keeps (·.qe) _ s _ fun _ _ => rfl, forEach_keeps (·.ms) _ s _ fun _ _ => rfl,
    forEach_keeps (·.fc) _ s _ fun _ _ => rfl, forEach_keeps (·.cx.inp) _ s _ fun _ _ => rfl⟩

/-- A packet with its length in the domain's meters, out of its port. -/
def State.received (s : State) (p : Nat) (k : OpenPkt) (len : Nat) : State :=
  ((s.setCin p { s.cin p with pkts := (s.cin p).pkts.filter (fun q => q.id != k.id) }).meterAdd (domOf k.tag) 0 1).meterAdd (domOf k.tag) 1 len

/-- INPKT counts the packet and INBYTE its bytes (R571). -/
theorem State.received_meters (s : State) (p : Nat) (k : OpenPkt) (len : Nat) : let d := domOf k.tag
    (s.received p k len).ms.meter.rd (8 * d) 0 = s.ms.meter.rd (8 * d) 0 + 1
    ∧ (s.received p k len).ms.meter.rd (8 * d + 1) 0 = s.ms.meter.rd (8 * d + 1) 0 + BitVec.ofNat 64 len := by
  constructor
  · rw [State.received, State.meterAdd_rd, if_neg (by omega), State.meterAdd_rd, if_pos (Nat.add_zero _).symm]
    rfl
  · rw [State.received, State.meterAdd_rd, if_pos rfl, State.meterAdd_rd, if_neg (by omega)]
    rfl

/-- A packet alone at its port leaves none there. -/
theorem State.received_pkts {s : State} {p : Nat} {k : OpenPkt} (hpkts : (s.cin p).pkts = [k]) (len : Nat) :
    ((s.received p k len).cin p).pkts = [] := by
  have hcin : (s.received p k len).cin p = { s.cin p with pkts := (s.cin p).pkts.filter (fun q => q.id != k.id) } := s.cin_setCin p _
  rw [hcin, hpkts]
  simp

/-- The chain of a packet alone at its port: the head has the packet's state and length, and no cell changes hands. -/
theorem State.received_chain {s : State} {p : Nat} {k : OpenPkt} {h : Handle} {hs : List Handle} (hpkts : (s.cin p).pkts = [k])
    (hl : (h :: hs).Nodup) (head : CellState) (len : Nat) : let t := (s.received p k len).linkChain head len (h :: hs)
    (t.cin p).pkts = [] ∧ (t.link h).st = head ∧ (t.link h).len = len ∧ (t.link h).next = hs.head? ∧ (t.link h).owner = (s.link h).owner
      ∧ (∀ h' ∈ hs, (t.link h').st = .body) ∧ ∀ h', h' ∉ h :: hs → t.link h' = s.link h' := by
  obtain ⟨-, -, -, -, hinp⟩ := (s.received p k len).linkChain_frame head len (h :: hs)
  obtain ⟨hhead, hbody, hother⟩ := (s.received p k len).link_linkChain head len h hl
  have hcin := congrArg (fun x : Tbl CellInSt => (x.rd p cellInZero).pkts) hinp
  exact ⟨hcin.trans (State.received_pkts hpkts len), congrArg Link.st hhead, congrArg Link.len hhead, congrArg Link.next hhead,
    by rw [hhead]; rfl, hbody, hother⟩

/-- A closed packet alone at its port whose cells h :: hs are all granted is completed: held, or in its queue. -/
theorem execPacketComplete_alone {p : Fin 128} {s : State} {k : OpenPkt} {h : Handle} {hs : List Handle} {b : Nat}
    (hpkts : (s.cin p.val).pkts = [k]) (hclosed : k.closed = some b) (hcells : k.cells.map Prod.fst = (h :: hs).map some)
    (hsten : metaSten k.mdat.toNat = false) : let len := 3 * (k.words - 1) + b
    let c := (s.received p.val k len).linkChain (if metaHmode k.mdat.toNat then .held else .queued) len (h :: hs)
    execPacketComplete p s = .next (if metaHmode k.mdat.toNat then c
      else c.enqueue (metaQueue k.mdat.toNat) ⟨h, len, hs.length + 1, s.fc, p.val⟩) := by
  have hgranted : k.cells.all (fun x => x.1.isSome) = true := by
    have hall : (k.cells.map Prod.fst).all Option.isSome = true := by simp [hcells]
    rwa [List.all_map] at hall
  have hhandles : k.cells.filterMap (·.1) = h :: hs := by
    have hall : (k.cells.map Prod.fst).filterMap id = h :: hs := by rw [hcells, List.filterMap_map]; exact List.filterMap_some
    rwa [List.filterMap_map] at hall
  simp only [execPacketComplete, hpkts, firstSome, hclosed, hgranted, if_true, State.complete, hhandles]
  cases hm : metaHmode k.mdat.toNat <;> simp [State.received, hpkts, State.statusRec_unasked _ _ _ _ _ _ _ _ hsten]

/-! ## The obligation -/

/-- Settles O12: the bank gives a cell whose number its used cells do not list (R189), and a chain is linked cell by cell (R181). -/
theorem cellsAreGrantedAndPacketsChained : Obligations.CellsAreGrantedAndPacketsChained := by
  refine ⟨fun s r hrising _ hat hreq hon hb hfree => ⟨fun hover => ?taken, fun hover hk hall => ?nobuf⟩, ?complete⟩
  case taken =>
    obtain ⟨hbank, hwas⟩ := State.freeHandle_spec hrising hb hfree
    obtain ⟨-, hat', hptr, -⟩ := (s.granting.grant r).noteFill_leaves
    obtain ⟨hlink, -, hinp, -⟩ := (s.granting.grant r).noteFill_frame
    have hread (h' : Handle) := (State.link_congr hlink h').trans (s.granting.link_grant r h')
    have hcin : (s.granting.grant r).noteFill.cin r.port = (s.granting.grant r).cin r.port := congrArg (fun x => x.rd r.port cellInZero) hinp
    refine ⟨_, congrArg Host.Outcome.next (State.bankGrants_taken hat hreq hon hb hover hfree), hat', s.freeHandle r.bank, hbank, hwas,
      ?_, ?_, fun h' hne => (hread h').trans (if_neg hne), ?_, ?_⟩
    · rw [hread]; exact congrArg Link.owner (if_pos rfl)
    · rw [hread]; exact congrArg Link.st (if_pos rfl)
    · rw [hcin, State.grant_staging, List.map_map]
      refine List.map_congr_left fun x _ => ?_
      by_cases hx : x.pkt = r.pkt ∧ x.idx = r.idx <;> simp [hx, State.freeHandle, State.granting, State.bankUsed]
    · rw [hptr]; exact (State.grant_pointer ..).1
  case nobuf =>
    obtain ⟨k, hmem, hid, hdrops⟩ := State.nobuf_drops (s := s.granting) (r := r) (hk.imp fun k h => ⟨h.1, h.2.1⟩)
    obtain ⟨htag, hsten⟩ := hall k hmem hid
    obtain ⟨hlink, hdrop, hnobuf, hpkts, hstaging⟩ := s.granting.dropPkt_nobuf r.port k.closed.isNone hsten
    obtain ⟨-, -, -, hreg⟩ := (s.granting.dropPkt r.port k .nobuf k.closed.isNone).noteFill_leaves
    obtain ⟨hlink', -, hinp, -⟩ := (s.granting.dropPkt r.port k .nobuf k.closed.isNone).noteFill_frame
    have hcin := congrArg (fun x : Tbl CellInSt => x.rd r.port cellInZero) hinp
    rw [hid] at hpkts hstaging
    rw [htag] at hnobuf
    refine ⟨_, congrArg Host.Outcome.next ((State.bankGrants_nobuf hat hreq hon hb hover).trans (congrArg State.noteFill hdrops)),
      hlink'.trans hlink, ?_, ?_, (congrArg CellInSt.pkts hcin).trans hpkts, (congrArg CellInSt.staging hcin).trans hstaging⟩
    · rw [State.fld, hreg _ _ (by decide) (by decide) (by decide)]
      exact hdrop
    · rw [State.fld, hreg _ _ (by decide) (by decide) (by decide)]
      exact hnobuf
  case complete =>
    intro p s k h hs b hpkts hclosed hcells hl hsten len d
    have hstep := execPacketComplete_alone hpkts hclosed hcells hsten
    let head : CellState := if metaHmode k.mdat.toNat then .held else .queued
    obtain ⟨hregs, hqe, hms, -, -⟩ := (s.received p.val k len).linkChain_frame head len (h :: hs)
    obtain ⟨hin, hst, hlen, hnext, hown, hbody, hother⟩ := State.received_chain hpkts hl head len
    obtain ⟨hpkt, hbyte⟩ := s.received_meters p.val k len
    have hpkt' := (congrArg (fun x : MeasB => x.meter.rd (8 * d) 0) hms).trans hpkt
    have hbyte' := (congrArg (fun x : MeasB => x.meter.rd (8 * d + 1) 0) hms).trans hbyte
    rw [show exec (.packetComplete p) s = _ from hstep]
    cases hm : metaHmode k.mdat.toNat with
    | true =>
      rw [if_pos rfl]
      simp only [head, hm] at *
      refine ⟨_, rfl, hin, hst, hlen, hnext, hown, hbody, hother, fun h => absurd h (by decide), fun _ => hqe, hpkt', hbyte', hregs⟩
    | false =>
      rw [if_neg (by decide)]
      simp only [head, hm] at *
      refine ⟨_, rfl, ?_⟩
      simp only [State.cin_enqueue, State.link_enqueue, State.enqueue_frame]
      exact ⟨hin, hst, hlen, hnext, hown, hbody, hother, fun _ => ⟨_, State.mem_enqueue _ _ _, rfl, rfl, rfl, rfl⟩,
        fun h => absurd h (by decide), hpkt', hbyte', hregs⟩

end Sys2Proof.Machine
end

section
/-! SUPPORT. Cell writes, cell reads, delivery and status records (R183, R191-R193): what each of them changes and leaves; the obligation on
all four. -/

namespace Sys2Proof.Machine

/-! ## A cell is written (R191) -/

/-- Writes one after the other, at different keys, are each read back, and every other key stays. -/
theorem rd_foldl_wr {α β : Type} [DecidableEq α] (k : β → Nat) (v : β → α) (d : α) {l : List β} (hl : (l.map k).Nodup) (t : Tbl α) :
    (∀ x ∈ l, (l.foldl (fun t x => t.wr (k x) d (v x)) t).rd (k x) d = v x)
    ∧ ∀ a, a ∉ l.map k → (l.foldl (fun t x => t.wr (k x) d (v x)) t).rd a d = t.rd a d := by
  induction l generalizing t with
  | nil => simp
  | cons b r ih =>
    rw [List.map_cons] at hl
    obtain ⟨hb, hr⟩ := List.nodup_cons.mp hl
    obtain ⟨hset, hkept⟩ := ih hr (t.wr (k b) d (v b))
    refine ⟨fun x hx => ?_, fun a ha => ?_⟩
    · rcases List.mem_cons.mp hx with rfl | hx
      · exact (hkept _ hb).trans (Tbl.rd_wr_same ..)
      · exact hset x hx
    · rw [List.map_cons, List.mem_cons, not_or] at ha
      exact (hkept a ha.2).trans (Tbl.rd_wr_other _ _ _ _ ha.1)

/-- The words of a cell are those written, and every word of another cell stays. -/
theorem State.writeCell_words (s : State) (h : Handle) {ws : List W24} (hlen : ws.length ≤ 64) :
    (∀ i, i < ws.length → (s.writeCell h ws).cx.words.rd (64 * h.toNat + i) 0 = ws.getD i 0)
    ∧ ∀ a, a < 64 * h.toNat ∨ 64 * h.toNat + 64 ≤ a → (s.writeCell h ws).cx.words.rd a 0 = s.cx.words.rd a 0 := by
  have hmap : ws.zipIdx.map (fun x => 64 * h.toNat + x.2) = (List.range ws.length).map (64 * h.toNat + ·) := by
    rw [List.range_eq_range', ← List.zipIdx_map_snd 0 ws, List.map_map]
    rfl
  obtain ⟨hset, hkept⟩ := rd_foldl_wr (fun x : W24 × Nat => 64 * h.toNat + x.2) (fun x => x.1) 0 (l := ws.zipIdx)
    (by rw [hmap]; exact List.nodup_range.map fun _ _ e => by simpa using e) s.cx.words
  obtain ⟨-, hrest⟩ := rd_foldl_wr (fun i : Nat => 64 * h.toNat + i) (fun i => (Config.freeWord (s.free + i)).setWidth 24) (0 : W24)
    (l := (List.range 64).drop ws.length)
    ((List.nodup_range.sublist (List.drop_sublist ..)).map fun _ _ e => by simpa using e)
    (ws.zipIdx.foldl (fun t x => t.wr (64 * h.toNat + x.2) 0 x.1) s.cx.words)
  refine ⟨fun i hi => (hrest _ ?_).trans ?_, fun a ha => (hrest _ ?_).trans (hkept _ ?_)⟩
  · rw [List.mem_map]
    rintro ⟨j, hj, he⟩
    obtain ⟨n, hn, rfl⟩ := List.getElem_of_mem hj
    simp at hn he
    omega
  · have hmem : (ws[i], i) ∈ ws.zipIdx := List.mem_zipIdx_iff_getElem?.mpr (List.getElem?_eq_getElem hi)
    rw [List.getD_eq_getElem _ _ hi]
    exact hset _ hmem
  · rw [List.mem_map]
    rintro ⟨j, hj, he⟩
    have := List.mem_range.mp (List.mem_of_mem_drop hj)
    omega
  · rw [hmap, List.mem_map]
    rintro ⟨j, hj, he⟩
    have := List.mem_range.mp hj
    omega

/-- Every unit of a cell written is good. -/
theorem State.writeCell_units (s : State) (h : Handle) (ws : List W24) {u : Nat} (hu : u < 24) :
    (s.writeCell h ws).cx.badUnit.rd (24 * h.toNat + u) false = false :=
  rd_filter_out _ _ _ fun _ => by simp [hu]

/-- A bank has made its write of this fc, for port p. -/
def State.noteWrite (s : State) (b p : Nat) : State :=
  { s with cx := { s.cx with wrAt := s.cx.wrAt.wr b 0 (s.fc + 1), ptrWrite := s.cx.ptrWrite.wr b 0 ((p + 1) % 128) } }

theorem State.noteWrite_spec (s : State) (b p : Nat) :
    (s.noteWrite b p).cx.wrAt.rd b 0 = s.fc + 1 ∧ (s.noteWrite b p).cx.ptrWrite.rd b 0 = (p + 1) % 128 := by
  simp [State.noteWrite]

/-- The write of a bank in an fc, of the cell that alone is staged at the port its rotation picks. -/
theorem State.bankWrite_alone {s : State} {b p : Nat} {x : StCell} {h : Handle} (hat : s.cx.wrAt.rd b 0 ≠ s.fc + 1)
    (hpick : pickPort (s.wheelPort s.tn.wheelIn) (s.cx.ptrWrite.rd b 0)
      ((s.cx.inp.filter (fun e => e.2.staging.any (fun x => x.readyFor b))).map (·.1)) = some p)
    (hx : (s.cin p).staging = [x]) (hclosed : x.closed = true) (hgrant : x.grant = some h) (hbank : bankOf h = b) :
    s.bankWrite b = ((s.setCin p { s.cin p with staging := [] }).writeCell h x.ws).noteWrite b p := by
  have hready : x.readyFor b = true := by simp [StCell.readyFor, hclosed, hgrant, hbank]
  rw [State.bankWrite, if_neg hat]
  simp only [hpick, hx, firstSome, hready, if_true, hgrant, Option.map_some]
  simp [State.noteWrite]

/-! ## A cell is read (R192) -/

/-- A port reads on for the packet in delivery, or for the one selected. -/
theorem CellOutSt.reading_source {c : CellOutSt} {fc : Nat} {cur : Bool} {o : OutPkt} (h : c.reading fc = some (cur, o)) :
    if cur then c.cur = some o else c.slot.map Prod.snd = some o := by
  cases hc : c.cur <;> cases hs : c.slot <;> grind [CellOutSt.reading]

theorem State.wantsCell_source {s : State} {b : Nat} {c : CellOutSt} {cur : Bool} {o : OutPkt} {h : Handle}
    (hw : s.wantsCell b c = some (cur, o, h)) : if cur then c.cur = some o else c.slot.map Prod.snd = some o := by
  unfold State.wantsCell at hw
  split at hw
  case h_2 => cases hw
  case h_1 cur' o' hread =>
    split at hw
    case h_2 => cases hw
    case h_1 h' hnext =>
      obtain ⟨-, rfl, rfl, rfl⟩ : _ ∧ cur' = cur ∧ o' = o ∧ h' = h := by simpa using hw
      exact CellOutSt.reading_source hread

/-- A packet once its cell h is read: its next 64 words are ready, or those it has left, and the chain goes on while words are left. -/
def OutPkt.afterCell (o : OutPkt) (s : State) (h : Handle) : OutPkt :=
  let left := wordsOf o.len - (o.sent + o.ready.length)
  { o with ready := o.ready ++ (List.range (min 64 left)).map (fun w => some (s.cx.words.rd (64 * h.toNat + w) 0))
           cellsRead := o.cellsRead ++ [h], next := if left ≤ 64 then none else (s.link h).next }

/-- A good cell is read with its corrections counted. -/
theorem State.readCell_good {s : State} (p : Nat) (o : OutPkt) {h : Handle} (fix : List (Fin 24)) (lf : Bool) (hgood : s.badUnits h [] = []) :
    s.readCell p o h ⟨fix, [], lf, false⟩ = (o.afterCell s h, s.count .cxEcc 0 31 16 (fix.length + b2n lf)) := by
  have hword (w : Nat) : wordBad [] w = false := rfl
  have hmark (u : State) : u.markBad h [] = u := rfl
  have hlink : (s.count .cxEcc 0 31 16 (fix.length + b2n lf)).link h = s.link h := rfl
  simp [State.readCell, hgood, hword, hmark, hlink, OutPkt.afterCell]

/-- A bank has made its read of this fc, for port p. -/
def State.noteRead (s : State) (b p : Nat) : State :=
  { s with cx := { s.cx with rdAt := s.cx.rdAt.wr b 0 (s.fc + 1), ptrRead := s.cx.ptrRead.wr b 0 ((p + 1) % 128) } }

theorem State.noteRead_spec (s : State) (b p : Nat) :
    (s.noteRead b p).cx.rdAt.rd b 0 = s.fc + 1 ∧ (s.noteRead b p).cx.ptrRead.rd b 0 = (p + 1) % 128 := by
  simp [State.noteRead]

/-- The packet that a port reads for has moved on, in delivery or selected. -/
def CellOutSt.withPkt (c : CellOutSt) (cur : Bool) (o : OutPkt) : CellOutSt :=
  if cur then { c with cur := some o } else { c with slot := c.slot.map (fun x => (x.1, o)) }

theorem CellOutSt.withPkt_pkt {c : CellOutSt} {cur : Bool} {o : OutPkt} (h : if cur then c.cur = some o else c.slot.map Prod.snd = some o)
    (o' : OutPkt) : if cur then (c.withPkt cur o').cur = some o' else (c.withPkt cur o').slot.map Prod.snd = some o' := by
  cases cur with
  | true => rfl
  | false =>
    obtain ⟨x, hx, -⟩ := Option.map_eq_some_iff.mp h
    simp [CellOutSt.withPkt, hx]

/-- The read of a bank in an fc, of a good cell for the port its rotation picks. -/
theorem State.bankRead_good {s : State} {b p : Nat} (fix : List (Fin 24)) (lf : Bool) {cur : Bool} {o : OutPkt} {h : Handle}
    (hat : s.cx.rdAt.rd b 0 ≠ s.fc + 1)
    (hpick : pickPort (s.wheelPort s.tn.wheelOut) (s.cx.ptrRead.rd b 0)
      ((s.cx.outp.filter (fun e => (s.wantsCell b e.2).isSome)).map (·.1)) = some p)
    (hw : s.wantsCell b (s.cout p) = some (cur, o, h)) (hgood : s.badUnits h [] = []) :
    s.bankRead b ⟨fix, [], lf, false⟩
      = ((s.count .cxEcc 0 31 16 (fix.length + b2n lf)).setCout p ((s.cout p).withPkt cur (o.afterCell s h))).noteRead b p := by
  rw [State.bankRead, if_neg hat]
  simp only [hpick, hw, State.readCell_good p o fix lf hgood]
  rfl

/-! ## Delivery (R115, R192, R193) -/

@[simp] theorem State.cout_setCout (s : State) (p : Nat) (c : CellOutSt) : (s.setCout p c).cout p = c := Tbl.rd_wr_same _ _ _ _

/-- A word that arrives at a tap leaves the cells, the meters and the time. -/
theorem State.arriveTap_frame (s : State) (T i : Nat) (upset : Bool) (w : CWord) :
    (s.arriveTap T i upset w).cx = s.cx ∧ (s.arriveTap T i upset w).ms = s.ms ∧ (s.arriveTap T i upset w).fc = s.fc := by
  have hdrop (s : State) (w : CWord) : (s.barkDrop T i w).cx = s.cx ∧ (s.barkDrop T i w).ms = s.ms ∧ (s.barkDrop T i w).fc = s.fc := by
    unfold State.barkDrop
    dsimp only
    split <;> exact ⟨rfl, rfl, rfl⟩
  have hinto (s : State) (w : CWord) : ((s.intoStages T i w).decodes T i w).cx = s.cx ∧ ((s.intoStages T i w).decodes T i w).ms = s.ms
      ∧ ((s.intoStages T i w).decodes T i w).fc = s.fc := by
    have hstages : (s.intoStages T i w).cx = s.cx ∧ (s.intoStages T i w).ms = s.ms ∧ (s.intoStages T i w).fc = s.fc :=
      ⟨forEach_keeps (·.cx) _ s _ fun _ _ => rfl, forEach_keeps (·.ms) _ s _ fun _ _ => rfl, forEach_keeps (·.fc) _ s _ fun _ _ => rfl⟩
    unfold State.decodes
    dsimp only
    split <;> exact hstages
  have harrive (s : State) (w : CWord) : (s.arrive T i w).2.cx = s.cx ∧ (s.arrive T i w).2.ms = s.ms ∧ (s.arrive T i w).2.fc = s.fc := by
    by_cases hsel : s.selects T i = []
    · simp [s.arrive_unselected T i w hsel]
    · cases hok : barkOk (s.swOwner T i) (s.gateWord T i w) with
      | false => simp [s.arrive_foreign T i w hsel hok, hdrop]
      | true =>
        cases hroom : s.canTake T i with
        | false => simp [s.arrive_full T i w hok hroom]
        | true => simp [s.arrive_forwarded T i w hok hroom, hinto]
  unfold State.arriveTap
  split
  · exact harrive (s.parityTold T i) _
  · exact harrive s _

/-- A beat delivered leaves the cells, the meters and the time. -/
theorem State.deliver_frame {s u : State} {p : Nat} {line : List Nat} {ws : List CWord} (h : s.deliver p line ws = some u) :
    u.cx = s.cx ∧ u.ms = s.ms ∧ u.fc = s.fc := by
  unfold State.deliver at h
  dsimp only at h
  split at h
  · obtain rfl := Option.some.inj h
    exact ⟨forEach_keeps (·.cx) _ s _ fun _ t => (t.arriveTap_frame ..).1, forEach_keeps (·.ms) _ s _ fun _ t => (t.arriveTap_frame ..).2.1,
      forEach_keeps (·.fc) _ s _ fun _ t => (t.arriveTap_frame ..).2.2⟩
  · cases h

theorem State.cout_congr {s u : State} (h : u.cx = s.cx) (p : Nat) : u.cout p = s.cout p := by rw [State.cout, h, State.cout]

/-- Cells put up to be freed one by one, each from the next fc. -/
theorem foldl_queueFree (fc : Nat) (l : List Handle) (old : List (List Handle × Nat)) :
    l.foldl (fun l h => queueFree fc l [h]) old = old ++ l.map (fun h => ([h], fc + 1)) := by
  induction l generalizing old with
  | nil => simp
  | cons a r ih =>
    rw [List.foldl_cons, ih]
    simp [queueFree]

/-- The words that a port presents in a data beat (R192). -/
def State.beatWords (s : State) (o : OutPkt) (n : Nat) : List CWord :=
  beatOf o.tag ((o.ready.take n).zipIdx.map (fun x =>
    outWord o.tag o.len (o.sent + x.2) ((Config.freeWord (s.free + x.2)).setWidth 24) x.1))

section
variable {s : State} {p : Nat} {o : OutPkt} {line : List Nat}

/-- A data beat waits for its words to be read. -/
theorem State.dataBeat_unread (hwhole : o.broken = false) (h : o.ready.length < min 6 (wordsOf o.len - o.sent)) : s.dataBeat p o line = s := by
  simp only [State.dataBeat, h, decide_true, hwhole, Bool.not_false, Bool.and_self, if_true]

/-- A data beat whose words are read is delivered; the last one ends the delivery. -/
theorem State.dataBeat_delivered {u : State} (h : min 6 (wordsOf o.len - o.sent) ≤ o.ready.length)
    (hu : s.deliver p line (s.beatWords o (min 6 (wordsOf o.len - o.sent))) = some u) :
    let n := min 6 (wordsOf o.len - o.sent)
    let v := { u with free := u.free + 6 }
    (o.sent + n ≠ wordsOf o.len → ∃ c o', s.dataBeat p o line = v.setCout p c ∧ c.cur = some o' ∧ o'.sent = o.sent + n
      ∧ o'.ready = o.ready.drop n)
    ∧ (o.sent + n = wordsOf o.len → ∃ c, s.dataBeat p o line
        = ((v.setCout p c).meterAdd o.tag.toNat 2 1).meterAdd o.tag.toNat 3 o.len
      ∧ c.cur = none ∧ c.freeing = (s.cout p).freeing ++ o.cellsRead.map (fun h => ([h], s.fc + 1))) := by
  intro n v
  obtain ⟨hcx, -, hfc⟩ := State.deliver_frame hu
  have hout : v.cout p = s.cout p := State.cout_congr hcx p
  have hread : ¬ o.ready.length < min 6 (wordsOf o.len - o.sent) := Nat.not_lt.mpr h
  unfold State.beatWords at hu
  unfold State.dataBeat
  refine ⟨fun hsent => ?_, fun hsent => ?_⟩
  · simp only [n] at hsent
    simp only [hread, decide_false, Bool.false_and, Bool.false_eq_true, if_false, hu, List.length_take, Nat.min_eq_left h, hsent,
      Bool.or_self]
    exact ⟨_, _, rfl, rfl, rfl, rfl⟩
  · simp only [n] at hsent
    simp only [hread, decide_false, Bool.false_and, Bool.false_eq_true, if_false, hu, List.length_take, Nat.min_eq_left h, hsent,
      Bool.false_or, decide_true, if_true, leftCells, List.take_length, foldl_queueFree]
    exact ⟨_, rfl, rfl, by rw [← hout, ← hfc]⟩

end

/-! ## Status records (R183, R331) -/

@[simp] theorem State.nocOut_setOut (s : State) (ni : Nat) (l : List Outst) (n : Nat) :
    (s.setOut ni l).nocOut n = if n = ni then l else s.nocOut n := Tbl.rd_wr ..

/-- A flit that enters its router takes no request from those outstanding. -/
theorem State.niMove_out (k : Nat) (s : State) (n : Nat) : ((State.niMove k s).nocOut n).length = (s.nocOut n).length := by
  have henter (s : State) (k t : Nat) (f : Flit) : (s.enterBuf k t f).nocOut n = s.nocOut n := by
    unfold State.enterBuf
    split_ifs <;> rfl
  have hsent (s : State) (f : Flit) : ((s.noteSent f).nocOut n).length = (s.nocOut n).length := by
    unfold State.noteSent
    dsimp only
    split
    · rw [State.nocOut_setOut]
      split
      · next e => rw [List.length_map, e]
      · rfl
    · rfl
  unfold State.niMove
  split
  · rfl
  · split
    · rfl
    · rw [hsent, henter]
      rfl

/-- A flit that enters its router leaves the cells and the registers. -/
theorem State.niMove_frame (k : Nat) (s : State) : (State.niMove k s).cx = s.cx ∧ (State.niMove k s).regs = s.regs := by
  have henter (s : State) (k t : Nat) (f : Flit) : (s.enterBuf k t f).cx = s.cx ∧ (s.enterBuf k t f).regs = s.regs := by
    unfold State.enterBuf
    split_ifs <;> exact ⟨rfl, rfl⟩
  have hsent (s : State) (f : Flit) : (s.noteSent f).cx = s.cx ∧ (s.noteSent f).regs = s.regs := by
    unfold State.noteSent
    split <;> exact ⟨rfl, rfl⟩
  unfold State.niMove
  split
  · exact ⟨rfl, rfl⟩
  · split
    · exact ⟨rfl, rfl⟩
    · exact ⟨(hsent ..).1.trans (henter ..).1, (hsent ..).2.trans (henter ..).2⟩

/-- A request sent is one more outstanding at its NI, and changes the network alone. -/
theorem State.nocSend_spec (s : State) (ni : Nat) (q : NocReq) (sealed : Bool) :
    (s.nocSend ni q sealed).cx = s.cx ∧ (s.nocSend ni q sealed).regs = s.regs
    ∧ ((s.nocSend ni q sealed).nocOut ni).length = (s.nocOut ni).length + 1 := by
  have hgone {v : State} {x : Outst} (k : Nat) (hcx : v.cx = s.cx) (hregs : v.regs = s.regs) (hv : v.nocOut ni = s.nocOut ni ++ [x]) :
      (State.niMove k v).cx = s.cx ∧ (State.niMove k v).regs = s.regs
        ∧ ((State.niMove k v).nocOut ni).length = (s.nocOut ni).length + 1 := by
    obtain ⟨hc, hr⟩ := State.niMove_frame k v
    exact ⟨hc.trans hcx, hr.trans hregs, by rw [State.niMove_out, hv, List.length_append, List.length_singleton]⟩
  have hlist {u : State} (l : List Outst) : (u.setOut ni l).nocOut ni = l := by rw [State.nocOut_setOut, if_pos rfl]
  cases sealed with
  | true => exact hgone _ rfl rfl (hlist (u := { s with nc := { s.nc with sealAt := s.nc.sealAt.wr ni 0 (s.fc + 1) } }) _)
  | false =>
    unfold State.nocSend
    simp only [Bool.false_eq_true, if_false]
    split
    · exact hgone _ rfl rfl (hlist (u := s) _)
    · split
      · exact hgone _ rfl rfl (hlist (u := { s with nc := _ }) _)
      · exact hgone _ rfl rfl (hlist (u := s) _)

/-! ## The obligation -/

/-- Settles O13: each bank and each port acts on the one cell, packet or record that its rotation, its state or its queue names (R183,
R191-R193). -/
theorem cellsAreWrittenReadAndDelivered : Obligations.CellsAreWrittenReadAndDelivered := by
  refine ⟨?write, ?read, ⟨?metaBeat, ?dataBeat⟩, ?record⟩
  case write =>
    intro b s p x h hat hpick hx hclosed hgrant hbank hlen
    let u := s.setCin p { s.cin p with staging := [] }
    obtain ⟨hwords, hother⟩ := u.writeCell_words h hlen
    obtain ⟨hat', hptr⟩ := (u.writeCell h x.ws).noteWrite_spec b.val p
    exact ⟨_, congrArg Host.Outcome.next (State.bankWrite_alone hat hpick hx hclosed hgrant hbank),
      congrArg CellInSt.staging (s.cin_setCin p { s.cin p with staging := [] }), hwords, hother,
      fun k hk => u.writeCell_units h x.ws hk, hat', hptr, rfl, rfl⟩
  case read =>
    intro b fix lf s p cur o h hat hpick hw hgood left
    let c := (s.cout p).withPkt cur (o.afterCell s h)
    let u := (s.count .cxEcc 0 31 16 (fix.length + b2n lf)).setCout p c
    obtain ⟨hat', hptr⟩ := u.noteRead_spec b.val p
    have hout : (u.noteRead b.val p).cout p = c := State.cout_setCout ..
    refine ⟨_, congrArg Host.Outcome.next (State.bankRead_good fix lf hat hpick hw hgood), ⟨o.afterCell s h, ?_, rfl, rfl, rfl⟩,
      hat', hptr, s.fld_count _ (by decide), rfl, rfl, rfl⟩
    rw [hout]
    exact CellOutSt.withPkt_pkt (State.wantsCell_source hw) _
  case metaBeat =>
    intro p line s f o hcur hslot hdue beat
    have hstep : exec (.cellOutBeat p line) s = .next (s.metaBeat p.val o (line.map (·.val))) := by
      change Host.Outcome.next _ = _
      simp only [hcur, hslot, hdue, if_true]
    refine ⟨fun hnone => ?_, fun u hu => ?_⟩
    · rw [hstep, State.metaBeat, hnone]
    · rw [hstep, State.metaBeat, hu]
      exact ⟨_, rfl, by rw [State.cout_setCout], by rw [State.cout_setCout], by rw [State.cout_setCout, (State.deliver_frame hu).2.2], rfl, rfl⟩
  case dataBeat =>
    intro p line s o hcur hwhole n beat
    have hstep : exec (.cellOutBeat p line) s = .next (s.dataBeat p.val o (line.map (·.val))) := by
      change Host.Outcome.next _ = _
      simp only [hcur]
    rw [hstep]
    refine ⟨fun hfew => by rw [State.dataBeat_unread hwhole hfew], fun u hread hu => ?_⟩
    obtain ⟨hgoes, hends⟩ := State.dataBeat_delivered hread hu
    obtain ⟨-, hms, -⟩ := State.deliver_frame hu
    refine ⟨fun hleft => ?_, fun hlast => ?_⟩
    · obtain ⟨c, o', hbeat, hcur', hsent, hready⟩ := hgoes (Nat.ne_of_lt hleft)
      rw [hbeat]
      exact ⟨_, rfl, o', by rw [State.cout_setCout, hcur'], hsent, hready, rfl, hms⟩
    · obtain ⟨c, hbeat, hcur', hfreeing⟩ := hends hlast
      rw [hbeat]
      refine ⟨_, rfl, (congrArg CellOutSt.cur (State.cout_setCout ..)).trans hcur',
        (congrArg CellOutSt.freeing (State.cout_setCout ..)).trans hfreeing, rfl, ?_, ?_⟩
      · rw [State.meterAdd_rd, if_neg (by omega), State.meterAdd_rd, if_pos rfl, ← hms]
        rfl
      · rw [State.meterAdd_rd, if_pos rfl, State.meterAdd_rd, if_neg (by omega), ← hms]
        rfl
  case record =>
    intro tag s r l hrecs q
    let gone : State := { s with cx := { s.cx with recs := s.cx.recs.wr tag.toNat [] l } }
    have hrecs' : gone.cx.recs.rd tag.toNat [] = l := Tbl.rd_wr_same ..
    have hstep : exec (.statusRecordSend tag) s = .next
        (if (s.localRefusal 88 q).isSome then gone.count .cxTerr (domOf tag) 31 0 1
        else match s.sealedRec with
          | some t => if t = tag then gone.nocSend 88 q true else s
          | none => if s.recFit q && s.bucketOk 88 q then gone.nocSend 88 q false else s) := by
      change Host.Outcome.next _ = _
      simp only [hrecs]
      rfl
    have hsent (sealed : Bool) : (gone.nocSend 88 q sealed).cx.recs.rd tag.toNat [] = l ∧ (gone.nocSend 88 q sealed).regs = s.regs
        ∧ ((gone.nocSend 88 q sealed).nocOut 88).length = (s.nocOut 88).length + 1 := by
      obtain ⟨hcx, hregs, hout⟩ := gone.nocSend_spec 88 q sealed
      exact ⟨hcx ▸ hrecs', hregs, hout⟩
    refine ⟨rfl, rfl, rfl, rfl, rfl, fun hrefused => ?_, fun hmay => ⟨?_, fun hother hslow => ?_⟩⟩
    · rw [hstep, if_pos hrefused]
      exact ⟨_, rfl, hrecs', rfl, gone.fld_count _ (by decide)⟩
    · rw [hstep, if_neg (by simp [hmay])]
      rintro (hturn | ⟨hturn, hfit, hlevel⟩)
      · rw [hturn]
        exact ⟨_, congrArg Host.Outcome.next (if_pos rfl), hsent true⟩
      · rw [hturn]
        exact ⟨_, congrArg Host.Outcome.next (if_pos (by rw [hfit, hlevel]; rfl)), hsent false⟩
    · rw [hstep, if_neg (by simp [hmay])]
      cases hturn : s.sealedRec with
      | some t => exact congrArg Host.Outcome.next (if_neg fun e => hother (hturn.trans (congrArg some e)))
      | none =>
        refine congrArg Host.Outcome.next (if_neg fun hboth => ?_)
        obtain ⟨hfit, hlevel⟩ := Bool.and_eq_true_iff.mp hboth
        rcases hslow with h | h | h
        · exact h hturn
        · exact Bool.false_ne_true (h.symm.trans hfit)
        · exact Bool.false_ne_true (h.symm.trans hlevel)

end Sys2Proof.Machine
end

section
/-! SUPPORT. Heartwood (R187, R413, R414, R418, R420-R424): what an answer, a judged call, GO, the boot and a halt change and leave; the
obligation on all of them. -/

namespace Sys2Proof.Machine

/-! ## An answer (R422, R424) -/

/-- A register set at one of its indices. -/
theorem State.reg_setReg (s : State) (n : RegName) (i j : Nat) (w : Word) : (s.setReg n i w).reg n j = if j = i then w else s.reg n j := by
  split
  · next h => rw [h, State.reg_setReg_same]
  · next h => exact s.reg_setReg_index n w h

/-- Registers of one name in a row, written one by one. -/
theorem State.reg_setRow (s : State) (n : RegName) (b m j : Nat) (v : Nat → Word) :
    (forEach (List.range m) s (fun k s => s.setReg n (b + k + 1) (v k))).reg n j
      = if b < j ∧ j ≤ b + m then v (j - b - 1) else s.reg n j := by
  induction m with
  | zero => rw [if_neg (by omega)]; rfl
  | succ m ih =>
    have hlast : forEach (List.range (m + 1)) s (fun k s => s.setReg n (b + k + 1) (v k))
        = (forEach (List.range m) s (fun k s => s.setReg n (b + k + 1) (v k))).setReg n (b + m + 1) (v m) := by
      rw [forEach, List.range_succ, List.foldl_append]
      rfl
    rw [hlast, State.reg_setReg, ih]
    by_cases hj : j = b + m + 1
    · subst hj
      rw [if_pos rfl, if_pos (by omega), show b + m + 1 - b - 1 = m by omega]
    · rw [if_neg hj]
      exact if_congr (by omega) rfl rfl

/-- The word that heads an answer: the call's upper half, the status and the reason. -/
def State.rspHead (s : State) (c st reason : Nat) : Nat := s.reqW c 0 / 2 ^ 16 * 2 ^ 16 + st * 2 ^ 12 + reason

section
variable (s : State) (c st reason : Nat) (res : List Word)

/-- A state with the words of an answer written. -/
def State.putRsp : State :=
  forEach (List.range 7) (s.setReg .htRsp (8 * c) (BitVec.ofNat 32 (s.rspHead c st reason))) (fun k s =>
    s.setReg .htRsp (8 * c + k + 1) (res.getD k 0))

theorem State.putRsp_frame : (s.putRsp c st reason res).ht = s.ht ∧ (s.putRsp c st reason res).dp = s.dp
    ∧ (s.putRsp c st reason res).gr = s.gr :=
  ⟨forEach_keeps (·.ht) _ _ _ fun _ _ => rfl, forEach_keeps (·.dp) _ _ _ fun _ _ => rfl, forEach_keeps (·.gr) _ _ _ fun _ _ => rfl⟩

theorem State.putRsp_reg_name {n : RegName} (i : Nat) (h : n ≠ .htRsp) : (s.putRsp c st reason res).reg n i = s.reg n i :=
  (forEach_keeps (·.reg n i) _ _ _ fun _ t => t.reg_setReg_name _ _ _ h).trans (s.reg_setReg_name _ _ _ h)

end

/-- A channel's state is set, and every other stays. -/
theorem State.chan_setChan (s : State) (c v k : Nat) : (s.setChan c v).chan k = if k = c then v % 4 else s.chan k := by
  split
  · next h => exact h ▸ s.fld_setFld v (by decide)
  · next h => rw [State.chan, State.fld, State.setChan, State.setFld, State.reg_setReg_index _ _ _ h, State.chan, State.fld]

/-- The end of an answer, once its words are written: the channel is done, and source 713 is asserted for a core's. -/
def State.doneCall (s : State) (c : Nat) : State := if c < 8 then (s.setChan c 3).assertSrc 713 else s.setChan c 3

theorem State.doneCall_frame (s : State) (c : Nat) : (s.doneCall c).ht = s.ht ∧ (s.doneCall c).gr = s.gr
    ∧ (s.doneCall c).regs = (s.setChan c 3).regs := by
  unfold State.doneCall
  split <;> simp [State.setChan]

theorem State.doneCall_asserts (s : State) (c : Nat) :
    (c < 8 → ∃ t, (s.doneCall c).dp.asserting = s.dp.asserting ++ [(713, t)]) ∧ (8 ≤ c → (s.doneCall c).dp = s.dp) := by
  refine ⟨fun h => ?_, fun h => ?_⟩
  · rw [State.doneCall, if_pos h]
    exact ⟨((s.setChan c 3).fc + 4) / 2 * 2, by simp [State.assertSrc, State.setChan]⟩
  · rw [State.doneCall, if_neg (Nat.not_lt.mpr h)]
    simp [State.setChan]

section
variable (s : State) (c st reason : Nat) (res : List Word)

/-- An answer leaves heartwood's own state and the graft files. -/
theorem State.respondCall_frame : (s.respondCall c st reason res).ht = s.ht ∧ (s.respondCall c st reason res).gr = s.gr := by
  obtain ⟨hht, -, hgr⟩ := s.putRsp_frame c st reason res
  obtain ⟨hht', hgr', -⟩ := (s.putRsp c st reason res).doneCall_frame c
  exact ⟨hht'.trans hht, hgr'.trans hgr⟩

/-- An answer asserts source 713 when it is a core's. -/
theorem State.respondCall_asserts :
    (c < 8 → ∃ t, (s.respondCall c st reason res).dp.asserting = s.dp.asserting ++ [(713, t)])
    ∧ (8 ≤ c → (s.respondCall c st reason res).dp = s.dp) := by
  obtain ⟨-, hdp, -⟩ := s.putRsp_frame c st reason res
  obtain ⟨hcore, hhost⟩ := (s.putRsp c st reason res).doneCall_asserts c
  rw [hdp] at hcore hhost
  exact ⟨hcore, hhost⟩

/-- The registers after an answer are those with its words and its channel's state. -/
theorem State.respondCall_reg (n : RegName) (i : Nat) :
    (s.respondCall c st reason res).reg n i = ((s.putRsp c st reason res).setChan c 3).reg n i :=
  State.reg_congr ((s.putRsp c st reason res).doneCall_frame c).2.2 n i

/-- An answer leaves the registers of other names. -/
theorem State.respondCall_reg_name {n : RegName} (i : Nat) (hrsp : n ≠ .htRsp) (hst : n ≠ .htSt) :
    (s.respondCall c st reason res).reg n i = s.reg n i := by
  rw [State.respondCall_reg, State.setChan, State.reg_setFld_name _ _ hst, State.putRsp_reg_name _ _ _ _ _ _ hrsp]

/-- The channel answered is done, and every other stays. -/
theorem State.respondCall_chan (k : Nat) : (s.respondCall c st reason res).chan k = if k = c then 3 else s.chan k := by
  have hput : (s.putRsp c st reason res).chan k = s.chan k := by
    rw [State.chan, State.fld, State.putRsp_reg_name _ _ _ _ _ _ (by decide), State.chan, State.fld]
  rw [State.chan, State.fld, State.respondCall_reg, ← State.fld, ← State.chan, State.chan_setChan, hput]

/-- The response registers after an answer: the channel's eight hold it, and the others stay. -/
theorem State.respondCall_rsp (i : Nat) : (s.respondCall c st reason res).reg .htRsp i
    = if i = 8 * c then BitVec.ofNat 32 (s.rspHead c st reason)
      else if 8 * c < i ∧ i ≤ 8 * c + 7 then res.getD (i - 8 * c - 1) 0 else s.reg .htRsp i := by
  rw [State.respondCall_reg, State.setChan, State.reg_setFld_name _ _ (by decide), State.putRsp, State.reg_setRow, State.reg_setReg]
  by_cases hi : i = 8 * c
  · rw [if_neg (by omega), if_pos hi, if_pos hi]
  · exact if_congr Iff.rfl rfl (if_neg hi) |>.trans (if_neg hi).symm

end

/-! ## A call is judged (R421, R423, R426) -/

section
variable {s : State} {ch : Fin 9} {opc : Nat} {used : List Nat} {body : State → (Nat → Nat) → Verdict}

/-- A channel whose turn it is not stays. -/
theorem State.runCall_waits (h : s.nextCall ch = false) : s.runCall ch opc used body = s := by
  rw [State.runCall, h]
  rfl

/-- A call of the operation asked for that firmware's state restricts is refused with 0x0F. -/
theorem State.runCall_restricted (h : s.nextCall ch = true) (hop : bits (s.reqW ch.val 0) 31 24 = opc) (hhost : ch.val = 8)
    (hfirm : s.flag .htStat 0 29 = true) (hopc : [0, 0x20, 0x21, 0x22, 0x28].contains opc = false) :
    s.runCall ch opc used body = (s.taken ch).respondCall ch.val 10 0x0F [BitVec.ofNat 32 0] := by
  have hturn : (!s.nextCall ch || (opc != opc && callOpcs.contains opc)) = false := by simp [h]
  have hheld : (ch.val == 8 && s.flag .htStat 0 29 && !([0, 0x20, 0x21, 0x22, 0x28].contains opc)) = true := by
    rw [hopc, hfirm, hhost]
    rfl
  simp only [State.runCall, hop, hturn, Bool.false_eq_true, if_false]
  exact if_pos hheld

/-- The restriction of firmware's state does not hold a call. -/
theorem State.unheld (hfree : ch.val = 8 → s.flag .htStat 0 29 = true → [0, 0x20, 0x21, 0x22, 0x28].contains opc = true) :
    (ch.val == 8 && s.flag .htStat 0 29 && !([0, 0x20, 0x21, 0x22, 0x28].contains opc)) = false := by
  cases hfirm : s.flag .htStat 0 29 with
  | false => simp
  | true =>
    by_cases hhost : ch.val = 8
    · rw [hfree hhost hfirm]
      simp
    · simp [hhost]

/-- A call of the operation asked for with a reserved bit set is refused with 0x0A. -/
theorem State.runCall_reserved (h : s.nextCall ch = true) (hop : bits (s.reqW ch.val 0) 31 24 = opc)
    (hfree : ch.val = 8 → s.flag .htStat 0 29 = true → [0, 0x20, 0x21, 0x22, 0x28].contains opc = true)
    (hbad : (bits (s.reqW ch.val 0) 15 0 != 0
      || (List.range 7).any (fun k => s.reqW ch.val (k + 1) &&& (0xFFFFFFFF ^^^ used.getD k 0) != 0)) = true) :
    s.runCall ch opc used body = (s.taken ch).respondCall ch.val 10 0x0A [BitVec.ofNat 32 0] := by
  have hturn : (!s.nextCall ch || (opc != opc && callOpcs.contains opc)) = false := by simp [h]
  simp only [State.runCall, hop, hturn, Bool.false_eq_true, if_false]
  refine (if_neg fun e => Bool.false_ne_true ((State.unheld hfree).symm.trans e)).trans (if_pos ?_)
  rw [Bool.or_assoc, hbad, Bool.or_true]

/-- A call that stands is answered as its own judgement says. -/
theorem State.runCall_done (h : s.callStands ch opc used) {u : State} {res : List Nat} (hbody : body (s.taken ch) (s.reqW ch.val) = .done u res) :
    s.runCall ch opc used body = u.respondCall ch.val 0 0 (res.map (BitVec.ofNat 32)) := by
  obtain ⟨hnext, hop, hlow, hwords, hfree⟩ := h
  have hturn : (!s.nextCall ch || (opc != opc && callOpcs.contains opc)) = false := by simp [hnext]
  have hclean : (opc != opc || bits (s.reqW ch.val 0) 15 0 != 0
      || (List.range 7).any (fun k => s.reqW ch.val (k + 1) &&& (0xFFFFFFFF ^^^ used.getD k 0) != 0)) = false := by
    have hany : (List.range 7).any (fun k => s.reqW ch.val (k + 1) &&& (0xFFFFFFFF ^^^ used.getD k 0) != 0) = false := by
      rw [← Bool.not_eq_true', ← hwords, List.not_any_eq_all_not]
      simp [bne]
    rw [hany, hlow]
    simp
  simp only [State.runCall, hop, hturn, Bool.false_eq_true, if_false]
  refine (if_neg fun e => Bool.false_ne_true ((State.unheld hfree).symm.trans e)).trans ((if_neg (by rw [hclean]; decide)).trans ?_)
  change (match body (s.taken ch) (s.reqW ch.val) with
    | .refused r w1 => _
    | .poison => _
    | .done s res => _
    | .waits s' what res => _) = _
  rw [hbody]

end

/-- A word is a call's whole 32 bits. -/
theorem State.reqW_mask (s : State) (c k : Nat) : s.reqW c k &&& (0xFFFFFFFF ^^^ 0) = s.reqW c k := by
  rw [Nat.xor_zero]
  exact (Nat.and_two_pow_sub_one_eq_mod _ 32).trans (Nat.mod_eq_of_lt (s.reg .htReq (8 * c + k)).isLt)

/-! ## GO (R422) -/

/-- A call that takes its place in the queue is there, and the queue is one longer. -/
theorem callInsert_spec (t : Nat) (c : CallSrc) (l : List (Nat × CallSrc)) :
    (t, c) ∈ callInsert t c l ∧ (callInsert t c l).length = l.length + 1 := by
  induction l with
  | nil => exact ⟨List.mem_singleton.mpr rfl, rfl⟩
  | cons x r ih =>
    unfold callInsert
    split
    · exact ⟨List.mem_cons_self, rfl⟩
    · exact ⟨List.mem_cons_of_mem _ ih.1, congrArg (· + 1) ih.2⟩

/-- A write of 1 to GO acts for a core or the host, and is refused heartwood and the tenants; the register keeps its word. -/
theorem judge_go (c cur : Nat) (wr : Writer) :
    judge (RegName.htCtl.fields c) wr (fun lo v => RegName.htCtl.okVal c lo v && true) cur 0x80000000
      = if wr = .o then ⟨cur, 0x80000000, false, false⟩ else ⟨cur, 0, true, false⟩ := by
  have hone : bits 0x80000000 31 31 = 1 := by decide
  have hacts : setBits 0 31 31 1 = 0x80000000 := by decide
  cases wr <;>
    simp [judge, RegName.fields, act, judgeField, Field.judged, Field.names, Field.after, RegName.okVal, hone, hacts, setBits_bits_self]

/-- A write that keeps its register's word and is refused for its writer changes the alarm's count alone among the registers. -/
theorem State.land_refused (s : State) {n : RegName} (i acts : Nat) (v : Bool) (h : n ≠ .msAlarm) :
    (∀ m k, m ≠ .msAlarm → (s.land n i ⟨(s.reg n i).toNat, acts, true, v⟩).reg m k = s.reg m k)
    ∧ (s.land n i ⟨(s.reg n i).toNat, acts, true, v⟩).reg .msAlarm 0 = s.alarm.reg .msAlarm 0 := by
  refine ⟨fun m k hm => ?_, ?_⟩
  · by_cases hk : m = n ∧ k = i
    · obtain ⟨rfl, rfl⟩ := hk
      rw [State.land_reg_self _ _ _ h]
      simp
    · exact State.land_reg_other _ _ _ hk hm
  · change (s.setReg n i _).alarm.reg .msAlarm 0 = _
    rw [State.alarm, State.count, State.setFld, State.reg_setReg_same, State.alarm, State.count, State.setFld, State.reg_setReg_same,
      State.fld, State.reg_setReg_name _ _ _ _ h.symm, State.fld]

section
variable {s : State} {p : Party} {ch : Fin 9}

/-- The one that writes a channel is a core or the host. -/
theorem writer_of_mailWriter {c : Nat} (h : mailWriter p c = true) : p.writer = .o := by
  cases p with
  | core n => rfl
  | pf0 => rfl
  | heartwood => cases h
  | tenant t => cases h

/-- GO by heartwood or a tenant is refused for its writer. -/
theorem State.judge_go_stranger (hw : p.writer ≠ .o) :
    s.judgeW p .htCtl ch.val (fun _ _ => true) 0x80000000 = ⟨(s.reg .htCtl ch.val).toNat, 0, true, false⟩ :=
  (judge_go ch.val _ p.writer).trans (if_neg hw)

/-- GO by a core or the host acts. -/
theorem State.judge_go_own (hw : p.writer = .o) :
    s.judgeW p .htCtl ch.val (fun _ _ => true) 0x80000000 = ⟨(s.reg .htCtl ch.val).toNat, 0x80000000, false, false⟩ :=
  (judge_go ch.val _ p.writer).trans (if_pos hw)

/-- GO by another than the channel's own writer is refused. -/
theorem State.writeGo_stranger (h : mailWriter p ch.val = false) : ∃ u : State,
    s.writeHt p .htCtl ch.val 0x80000000 = u.ans .denied [] ∧ u.ht = s.ht ∧ (∀ n i, n ≠ .msAlarm → u.reg n i = s.reg n i)
    ∧ (p = .heartwood → u.reg .msAlarm 0 = s.alarm.reg .msAlarm 0) := by
  have hforeign (hw : p.writer ≠ .o) : (s.plainWrite p .htCtl ch.val 0x80000000).ht = s.ht
      ∧ (∀ n i, n ≠ .msAlarm → (s.plainWrite p .htCtl ch.val 0x80000000).reg n i = s.reg n i)
      ∧ (p = .heartwood → (s.plainWrite p .htCtl ch.val 0x80000000).reg .msAlarm 0 = s.alarm.reg .msAlarm 0) := by
    obtain ⟨hregs, halarm⟩ := s.land_refused ch.val 0 false (n := .htCtl) (by decide)
    obtain ⟨-, -, hht⟩ := s.land_blocks .htCtl ch.val ⟨(s.reg .htCtl ch.val).toNat, 0, true, false⟩
    rw [State.plainWrite, State.judge_go_stranger hw]
    exact ⟨hht, hregs, fun _ => halarm⟩
  cases p with
  | heartwood => exact ⟨_, rfl, hforeign (by decide)⟩
  | tenant t => exact ⟨_, rfl, hforeign (fun e => nomatch e)⟩
  | core n => exact ⟨s, by simp [State.writeHt, h], rfl, fun _ _ _ => rfl, fun e => nomatch e⟩
  | pf0 => exact ⟨s, by simp [State.writeHt, h], rfl, fun _ _ _ => rfl, fun e => nomatch e⟩

/-- GO by the channel's own writer: it acts when the mailbox is open and the channel idle or done. -/
theorem State.writeGo_own (h : mailWriter p ch.val = true) : s.writeHt p .htCtl ch.val 0x80000000
    = if !s.flag .htStat 0 30 || s.chan ch.val == 1 || s.chan ch.val == 2 then s.ans .denied []
      else if s.flag .htStat 0 31 then (s.ans .ok []).respondCall ch.val Status.fenced.code 0 []
      else ((s.ans .ok []).setChan ch.val 1).queueCall (.chan ch) := by
  have hw := writer_of_mailWriter h
  have hj := State.judge_go_own (s := s) (ch := ch) hw
  have hbit : bit 0x80000000 31 = true := by decide
  have hflag : (s.ans .ok []).flag .htStat 0 31 = s.flag .htStat 0 31 := rfl
  generalize (0x80000000 : Word) = w at hj ⊢
  have hgo : s.writeHt p .htCtl ch.val w
      = if !s.flag .htStat 0 30 || s.chan ch.val == 1 || s.chan ch.val == 2 then s.ans .denied []
        else if s.flag .htStat 0 31 then (s.ans .ok []).respondCall ch.val Status.fenced.code 0 []
        else ((s.ans .ok []).setChan ch.val 1).queueCall (.chan (Fin.ofNat 9 ch.val)) := by
    cases p with
    | heartwood => cases hw
    | tenant t => cases hw
    | core n => simp [State.writeHt, h, hj, hbit, hflag, Judged.status]
    | pf0 => simp [State.writeHt, h, hj, hbit, hflag, Judged.status]
  rw [hgo, Fin.ofNat_val_eq_self]

end

end Sys2Proof.Machine
end

section
/-! SUPPORT. The boot of heartwood (R420, R421, R457): what it writes, records and releases. -/

namespace Sys2Proof.Machine

/-! ## The canopy is loaded (R420, R421) -/

/-- Whether a copy is valid rests on the NVM, the key slots and MONO alone. -/
theorem State.fwValid_congr {s t : State} (hnvm : t.cf.nvm = s.cf.nvm) (hkeys : t.ht.keys = s.ht.keys)
    (hmono : t.reg .pbMono 0 = s.reg .pbMono 0) (k : Nat) : t.fwValid k = s.fwValid k := by
  have hbytes (a n : Nat) : t.nvmBytes a n = s.nvmBytes a n := by simp only [State.nvmBytes, State.nvmByte, hnvm]
  have hcopy : t.fwCopy k = s.fwCopy k := by rw [State.fwCopy, hbytes, hbytes, State.fwCopy]
  have hkey (i key : Nat) : t.keyOk i key = s.keyOk i key := by rw [State.keyOk, State.keySlot, hkeys, State.keyOk, State.keySlot]
  have hreason (l : List Byte) : t.fwReason l = s.fwReason l := by rw [State.fwReason, hkey, hmono, State.fwReason]
  rw [State.fwValid, hcopy, hreason, State.fwValid]

/-- A write of canopy SRAM changes the dispatcher's block alone. -/
theorem State.sramPut_frame (s : State) (a : Nat) (l : List Byte) :
    (s.sramPut a l).cx = s.cx ∧ (s.sramPut a l).cf = s.cf ∧ (s.sramPut a l).ht = s.ht := by
  have hcx := forEach_keeps (·.cx) l.zipIdx s (fun x u => u.sramPutByte (a + x.2) x.1) (fun _ _ => rfl)
  have hcf := forEach_keeps (·.cf) l.zipIdx s (fun x u => u.sramPutByte (a + x.2) x.1) (fun _ _ => rfl)
  have hht := forEach_keeps (·.ht) l.zipIdx s (fun x u => u.sramPutByte (a + x.2) x.1) (fun _ _ => rfl)
  simp [State.sramPut, State.breakResv, hcx, hcf, hht]

/-- The cycle counters of the eight cores start anew. -/
def State.zeroCycles (s : State) : State := forEach (List.range 8) s (fun n s => s.csrWrite n 0xB00 0)

theorem State.zeroCycles_frame (s : State) : s.zeroCycles.cx = s.cx ∧ s.zeroCycles.cf = s.cf ∧ s.zeroCycles.ht = s.ht
    ∧ s.zeroCycles.regs = s.regs :=
  ⟨forEach_keeps (·.cx) _ _ _ fun _ _ => rfl, forEach_keeps (·.cf) _ _ _ fun _ _ => rfl, forEach_keeps (·.ht) _ _ _ fun _ _ => rfl,
    forEach_keeps (·.regs) _ _ _ fun _ _ => rfl⟩

/-- The cores run a copy of a security version. -/
def State.startCores (s : State) (svn : Word) : State :=
  { s with dp := { s.dp with coresHeld := false }, ht := { s.ht with fwSvn := svn } }

theorem State.startCores_frame (s : State) (svn : Word) :
    (s.startCores svn).regs = s.regs ∧ (s.startCores svn).dp.coresHeld = false ∧ (s.startCores svn).cx = s.cx
    ∧ (s.startCores svn).cf = s.cf ∧ (s.startCores svn).ht.monoNvm = s.ht.monoNvm ∧ (s.startCores svn).ht.lossNew = s.ht.lossNew :=
  ⟨rfl, rfl, rfl, rfl, rfl, rfl⟩

/-- A copy is loaded into canopy SRAM and the cores run. -/
def State.runCopy (s : State) (l : List Byte) : State :=
  (s.sramPut 0 ((l.drop 160).take (fwLength l))).zeroCycles.startCores (BitVec.ofNat 32 (fwSvnOf l))

theorem State.runCopy_frame (s : State) (l : List Byte) :
    (s.runCopy l).regs = s.regs ∧ (s.runCopy l).dp.coresHeld = false ∧ (s.runCopy l).cx = s.cx ∧ (s.runCopy l).cf = s.cf
    ∧ (s.runCopy l).ht.monoNvm = s.ht.monoNvm ∧ (s.runCopy l).ht.lossNew = s.ht.lossNew := by
  obtain ⟨hcx, hcf, hht⟩ := s.sramPut_frame 0 ((l.drop 160).take (fwLength l))
  obtain ⟨hcx', hcf', hht', hregs'⟩ := (s.sramPut 0 ((l.drop 160).take (fwLength l))).zeroCycles_frame
  have hstart := (s.sramPut 0 ((l.drop 160).take (fwLength l))).zeroCycles.startCores_frame (BitVec.ofNat 32 (fwSvnOf l))
  rw [hcx', hcf', hht', hregs', hcx, hcf, hht, s.sramPut_regs] at hstart
  exact hstart

/-- The cores are held. -/
def State.holdCores (s : State) (d : DispB) : State := { s with dp := { d with coresHeld := true } }

theorem State.loadCanopy_eq (s : State) : ∃ w l, s.loadCanopy
    = if !s.fwValid 0 && !s.fwValid 1 then ((s.setReg .pb 5 0x10000000).setBit .htStat 0 29 true).holdCores s.dp
      else ((s.setReg .pb 5 w).setBit .htStat 0 29 false).runCopy l := ⟨_, _, rfl⟩

/-- The cores are released when a copy is valid and held when none is; PB5 and FW_HELD tell which. -/
theorem State.loadCanopy_spec (s : State) : ∃ w,
    s.loadCanopy.regs = ((s.setReg .pb 5 w).setBit .htStat 0 29 (!s.fwValid 0 && !s.fwValid 1)).regs
    ∧ s.loadCanopy.dp.coresHeld = (!s.fwValid 0 && !s.fwValid 1) ∧ ((!s.fwValid 0 && !s.fwValid 1) = true → w = 0x10000000)
    ∧ s.loadCanopy.cx = s.cx ∧ s.loadCanopy.cf = s.cf ∧ s.loadCanopy.ht.monoNvm = s.ht.monoNvm
    ∧ s.loadCanopy.ht.lossNew = s.ht.lossNew := by
  obtain ⟨w, l, hload⟩ := s.loadCanopy_eq
  rw [hload]
  cases !s.fwValid 0 && !s.fwValid 1 with
  | true =>
    refine ⟨0x10000000, ?_⟩
    simp [State.holdCores]
  | false =>
    refine ⟨w, ?_⟩
    have hrun := ((s.setReg .pb 5 w).setBit .htStat 0 29 false).runCopy_frame l
    simpa using hrun

/-! ## The boot -/

/-- The state in which a boot begins: after a loss of retention the recorded state starts from its reset values. -/
def State.bootStart (s : State) : State :=
  { (if s.ht.lossNew then forEach (List.range 6) s (fun i s => s.resetReg .pb i) else s) with
    ht := { s.ht with lossNew := false, core0 := { HtCore.zero with runs := true }, core1 := { HtCore.zero with runs := true } } }

/-- MONO restored, the reset recorded and a new placement key drawn. -/
def State.bootKeyed (s : State) : State :=
  s.bootStart.restoreMono.recordReset.newKey (decide (3 ≤ s.bootStart.fld .pwRstsrc 0 31 28))

/-- The canopy loaded and the mailbox open. -/
def State.booted (s : State) : State := s.bootKeyed.loadCanopy.setBit .htStat 0 30 true

/-- A boot ends in waiting for a host, or with AUTOBOOT in the load of slot A. -/
def State.bootEnd (s : State) : State :=
  if s.flag .pb 0 31 then { s with cf := { s.cf with load := some (newLoad (.nvm 0 false) false) } } else s.setFld .cfStat 0 31 28 1

theorem execHeartwoodBoot_boots {s : State} (hstage : s.fld .cfStat 0 31 28 = 0) (hshut : s.flag .htStat 0 30 = false)
    (hruns : s.flag .htStat 0 31 = false) (hwarm : s.pw.warm = none) (hcold : s.pw.cold = false) :
    execHeartwoodBoot s = .next s.booted.bootEnd := by
  have hguard : (s.fld .cfStat 0 31 28 != 0 || s.flag .htStat 0 30 || s.flag .htStat 0 31 || s.pw.warm.isSome || s.pw.cold) = false := by
    simp [hstage, hshut, hruns, hwarm, hcold]
  unfold execHeartwoodBoot
  rw [hguard, if_neg Bool.false_ne_true]
  extract_lets _ _ _ _ u
  have hbooted : u = s.booted := rfl
  clear_value u
  rw [← hbooted]
  rfl

/-- A register that returns to its reset value. -/
theorem State.reg_resetReg (s : State) (n m : RegName) (i j : Nat) :
    (s.resetReg n i).reg m j = if m = n ∧ j = i then BitVec.ofNat 32 (n.resetVal i) else s.reg m j := by
  split
  · next h =>
    obtain ⟨rfl, rfl⟩ := h
    exact Tbl.rd_del_same ..
  · next h => exact Tbl.rd_del_other _ _ fun e => h (regKey_inj e)

/-- The recorded state after the start of a boot: its reset values after a loss of retention, else as it was. -/
theorem State.bootStart_reg (s : State) (n : RegName) (j : Nat) :
    s.bootStart.reg n j = if s.ht.lossNew = true ∧ n = .pb ∧ j < 6 then BitVec.ofNat 32 (RegName.pb.resetVal j) else s.reg n j := by
  have hzero (m : Nat) : (forEach (List.range m) s (fun i s => s.resetReg .pb i)).reg n j
      = if n = .pb ∧ j < m then BitVec.ofNat 32 (RegName.pb.resetVal j) else s.reg n j := by
    induction m with
    | zero => rw [if_neg (by omega)]; rfl
    | succ m ih =>
      have hlast : forEach (List.range (m + 1)) s (fun i s => s.resetReg .pb i)
          = (forEach (List.range m) s (fun i s => s.resetReg .pb i)).resetReg .pb m := by
        rw [forEach, List.range_succ, List.foldl_append]
        rfl
      rw [hlast, State.reg_resetReg, ih]
      by_cases hj : j = m
      · subst hj
        exact if_congr (by simp) rfl (if_neg (by omega))
      · rw [if_neg (fun e => hj e.2)]
        exact if_congr (and_congr_right fun _ => by omega) rfl rfl
  change (if s.ht.lossNew then forEach (List.range 6) s (fun i s => s.resetReg .pb i) else s).reg n j = _
  cases s.ht.lossNew with
  | true => exact (hzero 6).trans (if_congr (by simp) rfl rfl)
  | false => exact (if_neg (by simp)).symm

theorem State.bootStart_frame (s : State) : s.bootStart.cx = s.cx ∧ s.bootStart.cf = s.cf ∧ s.bootStart.free = s.free
    ∧ s.bootStart.ht.keys = s.ht.keys ∧ s.bootStart.ht.monoNvm = s.ht.monoNvm ∧ s.bootStart.ht.lossNew = false := by
  unfold State.bootStart
  split
  · exact ⟨forEach_keeps (·.cx) _ _ _ fun _ _ => rfl, forEach_keeps (·.cf) _ _ _ fun _ _ => rfl, forEach_keeps (·.free) _ _ _ fun _ _ => rfl,
      rfl, rfl, rfl⟩
  · exact ⟨rfl, rfl, rfl, rfl, rfl, rfl⟩

/-- MONO once both copies are the greater of the two. -/
def State.monoMax (s : State) : Nat := max (s.reg .pbMono 0).toNat s.ht.monoNvm.toNat

theorem State.monoMax_lt (s : State) : s.monoMax < 2 ^ 32 := Nat.max_lt.mpr ⟨(s.reg .pbMono 0).isLt, s.ht.monoNvm.isLt⟩

/-- Both copies of MONO are the greater; nothing else has changed. -/
theorem State.restoreMono_spec (s : State) : s.restoreMono.reg .pbMono 0 = BitVec.ofNat 32 s.monoMax
    ∧ s.restoreMono.ht.monoNvm = BitVec.ofNat 32 s.monoMax ∧ (∀ n i, n ≠ .pbMono → s.restoreMono.reg n i = s.reg n i)
    ∧ s.restoreMono.cx = s.cx ∧ s.restoreMono.cf = s.cf ∧ s.restoreMono.free = s.free ∧ s.restoreMono.ht.keys = s.ht.keys
    ∧ s.restoreMono.ht.lossNew = s.ht.lossNew :=
  ⟨s.reg_setReg_same _ _ _, rfl, fun _ _ h => s.reg_setReg_name _ _ _ h, rfl, rfl, rfl, rfl, rfl⟩

/-- The reset record (R550). -/
def State.resetRecord (s : State) : Nat :=
  s.fld .pwRstsrc 0 31 24 * 2 ^ 24 + min (s.fld .pb 2 23 16 + (if s.fld .pwRstsrc 0 31 28 = 5 then 1 else 0)) 255 * 2 ^ 16
    + min (s.fld .pb 2 15 0 + 1) 0xFFFF

theorem State.recordReset_eq (s : State) : s.recordReset = s.setReg .pb 2 (BitVec.ofNat 32 s.resetRecord) := rfl

/-- The fields of the reset record. -/
theorem State.resetRecord_fields (s : State) : bits s.resetRecord 31 24 = s.fld .pwRstsrc 0 31 24
    ∧ bits s.resetRecord 23 16 = min (s.fld .pb 2 23 16 + (if s.fld .pwRstsrc 0 31 28 = 5 then 1 else 0)) 255
    ∧ bits s.resetRecord 15 0 = min (s.fld .pb 2 15 0 + 1) 0xFFFF := by
  have hsrc : s.fld .pwRstsrc 0 31 24 < 256 := bits_lt ..
  unfold State.resetRecord bits
  omega

/-- A new placement key changes the key, and counts. -/
theorem State.newKey_spec (s : State) (counted : Bool) : (s.newKey counted).cx.key = Config.randomKey s.free
    ∧ (s.newKey counted).cf = s.cf ∧ (s.newKey counted).ht = s.ht ∧ ∀ n i, n ≠ .cxKeygen → (s.newKey counted).reg n i = s.reg n i := by
  refine ⟨rfl, ?_⟩
  cases counted with
  | true => exact ⟨rfl, rfl, fun _ _ h => s.reg_count_name 1 h⟩
  | false => exact ⟨rfl, rfl, fun _ _ _ => rfl⟩

section
variable (s : State)

theorem State.bootStart_other {n : RegName} (j : Nat) (h : n ≠ .pb) : s.bootStart.reg n j = s.reg n j := by
  rw [State.bootStart_reg, if_neg fun e => h e.2.1]

theorem State.bootStart_kept (h : s.ht.lossNew = false) (n : RegName) (j : Nat) : s.bootStart.reg n j = s.reg n j := by
  rw [State.bootStart_reg, if_neg (by simp [h])]

theorem State.bootStart_lost (h : s.ht.lossNew = true) : s.bootStart.reg .pb 0 = 0 ∧ s.bootStart.reg .pb 2 = 0 := by
  have hreset : BitVec.ofNat 32 (RegName.pb.resetVal 0) = 0 ∧ BitVec.ofNat 32 (RegName.pb.resetVal 2) = 0 := by decide
  refine ⟨?_, ?_⟩ <;> rw [State.bootStart_reg, if_pos (by simp [h])]
  · exact hreset.1
  · exact hreset.2

theorem State.bootStart_mono : s.bootStart.monoMax = s.monoMax := by
  obtain ⟨-, -, -, -, hmono, -⟩ := s.bootStart_frame
  rw [State.monoMax, hmono, s.bootStart_other 0 (by decide), State.monoMax]

/-- The registers once the reset is recorded and the key drawn. -/
theorem State.bootKeyed_reg : s.bootKeyed.reg .pbMono 0 = BitVec.ofNat 32 s.monoMax
    ∧ (∀ i, s.bootKeyed.reg .pb i = if i = 2 then BitVec.ofNat 32 s.bootStart.resetRecord else s.bootStart.reg .pb i)
    ∧ s.bootKeyed.reg .cfStat 0 = s.reg .cfStat 0 := by
  obtain ⟨hmono, -, hother, -⟩ := s.bootStart.restoreMono_spec
  obtain ⟨-, -, -, hkey⟩ := s.bootStart.restoreMono.recordReset.newKey_spec (decide (3 ≤ s.bootStart.fld .pwRstsrc 0 31 28))
  have hrecord : s.bootStart.restoreMono.resetRecord = s.bootStart.resetRecord := by
    have hfld {n : RegName} (i hi lo : Nat) (h : n ≠ .pbMono) : s.bootStart.restoreMono.fld n i hi lo = s.bootStart.fld n i hi lo := by
      rw [State.fld, hother n i h, State.fld]
    rw [State.resetRecord, hfld 0 31 24 (by decide), hfld 0 31 28 (by decide), hfld 2 23 16 (by decide), hfld 2 15 0 (by decide),
      State.resetRecord]
  refine ⟨?_, fun i => ?_, ?_⟩
  · rw [State.bootKeyed, hkey _ _ (by decide), State.recordReset_eq, State.reg_setReg_name _ _ _ _ (by decide), hmono, s.bootStart_mono]
  · rw [State.bootKeyed, hkey _ _ (by decide), State.recordReset_eq, State.reg_setReg, hrecord, hother .pb i (by decide)]
  · rw [State.bootKeyed, hkey _ _ (by decide), State.recordReset_eq, State.reg_setReg_name _ _ _ _ (by decide),
      hother .cfStat 0 (by decide), s.bootStart_other 0 (by decide)]

/-- What stands outside the registers once the reset is recorded and the key drawn. -/
theorem State.bootKeyed_frame : s.bootKeyed.cx.key = Config.randomKey s.free ∧ s.bootKeyed.cf = s.cf
    ∧ s.bootKeyed.ht.monoNvm = BitVec.ofNat 32 s.monoMax ∧ s.bootKeyed.ht.lossNew = false ∧ s.bootKeyed.ht.keys = s.ht.keys := by
  obtain ⟨-, hcf, hfree, hkeys, -, hloss⟩ := s.bootStart_frame
  obtain ⟨-, hnvm, -, -, hcf', hfree', hkeys', hloss'⟩ := s.bootStart.restoreMono_spec
  obtain ⟨hkey, hcfk, hhtk, -⟩ := s.bootStart.restoreMono.recordReset.newKey_spec (decide (3 ≤ s.bootStart.fld .pwRstsrc 0 31 28))
  have hrec : s.bootStart.restoreMono.recordReset.free = s.free ∧ s.bootStart.restoreMono.recordReset.cf = s.cf
      ∧ s.bootStart.restoreMono.recordReset.ht = s.bootStart.restoreMono.ht := by
    rw [State.recordReset_eq]
    exact ⟨hfree'.trans hfree, hcf'.trans hcf, rfl⟩
  obtain ⟨hrfree, hrcf, hrht⟩ := hrec
  rw [s.bootStart_mono] at hnvm
  refine ⟨hkey.trans (congrArg _ hrfree), hcfk.trans hrcf, ?_, ?_, ?_⟩ <;> rw [State.bootKeyed, hhtk, hrht]
  · exact hnvm
  · exact hloss'.trans hloss
  · exact hkeys'.trans hkeys

/-- The validity of the copies is judged as after MONO is restored. -/
theorem State.bootKeyed_fwValid (k : Nat) : s.bootKeyed.fwValid k = s.restoreMono.fwValid k := by
  obtain ⟨-, hcf, -, -, hkeys⟩ := s.bootKeyed_frame
  obtain ⟨hmono, -, -, -, hcf', -, hkeys', -⟩ := s.restoreMono_spec
  exact State.fwValid_congr (by rw [hcf, hcf']) (by rw [hkeys, hkeys']) (s.bootKeyed_reg.1.trans hmono.symm) k

/-- No firmware copy is valid. -/
def State.firmless : Bool := !s.restoreMono.fwValid 0 && !s.restoreMono.fwValid 1

/-- The state of a boot as its canopy is loaded and its mailbox opens. -/
theorem State.booted_spec : s.booted.flag .htStat 0 30 = true ∧ s.booted.flag .htStat 0 29 = s.firmless
    ∧ s.booted.dp.coresHeld = s.firmless ∧ (s.firmless = true → s.booted.reg .pb 5 = 0x10000000)
    ∧ (∀ i, i ≠ 5 → s.booted.reg .pb i = s.bootKeyed.reg .pb i) ∧ s.booted.reg .pbMono 0 = s.bootKeyed.reg .pbMono 0
    ∧ s.booted.reg .cfStat 0 = s.bootKeyed.reg .cfStat 0 ∧ s.booted.cx = s.bootKeyed.cx ∧ s.booted.cf = s.bootKeyed.cf
    ∧ s.booted.ht.monoNvm = s.bootKeyed.ht.monoNvm ∧ s.booted.ht.lossNew = s.bootKeyed.ht.lossNew := by
  obtain ⟨w, hregs, hcores, hfail, hcx, hcf, hnvm, hloss⟩ := s.bootKeyed.loadCanopy_spec
  rw [s.bootKeyed_fwValid, s.bootKeyed_fwValid, ← State.firmless] at hregs hcores hfail
  have hreg {n : RegName} (i : Nat) (h : n ≠ .htStat) : s.booted.reg n i = (s.bootKeyed.setReg .pb 5 w).reg n i := by
    rw [State.booted, State.setBit, State.reg_setFld_name _ _ h, State.reg_congr hregs, State.setBit, State.reg_setFld_name _ _ h]
  refine ⟨State.flag_setBit_true _ (by decide), ?_, by simpa [State.booted] using hcores, fun h => ?_, fun i h => ?_, ?_, ?_,
    by simpa [State.booted] using hcx, by simpa [State.booted] using hcf, by simpa [State.booted] using hnvm,
    by simpa [State.booted] using hloss⟩
  · rw [State.flag, State.booted, State.setBit, State.fld_setFld_apart _ _ (by decide) (.inl (by decide)), State.fld_congr hregs,
      State.setBit, State.fld_setFld _ _ (by decide)]
    cases s.firmless <;> rfl
  · rw [hreg _ (by decide), State.reg_setReg_same, hfail h]
  · rw [hreg _ (by decide), State.reg_setReg_index _ _ _ h]
  · rw [hreg _ (by decide), State.reg_setReg_name _ _ _ _ (by decide)]
  · rw [hreg _ (by decide), State.reg_setReg_name _ _ _ _ (by decide)]

/-- A boot's end keeps all but the controller's stage and load. -/
theorem State.bootEnd_frame : s.bootEnd.dp = s.dp ∧ s.bootEnd.ht = s.ht ∧ s.bootEnd.cx = s.cx
    ∧ ∀ n i, n ≠ .cfStat → s.bootEnd.reg n i = s.reg n i := by
  unfold State.bootEnd
  split
  · exact ⟨rfl, rfl, rfl, fun _ _ _ => rfl⟩
  · exact ⟨by simp, by simp, by simp, fun _ _ h => s.reg_setFld_name _ h⟩

theorem State.bootEnd_waits (h : s.flag .pb 0 31 = false) : s.bootEnd.fld .cfStat 0 31 28 = 1 ∧ s.bootEnd.cf = s.cf := by
  rw [State.bootEnd, h, if_neg Bool.false_ne_true]
  exact ⟨s.fld_setFld _ (by decide), by simp⟩

theorem State.bootEnd_loads (h : s.flag .pb 0 31 = true) :
    s.bootEnd.fld .cfStat 0 31 28 = s.fld .cfStat 0 31 28 ∧ s.bootEnd.cf.load = some (newLoad (.nvm 0 false) false) := by
  rw [State.bootEnd, h, if_pos rfl]
  exact ⟨rfl, rfl⟩

/-- The fields of the reset record after a boot. -/
theorem State.bootEnd_record {hi : Nat} (lo : Nat) (h : hi < 32) :
    s.booted.bootEnd.fld .pb 2 hi lo = bits s.bootStart.resetRecord hi lo := by
  obtain ⟨-, -, -, -, hpb, -⟩ := s.booted_spec
  obtain ⟨-, hpb', -⟩ := s.bootKeyed_reg
  obtain ⟨-, -, -, hregs⟩ := s.booted.bootEnd_frame
  rw [State.fld, hregs .pb 2 (by decide), hpb 2 (by decide), hpb', if_pos rfl, bits_ofNat_toNat _ _ h]

/-- AUTOBOOT stays through a boot, but a loss of retention clears it. -/
theorem State.booted_autoboot : s.booted.flag .pb 0 31 = (s.flag .pb 0 31 && !s.ht.lossNew) := by
  obtain ⟨-, -, -, -, hpb, -⟩ := s.booted_spec
  obtain ⟨-, hpb', -⟩ := s.bootKeyed_reg
  rw [State.flag, State.fld, hpb 0 (by decide), hpb', if_neg (by decide)]
  cases hloss : s.ht.lossNew with
  | true =>
    rw [(s.bootStart_lost hloss).1, Bool.not_true, Bool.and_false]
    rfl
  | false => rw [s.bootStart_kept hloss, ← State.fld, ← State.flag, Bool.not_false, Bool.and_true]

end

end Sys2Proof.Machine
end

section
/-! SUPPORT. The halt of heartwood (R414): what the call that runs had changed goes back, and everything that waits is FENCED. -/

namespace Sys2Proof.Machine

/-! ## The registers of heartwood -/

/-- The registers in which heartwood shows itself: HT_STAT, the channels' state, their answers, and the persistent bank. -/
structure HeartRegs where
  stat : Word
  chan : Word
  rsp : Word
  bank : Word

/-- Those registers of a state, by index. -/
def State.heart (s : State) (i : Nat) : HeartRegs := ⟨s.reg .htStat i, s.reg .htSt i, s.reg .htRsp i, s.reg .pb i⟩

/-- A register of another name. -/
@[simp] def offHeart (n : RegName) : Bool := decide (n ≠ .htStat ∧ n ≠ .htSt ∧ n ≠ .htRsp ∧ n ≠ .pb)

/-- Those registers, one by one. -/
theorem State.reg_of_heart {s t : State} {i : Nat} (h : t.heart i = s.heart i) : t.reg .htStat i = s.reg .htStat i
    ∧ t.reg .htSt i = s.reg .htSt i ∧ t.reg .htRsp i = s.reg .htRsp i ∧ t.reg .pb i = s.reg .pb i :=
  ⟨congrArg HeartRegs.stat h, congrArg HeartRegs.chan h, congrArg HeartRegs.rsp h, congrArg HeartRegs.bank h⟩

@[simp ↓] theorem State.mk_heart (u : State) (q a l f t c tl sw lt ff cx qe tn ln tb nc hi dp ht cf gr gp pw ms was) :
    (State.mk q a l f t u.regs c tl sw lt ff cx qe tn ln tb nc hi dp ht cf gr gp pw ms was).heart = u.heart := (rfl)

@[simp ↓] theorem State.ite_heart (c : Prop) [Decidable c] (a b : State) :
    (if c then a else b).heart = if c then a.heart else b.heart := apply_ite _ c a b

@[simp ↓] theorem forEach_heart {α : Type} (l : List α) (s : State) (f : α → State → State)
    (h : ∀ a s, (f a s).heart = s.heart) : (forEach l s f).heart = s.heart :=
  forEach_keeps _ l s f h

section
variable (s : State)

@[simp ↓] theorem State.setReg_heart {n : RegName} (i : Nat) (w : Word) (h : offHeart n = true) : (s.setReg n i w).heart = s.heart := by
  obtain ⟨hstat, hst, hrsp, hpb⟩ := of_decide_eq_true h
  funext k
  simp only [State.heart, s.reg_setReg_name _ _ _ hstat.symm, s.reg_setReg_name _ _ _ hst.symm, s.reg_setReg_name _ _ _ hrsp.symm,
    s.reg_setReg_name _ _ _ hpb.symm]

@[simp ↓] theorem State.setFld_heart {n : RegName} (i hi lo v : Nat) (h : offHeart n = true) : (s.setFld n i hi lo v).heart = s.heart :=
  s.setReg_heart _ _ h

@[simp ↓] theorem State.setBit_heart {n : RegName} (i b : Nat) (v : Bool) (h : offHeart n = true) : (s.setBit n i b v).heart = s.heart :=
  s.setReg_heart _ _ h

@[simp ↓] theorem State.setBits_heart {n : RegName} (l : List Nat) (i : Nat) (v : Bool) (h : offHeart n = true) :
    (forEach l s (fun b s => s.setBit n i b v)).heart = s.heart :=
  forEach_heart l s _ fun b t => t.setBit_heart i b v h

@[simp ↓] theorem State.alarm_heart : s.alarm.heart = s.heart := s.setReg_heart _ _ (by simp)

@[simp ↓] theorem State.ans_heart (st : Status) (ws : List Word) : (s.ans st ws).heart = s.heart := (rfl)

@[simp ↓] theorem State.setActv_heart (n : RegName) (i : Nat) (w : Word) : (s.setActv n i w).heart = s.heart := (rfl)

@[simp ↓] theorem State.land_heart {n : RegName} (i : Nat) (j : Judged) (h : offHeart n = true) : (s.land n i j).heart = s.heart := by
  simp [State.land, s.setReg_heart i _ h]

/-! ## What grants and releases leave (R240, R244) -/

@[simp ↓] theorem State.writeRteH_heart (p : Party) (ni d : Nat) (w : Word) : (s.writeRteH p ni d w).heart = s.heart := by
  simp [State.writeRteH]

@[simp ↓] theorem State.putRoute_heart (ni d cred : Nat) : (s.putRoute ni d cred).heart = s.heart := by simp [State.putRoute]

@[simp ↓] theorem State.injInForce_heart (k : Nat) : (s.injInForce k).heart = s.heart := by simp [State.injInForce]

@[simp ↓] theorem State.writeInjB_heart (p : Party) (ni i : Nat) (w : Word) : (s.writeInjB p ni i w).heart = s.heart := by
  simp [State.writeInjB]

@[simp ↓] theorem State.putInj_heart (ni i : Nat) (valid : Bool) (tag : Tag) (dst prio rate burst : Nat) :
    (s.putInj ni i valid tag dst prio rate burst).heart = s.heart := by simp [State.putInj]

@[simp ↓] theorem State.dropInj_heart (ni : Nat) (tag : Tag) (dst prio : Nat) : (s.dropInj ni tag dst prio).heart = s.heart := by
  unfold State.dropInj
  split <;> simp

@[simp ↓] theorem State.needRoutes_heart (a b : Nat) : (s.needRoutes a b).heart = s.heart := by simp [State.needRoutes]

@[simp ↓] theorem State.nocItem_heart (tag : Tag) (w : Nat) : (s.nocItem tag w).heart = s.heart := by
  unfold State.nocItem
  dsimp only
  split <;> simp

@[simp ↓] theorem State.recordEntry_heart (tag : Tag) (g : Nat) : (s.recordEntry tag g).heart = s.heart := by
  unfold State.recordEntry
  repeat' split
  all_goals simp

@[simp ↓] theorem State.freeWheel_heart (tag : Tag) (res unit : Nat) : (s.freeWheel tag res unit).heart = s.heart := (rfl)

@[simp ↓] theorem State.reserve_heart (tag : Tag) (items : List Nat) (res unit k : Nat) :
    (s.reserve tag items res unit k).heart = s.heart := by
  unfold State.reserve
  repeat' split
  all_goals simp

@[simp ↓] theorem State.takeWheel_heart (tag : Tag) (w : Nat) (items : List Nat) : (s.takeWheel tag w items).heart = s.heart := by
  unfold State.takeWheel
  split <;> simp

@[simp ↓] theorem State.setLevel_heart (k : Bucket) (v : Int) : (s.setLevel k v).heart = s.heart := by
  cases k <;> exact s.setReg_heart _ _ (by simp)

@[simp ↓] theorem State.settle_heart (k : Bucket) : (s.settle k).heart = s.heart := by simp [State.settle, State.setResid]

@[simp ↓] theorem State.levelAct_heart (k : Bucket) (a : LevelAct) : (s.levelAct k a).heart = s.heart := by
  simp [State.levelAct, State.befall]

@[simp ↓] theorem State.boughReset_heart (b : Nat) : (s.boughReset b).heart = s.heart := by simp [State.boughReset]

@[simp ↓] theorem State.ownBough_heart (b own port weight : Nat) : (s.ownBough b own port weight).heart = s.heart := by
  simp [State.ownBough, State.landBough]

@[simp ↓] theorem State.ownPin_heart (n own tag : Nat) : (s.ownPin n own tag).heart = s.heart := by simp [State.ownPin]

@[simp ↓] theorem State.askCommit_heart (g : Nat) : (s.askCommit g).heart = s.heart := by simp [State.askCommit]

@[simp ↓] theorem State.writeRingOwner_heart (k : Nat) (own : Tag) (ripe : Bool) : (s.writeRingOwner k own ripe).heart = s.heart := (rfl)

@[simp ↓] theorem State.holdRing_heart (k : Nat) : (s.holdRing k).heart = s.heart := (rfl)

@[simp ↓] theorem State.holdMc_heart (k : Nat) : (s.holdMc k).heart = s.heart := (rfl)

@[simp ↓] theorem State.fifoFlush_heart (F : Nat) : (s.fifoFlush F).heart = s.heart := (rfl)

end

/-- A granted item leaves heartwood's registers. -/
@[simp ↓] theorem State.grantItem_heart (tag : Tag) (items : List Nat) (w : Nat) (s : State) :
    (s.grantItem tag items w).heart = s.heart := by
  unfold State.grantItem
  split <;> simp

/-- A released item leaves heartwood's registers. -/
@[simp ↓] theorem State.releaseItem_heart (tag : Tag) (left : List Nat) (w : Nat) (s : State) :
    (s.releaseItem tag left w).heart = s.heart := by
  unfold State.releaseItem
  repeat' split
  all_goals simp

/-- The undoing of the call that runs leaves heartwood's registers. -/
theorem State.undoCall_heart (s : State) : s.undoCall.heart = s.heart := by
  unfold State.undoCall
  repeat' split
  all_goals simp [State.releaseItems, State.grantItems]

/-! ## Everything that waits is FENCED (R414) -/

/-- What a notice to the graft ports leaves: heartwood's own state, the graft files and heartwood's registers. -/
def State.heartKept (s : State) : HeartB × GraftB × (Nat → HeartRegs) := (s.ht, s.gr, s.heart)

theorem State.signalVec_heartKept (s : State) (fn v : Nat) : (s.signalVec fn v).heartKept = s.heartKept := by
  have hheart : (s.signalVec fn v).heart = s.heart := by
    obtain ⟨-, -, hreg⟩ := s.signalVec_leaves fn v
    exact funext fun i => by
      simp only [State.heart, hreg .htStat i (by decide), hreg .htSt i (by decide), hreg .htRsp i (by decide), hreg .pb i (by decide)]
  rw [State.heartKept, hheart, State.heartKept]
  unfold State.signalVec
  split <;> simp

theorem State.graftDone_heartKept (s : State) (v st reason : Nat) : (s.graftDone v st reason).heartKept = s.heartKept := by
  have hset (w : Word) : (s.setReg .hiGstat v w).heartKept = s.heartKept := by
    simp [State.heartKept]
  unfold State.graftDone
  extract_lets _ _ s2
  have hs2 : s2.heartKept = s.heartKept := hset _
  split
  · exact (s2.signalVec_heartKept _ _).trans hs2
  · exact hs2

theorem State.ogDone_heartKept (s : State) (st reason : Nat) : (s.ogDone st reason).heartKept = s.heartKept := by
  simp [State.heartKept, State.ogDone]

theorem State.fileDone_heartKept (s : State) (vf : Option (Fin 512)) (st reason : Nat) :
    (s.fileDone vf st reason).heartKept = s.heartKept := by
  unfold State.fileDone
  split
  · exact s.graftDone_heartKept _ _ _
  · exact s.ogDone_heartKept _ _

/-- A channel is done, with the answer FENCED. -/
def State.fencedAt (s : State) (c : Nat) : Prop := s.chan c = 3 ∧ s.fld .htRsp (8 * c) 15 12 = 1

/-- The status in the word that heads an answer. -/
theorem State.rspHead_fields (s : State) (c : Nat) {st reason : Nat} (hst : st < 16) (hreason : reason < 4096) :
    bits (s.rspHead c st reason) 15 12 = st ∧ bits (s.rspHead c st reason) 11 0 = reason
    ∧ bits (s.rspHead c st reason) 31 16 = bits (s.reqW c 0) 31 16 := by
  have hw : s.reqW c 0 < 2 ^ 32 := (s.reg .htReq (8 * c + 0)).isLt
  unfold State.rspHead bits
  omega

theorem State.respondCall_status (s : State) (c st reason : Nat) (res : List Word) {hi : Nat} (lo : Nat) (h : hi < 32) :
    (s.respondCall c st reason res).fld .htRsp (8 * c) hi lo = bits (s.rspHead c st reason) hi lo := by
  rw [State.fld, State.respondCall_rsp, if_pos rfl, bits_ofNat_toNat _ _ h]

/-- An answer FENCED to a channel: it is done with it, and another that was so stays. -/
theorem State.respondCall_fencedAt (s : State) (a c : Nat) (h : a = c ∨ s.fencedAt c) :
    (s.respondCall a Status.fenced.code 0 []).fencedAt c := by
  by_cases hac : c = a
  · subst hac
    exact ⟨by rw [State.respondCall_chan, if_pos rfl],
      (s.respondCall_status _ _ _ _ 12 (by decide)).trans (s.rspHead_fields c (by decide) (by decide)).1⟩
  · obtain ⟨hdone, hrsp⟩ := h.resolve_left fun e => hac e.symm
    refine ⟨by rw [State.respondCall_chan, if_neg hac, hdone], ?_⟩
    rw [State.fld, State.respondCall_rsp, if_neg (by omega), if_neg (by omega), ← State.fld, hrsp]

theorem forEach_fencedAt {l : List Nat} (s : State) {c : Nat} (h : c ∈ l ∨ s.fencedAt c) :
    (forEach l s (fun c s => s.respondCall c Status.fenced.code 0 [])).fencedAt c := by
  induction l generalizing s with
  | nil => exact h.resolve_left List.not_mem_nil
  | cons a r ih =>
    refine ih _ ?_
    by_cases hr : c ∈ r
    · exact .inl hr
    · exact .inr (s.respondCall_fencedAt a c (h.imp (fun hc => ((List.mem_cons.mp hc).resolve_right hr).symm) id))

/-- Every channel that waits or runs is answered FENCED. -/
def State.fenceChans (s : State) : State :=
  forEach ((List.range 9).filter (fun c => s.chan c == 1 || s.chan c == 2)) s (fun c s => s.respondCall c Status.fenced.code 0 [])

/-- Heartwood's queue, the call that runs and the graft files are gone. -/
def State.dropWaiting (s : State) : State :=
  { s with ht := { s.ht with callq := [], wait := none }, gr := { s.gr with files := [], opStage := [] } }

/-- Every graft file is answered FENCED. -/
def State.fenceFiles (s : State) (files : List GFile) : State := forEach files s (fun f s => s.fileDone f.vf Status.fenced.code 0)

/-- Every graft submission in a queue is answered FENCED. -/
def State.fenceGrafts (s : State) (q : List (Nat × CallSrc)) : State :=
  forEach q s (fun e s => match e.2 with
    | .graft v => if s.gState v.val = 2 then s.graftDone v.val Status.fenced.code 0 else s
    | .opGraft => s.ogDone Status.fenced.code 0
    | .chan _ => s)

theorem State.allFenced_eq (s : State) :
    s.allFenced = (s.fenceChans.dropWaiting.fenceFiles s.fenceChans.gr.files).fenceGrafts s.fenceChans.ht.callq := rfl

theorem State.fenceFiles_heartKept (s : State) (files : List GFile) : (s.fenceFiles files).heartKept = s.heartKept :=
  forEach_keeps State.heartKept _ _ _ fun _ t => t.fileDone_heartKept _ _ _

theorem State.fenceGrafts_heartKept (s : State) (q : List (Nat × CallSrc)) : (s.fenceGrafts q).heartKept = s.heartKept := by
  refine forEach_keeps State.heartKept _ _ _ fun e t => ?_
  split
  · split
    · exact t.graftDone_heartKept _ _ _
    · rfl
  · exact t.ogDone_heartKept _ _
  · rfl

/-- Heartwood's part of the state once everything that waits is FENCED. -/
theorem State.allFenced_heartKept (s : State) : s.allFenced.heartKept = s.fenceChans.dropWaiting.heartKept := by
  rw [State.allFenced_eq, State.fenceGrafts_heartKept, State.fenceFiles_heartKept]

/-- Nothing waits for heartwood any more, and HT_STAT and the bank stay. -/
theorem State.allFenced_spec (s : State) : s.allFenced.ht.callq = [] ∧ s.allFenced.ht.wait = none ∧ s.allFenced.gr.files = []
    ∧ s.allFenced.reg .htStat 0 = s.reg .htStat 0 ∧ (∀ i, s.allFenced.reg .pb i = s.reg .pb i)
    ∧ ∀ c, c < 9 → s.chan c = 1 ∨ s.chan c = 2 → s.allFenced.fencedAt c := by
  have hkept := s.allFenced_heartKept
  have hht : s.allFenced.ht = s.fenceChans.dropWaiting.ht := congrArg Prod.fst hkept
  have hgr : s.allFenced.gr = s.fenceChans.dropWaiting.gr := congrArg (·.2.1) hkept
  have hheart (i : Nat) : s.allFenced.heart i = s.fenceChans.heart i := congrFun (congrArg (·.2.2) hkept) i
  have hother {n : RegName} (i : Nat) (hrsp : n ≠ .htRsp) (hst : n ≠ .htSt) : s.fenceChans.reg n i = s.reg n i :=
    forEach_keeps (·.reg n i) _ _ _ fun c t => t.respondCall_reg_name c _ _ _ i hrsp hst
  refine ⟨by rw [hht]; rfl, by rw [hht]; rfl, by rw [hgr]; rfl, ?_, fun i => ?_, fun c hc hwaits => ?_⟩
  · exact (State.reg_of_heart (hheart 0)).1.trans (hother 0 (by decide) (by decide))
  · exact (State.reg_of_heart (hheart i)).2.2.2.trans (hother i (by decide) (by decide))
  · have hmem : c ∈ (List.range 9).filter (fun c => s.chan c == 1 || s.chan c == 2) := by simp [hc, hwaits]
    obtain ⟨hdone, hrsp⟩ := forEach_fencedAt s (.inl hmem)
    obtain ⟨-, hst, -, -⟩ := State.reg_of_heart (hheart c)
    obtain ⟨-, -, hans, -⟩ := State.reg_of_heart (hheart (8 * c))
    exact ⟨by rw [State.chan, State.fld, hst]; exact hdone, by rw [State.fld, hans]; exact hrsp⟩

/-- The state of a heartwood fault, before anything is undone: the pair halts, and the cause is recorded. -/
def State.haltNoted (s : State) (cause : Nat) : State :=
  (({ s with ht := { s.ht with core0 := { s.ht.core0 with runs := false }, core1 := { s.ht.core1 with runs := false } } } : State).setFld
    .pb 4 31 28 cause).setBit .htStat 0 31 true

theorem State.htFault_halts {s : State} {cause : Nat} (hruns : s.flag .htStat 0 31 = false) (hlo : 1 ≤ cause) (hhi : cause ≤ 4) :
    s.htFault cause = (s.haltNoted cause).undoCall.allFenced := by
  have hguard : (s.flag .htStat 0 31 || cause = 0 || 4 < cause) = false := by
    simp [hruns]
    omega
  unfold State.htFault
  rw [if_neg (by simpa using hguard)]
  rfl

theorem State.haltNoted_spec (s : State) (cause : Nat) : (s.haltNoted cause).flag .htStat 0 31 = true
    ∧ (s.haltNoted cause).fld .pb 4 31 28 = cause % 16 ∧ ∀ c, (s.haltNoted cause).chan c = s.chan c := by
  refine ⟨State.flag_setBit_true _ (by decide), ?_, fun c => ?_⟩
  · rw [State.haltNoted, State.fld, State.setBit, State.reg_setFld_name _ _ (by decide), ← State.fld, State.fld_setFld _ _ (by decide)]
    rfl
  · rw [State.chan, State.fld, State.haltNoted, State.setBit, State.reg_setFld_name _ _ (by decide), State.reg_setFld_name _ _ (by decide)]
    rfl

/-- What a heartwood fault comes to. -/
theorem State.htFault_spec {s : State} {cause : Nat} (hruns : s.flag .htStat 0 31 = false) (hlo : 1 ≤ cause) (hhi : cause ≤ 4) :
    (s.htFault cause).flag .htStat 0 31 = true ∧ (s.htFault cause).fld .pb 4 31 28 = cause ∧ (s.htFault cause).ht.callq = []
    ∧ (s.htFault cause).ht.wait = none ∧ (s.htFault cause).gr.files = []
    ∧ ∀ c, c < 9 → s.chan c = 1 ∨ s.chan c = 2 → (s.htFault cause).fencedAt c := by
  obtain ⟨hhalted, hcause, hchan⟩ := s.haltNoted_spec cause
  have hheart (i : Nat) : (s.haltNoted cause).undoCall.heart i = (s.haltNoted cause).heart i := congrFun (State.undoCall_heart _) i
  obtain ⟨hqueue, hwait, hfiles, hstat, hbank, hfenced⟩ := (s.haltNoted cause).undoCall.allFenced_spec
  rw [State.htFault_halts hruns hlo hhi]
  refine ⟨?_, ?_, hqueue, hwait, hfiles, fun c hc hwaits => hfenced c hc ?_⟩
  · obtain ⟨hstat', -, -, -⟩ := State.reg_of_heart (hheart 0)
    rw [State.flag, State.fld, hstat, hstat']
    exact hhalted
  · obtain ⟨-, -, -, hbank'⟩ := State.reg_of_heart (hheart 4)
    rw [State.fld, hbank, hbank']
    exact hcause.trans (Nat.mod_eq_of_lt (Nat.lt_succ_of_le (hhi.trans (by decide))))
  · obtain ⟨-, hst, -, -⟩ := State.reg_of_heart (hheart c)
    rw [State.chan, State.fld, hst, ← State.fld, ← State.chan, hchan]
    exact hwaits

/-! ## The obligation -/

theorem State.queueCall_regs (s : State) (c : CallSrc) : (s.queueCall c).regs = s.regs := rfl

/-- A channel that GO makes pending is so, in heartwood's queue, and no other has changed. -/
theorem State.pend_spec (s : State) (ch : Fin 9) : ((s.setChan ch.val 1).queueCall (.chan ch)).chan ch.val = 1
    ∧ (s.fc / 8, CallSrc.chan ch) ∈ ((s.setChan ch.val 1).queueCall (.chan ch)).ht.callq
    ∧ ((s.setChan ch.val 1).queueCall (.chan ch)).ht.callq.length = s.ht.callq.length + 1
    ∧ ((s.setChan ch.val 1).queueCall (.chan ch)).answer = s.answer
    ∧ ∀ c, c ≠ ch.val → ((s.setChan ch.val 1).queueCall (.chan ch)).chan c = s.chan c := by
  have hchan (c : Nat) : ((s.setChan ch.val 1).queueCall (.chan ch)).chan c = if c = ch.val then 1 else s.chan c :=
    (State.fld_congr (s := s.setChan ch.val 1) ((s.setChan ch.val 1).queueCall_regs _) ..).trans (State.chan_setChan ..)
  have hqueue : ((s.setChan ch.val 1).queueCall (.chan ch)).ht.callq = callInsert (s.fc / 8) (.chan ch) s.ht.callq := by
    simp [State.queueCall, State.setChan]
  obtain ⟨hmem, hlen⟩ := callInsert_spec (s.fc / 8) (.chan ch) s.ht.callq
  exact ⟨(hchan _).trans (if_pos rfl), hqueue ▸ hmem, hqueue ▸ hlen, by simp [State.queueCall, State.setChan],
    fun c hc => (hchan c).trans (if_neg hc)⟩

/-- A word that is not 0, of a call that uses no words, is a reserved one. -/
theorem State.reserved_word (s : State) (c : Nat) {k : Nat} (hk : k < 7) (h : s.reqW c (k + 1) ≠ 0) :
    (List.range 7).any (fun k => s.reqW c (k + 1) &&& (0xFFFFFFFF ^^^ ([] : List Nat).getD k 0) != 0) = true :=
  List.any_eq_true.mpr ⟨k, List.mem_range.mpr hk, by rw [List.getD_nil, State.reqW_mask]; exact bne_iff_ne.mpr h⟩

/-- A call taken has left heartwood's queue. -/
theorem State.taken_queue (s : State) (ch : Fin 9) : CallSrc.chan ch ∉ (s.taken ch).ht.callq.map Prod.snd := by
  simp [State.taken]

/-- Settles O46: a call goes from its channel through heartwood's queue to its answer; a boot opens the mailbox and a halt ends all that
waits (R187, R413, R414, R418, R420-R424). -/
theorem heartwoodBootsHaltsAndTakesCalls : Obligations.HeartwoodBootsHaltsAndTakesCalls := by
  refine ⟨⟨?go, ?answer, ?reserved, ?restricted, ?waits, ?rekey⟩, ?boot, ?stays, ?fault, ?comparator⟩
  case go =>
    intro p ch s
    refine ⟨fun hwriter hopen hidle => ?_, fun hwriter hbusy => ?_, fun hforeign => ?_⟩
    · have hmay : (!s.flag .htStat 0 30 || s.chan ch.val == 1 || s.chan ch.val == 2) = false := by
        rcases hidle with h | h <;> simp [hopen, h]
      have hgo := congrArg (Host.Outcome.next : State → Res) (State.writeGo_own (s := s) hwriter)
      rw [hmay, if_neg Bool.false_ne_true] at hgo
      refine ⟨fun hruns => ?_, fun hhalted => ?_⟩
      · rw [hruns, if_neg Bool.false_ne_true] at hgo
        exact ⟨_, hgo, (s.ans .ok []).pend_spec ch⟩
      · rw [hhalted, if_pos rfl] at hgo
        exact ⟨s.ans .ok [], hgo, rfl⟩
    · refine congrArg Host.Outcome.next ((State.writeGo_own hwriter).trans (if_pos ?_))
      rcases hbusy with h | h | h <;> simp [h]
    · obtain ⟨u, hgo, hht, hregs, halarm⟩ := State.writeGo_stranger (s := s) hforeign
      exact ⟨_, congrArg Host.Outcome.next hgo, rfl, hht, fun c => by
        rw [State.chan, State.fld]; exact congrArg (fun w : Word => bits w.toNat 31 30) (hregs .htSt c (by decide)), halarm⟩
  case answer =>
    intro s ch st reason res hst hreason t
    obtain ⟨hstat, hwhy, hupper⟩ := s.rspHead_fields ch.val hst hreason
    obtain ⟨hcore, hhost⟩ := s.respondCall_asserts ch.val st reason res
    refine ⟨by rw [State.respondCall_chan, if_pos rfl], (s.respondCall_status _ _ _ _ 12 (by decide)).trans hstat,
      (s.respondCall_status _ _ _ _ 0 (by decide)).trans hwhy, (s.respondCall_status _ _ _ _ 16 (by decide)).trans hupper, fun k hk => ?_,
      hcore, fun h => hhost h.ge, fun c hc => by rw [State.respondCall_chan, if_neg hc], (s.respondCall_frame ..).1⟩
    rw [State.respondCall_rsp, if_neg (by omega), if_pos (by omega), show 8 * ch.val + k + 1 - 8 * ch.val - 1 = k by omega]
  case reserved =>
    intro ch s hnext hop hfree hbad
    refine ⟨s.taken ch, congrArg Host.Outcome.next (State.runCall_reserved hnext hop (fun h hfirm => ?_) ?_), rfl, ?_⟩
    · exact absurd hfirm (by simp [hfree h])
    · rcases hbad with h | h | h
      · simp [h]
      · rw [s.reserved_word ch.val (by decide) h, Bool.or_true]
      · rw [s.reserved_word ch.val (k := 6) (by decide) h, Bool.or_true]
    · exact s.taken_queue ch
  case restricted =>
    intro s hnext hop hfirm
    exact ⟨s.taken 8, congrArg Host.Outcome.next (State.runCall_restricted hnext hop rfl hfirm (by decide)), rfl⟩
  case waits =>
    intro ch s hnext
    exact congrArg Host.Outcome.next (State.runCall_waits hnext)
  case rekey =>
    intro ch s hstands
    refine ⟨(s.taken ch).newKey true, congrArg Host.Outcome.next (State.runCall_done (res := []) hstands rfl), rfl, ?_, rfl⟩
    exact (s.taken ch).fld_count 1 (by decide)
  case boot =>
    intro s hstage hshut hruns hwarm hcold m
    obtain ⟨hopen, hfirm, hcores, hheld, hpb, hmono, hstage', hcx, hcfB, hnvm, hloss⟩ := s.booted_spec
    obtain ⟨hmonoK, hpbK, hstageK⟩ := s.bootKeyed_reg
    obtain ⟨hkey, hcfK, hnvmK, hlossK, -⟩ := s.bootKeyed_frame
    obtain ⟨hsrc, htrips, hcount⟩ := s.bootStart.resetRecord_fields
    obtain ⟨hdp, hht, hcxE, hregs⟩ := s.booted.bootEnd_frame
    have hm : (BitVec.ofNat 32 s.monoMax).toNat = m := (BitVec.toNat_ofNat _ _).trans (Nat.mod_eq_of_lt s.monoMax_lt)
    have hflag (b : Nat) : s.booted.bootEnd.flag .htStat 0 b = s.booted.flag .htStat 0 b := by
      rw [State.flag, State.fld, hregs .htStat 0 (by decide), ← State.fld, ← State.flag]
    refine ⟨_, execHeartwoodBoot_boots hstage hshut hruns hwarm hcold, (hflag 30).trans hopen, ?_, ?_, ?_, fun hkept => ⟨?_, ?_⟩,
      fun hlost => ⟨?_, ?_, ?_⟩, ?_, fun h0 h1 => ?_, fun hvalid => ?_, fun hwaits => ?_, fun hauto hkept => ?_⟩
    · rw [hregs .pbMono 0 (by decide), hmono, hmonoK, hm]
    · rw [hht, hnvm, hnvmK, hm]
    · rw [s.bootEnd_record 24 (by decide), hsrc, State.fld, s.bootStart_other 0 (by decide), State.fld]
    · rw [s.bootEnd_record 0 (by decide), hcount, State.fld, s.bootStart_kept hkept, State.fld]
    · rw [s.bootEnd_record 16 (by decide), htrips, State.fld, State.fld, s.bootStart_kept hkept, s.bootStart_kept hkept, State.fld, State.fld]
    · rw [s.bootEnd_record 0 (by decide), hcount, State.fld, (s.bootStart_lost hlost).2]
      rfl
    · rw [hregs .pb 0 (by decide), hpb 0 (by decide), hpbK, if_neg (by decide), (s.bootStart_lost hlost).1]
    · rw [hht, hloss, hlossK]
    · rw [hcxE, hcx, hkey]
    · have hnone : s.firmless = true := by rw [State.firmless, h0, h1]; rfl
      exact ⟨by rw [hdp, hcores, hnone], (hflag 29).trans (hfirm.trans hnone), (hregs .pb 5 (by decide)).trans (hheld hnone)⟩
    · have hsome : s.firmless = false := by
        rw [State.firmless]
        rcases hvalid with h | h <;> simp [h]
      exact ⟨by rw [hdp, hcores, hsome], (hflag 29).trans (hfirm.trans hsome)⟩
    · have hoff : s.booted.flag .pb 0 31 = false := by
        rw [s.booted_autoboot]
        rcases hwaits with h | h <;> simp [h]
      obtain ⟨hone, hcf⟩ := s.booted.bootEnd_waits hoff
      exact ⟨hone, by rw [hcf, hcfB, hcfK]⟩
    · have hon : s.booted.flag .pb 0 31 = true := by rw [s.booted_autoboot, hauto, hkept]; rfl
      obtain ⟨hsame, hload⟩ := s.booted.bootEnd_loads hon
      exact ⟨by rw [hsame, State.fld, hstage', hstageK]; exact hstage, hload⟩
  case stays =>
    intro s h
    refine congrArg Host.Outcome.next (if_pos ?_)
    rcases h with h | h | h <;> simp [h]
  case fault =>
    intro c s hruns hlo hhi
    obtain ⟨hhalted, hcause, hqueue, hwait, hfiles, hfenced⟩ := State.htFault_spec hruns hlo hhi
    exact ⟨_, rfl, hhalted, hcause, hqueue, hwait, hfiles, fun ch hwaits => hfenced ch.val ch.isLt hwaits⟩
  case comparator =>
    intro a b s
    cases a <;> cases b <;> rfl

end Sys2Proof.Machine
end

section
/-! SUPPORT. The judged writes of the queue engine (R12, R226-R229): a write that no field refuses, the action bit of a write, and fields
within fields. -/

namespace Sys2Proof.Machine

/-! ## Fields within fields -/

theorem bit_eq_bits (n i : Nat) : bit n i = (bits n i i == 1) := by simp [bit, bits]

/-- Numbers that agree in both parts of a field agree in the field. -/
theorem bits_eq_of_parts {m n hi mid lo : Nat} (hlow : bits m mid lo = bits n mid lo) (hhigh : bits m hi (mid + 1) = bits n hi (mid + 1)) :
    bits m hi lo = bits n hi lo := by
  have hbit {hi lo : Nat} (h : bits m hi lo = bits n hi lo) (k : Nat) (hk : lo + k ≤ hi) : m.testBit (lo + k) = n.testBit (lo + k) := by
    have := congrArg (Nat.testBit · k) h
    simpa [testBit_bits, show k < hi + 1 - lo by omega] using this
  refine Nat.eq_of_testBit_eq fun k => ?_
  rw [testBit_bits, testBit_bits]
  by_cases hk : k < hi + 1 - lo
  · by_cases hmid : lo + k ≤ mid
    · rw [hbit hlow k hmid]
    · have := hbit hhigh (lo + k - (mid + 1)) (by omega)
      rw [show mid + 1 + (lo + k - (mid + 1)) = lo + k by omega] at this
      rw [this]
  · simp [hk]

/-- Numbers that agree in a field agree in every field within it. -/
theorem bits_eq_within {m n hi lo hi' lo' : Nat} (h : bits m hi lo = bits n hi lo) (hlo : lo ≤ lo') (hhi : hi' ≤ hi) :
    bits m hi' lo' = bits n hi' lo' := by
  refine Nat.eq_of_testBit_eq fun k => ?_
  rw [testBit_bits, testBit_bits]
  by_cases hk : k < hi' + 1 - lo'
  · have := congrArg (Nat.testBit · (lo' + k - lo)) h
    simp only [testBit_bits, show lo + (lo' + k - lo) = lo' + k by omega, show lo' + k - lo < hi + 1 - lo by omega, decide_true,
      Bool.true_and] at this
    rw [this]
  · simp [hk]

/-! ## A write that no field refuses (R12) -/

section
variable {fs : List Field} {p : Writer} {ok : Nat → Nat → Bool} (cur w : Nat) (hd : fs.Pairwise Field.Apart)
include hd

/-- A write that names its writer in every field is not refused for it. -/
theorem judge_named (hn : ∀ f ∈ fs, f.names p = true) : (judge fs p ok cur w).byWriter = false := by
  rw [Bool.eq_false_iff, Ne, judge, foldl_judgeField_byWriter p ok w hd]
  rintro (h | ⟨f, hf, -, h⟩)
  · cases h
  · simp [hn f hf] at h

/-- A write whose values every field allows is not refused for one. -/
theorem judge_allowed (hok : ∀ f ∈ fs, ok f.lo (bits w f.hi f.lo) = true) : (judge fs p ok cur w).byValue = false := by
  rw [Bool.eq_false_iff, Ne, judge, foldl_judgeField_byValue p ok w hd]
  rintro (h | ⟨f, hf, -, -, h⟩)
  · cases h
  · simp [hok f hf] at h

/-- A plain field takes the value written, where it names the writer and allows the value. -/
theorem judge_takes {f : Field} (hf : f ∈ fs) (hty : f.ty = .rw) (hn : f.names p = true) (hok : ok f.lo (bits w f.hi f.lo) = true) :
    bits (judge fs p ok cur w).val f.hi f.lo = bits w f.hi f.lo :=
  (foldl_judgeField_bits p ok w hd _ hf).trans (Field.landed_rw _ hty hn hok)

/-- A plain field that is written back keeps its value. -/
theorem judge_keeps {f : Field} (hf : f ∈ fs) (hty : f.ty = .rw) (hsame : bits w f.hi f.lo = bits cur f.hi f.lo) :
    bits (judge fs p ok cur w).val f.hi f.lo = bits cur f.hi f.lo :=
  (foldl_judgeField_bits p ok w hd _ hf).trans (Field.landed_of_not_judged _ _ (by simp [Field.judged, hty, hsame]))

/-- A write that names its writer in every field, with values that every field allows, completes, and its plain fields take their values. -/
theorem judge_completes (hn : ∀ f ∈ fs, f.names p = true) (hok : ∀ f ∈ fs, ok f.lo (bits w f.hi f.lo) = true) :
    (judge fs p ok cur w).status = .ok ∧ ∀ f ∈ fs, f.ty = .rw → bits (judge fs p ok cur w).val f.hi f.lo = bits w f.hi f.lo :=
  ⟨Judged.status_ok (by simp [judge_named cur w hd hn]) (by simp [judge_allowed cur w hd hok]),
    fun f hf hty => judge_takes cur w hd hf hty (hn f hf) (hok f hf)⟩

end

/-! ## The action bit of a write (R10) -/

section
variable {p : Writer} {ok : Nat → Nat → Bool} (w : Nat)

/-- One field's judgement leaves the action bits apart from it. -/
theorem judgeField_acts_apart (j : Judged) {f g : Field} (h : f.Apart g) :
    bits (judgeField p ok w j f).acts g.hi g.lo = bits j.acts g.hi g.lo := by
  have hset (v : Nat) : bits (setBits j.acts f.hi f.lo v) g.hi g.lo = bits j.acts g.hi g.lo := bits_setBits_disjoint _ _ (Or.symm h)
  unfold judgeField
  dsimp only
  split_ifs
  · dsimp only
    split <;> simp only [hset]
  all_goals rfl

theorem foldl_judgeField_acts_apart {fs : List Field} (j : Judged) (g : Field) (h : ∀ f ∈ fs, f.Apart g) :
    bits (fs.foldl (judgeField p ok w) j).acts g.hi g.lo = bits j.acts g.hi g.lo := by
  induction fs generalizing j with
  | nil => rfl
  | cons f r ih =>
    rw [List.foldl_cons, ih _ (fun x hx => h x (List.mem_cons_of_mem _ hx)), judgeField_acts_apart w j (h f List.mem_cons_self)]

section
variable {f : Field} (hty : f.ty = .wo) (hn : f.names p = true) (hok : ok f.lo (bits w f.hi f.lo) = true) (hw : bits w f.hi f.lo ≠ 0)
include hty hn hok hw

theorem judgeField_acts_self (j : Judged) : bits (judgeField p ok w j f).acts f.hi f.lo = bits w f.hi f.lo := by
  have hmod : bits w f.hi f.lo % 2 ^ (f.hi + 1 - f.lo) = bits w f.hi f.lo := Nat.mod_mod _ _
  simp [judgeField, Field.judged, hty, hn, hok, hw, bits_setBits, hmod]

/-- An action field that is written other than 0 acts, where it names the writer and allows the value. -/
theorem judge_acts {fs : List Field} (hd : fs.Pairwise Field.Apart) (cur : Nat) (hf : f ∈ fs) :
    bits (judge fs p ok cur w).acts f.hi f.lo = bits w f.hi f.lo := by
  unfold judge
  generalize (⟨cur, 0, false, false⟩ : Judged) = j
  induction fs generalizing j with
  | nil => cases hf
  | cons g r ih =>
    obtain ⟨hg, hr⟩ := List.pairwise_cons.mp hd
    rw [List.foldl_cons]
    rcases List.mem_cons.mp hf with rfl | hmem
    · rw [foldl_judgeField_acts_apart w _ f (fun x hx => (hg x hx).symm), judgeField_acts_self w hty hn hok hw]
    · exact ih hr hmem _

end

end

end Sys2Proof.Machine
end

section
/-! SUPPORT. Token buckets (R215-R219): where a level and its residue stand, what settling a bucket changes, and what a debit and a register
write come to. -/

namespace Sys2Proof.Machine

/-! ## Where a bucket stands -/

/-- The word of a bucket's level register. -/
def State.levelWord (s : State) (k : Bucket) : Word := s.regs.rd (residKey k) 0

/-- Whether a register holds a bucket's level. -/
def ofLevel (n : RegName) : Bool := n = .qeQlvl || n = .qeBclvl || n = .qeBplvl

theorem residKey_inj {k k' : Bucket} (h : residKey k = residKey k') : k = k' := by
  cases k <;> cases k' <;> obtain ⟨hname, hindex⟩ := regKey_inj h <;> simp_all

/-- A register that holds no level stands apart from every bucket's. -/
theorem key_ne_residKey {n : RegName} (i : Nat) (k : Bucket) (h : ofLevel n = false) : n.key i ≠ residKey k := by
  intro e
  cases k <;> obtain ⟨rfl, -⟩ := regKey_inj e <;> cases h

section
variable (s : State) (k : Bucket)

/-- A level register is 0 after cold reset, so the level is its word of the register file. -/
theorem State.level_eq : s.level k = (s.levelWord k).toInt := by cases k <;> rfl

theorem State.setLevel_regs (v : Int) : (s.setLevel k v).regs = s.regs.wr (residKey k) 0 (BitVec.ofInt 32 v) := by cases k <;> rfl

/-- A level register is 32 bits wide, a residue 16. -/
theorem State.level_range : -2 ^ 31 ≤ s.level k ∧ s.level k < 2 ^ 31 ∧ s.resid k < 2 ^ 16 :=
  ⟨s.level_eq k ▸ BitVec.le_toInt _, s.level_eq k ▸ BitVec.toInt_lt, BitVec.isLt _⟩

end

/-- A level that its register holds is read back. -/
theorem toInt_ofInt_level {v : Int} (hlo : -2 ^ 31 ≤ v) (hhi : v < 2 ^ 31) : (BitVec.ofInt 32 v).toInt = v :=
  BitVec.toInt_ofInt_eq_self (by decide) hlo hhi

/-! ## A bucket's settings (R215, R216) -/

/-- Rate, burst and opening of a bucket rest on registers that hold no level. -/
theorem State.settings_congr {s t : State} (h : ∀ n i, ofLevel n = false → t.reg n i = s.reg n i) (k : Bucket) :
    t.bRate k = s.bRate k ∧ t.bBurst k = s.bBurst k ∧ t.bOpen k = s.bOpen k := by
  have hfld (n : RegName) (i hi lo : Nat) (hn : ofLevel n = false) : t.fld n i hi lo = s.fld n i hi lo := by
    rw [State.fld, h n i hn, State.fld]
  cases k <;> simp [State.bRate, State.bBurst, State.bOpen, State.bypassed, State.flag, bucketRegs, hfld, ofLevel]

/-! ## What settling changes (R218) -/

/-- A bucket's level and residue as the debit and the writes of the fc leave them, before a refill. -/
def State.written (s : State) (k : Bucket) : Int × Nat :=
  (s.bucketDay k).acts.foldl (fun x a => a.act x) (s.atStart.level k - (s.bucketDay k).debit, s.atStart.resid k)

theorem State.settled_eq (s : State) (k : Bucket) : s.settled k
    = if s.qe.refillAt = s.fc + 1 && s.bOpen k then refilled (s.bRate k) (s.bBurst k) (s.written k) else s.written k := rfl

/-- Where no refill was made in the fc, a bucket stands as its debit and writes leave it. -/
theorem State.settled_unrefilled {s : State} (k : Bucket) (h : s.qe.refillAt ≠ s.fc + 1) : s.settled k = s.written k := by
  simp [State.settled_eq, h]

/-- What stood of a bucket as the fc began rests on what was kept of it then. -/
theorem State.start_congr {s t : State} (hwas : t.was = s.was) (k : Bucket) : t.atStart.bOpen k = s.atStart.bOpen k
    ∧ t.atStart.level k = s.atStart.level k ∧ t.atStart.resid k = s.atStart.resid k := by
  have hregs : t.atStart.regs = s.atStart.regs := congrArg (·.regs) hwas
  have hqe : t.atStart.qe = s.atStart.qe := congrArg (·.qe) hwas
  obtain ⟨-, -, hopen⟩ := State.settings_congr (fun n i _ => State.reg_congr hregs n i) k
  refine ⟨hopen, ?_, ?_⟩
  · rw [State.level_eq, State.levelWord, hregs, ← State.levelWord, ← State.level_eq]
  · rw [State.resid, hqe, State.resid]

/-- What is written of a bucket rests on its day and on what stood as the fc began. -/
theorem State.written_congr {s t : State} (hwas : t.was = s.was) {k : Bucket} (hday : t.bucketDay k = s.bucketDay k) :
    t.written k = s.written k := by
  obtain ⟨-, hlevel, hresid⟩ := State.start_congr hwas k
  rw [State.written, hday, hlevel, hresid, State.written]

/-- The parts of a state that no change of a bucket moves. -/
def State.besideBuckets (s : State) :=
  (s.fc, s.was, s.answer, s.cx, s.qe.pkts, s.qe.sel, s.qe.refillAt, s.qe.ptr, s.qe.deficit)

theorem State.parts_of_beside {s t : State} (h : t.besideBuckets = s.besideBuckets) : t.fc = s.fc ∧ t.was = s.was ∧ t.answer = s.answer
    ∧ t.cx = s.cx ∧ t.qe.pkts = s.qe.pkts ∧ t.qe.sel = s.qe.sel ∧ t.qe.refillAt = s.qe.refillAt ∧ t.qe.ptr = s.qe.ptr
    ∧ t.qe.deficit = s.qe.deficit := by
  simpa [State.besideBuckets] using h

section
variable (s : State) (k : Bucket)

theorem State.settle_beside : (State.settle k s).besideBuckets = s.besideBuckets := by cases k <;> rfl

theorem State.settle_day : (State.settle k s).qe.day = s.qe.day := by cases k <;> rfl

/-- Settling a bucket puts its level into its register, and leaves the others. -/
theorem State.settle_levelWord (k' : Bucket) : (State.settle k s).levelWord k'
    = if k' = k then BitVec.ofInt 32 (s.settled k).1 else s.levelWord k' := by
  change (s.setLevel k (s.settled k).1).regs.rd (residKey k') 0 = _
  rw [State.setLevel_regs, Tbl.rd_wr]
  exact if_congr ⟨residKey_inj, congrArg _⟩ rfl rfl

theorem State.settle_resid (k' : Bucket) : (State.settle k s).resid k'
    = if k' = k then (BitVec.ofNat 16 (s.settled k).2).toNat else s.resid k' := by
  have hqe : (s.setLevel k (s.settled k).1).qe = s.qe := by cases k <;> rfl
  change (Tbl.rd (Tbl.wr (s.setLevel k _).qe.resid (residKey k) 0 _) (residKey k') 0).toNat = _
  rw [hqe, Tbl.rd_wr, if_congr ⟨residKey_inj, congrArg _⟩ rfl rfl]
  split <;> rfl

/-- Settling a bucket leaves the registers that hold no level. -/
theorem State.settle_reg {n : RegName} (i : Nat) (h : ofLevel n = false) : (State.settle k s).reg n i = s.reg n i := by
  change (s.setLevel k (s.settled k).1).regs.rd (n.key i) _ = _
  rw [State.setLevel_regs, Tbl.rd_wr_other _ _ _ _ (key_ne_residKey i k h), State.reg]

end

/-! ## The day of a bucket -/

/-- Something more of a bucket's day is noted. -/
def State.noted (s : State) (k : Bucket) (f : BucketDay → BucketDay) : State :=
  { s with qe := { s.qe with day := s.qe.day.up (residKey k) ⟨0, []⟩ f } }

section
variable (s : State) (k : Bucket) (f : BucketDay → BucketDay)

theorem State.befall_eq : s.befall k f = State.settle k (s.noted k f) := rfl

theorem State.befall_beside : (s.befall k f).besideBuckets = s.besideBuckets := (s.noted k f).settle_beside k

theorem State.noted_bucketDay (k' : Bucket) : (s.noted k f).bucketDay k' = if k' = k then f (s.bucketDay k) else s.bucketDay k' := by
  rw [State.bucketDay, State.noted, Tbl.rd_up]
  exact if_congr ⟨residKey_inj, congrArg _⟩ rfl rfl

theorem State.befall_bucketDay (k' : Bucket) : (s.befall k f).bucketDay k' = if k' = k then f (s.bucketDay k) else s.bucketDay k' := by
  rw [s.befall_eq, State.bucketDay, State.settle_day]
  exact s.noted_bucketDay k f k'

/-- What befalls a bucket leaves the registers that hold no level. -/
theorem State.befall_reg {n : RegName} (i : Nat) (h : ofLevel n = false) : (s.befall k f).reg n i = s.reg n i :=
  (s.noted k f).settle_reg k i h

/-- What befalls a bucket leaves the level of every other one. -/
theorem State.befall_levelWord_other {k' : Bucket} (h : k' ≠ k) : (s.befall k f).levelWord k' = s.levelWord k' := by
  rw [s.befall_eq, State.settle_levelWord, if_neg h]
  rfl

/-- Where no refill was made in the fc, the level is what its day leaves of the level at the fc's start. -/
theorem State.befall_levelWord (h : s.qe.refillAt ≠ s.fc + 1) :
    (s.befall k f).levelWord k = BitVec.ofInt 32 ((s.noted k f).written k).1 := by
  rw [s.befall_eq, State.settle_levelWord, if_pos rfl, State.settled_unrefilled k (by exact h)]

end

/-! ## Debits (R217) -/

section
variable (s : State) (k : Bucket) (cost : Nat)

theorem State.debit_beside : (s.debit k cost).besideBuckets = s.besideBuckets := by
  unfold State.debit
  split
  · exact s.befall_beside ..
  · rfl

theorem State.debit_reg {n : RegName} (i : Nat) (h : ofLevel n = false) : (s.debit k cost).reg n i = s.reg n i := by
  unfold State.debit
  split
  · exact s.befall_reg k _ i h
  · rfl

/-- A debit leaves the level and the day of every other bucket. -/
theorem State.debit_other {k' : Bucket} (h : k' ≠ k) :
    (s.debit k cost).levelWord k' = s.levelWord k' ∧ (s.debit k cost).bucketDay k' = s.bucketDay k' := by
  unfold State.debit
  split
  · exact ⟨s.befall_levelWord_other k _ h, (s.befall_bucketDay ..).trans (if_neg h)⟩
  · exact ⟨rfl, rfl⟩

/-- A debit of a bucket that nothing else has befallen takes the cost from its level at the fc's start. -/
theorem State.debit_levelWord (hday : s.bucketDay k = ⟨0, []⟩) (h : s.qe.refillAt ≠ s.fc + 1) : (s.debit k cost).levelWord k
    = if s.atStart.bOpen k then BitVec.ofInt 32 (s.atStart.level k - cost) else s.levelWord k := by
  unfold State.debit
  split
  · rw [s.befall_levelWord k _ h, State.written, s.noted_bucketDay, if_pos rfl, hday, Nat.zero_add]
    rfl
  · rfl

end

/-! ## Register writes (R212, R219) -/

section
variable (s : State) (k : Bucket) (a : LevelAct)

theorem State.levelAct_beside : (s.levelAct k a).besideBuckets = s.besideBuckets := s.befall_beside ..

/-- A write on a level leaves the registers that hold none. -/
theorem State.levelAct_reg {n : RegName} (i : Nat) (h : ofLevel n = false) : (s.levelAct k a).reg n i = s.reg n i :=
  s.befall_reg k _ i h

/-- A write on a level leaves every other one. -/
theorem State.levelAct_level_other {k' : Bucket} (h : k' ≠ k) : (s.levelAct k a).level k' = s.level k' := by
  rw [State.level_eq, State.levelAct, s.befall_levelWord_other k _ h, State.level_eq]

theorem State.levelAct_acts : ((s.levelAct k a).bucketDay k).acts = (s.bucketDay k).acts ++ [a] := by
  rw [State.levelAct, State.befall_bucketDay, if_pos rfl]

/-- Where no refill was made in the fc, a write acts on the level that the fc so far leaves. -/
theorem State.levelAct_levelWord (h : s.qe.refillAt ≠ s.fc + 1) :
    (s.levelAct k a).levelWord k = BitVec.ofInt 32 (a.act (s.settled k)).1 := by
  rw [State.levelAct, s.befall_levelWord k _ h, State.settled_unrefilled k h, State.written, s.noted_bucketDay, if_pos rfl,
    List.foldl_append]
  rfl

end

end Sys2Proof.Machine
end

section
/-! SUPPORT. Selection (R213, R217, R220-R222): the choice of the committed phase where a strict-priority queue is eligible, the packet it
takes and the buckets it debits; the obligation. -/

namespace Sys2Proof.Machine

/-! ## The choice of the committed phase (R220, R221) -/

/-- An eligible strict-priority queue is picked before any weighted one. -/
theorem State.queuePick_strict {z : State} (p : Nat) {b q : Nat} {l : List Nat}
    (h : (z.boughQueues b 0 8).filter z.queueEligible = q :: l) : z.queuePick p b = some (q, none) := by
  rw [State.queuePick, h]

/-- A port with one bough, eligible in the committed phase, chooses the head packet of the bough's first eligible strict-priority queue. -/
theorem State.phasePick_alone {z : State} {p b q ptr : Nat} {df : Tbl Nat} {x : Pkt} {l : List Nat} (hport : z.portBoughs p = [b])
    (hbough : z.boughEligible true b = true) (hqueue : (z.boughQueues b 0 8).filter z.queueEligible = q :: l)
    (hhead : z.headPkt q = some x)
    (hdwrr : dwrr 780 [b] [b] (fun b => ((z.queuePick p b).map (fun x => z.headCost p x.1)).getD 0)
      (fun b => 256 * z.fld .qeBcfg b 7 0) (4096 * p) (z.qe.ptr.rd p 0) z.qe.deficit = some (b, ptr, df)) :
    z.phasePick p true = some (b, (ptr, df), q, x, none) := by
  have helig : [b].filter (z.boughEligible true) = [b] := by simp [hbough]
  unfold State.phasePick
  dsimp only
  rw [hport, helig, List.isEmpty_cons, if_neg Bool.false_ne_true, if_pos rfl]
  have hdwrr' : dwrr (dwrrFuel [b]) [b] [b] _ _ (4096 * p) _ _ = _ := hdwrr
  rw [hdwrr']
  dsimp only
  rw [State.queuePick_strict p hqueue]
  dsimp only
  rw [hhead]
  rfl

/-- What the committed phase chooses is taken where the packet is still there, once the round robin has landed. -/
theorem State.selectPhase_taken {s : State} {p b q ptr : Nat} {df : Tbl Nat} {x : Pkt}
    (hpick : s.atStart.phasePick p true = some (b, (ptr, df), q, x, none)) (hthere : (s.qe.pkts.rd q []).contains x = true) :
    s.selectPhase p true
      = some ((s.landDwrr p (s.atStart.portBoughs p) (fun m => !s.boughZeroed m) ptr df).selectPkt p b q true x) := by
  unfold State.selectPhase
  rw [hpick]
  dsimp only
  rw [hthere]
  rfl

/-- The round robin over a port's one bough lands its pointer, and its deficit where no write of the fc has put the bough back to 0. -/
theorem State.landDwrr_alone (s : State) (set b ptr : Nat) (df : Tbl Nat) (hkeep : s.boughZeroed b = false) :
    (s.landDwrr set [b] (fun m => !s.boughZeroed m) ptr df).qe.ptr.rd set 0 = ptr
    ∧ (s.landDwrr set [b] (fun m => !s.boughZeroed m) ptr df).qe.deficit.rd (4096 * set + b) 0 = df.rd (4096 * set + b) 0 := by
  simp [State.landDwrr, hkeep]

/-! ## The packet is taken (R217, R222) -/

/-- A packet falls in no histogram where none has a scope. -/
theorem State.histAll_scopeless {s : State} (x : Selected) (h : ∀ h, h < 64 → s.fld .qeHcfg h 31 30 = 0) : s.histAll x = s := by
  refine forEach_eq_self fun a ha => ?_
  simp [State.histOne, h a (List.mem_range.mp ha)]

/-- Several buckets pay for one departure. -/
def State.charged (s : State) (l : List Bucket) (cost : Nat) : State := forEach l s (fun k s => s.debit k cost)

section
variable (s : State) (l : List Bucket) (cost : Nat)

theorem State.charged_beside : (s.charged l cost).besideBuckets = s.besideBuckets :=
  forEach_keeps State.besideBuckets l s _ fun k t => t.debit_beside k cost

theorem State.charged_reg {n : RegName} (i : Nat) (h : ofLevel n = false) : (s.charged l cost).reg n i = s.reg n i :=
  forEach_keeps (·.reg n i) l s _ fun k t => t.debit_reg k cost i h

/-- Each of the buckets that is open pays from its level at the fc's start, where nothing else has befallen them in the fc. -/
theorem State.charged_levelWord {l : List Bucket} (hl : l.Nodup) (s : State) (hday : ∀ k ∈ l, s.bucketDay k = ⟨0, []⟩)
    (hrefill : s.qe.refillAt ≠ s.fc + 1) (k : Bucket) : (s.charged l cost).levelWord k
      = if k ∈ l ∧ s.atStart.bOpen k = true then BitVec.ofInt 32 (s.atStart.level k - cost) else s.levelWord k := by
  induction l generalizing s with
  | nil => simp [State.charged]
  | cons a r ih =>
    obtain ⟨har, hr⟩ := List.nodup_cons.mp hl
    obtain ⟨hfc, hwas, -, -, -, -, hat, -⟩ := State.parts_of_beside (s.debit_beside a cost)
    obtain ⟨hopen, hlevel, -⟩ := State.start_congr hwas k
    have hfresh : ∀ k ∈ r, (s.debit a cost).bucketDay k = ⟨0, []⟩ := fun k hk => by
      rw [(s.debit_other a cost (ne_of_mem_of_not_mem hk har)).2, hday k (List.mem_cons_of_mem _ hk)]
    have hrest := ih hr (s.debit a cost) hfresh (by rwa [hat, hfc])
    rw [hopen, hlevel] at hrest
    refine hrest.trans ?_
    by_cases hk : k = a
    · subst hk
      rw [s.debit_levelWord k cost (hday k List.mem_cons_self) hrefill]
      simp [har]
    · rw [(s.debit_other a cost hk).1]
      simp [hk]

end

/-- A packet has left its queue. -/
def State.dequeued (s : State) (q : Nat) (x : Pkt) : State :=
  { s with qe := { s.qe with pkts := s.qe.pkts.up q [] (fun l => l.filter (· != x)) } }

/-- A selection of the fc is noted. -/
def State.noteSel (s : State) (y : Selected) : State := { s with qe := { s.qe with sel := s.qe.sel ++ [y] } }

theorem State.noteSel_regs (s : State) (y : Selected) : (s.noteSel y).regs = s.regs := rfl

/-- A selection is noted, and its packet stands in the slot of a port. -/
def State.slotted (s : State) (p : Nat) (y : Selected) (o : OutPkt) : State :=
  (s.noteSel y).setCout p { s.cout p with slot := some (s.fc, o) }

theorem State.slotted_frame (s : State) (p : Nat) (y : Selected) (o : OutPkt) :
    (s.slotted p y o).regs = s.regs ∧ (s.slotted p y o).qe = { s.qe with sel := s.qe.sel ++ [y] }
    ∧ (s.slotted p y o).cx.link = s.cx.link ∧ ((s.slotted p y o).cout p).slot = some (s.fc, o) :=
  ⟨rfl, rfl, rfl, congrArg CellOutSt.slot ((s.noteSel y).cout_setCout p _)⟩

/-- The state in which a packet has left its queue and its three buckets have paid. -/
def State.departed (s : State) (p b q : Nat) (x : Pkt) : State :=
  (s.dequeued q x).charged [.queue q, .pir b, .cir b] (s.atStart.cost p x.len)

/-- A packet selected in the committed phase pays and stands in the slot of its port; with no histogram's scope set it falls in none. -/
theorem State.selectPkt_eq {s : State} (p b q : Nat) (x : Pkt) (hscope : ∀ h, h < 64 → s.fld .qeHcfg h 31 30 = 0) :
    s.selectPkt p b q true x = (s.departed p b q x).slotted p ⟨q, b, p, min ((s.departed p b q x).fc - x.enq) 0xFFFFFFFF⟩
      ⟨q, BitVec.ofNat 10 (q / 32), x.len, [], 0, some x.head, [], false⟩ := by
  set u := s.departed p b q x with hu
  set y : Selected := ⟨q, b, p, min (u.fc - x.enq) 0xFFFFFFFF⟩ with hy
  have hkept : ∀ h, h < 64 → (u.noteSel y).fld .qeHcfg h 31 30 = 0 := fun h hh => by
    rw [State.fld_congr (u.noteSel_regs y), State.fld, hu, State.departed, State.charged_reg _ _ _ h (by decide)]
    exact hscope h hh
  have hslot : s.selectPkt p b q true x = ((u.noteSel y).histAll y).setCout p { (u.noteSel y).cout p with
      slot := some ((u.noteSel y).fc, ⟨q, BitVec.ofNat 10 (q / 32), x.len, [], 0, some x.head, [], false⟩) } := rfl
  rw [hslot, State.histAll_scopeless y hkept]
  rfl

section
variable {s : State} (p b q : Nat) (x : Pkt)

/-- What each of the three buckets pays for a departure. -/
theorem State.departed_levels (hday : s.qe.day = []) (hrefill : s.qe.refillAt ≠ s.fc + 1) {k : Bucket}
    (hk : k ∈ [Bucket.queue q, .pir b, .cir b]) : (s.departed p b q x).levelWord k
      = if s.atStart.bOpen k then BitVec.ofInt 32 (s.atStart.level k - s.atStart.cost p x.len) else s.levelWord k := by
  have hnone (k' : Bucket) : (s.dequeued q x).bucketDay k' = ⟨0, []⟩ := by
    change Tbl.rd s.qe.day _ _ = _
    rw [hday]
    rfl
  refine (State.charged_levelWord _ (by simp) _ (fun k' _ => hnone k') (by exact hrefill) k).trans ?_
  exact if_congr (and_iff_right hk) rfl rfl

/-- What the taking of a packet comes to, where nothing else has befallen its buckets in the fc and no histogram's scope is set. -/
theorem State.selectPkt_spec (hscope : ∀ h, h < 64 → s.fld .qeHcfg h 31 30 = 0) (hday : s.qe.day = [])
    (hrefill : s.qe.refillAt ≠ s.fc + 1) : let t := s.selectPkt p b q true x
    t.qe.pkts = s.qe.pkts.up q [] (fun l => l.filter (· != x))
    ∧ (t.cout p).slot = some (s.fc, ⟨q, BitVec.ofNat 10 (q / 32), x.len, [], 0, some x.head, [], false⟩)
    ∧ (∀ k ∈ [Bucket.queue q, .pir b, .cir b], t.levelWord k
      = if s.atStart.bOpen k then BitVec.ofInt 32 (s.atStart.level k - s.atStart.cost p x.len) else s.levelWord k)
    ∧ t.qe.ptr = s.qe.ptr ∧ t.qe.deficit = s.qe.deficit
    ∧ t.qe.sel = s.qe.sel ++ [⟨q, b, p, min (s.fc - x.enq) 0xFFFFFFFF⟩] ∧ t.cx.link = s.cx.link := by
  intro t
  obtain ⟨hfc, -, -, hcx, hpkts, hsel, -, hptr, hdeficit⟩ := State.parts_of_beside (t := s.departed p b q x) (State.charged_beside ..)
  have hfc' : (s.departed p b q x).fc = s.fc := hfc
  have ht : t = _ := State.selectPkt_eq p b q x hscope
  rw [hfc'] at ht
  obtain ⟨hregs, hqe, hlink, hslot⟩ := (s.departed p b q x).slotted_frame p ⟨q, b, p, min (s.fc - x.enq) 0xFFFFFFFF⟩
    ⟨q, BitVec.ofNat 10 (q / 32), x.len, [], 0, some x.head, [], false⟩
  rw [← ht] at hregs hqe hlink hslot
  rw [hqe, hlink, hslot, hfc']
  refine ⟨hpkts, rfl, fun k hk => ?_, hptr, hdeficit, congrArg (· ++ _) hsel, congrArg (·.link) hcx⟩
  rw [State.levelWord, hregs, ← State.levelWord, State.departed_levels p b q x hday hrefill hk]

end

/-! ## The obligation -/

/-- QUEUE_SELECT of a port that may select takes what the committed phase chooses. -/
theorem execQueueSelect_committed {p : Fin 128} {s t : State} (hmay : s.maySelect p.val = true)
    (h : s.selectPhase p.val true = some t) : exec (.queueSelect p none) s = .next t := by
  refine congrArg Host.Outcome.next ((if_pos hmay).trans ?_)
  rw [h]

/-- A queue whose table entry is rotten stops, and a record of free content goes to the operator and heartwood. -/
theorem State.queueRot_frame (q : Nat) (s : State) : (s.queueRot q).regs = (s.setBit .qeQcfg q 31 true).regs
    ∧ (∃ r, (s.queueRot q).ht.recs = s.ht.recs ++ [(.both opTag, r)]) ∧ (s.queueRot q).qe = s.qe ∧ (s.queueRot q).cx = s.cx :=
  ⟨by simp [State.queueRot, State.setBit, State.setFld, State.setReg, State.reg], ⟨_, rfl⟩, rfl, rfl⟩

/-- Of the queue's register STOP alone is set. -/
theorem State.queueRot_qcfg (q : Nat) (s : State) : (s.queueRot q).flag .qeQcfg q 31 = true
    ∧ ∀ j, j < 31 → bit ((s.queueRot q).reg .qeQcfg q).toNat j = bit (s.reg .qeQcfg q).toNat j := by
  obtain ⟨hregs, -⟩ := s.queueRot_frame q
  refine ⟨?_, fun j hj => ?_⟩
  · rw [State.flag, State.fld_congr hregs]
    exact s.flag_setBit_true (by decide)
  · rw [State.reg_congr hregs, bit_eq_bits, bit_eq_bits]
    exact congrArg (· == 1) (s.fld_setFld_apart _ (by omega) (.inl hj))

/-- Settles O15: the committed phase takes the head packet of the bough's first eligible strict-priority queue, and three buckets pay for it
(R217, R220, R221); a queue whose entry is found rotten stops (R567, log entry 124). -/
theorem queueSelectTakesTheHeadOfAnEligibleQueue : Obligations.QueueSelectTakesTheHeadOfAnEligibleQueue := by
  refine ⟨?selects, ?rots⟩
  case rots =>
    intro p q s
    obtain ⟨hstop, hbits⟩ := s.queueRot_qcfg q.val
    obtain ⟨-, hrest⟩ := s.queueRot_frame q.val
    exact ⟨s.queueRot q.val, rfl, hstop, hbits, hrest⟩
  case selects =>
    intro p s b q ptr df x l z hmay hport hbough hqueue hhead hthere hdwrr hday hrefill hscope
    have hcir : z.bOpen (.cir b) = true := by
      simp only [State.boughEligible, Bool.and_eq_true, Bool.not_true, Bool.false_or] at hbough
      exact hbough.2.1
    have hkeep : s.boughZeroed b = false := by
      rw [State.boughZeroed, State.bucketDay, hday]
      rfl
    have hphase := State.selectPhase_taken (State.phasePick_alone hport hbough hqueue hhead hdwrr) hthere
    have hport' : s.atStart.portBoughs p.val = [b] := hport
    rw [hport'] at hphase
    set u := s.landDwrr p.val [b] (fun m => !s.boughZeroed m) ptr df with hu
    obtain ⟨hptr, hdeficit⟩ := s.landDwrr_alone p.val b ptr df hkeep
    rw [← hu] at hptr hdeficit
    obtain ⟨hpkts, hslot, hlevels, hptr', hdeficit', hsel, hlink⟩ :=
      State.selectPkt_spec (s := u) p.val b q x (fun h hh => hscope ⟨h, hh⟩) hday hrefill
    refine ⟨_, execQueueSelect_committed hmay hphase, by rw [hpkts]; exact Tbl.rd_up_same .., fun q' hq' => ?_, hslot,
      hlevels (.queue q) (by simp), hlevels (.pir b) (by simp), (hlevels (.cir b) (by simp)).trans (if_pos hcir), by rw [hptr', hptr],
      by rw [hdeficit', hdeficit], hsel, hlink⟩
    rw [hpkts]
    exact Tbl.rd_up_other _ _ _ _ hq'

end Sys2Proof.Machine
end

section
/-! SUPPORT. Refills and forgiven debts (R218, R219): what BUCKET_REFILL leaves of every bucket, and a rate write with FORGIVE of its own. -/

namespace Sys2Proof.Machine

/-! ## The entries of the register file -/

theorem key_mod (n : RegName) (i : Nat) : n.key i % 256 = n.ctorIdx := by
  have := ctorIdx_lt n
  simp only [RegName.key]
  omega

theorem key_div (n : RegName) (i : Nat) : n.key i / 256 = i := by
  have := ctorIdx_lt n
  simp only [RegName.key]
  omega

/-- A register that does not hold its reset value is listed in the register file. -/
theorem State.mem_regs {s : State} {n : RegName} {i : Nat} (h : s.reg n i ≠ BitVec.ofNat 32 (n.resetVal i)) :
    (n.key i, s.reg n i) ∈ s.regs :=
  (rd_eq_or_mem s.regs (n.key i) _).resolve_left h

/-- An entry of a table with rising keys reads as itself. -/
theorem rd_of_mem {α : Type} {t : Tbl α} {lo : Nat} (hr : t.rising lo = true) {k : Nat} {v : α} (h : (k, v) ∈ t) (d : α) :
    t.rd k d = v := by
  induction t generalizing lo with
  | nil => cases h
  | cons e r ih =>
    obtain ⟨a, x⟩ := e
    simp only [Tbl.rising, Bool.and_eq_true, decide_eq_true_eq] at hr
    rw [Tbl.rd_cons]
    rcases List.mem_cons.mp h with he | hmem
    · obtain ⟨rfl, rfl⟩ := Prod.mk.inj he
      exact if_pos rfl
    · have hlt : a + 1 ≤ k := Tbl.le_of_mem_rising hr.2 hmem
      rw [if_neg (show ¬ a = k by omega), ih hr.2 hmem]

/-- A write keeps the keys of the register file rising. -/
theorem State.setReg_rising {s : State} (hr : s.regs.rising 0 = true) (n : RegName) (i : Nat) (w : Word) :
    (s.setReg n i w).regs.rising 0 = true := by
  rw [State.setReg, Tbl.wr]
  split
  · exact Tbl.rising_del _ _ _ hr
  · exact Tbl.rising_ins_del _ _ _ _ (Nat.zero_le _) hr

/-! ## BUCKET_REFILL (R218) -/

/-- A bucket with a rate is among those that are refilled. -/
theorem State.mem_buckets {s : State} {k : Bucket} (h : s.bRate k ≠ 0) : k ∈ s.buckets := by
  have hlisted {n : RegName} {i : Nat} (hn : BitVec.ofNat 32 (n.resetVal i) = 0) (hrate : s.fld n i 30 0 ≠ 0) :
      (n.key i, s.reg n i) ∈ s.regs := by
    refine State.mem_regs fun e => hrate ?_
    rw [State.fld, e, hn]
    rfl
  cases k with
  | queue q => exact List.mem_filterMap.mpr ⟨_, hlisted (n := .qeQrate) rfl h, by simp only [key_mod, key_div]; rfl⟩
  | cir b => exact List.mem_filterMap.mpr ⟨_, hlisted (n := .qeBcir) rfl h, by simp only [key_mod, key_div]; rfl⟩
  | pir b => exact List.mem_filterMap.mpr ⟨_, hlisted (n := .qeBpir) rfl h, by simp only [key_mod, key_div]; rfl⟩

/-- Settling a bucket changes where no bucket will settle. -/
theorem State.settled_settle (s : State) (a k : Bucket) : (State.settle a s).settled k = s.settled k := by
  obtain ⟨hfc, hwas, -, -, -, -, hat, -⟩ := State.parts_of_beside (s.settle_beside a)
  obtain ⟨hrate, hburst, hopen⟩ := State.settings_congr (fun n i h => s.settle_reg a i h) k
  have hday : (State.settle a s).bucketDay k = s.bucketDay k := by rw [State.bucketDay, s.settle_day, State.bucketDay]
  rw [State.settled_eq, hat, hfc, hopen, hrate, hburst, State.written_congr hwas hday, State.settled_eq]

/-- Buckets settled one after the other each stand as they would alone. -/
theorem State.forEach_settle (l : List Bucket) (s : State) (k : Bucket) :
    (forEach l s State.settle).levelWord k = (if k ∈ l then BitVec.ofInt 32 (s.settled k).1 else s.levelWord k)
    ∧ (forEach l s State.settle).resid k = if k ∈ l then (BitVec.ofNat 16 (s.settled k).2).toNat else s.resid k := by
  induction l generalizing s with
  | nil => simp
  | cons a r ih =>
    obtain ⟨hword, hresid⟩ := ih (State.settle a s)
    rw [s.settled_settle, s.settle_levelWord] at hword
    rw [s.settled_settle, s.settle_resid] at hresid
    refine ⟨hword.trans ?_, hresid.trans ?_⟩ <;> by_cases hk : k = a <;> simp [hk]

/-- What a refill of a level and residue comes to: the rate added, clipped at the burst. -/
theorem refilled_spec (rate burst r : Nat) (l : Int) :
    let f := r + bits rate 15 0
    let m := l + (bits rate 30 16 + f / 65536 : Nat)
    (refilled rate burst (l, r)).1 = min (burst : Int) m
    ∧ (refilled rate burst (l, r)).2 = if (burst : Int) ≤ m then 0 else f % 65536 := by
  intro f m
  change (if (burst : Int) ≤ m then ((burst : Int), 0) else (m, f % 65536)).1 = _
    ∧ (if (burst : Int) ≤ m then ((burst : Int), 0) else (m, f % 65536)).2 = _
  split
  · next h => exact ⟨(min_eq_left h).symm, rfl⟩
  · next h => exact ⟨(min_eq_right (le_of_not_ge h)).symm, rfl⟩

theorem State.bBurst_lt (s : State) (k : Bucket) : s.bBurst k < 2 ^ 25 := by cases k <;> exact bits_lt _ 24 0

/-- A refill is made in this fc. -/
def State.refillNow (s : State) : State := { s with qe := { s.qe with refillAt := s.fc + 1 } }

/-- How a bucket settles once a refill is made, where its debit and writes have left it as it stands. -/
theorem State.refillNow_settled {s : State} {k : Bucket} (hat : s.qe.refillAt ≠ s.fc + 1) (hk : s.settled k = (s.level k, s.resid k)) :
    s.refillNow.settled k
      = if s.bOpen k then refilled (s.bRate k) (s.bBurst k) (s.level k, s.resid k) else (s.level k, s.resid k) := by
  have hopen : (s.refillNow.qe.refillAt = s.refillNow.fc + 1 && s.refillNow.bOpen k) = s.bOpen k := by
    rw [decide_eq_true (show s.refillNow.qe.refillAt = s.refillNow.fc + 1 from rfl), Bool.true_and]
    exact (State.settings_congr (fun _ _ _ => rfl) k).2.2
  have hwritten : s.refillNow.written k = (s.level k, s.resid k) := by
    rw [← hk, State.settled_unrefilled k hat]
    exact State.written_congr rfl rfl
  rw [State.settled_eq, hopen, hwritten]
  rfl

/-- A bucket settles at a level that its register holds, and a residue below one byte. -/
theorem State.refillNow_range {s : State} {k : Bucket} (hat : s.qe.refillAt ≠ s.fc + 1) (hk : s.settled k = (s.level k, s.resid k)) :
    -2 ^ 31 ≤ (s.refillNow.settled k).1 ∧ (s.refillNow.settled k).1 < 2 ^ 31 ∧ (s.refillNow.settled k).2 < 2 ^ 16 := by
  obtain ⟨hlo, hhi, hres⟩ := s.level_range k
  rw [State.refillNow_settled hat hk]
  split
  · obtain ⟨hlevel, hresid⟩ := refilled_spec (s.bRate k) (s.bBurst k) (s.resid k) (s.level k)
    have hburst := s.bBurst_lt k
    rw [hlevel, hresid]
    refine ⟨by omega, by omega, ?_⟩
    split
    · decide
    · exact Nat.mod_lt _ (by decide)
  · exact ⟨hlo, hhi, hres⟩

/-- A refill leaves every bucket where it settles, whether it is listed or has no rate. -/
theorem State.refill_spec {s : State} {k : Bucket} (hat : s.qe.refillAt ≠ s.fc + 1) (hk : s.settled k = (s.level k, s.resid k)) :
    (forEach s.buckets s.refillNow State.settle).level k = (s.refillNow.settled k).1
    ∧ (forEach s.buckets s.refillNow State.settle).resid k = (s.refillNow.settled k).2 := by
  obtain ⟨hlo, hhi, hres⟩ := State.refillNow_range hat hk
  obtain ⟨hword, hresid⟩ := State.forEach_settle s.buckets s.refillNow k
  rw [State.level_eq, hword, hresid]
  by_cases hmem : k ∈ s.buckets
  · rw [if_pos hmem, if_pos hmem, toInt_ofInt_level hlo hhi, BitVec.toNat_ofNat, Nat.mod_eq_of_lt hres]
    exact ⟨rfl, rfl⟩
  · have hrate : s.bRate k = 0 := not_not.mp (mt State.mem_buckets hmem)
    rw [if_neg hmem, if_neg hmem, State.refillNow_settled hat hk, State.bOpen, hrate, if_neg (by simp)]
    exact ⟨(s.level_eq k).symm, rfl⟩

/-- BUCKET_REFILL at refill counter 255, once in the fc. -/
theorem execBucketRefill_due {s : State} (hdue : s.qe.refill = 255) (hat : s.qe.refillAt ≠ s.fc + 1) :
    exec .bucketRefill s = .next (forEach s.buckets s.refillNow State.settle) :=
  congrArg Host.Outcome.next (if_pos (by simp [hdue, hat]))

theorem State.refill_beside (s : State) :
    (forEach s.buckets s.refillNow State.settle).besideBuckets = s.refillNow.besideBuckets :=
  forEach_keeps State.besideBuckets _ _ _ fun k t => t.settle_beside k

/-! ## FORGIVE (R219, R228) -/

/-- The rate register of a bucket, its index, and the writer it names (R226). -/
def rateName : Bucket → RegName
  | .queue _ => .qeQrate
  | .cir _ => .qeBcir
  | .pir _ => .qeBpir

def rateIndex : Bucket → Nat
  | .queue q => q
  | .cir b => b
  | .pir b => b

def rateWriter : Bucket → Writer
  | .queue _ => .t
  | _ => .h

theorem State.bRate_eq (s : State) (k : Bucket) : s.bRate k = s.fld (rateName k) (rateIndex k) 30 0 := by cases k <;> rfl

/-- A rate register holds no level, and is not the alarm count. -/
theorem rateName_apart (k : Bucket) : ofLevel (rateName k) = false ∧ rateName k ≠ .msAlarm := by
  cases k <;> simp [rateName, ofLevel]

/-- FORGIVE and the two parts of the rate. -/
def forgiveField (k : Bucket) : Field := act 31 31 (rateWriter k = .h) false (rateWriter k = .t)

def rateField (k : Bucket) (hi lo : Nat) : Field := ⟨hi, lo, .rw, 0, rateWriter k = .h, false, rateWriter k = .t⟩

theorem rateName_fields (k : Bucket) : (rateName k).fields (rateIndex k) = [forgiveField k, rateField k 30 16, rateField k 15 0]
    ∧ (∀ lo v, (rateName k).okVal (rateIndex k) lo v = true) ∧ (forgiveField k).names (rateWriter k) = true
    ∧ ∀ hi lo, (rateField k hi lo).names (rateWriter k) = true := by
  cases k <;> exact ⟨rfl, fun _ _ => rfl, rfl, fun _ _ => rfl⟩

/-- The named writer's write of a rate register with FORGIVE acts, and the rate is taken. -/
theorem judge_rate (k : Bucket) (cur : Nat) {w : Nat} (hw : bits w 31 31 = 1) :
    let j := judge ((rateName k).fields (rateIndex k)) (rateWriter k) ((rateName k).okVal (rateIndex k)) cur w
    bit j.acts 31 = true ∧ j.status = .ok ∧ bits j.val 30 0 = bits w 30 0 := by
  obtain ⟨hfields, hok, hforgive, hrate⟩ := rateName_fields k
  rw [hfields]
  set fs := [forgiveField k, rateField k 30 16, rateField k 15 0] with hfs
  have hd : fs.Pairwise Field.Apart := by simp [hfs, forgiveField, rateField, Field.Apart, act]
  obtain ⟨hstatus, htakes⟩ := judge_completes (p := rateWriter k) cur w hd (by simp [hfs, hforgive, hrate])
    (fun f _ => hok f.lo (bits w f.hi f.lo))
  have hact := judge_acts w (f := forgiveField k) rfl hforgive (hok _ _) (by simp [forgiveField, act, hw]) hd cur (by simp [hfs])
  refine ⟨?_, hstatus, bits_eq_of_parts (mid := 15) (htakes (rateField k 15 0) (by simp [hfs]) rfl)
    (htakes (rateField k 30 16) (by simp [hfs]) rfl)⟩
  rw [bit_eq_bits, show bits _ 31 31 = bits w 31 31 from hact, hw]
  rfl

/-- A landed write leaves the queue engine's tables and the fc. -/
theorem State.land_queues (s : State) (n : RegName) (i : Nat) (j : Judged) :
    (s.land n i j).qe = s.qe ∧ (s.land n i j).fc = s.fc ∧ (s.land n i j).was = s.was := by
  unfold State.land
  dsimp only
  split <;> exact ⟨rfl, rfl, rfl⟩

/-- A landed write leaves the level of every bucket, where its register holds none. -/
theorem State.land_levelWord (s : State) {n : RegName} (i : Nat) (j : Judged) (h : ofLevel n = false) (k : Bucket) :
    (s.land n i j).levelWord k = s.levelWord k := by
  have hother {m : RegName} (a : Nat) (hm : ofLevel m = true) : (s.land n i j).reg m a = s.reg m a :=
    s.land_reg_other i j (fun e => by rw [← e.1, hm] at h; cases h) (by rintro rfl; cases hm)
  cases k with
  | queue q => exact hother q (m := .qeQlvl) rfl
  | cir b => exact hother b (m := .qeBclvl) rfl
  | pir b => exact hother b (m := .qeBplvl) rfl

/-- A rate write with FORGIVE by the named writer: a debt is forgiven after the debits of the fc, and the rate is taken. -/
theorem State.writeRate_forgives (s : State) {p : Party} {k : Bucket} {w : Word} (hp : p.writer = rateWriter k)
    (hw : bits w.toNat 31 31 = 1) : let t := s.writeRate p (rateName k) (rateIndex k) k w
    (s.qe.refillAt ≠ s.fc + 1 → s.settled k = (s.level k, s.resid k) → t.level k = max 0 (s.level k))
    ∧ (t.bucketDay k).acts = (s.bucketDay k).acts ++ [.forgive]
    ∧ t.bRate k = bits w.toNat 30 0 ∧ t.answer = ⟨.ok, []⟩ ∧ t.qe.pkts = s.qe.pkts ∧ ∀ k', k' ≠ k → t.level k' = s.level k' := by
  obtain ⟨hlevel, halarm⟩ := rateName_apart k
  obtain ⟨hact, hstatus, hval⟩ := judge_rate k (s.reg (rateName k) (rateIndex k)).toNat hw
  rw [← hp, ← s.judgeW_plain] at hact hstatus hval
  set j := s.judgeW p (rateName k) (rateIndex k) (fun _ _ => true) w with hj
  have hwrite : s.writeRate p (rateName k) (rateIndex k) k w = (s.land (rateName k) (rateIndex k) j).levelAct k .forgive := by
    rw [State.writeRate, ← hj]
    exact if_pos hact
  rw [hwrite]
  obtain ⟨hqe, hfc, hwas⟩ := s.land_queues (rateName k) (rateIndex k) j
  set u := s.land (rateName k) (rateIndex k) j with hu
  intro t
  obtain ⟨-, -, hanswer, -, hpkts, -⟩ := State.parts_of_beside (u.levelAct_beside k .forgive)
  refine ⟨fun hat hk => ?_, ?_, ?_, ?_, hpkts.trans (congrArg (·.pkts) hqe), fun k' hk' => ?_⟩
  · obtain ⟨hlo, hhi, -⟩ := s.level_range k
    have hat' : u.qe.refillAt ≠ u.fc + 1 := by rwa [hqe, hfc]
    have hsettled : u.settled k = s.settled k := by
      rw [State.settled_unrefilled k hat', State.settled_unrefilled k hat]
      exact State.written_congr hwas (by rw [State.bucketDay, hqe, State.bucketDay])
    rw [State.level_eq, State.levelAct_levelWord _ _ _ hat', hsettled, hk, LevelAct.act, max_comm]
    exact toInt_ofInt_level (by omega) (by omega)
  · rw [State.levelAct_acts, State.bucketDay, hqe, State.bucketDay]
  · rw [State.bRate_eq, State.fld, State.levelAct_reg _ _ _ _ hlevel, hu, State.land_reg_self _ _ _ halarm,
      bits_ofNat_toNat _ _ (by decide), hval]
  · rw [hanswer, hu, State.land_answer, hstatus]
  · rw [State.levelAct_level_other _ _ _ hk', State.level_eq, hu, State.land_levelWord _ _ _ hlevel, State.level_eq]

/-- FORGIVE by a party that reads the register is its write. -/
theorem execForgive_reads {s : State} {p : Party} (k : Bucket) (w : Word) (hidx : rateIndex k < (rateName k).count)
    (hreads : s.qeReads p (rateName k) (rateIndex k) = true) :
    exec (.forgive p ⟨rateName k, rateIndex k⟩ w) s = .next (s.writeRate p (rateName k) (rateIndex k) k w) := by
  have hname : [RegName.qeQrate, .qeBcir, .qeBpir].contains (rateName k) = true := by cases k <;> rfl
  refine congrArg Host.Outcome.next ((if_pos (Bool.and_eq_true_iff.mpr ⟨hname, decide_eq_true hidx⟩)).trans
    ((if_neg (by simp [hreads])).trans ?_))
  cases k <;> rfl

end Sys2Proof.Machine
end

section
/-! SUPPORT. Attachments, changed boughs and cleared histograms (R211, R212, R223): what the writes of QE_QCFG, QE_BCFG and QE_HCFG leave; the
obligation on the queue engine's registers and buckets. -/

namespace Sys2Proof.Machine

/-! ## QUEUE_ATTACH (R211, R227) -/

section
variable {s : State} {n : Fin 512} {q : Fin 16384} {w : Word} (hown : q.val / 32 = n.val)
include hown

/-- The tenant that owns a queue writes its QE_QCFG. -/
theorem execQueueAttach_owner : exec (.queueAttach (.tenant n) q w) s = .next (s.writeQcfg (.tenant n) q.val w) :=
  congrArg Host.Outcome.next (if_neg (by simp [State.qeReads, hown]))

/-- An attachment to a bough of the tenant is a plain write. -/
theorem State.writeQcfg_own (h : s.fld .qeBcfg (bits w.toNat 26 16) 31 22 = n.val) :
    s.writeQcfg (.tenant n) q.val w = s.plainWrite (.tenant n) .qeQcfg q.val w :=
  if_neg (by simp [h, hown])

/-- BEN and BOUGH of an attachment to another's bough are written back, and the write is refused. -/
theorem State.writeQcfg_foreign (h : s.fld .qeBcfg (bits w.toNat 26 16) 31 22 ≠ n.val) (hben : bits w.toNat 27 27 = 1)
    (hchange : bits (s.reg .qeQcfg q.val).toNat 27 16 ≠ bits w.toNat 27 16) :
    s.writeQcfg (.tenant n) q.val w = s.land .qeQcfg q.val { s.judgeW (.tenant n) .qeQcfg q.val (fun _ _ => true)
      (BitVec.ofNat 32 (setBits w.toNat 27 16 (bits (s.reg .qeQcfg q.val).toNat 27 16))) with byValue := true } :=
  if_pos (by simp [bit_eq_bits, h, hben, hchange, hown, Party.writer])

end

/-- The fields of QE_QCFG: STOP, BEN, BOUGH and WEIGHT. -/
def qcfgFields : List Field := [Sys2Proof.fT 31 31 0, Sys2Proof.fT 27 27 0, Sys2Proof.fT 26 16 0, Sys2Proof.fT 7 0 1]

theorem qcfgFields_apart : qcfgFields.Pairwise Field.Apart := by simp [qcfgFields, Field.Apart, Sys2Proof.fT]

/-- A tenant's write of QE_QCFG with a weight takes its fields. -/
theorem State.judge_qcfg (s : State) (n : Fin 512) (q : Nat) {w : Word} (hweight : bits w.toNat 7 0 ≠ 0) :
    let j := s.judgeW (.tenant n) .qeQcfg q (fun _ _ => true) w
    j.status = .ok ∧ bits j.val 27 27 = bits w.toNat 27 27 ∧ bits j.val 26 16 = bits w.toNat 26 16
    ∧ bits j.val 7 0 = bits w.toNat 7 0 := by
  rw [s.judgeW_plain, show RegName.qeQcfg.fields q = qcfgFields from rfl]
  have hok : ∀ f ∈ qcfgFields, RegName.qeQcfg.okVal q f.lo (bits w.toNat f.hi f.lo) = true := by
    simp [qcfgFields, Sys2Proof.fT, RegName.okVal, hweight]
  have hnames : ∀ f ∈ qcfgFields, f.names .t = true := by simp [qcfgFields, Sys2Proof.fT, Field.names]
  obtain ⟨hstatus, htakes⟩ := judge_completes (p := .t) (s.reg .qeQcfg q).toNat w.toNat qcfgFields_apart hnames hok
  exact ⟨hstatus, htakes (Sys2Proof.fT 27 27 0) (by simp [qcfgFields]) rfl, htakes (Sys2Proof.fT 26 16 0) (by simp [qcfgFields]) rfl,
    htakes (Sys2Proof.fT 7 0 1) (by simp [qcfgFields]) rfl⟩

/-- A tenant's write of QE_QCFG that writes BEN and BOUGH back keeps them, and is not refused for its writer. -/
theorem State.judge_qcfg_kept (s : State) (n : Fin 512) (q : Nat) {w : Word}
    (hsame : bits w.toNat 27 16 = bits (s.reg .qeQcfg q).toNat 27 16) : let j := s.judgeW (.tenant n) .qeQcfg q (fun _ _ => true) w
    j.byWriter = false ∧ bits j.val 27 16 = bits (s.reg .qeQcfg q).toNat 27 16 := by
  rw [s.judgeW_plain, show RegName.qeQcfg.fields q = qcfgFields from rfl]
  have hkeeps {hi lo rst : Nat} (hf : Sys2Proof.fT hi lo rst ∈ qcfgFields) (hlo : 16 ≤ lo) (hhi : hi ≤ 27) :=
    judge_keeps (p := .t) (ok := RegName.qeQcfg.okVal q) (s.reg .qeQcfg q).toNat w.toNat qcfgFields_apart hf rfl
      (bits_eq_within hsame hlo hhi)
  exact ⟨judge_named _ _ qcfgFields_apart (by simp [qcfgFields, Sys2Proof.fT, Field.names, Party.writer]),
    bits_eq_of_parts (mid := 26) (hkeeps (rst := 0) (by simp [qcfgFields]) (by decide) (by decide))
      (hkeeps (rst := 0) (by simp [qcfgFields]) (by decide) (by decide))⟩

/-- A field of a register after a landed write. -/
theorem State.land_fld (s : State) {n : RegName} (i : Nat) (j : Judged) {hi : Nat} (lo : Nat) (h : n ≠ .msAlarm) (hhi : hi < 32) :
    (s.land n i j).fld n i hi lo = bits j.val hi lo := by
  rw [State.fld, State.land_reg_self _ _ _ h, bits_ofNat_toNat _ _ hhi]

/-! ## BOUGH_CHANGE (R212) -/

/-- The queues that the register file lists as attached to a bough. -/
def State.attached (s : State) (b : Nat) : List Nat :=
  (s.regs.filter (fun e => e.1 % 256 == RegName.qeQcfg.ctorIdx && bit e.2.toNat 27 && bits e.2.toNat 26 16 == b)).map (fun e => e.1 / 256)

theorem State.queueBough_eq_some {s : State} {q b : Nat} :
    s.queueBough q = some b ↔ bit (s.reg .qeQcfg q).toNat 27 = true ∧ bits (s.reg .qeQcfg q).toNat 26 16 = b := by
  rw [State.queueBough, bit_eq_bits]
  exact Option.ite_some_none_eq_some

/-- The queues so listed are those attached to it. -/
theorem State.mem_attached {s : State} (hr : s.regs.rising 0 = true) {q b : Nat} : q ∈ s.attached b ↔ s.queueBough q = some b := by
  rw [State.queueBough_eq_some, State.attached, List.mem_map]
  constructor
  · rintro ⟨⟨a, v⟩, he, rfl⟩
    simp only [List.mem_filter, Bool.and_eq_true, beq_iff_eq] at he
    obtain ⟨hmem, ⟨hname, hben⟩, hbough⟩ := he
    have hkey : RegName.qeQcfg.key (a / 256) = a := by
      rw [RegName.key, ← hname]
      exact Nat.div_add_mod a 256
    have hreg : s.reg .qeQcfg (a / 256) = v := by
      rw [State.reg, hkey]
      exact rd_of_mem hr hmem _
    dsimp only
    rw [hreg]
    exact ⟨hben, hbough⟩
  · rintro ⟨hben, hbough⟩
    have hmem : (RegName.qeQcfg.key q, s.reg .qeQcfg q) ∈ s.regs := State.mem_regs fun e => by
      rw [e, show RegName.qeQcfg.resetVal q = 1 from rfl] at hben
      exact absurd hben (by decide)
    exact ⟨_, List.mem_filter.mpr ⟨hmem, by simp [key_mod, hben, hbough]⟩, key_div ..⟩

/-- Queues are detached. -/
def State.detached (s : State) (qs : List Nat) : State := forEach qs s (fun q s => s.setBit .qeQcfg q 27 false)

theorem State.detached_beside (s : State) (qs : List Nat) : (s.detached qs).besideBuckets = s.besideBuckets :=
  forEach_keeps State.besideBuckets _ _ _ fun q t => by simp [State.besideBuckets]

/-- Detaching queues leaves the registers of other names. -/
theorem State.detached_reg (s : State) (qs : List Nat) {n : RegName} (i : Nat) (h : n ≠ .qeQcfg) : (s.detached qs).reg n i = s.reg n i :=
  forEach_keeps (·.reg n i) _ _ _ fun _ t => t.reg_setFld_name _ h

theorem State.queueBough_congr {s t : State} {q : Nat} (h : t.reg .qeQcfg q = s.reg .qeQcfg q) : t.queueBough q = s.queueBough q := by
  rw [State.queueBough, State.flag, State.fld, State.fld, h, ← State.fld, ← State.fld, ← State.flag, State.queueBough]

theorem State.detached_cons (s : State) (a : Nat) (r : List Nat) :
    s.detached (a :: r) = (s.setBit .qeQcfg a 27 false).detached r := List.foldl_cons ..

/-- BEN 0 detaches the queue, and no other. -/
theorem State.queueBough_setBen (s : State) (a q : Nat) :
    (s.setBit .qeQcfg a 27 false).queueBough q = if q = a then none else s.queueBough q := by
  split
  · next h =>
    have hoff : (s.setBit .qeQcfg a 27 false).fld .qeQcfg a 27 27 = 0 := s.fld_setFld _ (by decide)
    rw [h, State.queueBough, State.flag, hoff]
    exact if_neg (by decide)
  · next h => exact State.queueBough_congr (s.reg_setReg_index _ _ h)

theorem State.queueBough_detached (s : State) (qs : List Nat) (q : Nat) :
    (s.detached qs).queueBough q = if q ∈ qs then none else s.queueBough q := by
  induction qs generalizing s with
  | nil => simp [State.detached]
  | cons a r ih =>
    rw [State.detached_cons, ih, State.queueBough_setBen]
    by_cases h : q = a <;> simp [h]

/-- The buckets of a bough are put back to 0. -/
def State.bucketsZeroed (s : State) (b : Nat) : State := (s.levelAct (.cir b) .zero).levelAct (.pir b) .zero

theorem State.boughReset_parts (s : State) (b : Nat) : (s.boughReset b).regs = ((s.detached (s.attached b)).bucketsZeroed b).regs
    ∧ (s.boughReset b).answer = ((s.detached (s.attached b)).bucketsZeroed b).answer := ⟨rfl, rfl⟩

section
variable (s : State) (b : Nat)

theorem State.bucketsZeroed_reg {n : RegName} (i : Nat) (h : ofLevel n = false) : (s.bucketsZeroed b).reg n i = s.reg n i := by
  rw [State.bucketsZeroed, State.levelAct_reg _ _ _ i h, State.levelAct_reg _ _ _ i h]

theorem State.bucketsZeroed_answer : (s.bucketsZeroed b).answer = s.answer := by
  have hbeside := (s.levelAct (.cir b) .zero).levelAct_beside (.pir b) .zero
  rw [s.levelAct_beside] at hbeside
  obtain ⟨-, -, hanswer, -⟩ := State.parts_of_beside hbeside
  exact hanswer

/-- Both levels are 0, where no refill was made in the fc. -/
theorem State.bucketsZeroed_levels (hat : s.qe.refillAt ≠ s.fc + 1) :
    (s.bucketsZeroed b).level (.cir b) = 0 ∧ (s.bucketsZeroed b).level (.pir b) = 0 := by
  obtain ⟨hfc, -, -, -, -, -, hat', -⟩ := State.parts_of_beside (s.levelAct_beside (.cir b) .zero)
  have hzero : (BitVec.ofInt 32 0).toInt = 0 := by decide
  refine ⟨?_, ?_⟩
  · rw [State.bucketsZeroed, State.levelAct_level_other _ _ _ (by simp), State.level_eq, s.levelAct_levelWord _ _ hat]
    exact hzero
  · rw [State.bucketsZeroed, State.level_eq, State.levelAct_levelWord _ _ _ (by rwa [hfc, hat'])]
    exact hzero

end

/-- A bough that is put back has no queue and no level; the queues of other boughs stay. -/
theorem State.boughReset_spec {s : State} (hr : s.regs.rising 0 = true) (hat : s.qe.refillAt ≠ s.fc + 1) (b : Nat) :
    let t := s.boughReset b
    t.reg .qeBcfg b = s.reg .qeBcfg b ∧ (∀ q, t.queueBough q = if s.queueBough q = some b then none else s.queueBough q)
    ∧ t.level (.cir b) = 0 ∧ t.level (.pir b) = 0 ∧ t.answer = s.answer := by
  obtain ⟨hregs, hanswer⟩ := s.boughReset_parts b
  obtain ⟨hfc, -, hanswer', -, -, -, hat', -⟩ := State.parts_of_beside (s.detached_beside (s.attached b))
  obtain ⟨hcir, hpir⟩ := (s.detached (s.attached b)).bucketsZeroed_levels b (by rwa [hfc, hat'])
  have hlevel (k : Bucket) : (s.boughReset b).level k = ((s.detached (s.attached b)).bucketsZeroed b).level k := by
    rw [State.level_eq, State.levelWord, hregs, ← State.levelWord, ← State.level_eq]
  refine ⟨?_, fun q => ?_, by rw [hlevel, hcir], by rw [hlevel, hpir], by rw [hanswer, State.bucketsZeroed_answer, hanswer']⟩
  · rw [State.reg_congr hregs, State.bucketsZeroed_reg _ _ _ rfl, State.detached_reg _ _ _ (by decide)]
  · rw [State.queueBough_congr ((State.reg_congr hregs _ _).trans (State.bucketsZeroed_reg _ _ _ rfl)), State.queueBough_detached]
    exact if_congr (State.mem_attached hr) rfl rfl

/-- The fields of QE_BCFG: OWNER, PORT and WEIGHT. -/
def bcfgFields : List Field := [Sys2Proof.fH 31 22 0x3FF, Sys2Proof.fH 20 14 0, Sys2Proof.fH 7 0 1]

/-- Heartwood's write of QE_BCFG with an owner that may be and a weight takes its fields. -/
theorem State.judge_bcfg (s : State) (b : Nat) {w : Word} (howner : bits w.toNat 31 22 ≤ 0x1FF ∨ bits w.toNat 31 22 = 0x3FF)
    (hweight : bits w.toNat 7 0 ≠ 0) : let j := s.judgeW .heartwood .qeBcfg b (fun _ _ => true) w
    j.status = .ok ∧ bits j.val 31 22 = bits w.toNat 31 22 ∧ bits j.val 20 14 = bits w.toNat 20 14 := by
  rw [s.judgeW_plain, show RegName.qeBcfg.fields b = bcfgFields from rfl]
  have hd : bcfgFields.Pairwise Field.Apart := by simp [bcfgFields, Field.Apart, Sys2Proof.fH]
  have hok : ∀ f ∈ bcfgFields, RegName.qeBcfg.okVal b f.lo (bits w.toNat f.hi f.lo) = true := by
    simpa [bcfgFields, Sys2Proof.fH, RegName.okVal, hweight] using howner
  have hnames : ∀ f ∈ bcfgFields, f.names .h = true := by simp [bcfgFields, Sys2Proof.fH, Field.names]
  obtain ⟨hstatus, htakes⟩ := judge_completes (p := .h) (s.reg .qeBcfg b).toNat w.toNat hd hnames hok
  exact ⟨hstatus, htakes (Sys2Proof.fH 31 22 0x3FF) (by simp [bcfgFields]) rfl, htakes (Sys2Proof.fH 20 14 0) (by simp [bcfgFields]) rfl⟩

/-- A write that lands another owner or port puts the bough back. -/
theorem State.landBough_changed {s : State} {b : Nat} {j : Judged}
    (h : bits j.val 31 22 ≠ s.fld .qeBcfg b 31 22 ∨ bits j.val 20 14 ≠ s.fld .qeBcfg b 20 14) :
    s.landBough b j = (s.land .qeBcfg b j).boughReset b :=
  if_pos (Bool.or_eq_true_iff.mpr (h.imp (fun e => bne_iff_ne.mpr e.symm) (fun e => bne_iff_ne.mpr e.symm)))

/-- A landed write keeps the keys of the register file rising. -/
theorem State.land_rising {s : State} (hr : s.regs.rising 0 = true) (n : RegName) (i : Nat) (j : Judged) :
    (s.land n i j).regs.rising 0 = true := by
  unfold State.land
  dsimp only
  split
  · exact State.setReg_rising (State.setReg_rising hr ..) ..
  · exact State.setReg_rising hr ..

/-! ## HISTOGRAM_CLEAR (R223, R235) -/

/-- The fields of QE_HCFG: SCOPE, TARGET, SHIFT and CLEAR. -/
def hcfgFields : List Field := [Sys2Proof.fO 31 30 0, Sys2Proof.fO 29 16 0, Sys2Proof.fO 15 12 0, Sys2Proof.act 11 11 false true false]

/-- The operator's write of QE_HCFG with CLEAR acts. -/
theorem judge_hcfg (h cur : Nat) {w : Nat} (hw : bits w 11 11 = 1) : let j := judge (RegName.qeHcfg.fields h) .o (fun _ _ => true) cur w
    bit j.acts 11 = true ∧ j.status = .ok := by
  rw [show RegName.qeHcfg.fields h = hcfgFields from rfl]
  have hd : hcfgFields.Pairwise Field.Apart := by simp [hcfgFields, Field.Apart, Sys2Proof.fO, Sys2Proof.act]
  have hnames : ∀ f ∈ hcfgFields, f.names .o = true := by simp [hcfgFields, Sys2Proof.fO, Sys2Proof.act, Field.names]
  obtain ⟨hstatus, -⟩ := judge_completes (p := .o) (ok := fun _ _ => true) cur w hd hnames (fun _ _ => rfl)
  have hact := judge_acts (p := .o) (ok := fun _ _ => true) w (f := Sys2Proof.act 11 11 false true false) rfl rfl rfl
    (by simp [Sys2Proof.act, hw]) hd cur (by simp [hcfgFields])
  refine ⟨?_, hstatus⟩
  rw [bit_eq_bits, show bits _ 11 11 = bits w 11 11 from hact, hw]
  rfl

theorem writer_of_isOp {p : Party} (h : p.isOp = true) : p.writer = .o := by
  cases p with
  | core n => rfl
  | pf0 => rfl
  | heartwood => cases h
  | tenant t => cases h

/-- CLEAR of a histogram whose target no scope bounds, in an fc without a selection. -/
theorem State.writeHcfg_clears {s : State} {p : Party} {h : Nat} {w : Word} (hp : p.writer = .o) (hw : bits w.toNat 11 11 = 1)
    (hscope : bits w.toNat 31 30 ≤ 1) (hsel : s.qe.sel = []) :
    ∃ j : Judged, j.status = .ok ∧ s.writeHcfg p h w = (s.land .qeHcfg h j).histClear h := by
  obtain ⟨hact, hstatus⟩ := judge_hcfg h (s.reg .qeHcfg h).toNat hw
  have hbad : ((bits w.toNat 31 30 == 2 && decide (2047 < bits w.toNat 29 16))
      || (bits w.toNat 31 30 == 3 && decide (127 < bits w.toNat 29 16))) = false := by
    rw [beq_eq_false_iff_ne.mpr (show bits w.toNat 31 30 ≠ 2 by omega), beq_eq_false_iff_ne.mpr (show bits w.toNat 31 30 ≠ 3 by omega)]
    rfl
  set j := judge (RegName.qeHcfg.fields h) .o (fun _ _ => true) (s.reg .qeHcfg h).toNat w.toNat
  obtain ⟨hqe, -, -⟩ := s.land_queues .qeHcfg h j
  have hanew : (s.land .qeHcfg h j).histAnew h = (s.land .qeHcfg h j).histClear h := by
    rw [State.histAnew, hqe, hsel, forEach_nil]
  refine ⟨j, hstatus, ?_⟩
  rw [← hanew]
  unfold State.writeHcfg State.judgeW
  dsimp only
  rw [hbad, hp]
  exact if_pos (Bool.or_eq_true_iff.mpr (.inl hact))

/-- Registers of one name put to 0 one after the other. -/
theorem State.reg_zeroed (s : State) (n : RegName) (f : Nat → Nat) (l : List Nat) (i : Nat) :
    (forEach l s (fun k s => s.setReg n (f k) 0)).reg n i = if i ∈ l.map f then 0 else s.reg n i := by
  induction l generalizing s with
  | nil => simp
  | cons a r ih =>
    refine (ih (s.setReg n (f a) 0)).trans ?_
    rw [State.reg_setReg]
    by_cases h : i = f a <;> simp [h]

/-- A cleared histogram has no count and no maximum; every other one stays. -/
theorem State.histClear_spec (s : State) (h : Nat) : (∀ k, k < 16 → (s.histClear h).reg .qeHbin (16 * h + k) = 0)
    ∧ (s.histClear h).reg .qeHmax h = 0 ∧ (s.histClear h).answer = s.answer
    ∧ (∀ i, i / 16 ≠ h → (s.histClear h).reg .qeHbin i = s.reg .qeHbin i)
    ∧ ∀ i, i ≠ h → (s.histClear h).reg .qeHmax i = s.reg .qeHmax i := by
  have hbin (i : Nat) : (s.histClear h).reg .qeHbin i = if i ∈ (List.range 16).map (16 * h + ·) then 0 else s.reg .qeHbin i := by
    rw [State.histClear, State.reg_setReg_name _ _ _ _ (by decide)]
    exact s.reg_zeroed .qeHbin (16 * h + ·) (List.range 16) i
  have hmax (i : Nat) : (s.histClear h).reg .qeHmax i = if i = h then 0 else s.reg .qeHmax i := by
    rw [State.histClear, State.reg_setReg]
    exact if_congr Iff.rfl rfl (forEach_keeps (·.reg .qeHmax i) _ _ _ fun k t => t.reg_setReg_name _ _ _ (by decide))
  refine ⟨fun k hk => ?_, (hmax h).trans (if_pos rfl), ?_, fun i hi => ?_, fun i hi => (hmax i).trans (if_neg hi)⟩
  · exact (hbin _).trans (if_pos (List.mem_map_of_mem (List.mem_range.mpr hk)))
  · have hrow := forEach_keeps (·.answer) (List.range 16) s (fun k s => s.setReg .qeHbin (16 * h + k) 0) (fun _ _ => rfl)
    obtain ⟨-, hlast, -⟩ := (forEach (List.range 16) s (fun k s => s.setReg .qeHbin (16 * h + k) 0)).setReg_frame .qeHmax h 0
    exact hlast.trans hrow
  · refine (hbin i).trans (if_neg fun hmem => hi ?_)
    obtain ⟨k, hk, rfl⟩ := List.mem_map.mp hmem
    have := List.mem_range.mp hk
    omega

/-! ## The obligation -/

/-- Settles O17: buckets refill by what their debits and writes have left, a debt is forgiven, a queue attaches to its tenant's own bough, a
changed bough loses its queues and levels, and a histogram is cleared (R211, R212, R218, R219, R223; the refused attachment without an
alarm, log entry 41; the order within an fc, log entry 42). -/
theorem queueRegistersAndBuckets : Obligations.QueueRegistersAndBuckets := by
  refine ⟨?refill, ⟨?tenantForgives, ?heartwoodForgives, ?stranger⟩, ?attach, ?bough, ?histogram⟩
  case refill =>
    intro s _ hdue hat hsettled
    obtain ⟨-, -, -, -, -, -, hat', -⟩ := State.parts_of_beside s.refill_beside
    refine ⟨_, execBucketRefill_due hdue hat, hat', fun k => ?_⟩
    obtain ⟨hlevel, hresid⟩ := State.refill_spec hat (hsettled k)
    rw [State.refillNow_settled hat (hsettled k)] at hlevel hresid
    obtain ⟨hlevel', hresid'⟩ := refilled_spec (s.bRate k) (s.bBurst k) (s.resid k) (s.level k)
    refine ⟨fun hopen => ?_, fun hopen => ?_⟩ <;> rw [hlevel, hresid, hopen]
    · exact ⟨hlevel', hresid'⟩
    · exact ⟨rfl, rfl⟩
  case tenantForgives =>
    intro n q w s hown hw
    obtain ⟨hforgiven, hacts, hrate, hanswer, hpkts, -⟩ := s.writeRate_forgives (p := .tenant n) (k := .queue q.val) rfl hw
    exact ⟨_, execForgive_reads (.queue q.val) w q.isLt (by simp [State.qeReads, rateName, rateIndex, hown]), hforgiven, hacts, hrate,
      hanswer, hpkts⟩
  case heartwoodForgives =>
    intro b w s hw
    obtain ⟨hforgiven, hacts, hrate, hanswer, -, hother⟩ := s.writeRate_forgives (p := .heartwood) (k := .cir b.val) rfl hw
    obtain ⟨hforgiven', hacts', hrate', hanswer', -, hother'⟩ := s.writeRate_forgives (p := .heartwood) (k := .pir b.val) rfl hw
    exact ⟨⟨_, execForgive_reads (.cir b.val) w b.isLt rfl, hforgiven, hacts, hother (.pir b.val) (by simp), hrate, hanswer⟩,
      ⟨_, execForgive_reads (.pir b.val) w b.isLt rfl, hforgiven', hacts', hother' (.cir b.val) (by simp), hrate', hanswer'⟩⟩
  case stranger =>
    intro n q w s hforeign
    have hidx : q.val < RegName.qeQrate.count := q.isLt
    refine congrArg Host.Outcome.next ((if_pos (Bool.and_eq_true_iff.mpr ⟨rfl, decide_eq_true hidx⟩)).trans (if_pos ?_))
    simp [State.qeReads, hforeign]
  case attach =>
    intro n q w s hown hben hweight
    refine ⟨fun hbough => ?_, fun hbough hchange => ?_⟩
    · obtain ⟨hstatus, hben', hbough', hweight'⟩ := s.judge_qcfg n q.val hweight
      obtain ⟨hqe, -, -⟩ := s.land_queues .qeQcfg q.val (s.judgeW (.tenant n) .qeQcfg q.val (fun _ _ => true) w)
      refine ⟨_, (execQueueAttach_owner hown).trans (congrArg _ (State.writeQcfg_own hown hbough)), ?_, ?_, ?_, ?_, hqe⟩
      · rw [State.plainWrite, State.land_fld _ _ _ _ (by decide) (by decide), hben', hben]
      · rw [State.plainWrite, State.land_fld _ _ _ _ (by decide) (by decide), hbough']
      · rw [State.plainWrite, State.land_fld _ _ _ _ (by decide) (by decide), hweight']
      · rw [State.plainWrite, State.land_answer, hstatus]
    · have hback : bits (BitVec.ofNat 32 (setBits w.toNat 27 16 (bits (s.reg .qeQcfg q.val).toNat 27 16))).toNat 27 16
          = bits (s.reg .qeQcfg q.val).toNat 27 16 := by
        rw [bits_ofNat_toNat _ _ (by decide), bits_setBits]
        exact Nat.mod_mod _ _
      obtain ⟨hwriter, hkept⟩ := s.judge_qcfg_kept n q.val hback
      refine ⟨_, (execQueueAttach_owner hown).trans (congrArg _ (State.writeQcfg_foreign hown hbough hben hchange)), ?_, ?_, ?_⟩
      · rw [State.land_fld _ _ _ _ (by decide) (by decide), hkept, State.fld]
      · rw [State.land_answer, Judged.status_denied (.inr rfl)]
      · exact State.land_alarm_stays _ _ _ (by decide) hwriter
  case bough =>
    intro b w s hr howner hweight hchange hat
    obtain ⟨hstatus, howner', hport⟩ := s.judge_bcfg b.val howner hweight
    set j := s.judgeW .heartwood .qeBcfg b.val (fun _ _ => true) w with hj
    have hexec : exec (.boughChange .heartwood b w) s = .next ((s.land .qeBcfg b.val j).boughReset b.val) :=
      congrArg Host.Outcome.next (State.landBough_changed (by rwa [howner', hport]))
    obtain ⟨hqe, hfc, -⟩ := s.land_queues .qeBcfg b.val j
    obtain ⟨hbcfg, hqueues, hcir, hpir, hanswer⟩ :=
      State.boughReset_spec (State.land_rising hr .qeBcfg b.val j) (by rwa [hqe, hfc]) b.val
    have hbefore (q : Nat) : (s.land .qeBcfg b.val j).queueBough q = s.queueBough q :=
      State.queueBough_congr (s.land_reg_other _ _ (fun e => nomatch e.1) (by decide))
    refine ⟨_, hexec, ?_, ?_, fun q hq => ?_, fun q b' hb' hq => ?_, hcir, hpir, ?_⟩
    · rw [State.fld, hbcfg, ← State.fld, State.land_fld _ _ _ _ (by decide) (by decide), howner']
    · rw [State.fld, hbcfg, ← State.fld, State.land_fld _ _ _ _ (by decide) (by decide), hport]
    · rw [hqueues, hbefore, if_pos hq]
    · rw [hqueues, hbefore, hq, if_neg (by simpa using hb')]
    · rw [hanswer, State.land_answer, hstatus]
  case histogram =>
    intro p h w s hop hw hscope hsel
    obtain ⟨j, hstatus, hclears⟩ := State.writeHcfg_clears (h := h.val) (writer_of_isOp hop) hw hscope hsel
    obtain ⟨hbin, hmax, hanswer, hbins, hmaxs⟩ := (s.land .qeHcfg h.val j).histClear_spec h.val
    have hexec : exec (.histogramClear p h w) s = .next (s.writeHcfg p h.val w) := by
      refine congrArg Host.Outcome.next (if_neg ?_)
      cases p with
      | heartwood => cases hop
      | tenant t => cases hop
      | _ => simp [State.qeReads]
    have hother {n : RegName} (i : Nat) (hn : n ≠ .qeHcfg) (hm : n ≠ .msAlarm) : (s.land .qeHcfg h.val j).reg n i = s.reg n i :=
      s.land_reg_other _ _ (fun e => hn e.1) hm
    rw [hclears] at hexec
    exact ⟨_, hexec, hbin, hmax, by rw [hanswer, State.land_answer, hstatus],
      fun i hi => (hbins i hi).trans (hother i (by decide) (by decide)),
      fun i hi => (hmaxs i hi).trans (hother i (by decide) (by decide))⟩

end Sys2Proof.Machine
end

section
/-! SUPPORT. A call that stands (R421-R427): what its verdict comes to, its argument block, and the vector it names. -/

namespace Sys2Proof.Machine

/-- A bit of a register stands in a state whose register of that name and index does. -/
theorem State.flag_of_reg {s t : State} {n : RegName} {i : Nat} (h : t.reg n i = s.reg n i) (b : Nat) : t.flag n i b = s.flag n i b := by
  rw [State.flag, State.fld, h, ← State.fld, ← State.flag]

/-! ## A call's verdict -/

/-- The state to which the verdict on channel ch's call takes heartwood, from the state s in which it is judged (R423, R424). -/
def Verdict.comesTo (v : Verdict) (s : State) (ch : Fin 9) : State :=
  match v with
  | .refused r w1 => s.respondCall ch.val 10 r [BitVec.ofNat 32 w1]
  | .poison => s.respondCall ch.val 6 0 []
  | .done t res => t.respondCall ch.val 0 0 (res.map (BitVec.ofNat 32))
  | .waits t what res =>
    { t.setChan ch.val 2 with ht := { t.ht with wait := some ⟨ch, what, res.map (BitVec.ofNat 32), oldVector s t⟩ } }

section
variable {s : State} {ch : Fin 9} {opc : Nat} {used : List Nat} {body : State → (Nat → Nat) → Verdict}

/-- A call that stands comes to its own verdict. -/
theorem State.runCall_stands (h : s.callStands ch opc used) :
    s.runCall ch opc used body = (body (s.taken ch) (s.reqW ch.val)).comesTo (s.taken ch) ch := by
  obtain ⟨hnext, hop, hlow, hwords, hfree⟩ := h
  have hturn : (!s.nextCall ch || (opc != opc && callOpcs.contains opc)) = false := by simp [hnext]
  have hclean : (opc != opc || bits (s.reqW ch.val 0) 15 0 != 0
      || (List.range 7).any (fun k => s.reqW ch.val (k + 1) &&& (0xFFFFFFFF ^^^ used.getD k 0) != 0)) = false := by
    have hany : (List.range 7).any (fun k => s.reqW ch.val (k + 1) &&& (0xFFFFFFFF ^^^ used.getD k 0) != 0) = false := by
      rw [← Bool.not_eq_true', ← hwords, List.not_any_eq_all_not]
      simp [bne]
    rw [hany, hlow]
    simp
  simp only [State.runCall, hop, hturn, Bool.false_eq_true, if_false]
  refine (if_neg fun e => Bool.false_ne_true ((State.unheld hfree).symm.trans e)).trans ((if_neg (by rw [hclean]; decide)).trans ?_)
  change (match body (s.taken ch) (s.reqW ch.val) with
    | .refused r w1 => _
    | .poison => _
    | .done s res => _
    | .waits s' what res => _) = _
  cases body (s.taken ch) (s.reqW ch.val) <;> rfl

/-- A call that stands and is refused is answered DENIED, with the reason and the place. -/
theorem State.callStands.refused (h : s.callStands ch opc used) {r w1 : Nat} {P : State → Prop}
    (hv : body (s.taken ch) (s.reqW ch.val) = .refused r w1) (hP : P (s.taken ch)) :
    Answers (.next (s.runCall ch opc used body)) ch 10 r [w1] P :=
  ⟨s.taken ch, by rw [State.runCall_stands h, hv]; rfl, hP⟩

/-- A call that stands and is done is answered with its results. -/
theorem State.callStands.done (h : s.callStands ch opc used) {t : State} {res : List Nat} {P : State → Prop}
    (hv : body (s.taken ch) (s.reqW ch.val) = .done t res) (hP : P t) :
    Answers (.next (s.runCall ch opc used body)) ch 0 0 res P :=
  ⟨t, by rw [State.runCall_stands h, hv]; rfl, hP⟩

/-- Two states agree on tenants, tiles, power, the fc and every register but the channels' states: what heartwood's own bookkeeping of a call
leaves. -/
def State.SameButHeart (t u : State) : Prop :=
  (t.tn = u.tn ∧ t.tl = u.tl ∧ t.pw = u.pw ∧ t.fc = u.fc) ∧ ∀ n i, n ≠ .htSt → t.reg n i = u.reg n i

/-- A call that waits holds its channel and heartwood, and has done what its verdict says. -/
theorem State.comesTo_waits (s u : State) (ch : Fin 9) (what : CallUntil) (res : List Nat) :
    let t := Verdict.comesTo (.waits u what res) s ch
    t.chan ch.val = 2 ∧ (∃ old, t.ht.wait = some ⟨ch, what, res.map (BitVec.ofNat 32), old⟩) ∧ t.SameButHeart u := by
  intro t
  have hregs : t.regs = (u.setChan ch.val 2).regs := by simp only [t, Verdict.comesTo]
  refine ⟨?_, ⟨_, rfl⟩, by simp [t, Verdict.comesTo, State.setChan], fun n i hn => ?_⟩
  · rw [State.chan, State.fld_congr hregs, ← State.chan, u.chan_setChan, if_pos rfl]
  · rw [State.reg_congr hregs, State.setChan, State.reg_setFld_name _ _ hn]

/-- A call that stands and waits does so with what it has done already. -/
theorem State.callStands.waits (h : s.callStands ch opc used) {u : State} {what : CallUntil} {res : List Nat} {P : State → Prop}
    (hv : body (s.taken ch) (s.reqW ch.val) = .waits u what res) (hP : ∀ t : State, t.SameButHeart u → P t) :
    WaitsFor (.next (s.runCall ch opc used body)) ch what res P := by
  have hcall := State.runCall_stands (body := body) h
  rw [hv] at hcall
  obtain ⟨hchan, hwait, hsame⟩ := State.comesTo_waits (s.taken ch) u ch what res
  exact ⟨_, congrArg Host.Outcome.next hcall, hchan, hwait, hP _ hsame⟩

end

/-! ## Argument blocks (R423) -/

/-- A verdict with heartwood's copy of an argument block kept. -/
def Verdict.keeping (v : Verdict) (l : List Byte) : Verdict :=
  match v with
  | .done s res => .done (s.keepBlock l) res
  | .waits s what res => .waits (s.keepBlock l) what res
  | v => v

/-- A block that lies in canopy SRAM without poison is judged. Unfolded as a function: with its arguments in place the kernel would evaluate
`sramBlock` on them. -/
theorem State.block_read {s : State} {w : Nat → Nat} {n a : Nat} {k : List Byte → Verdict}
    (hplace : sramBlock (w 1 + bits (w 2) 7 0 * 2 ^ 32) n = some a) (hclean : s.sramPoison a n = false) :
    s.block w n k = (k (s.sramBytes a n)).keeping (s.sramBytes a n) := by
  generalize hf : @State.block = f
  delta State.block at hf
  subst hf
  beta_reduce
  rw [hplace]
  simp only [hclean, Bool.false_eq_true, if_false]
  cases k (s.sramBytes a n) <;> rfl

section
variable {s : State} {ch : Fin 9}

/-- A block that a call names lies in canopy SRAM without poison. -/
theorem State.callBlock_read {n : Nat} {l : List Byte} (h : s.callBlock ch n = some l) :
    ∃ a, sramBlock (s.reqW ch.val 1 + bits (s.reqW ch.val 2) 7 0 * 2 ^ 32) n = some a ∧ s.sramPoison a n = false ∧ l = s.sramBytes a n := by
  revert h
  generalize hf : @State.callBlock = f
  delta State.callBlock at hf
  subst hf
  beta_reduce
  split
  · next a hplace =>
    intro h
    split at h
    · cases h
    · next hclean => exact ⟨a, hplace, Bool.eq_false_iff.mpr hclean, (Option.some.inj h).symm⟩
  · exact fun h => nomatch h

/-- The block that a call names is what it is judged on. -/
theorem State.block_of_callBlock {n : Nat} {l : List Byte} (k : List Byte → Verdict) (h : s.callBlock ch n = some l) :
    (s.taken ch).block (s.reqW ch.val) n k = (k l).keeping l := by
  obtain ⟨a, hplace, hclean, rfl⟩ := State.callBlock_read h
  exact State.block_read hplace hclean

/-- A vector that a call names stands in its block, with as many items as its header counts. -/
theorem State.callVector_read {hdr : Nat} {items : List Nat} (h : s.callVector ch = some (hdr, items)) :
    ∃ b l, s.callBlock ch 8 = some b ∧ hdr = bytesLE b ∧ bits hdr 12 0 ≠ 0 ∧ bits hdr 12 0 ≤ 4096
      ∧ s.callBlock ch (8 * (bits hdr 12 0 + 1)) = some l ∧ items = (words64 l).drop 1 := by
  revert h
  generalize hf : @State.callVector = f
  delta State.callVector at hf
  subst hf
  beta_reduce
  split
  · exact fun h => nomatch h
  · next b hhead =>
    intro h
    dsimp only at h
    split at h
    · cases h
    · next hcount =>
      obtain ⟨hzero, htop⟩ := not_or.mp hcount
      obtain ⟨l, hwhole, hread⟩ := Option.map_eq_some_iff.mp h
      obtain ⟨rfl, rfl⟩ := Prod.mk.inj hread
      exact ⟨b, l, hhead, rfl, hzero, Nat.not_lt.mp htop, hwhole, rfl⟩

/-- The vector that a call names is what it is judged on. -/
theorem State.vector_of_callVector {hdr : Nat} {items : List Nat} (k : Nat → List Nat → Verdict)
    (h : s.callVector ch = some (hdr, items)) :
    ∃ l l', (s.taken ch).vector (s.reqW ch.val) k = ((k hdr items).keeping l).keeping l' := by
  obtain ⟨b, l, hhead, rfl, hzero, htop, hwhole, rfl⟩ := State.callVector_read h
  refine ⟨l, b, ?_⟩
  have hcount : (bits (bytesLE b) 12 0 == 0 || decide (4096 < bits (bytesLE b) 12 0)) = false := by
    simp [hzero, htop]
  generalize hf : @State.vector = f
  delta State.vector at hf
  subst hf
  beta_reduce
  rw [State.block_of_callBlock _ hhead]
  dsimp only
  rw [hcount]
  simp only [Bool.false_eq_true, if_false]
  rw [State.block_of_callBlock _ hwhole]

section
variable {opc hdr : Nat} {used items : List Nat} {k : State → Nat → List Nat → Verdict} {P : State → Prop}

/-- A call on a vector is refused as the vector is judged. -/
theorem State.callStands.vector_refused (h : s.callStands ch opc used) (hvec : s.callVector ch = some (hdr, items)) {r w1 : Nat}
    (hk : k (s.taken ch) hdr items = .refused r w1) (hP : P (s.taken ch)) :
    Answers (.next (s.runCall ch opc used (fun s w => s.vector w (k s)))) ch 10 r [w1] P := by
  obtain ⟨l, l', hv⟩ := State.vector_of_callVector (k (s.taken ch)) hvec
  exact h.refused (hv.trans (by rw [hk]; rfl)) hP

/-- A call on a vector is done as the vector is judged. -/
theorem State.callStands.vector_done (h : s.callStands ch opc used) (hvec : s.callVector ch = some (hdr, items)) {u : State}
    {res : List Nat} (hk : k (s.taken ch) hdr items = .done u res) (hP : ∀ t : State, t.SameButHeart u → P t) :
    Answers (.next (s.runCall ch opc used (fun s w => s.vector w (k s)))) ch 0 0 res P := by
  obtain ⟨l, l', hv⟩ := State.vector_of_callVector (k (s.taken ch)) hvec
  exact h.done (t := (u.keepBlock l).keepBlock l') (hv.trans (by rw [hk]; rfl)) (hP _ ⟨⟨rfl, rfl, rfl, rfl⟩, fun _ _ _ => rfl⟩)

/-- A call on a vector waits as the vector is judged. -/
theorem State.callStands.vector_waits (h : s.callStands ch opc used) (hvec : s.callVector ch = some (hdr, items)) {u : State}
    {what : CallUntil} {res : List Nat} (hk : k (s.taken ch) hdr items = .waits u what res)
    (hP : ∀ t : State, t.SameButHeart u → P t) :
    WaitsFor (.next (s.runCall ch opc used (fun s w => s.vector w (k s)))) ch what res P := by
  obtain ⟨l, l', hv⟩ := State.vector_of_callVector (k (s.taken ch)) hvec
  exact h.waits (u := (u.keepBlock l).keepBlock l') (hv.trans (by rw [hk]; rfl)) hP

end

end

end Sys2Proof.Machine
end

section
/-! SUPPORT. Vectors (R240-R244, R426): the writes of a grant or a release leave the vectors admitted, and the groves they touch are asked to
commit; the obligation on the calls that do so. -/

namespace Sys2Proof.Machine

/-! ## What grants and releases leave -/

/-- The fc and the vectors that stand admitted in it. -/
def State.admissions (s : State) : Nat × Tbl (Option AVec) := (s.fc, s.tn.adm)

theorem State.of_admissions {s t : State} (h : t.admissions = s.admissions) : t.fc = s.fc ∧ t.tn.adm = s.tn.adm := Prod.mk.inj h

@[simp ↓] theorem State.mk_admissions (u : State) (q a l f r c tl sw lt ff cx qe ln tb nc hi dp ht cf gr gp pw ms was) (tn : TenantB)
    (h : tn.adm = u.tn.adm) :
    (State.mk q a l f u.fc r c tl sw lt ff cx qe tn ln tb nc hi dp ht cf gr gp pw ms was).admissions = u.admissions :=
  congrArg (Prod.mk u.fc) h

@[simp ↓] theorem State.ite_admissions (c : Prop) [Decidable c] (a b : State) :
    (if c then a else b).admissions = if c then a.admissions else b.admissions := apply_ite _ c a b

@[simp ↓] theorem forEach_admissions {α : Type} (l : List α) (s : State) (f : α → State → State)
    (h : ∀ a s, (f a s).admissions = s.admissions) : (forEach l s f).admissions = s.admissions :=
  forEach_keeps _ l s f h

section
variable (s : State)

@[simp ↓] theorem State.setReg_admissions (n : RegName) (i : Nat) (w : Word) : (s.setReg n i w).admissions = s.admissions := (rfl)

@[simp ↓] theorem State.setFld_admissions (n : RegName) (i hi lo v : Nat) : (s.setFld n i hi lo v).admissions = s.admissions := (rfl)

@[simp ↓] theorem State.setBit_admissions (n : RegName) (i b : Nat) (v : Bool) : (s.setBit n i b v).admissions = s.admissions := (rfl)

@[simp ↓] theorem State.alarm_admissions : s.alarm.admissions = s.admissions := (rfl)

@[simp ↓] theorem State.ans_admissions (st : Status) (ws : List Word) : (s.ans st ws).admissions = s.admissions := (rfl)

@[simp ↓] theorem State.land_admissions (n : RegName) (i : Nat) (j : Judged) : (s.land n i j).admissions = s.admissions := by
  simp [State.land]

@[simp ↓] theorem State.injInForce_admissions (k : Nat) : (s.injInForce k).admissions = s.admissions := (rfl)

@[simp ↓] theorem State.putRoute_admissions (ni d cred : Nat) : (s.putRoute ni d cred).admissions = s.admissions := by
  simp [State.putRoute, State.writeRteH]

@[simp ↓] theorem State.putInj_admissions (ni i : Nat) (valid : Bool) (tag : Tag) (dst prio rate burst : Nat) :
    (s.putInj ni i valid tag dst prio rate burst).admissions = s.admissions := by
  simp [State.putInj, State.writeInjB]

@[simp ↓] theorem State.dropInj_admissions (ni : Nat) (tag : Tag) (dst prio : Nat) :
    (s.dropInj ni tag dst prio).admissions = s.admissions := by
  unfold State.dropInj
  split <;> simp

@[simp ↓] theorem State.nocItem_admissions (tag : Tag) (w : Nat) : (s.nocItem tag w).admissions = s.admissions := by
  unfold State.nocItem
  dsimp only
  split <;> simp [State.needRoutes]

@[simp ↓] theorem State.recordEntry_admissions (tag : Tag) (g : Nat) : (s.recordEntry tag g).admissions = s.admissions := by
  unfold State.recordEntry
  repeat' split
  all_goals simp

@[simp ↓] theorem State.freeWheel_admissions (tag : Tag) (res unit : Nat) : (s.freeWheel tag res unit).admissions = s.admissions := by
  unfold State.freeWheel
  split <;> simp

@[simp ↓] theorem State.reserve_admissions (tag : Tag) (items : List Nat) (res unit k : Nat) :
    (s.reserve tag items res unit k).admissions = s.admissions := by
  unfold State.reserve
  repeat' split
  all_goals simp

@[simp ↓] theorem State.takeWheel_admissions (tag : Tag) (w : Nat) (items : List Nat) :
    (s.takeWheel tag w items).admissions = s.admissions := by
  unfold State.takeWheel
  split <;> simp

@[simp ↓] theorem State.levelAct_admissions (k : Bucket) (a : LevelAct) : (s.levelAct k a).admissions = s.admissions := by
  cases k <;> rfl

@[simp ↓] theorem State.ownBough_admissions (b own port weight : Nat) : (s.ownBough b own port weight).admissions = s.admissions := by
  simp [State.ownBough, State.landBough, State.boughReset]

@[simp ↓] theorem State.ownPin_admissions (n own tag : Nat) : (s.ownPin n own tag).admissions = s.admissions := by
  simp [State.ownPin]

@[simp ↓] theorem State.writeRingOwner_admissions (k : Nat) (own : Tag) (ripe : Bool) :
    (s.writeRingOwner k own ripe).admissions = s.admissions := by simp [State.writeRingOwner]

@[simp ↓] theorem State.holdRing_admissions (k : Nat) : (s.holdRing k).admissions = s.admissions := (rfl)

@[simp ↓] theorem State.holdMc_admissions (k : Nat) : (s.holdMc k).admissions = s.admissions := (rfl)

@[simp ↓] theorem State.fifoFlush_admissions (F : Nat) : (s.fifoFlush F).admissions = s.admissions := (rfl)

@[simp ↓] theorem State.askCommit_admissions (g : Nat) : (s.askCommit g).admissions = s.admissions := by
  simp [State.askCommit]

@[simp ↓] theorem State.signalVec_admissions (fn v : Nat) : (s.signalVec fn v).admissions = s.admissions := by
  simp [State.signalVec]

@[simp ↓] theorem State.fileDone_admissions (vf : Option (Fin 512)) (st reason : Nat) :
    (s.fileDone vf st reason).admissions = s.admissions := by
  unfold State.fileDone
  split <;> simp [State.graftDone, State.ogDone]

@[simp ↓] theorem State.dropShadows_admissions (p : GShadow → Bool) : (s.dropShadows p).admissions = s.admissions := by
  simp [State.dropShadows]

end

@[simp ↓] theorem State.grantItem_admissions (tag : Tag) (items : List Nat) (w : Nat) (s : State) :
    (s.grantItem tag items w).admissions = s.admissions := by
  unfold State.grantItem
  split <;> simp

@[simp ↓] theorem State.regrantItem_admissions (tag : Tag) (all : List Nat) (w : Nat) (s : State) :
    (s.regrantItem tag all w).admissions = s.admissions := by
  simp [State.regrantItem]

@[simp ↓] theorem State.releaseItem_admissions (tag : Tag) (left : List Nat) (w : Nat) (s : State) :
    (s.releaseItem tag left w).admissions = s.admissions := by
  unfold State.releaseItem
  repeat' split
  all_goals simp

/-! ## The groves asked to commit (R57) -/

/-- Grove g is asked to commit in the next fc. -/
def State.commitAsked (s : State) (g : Nat) : Prop := s.flag .tlGcal g 31 = true ∧ s.tl.commitAt.rd g 0 = s.fc + 1

theorem State.askCommit_parts (s : State) (h : Nat) : (s.askCommit h).regs = (s.setBit .tlGcal h 31 true).regs
    ∧ (s.askCommit h).tl.commitAt = s.tl.commitAt.wr h 0 (s.fc + 1) ∧ (s.askCommit h).fc = s.fc := by
  simp [State.askCommit]

/-- A grove asked is, and one asked in the same fc stays so. -/
theorem State.askCommit_asked (s : State) (h g : Nat) (hg : g = h ∨ s.commitAsked g) : (s.askCommit h).commitAsked g := by
  obtain ⟨hregs, hcommit, hfc⟩ := s.askCommit_parts h
  rw [State.commitAsked, State.flag, State.fld_congr hregs, ← State.flag, hcommit, hfc]
  by_cases hgh : g = h
  · subst hgh
    exact ⟨s.flag_setBit_true (by decide), Tbl.rd_wr_same ..⟩
  · obtain ⟨hflag, hat⟩ := hg.resolve_left hgh
    refine ⟨?_, (Tbl.rd_wr_other _ _ _ _ hgh).trans hat⟩
    exact (State.flag_of_reg (s.reg_setReg_index _ _ hgh) 31).trans hflag

/-- Every grove of a list is asked. -/
theorem forEach_askCommit_asked (gs : List Nat) (s : State) {g : Nat} (hg : g ∈ gs ∨ s.commitAsked g) :
    (forEach gs s (fun g s => s.askCommit g)).commitAsked g := by
  induction gs generalizing s with
  | nil => exact hg.resolve_left List.not_mem_nil
  | cons h r ih =>
    rw [forEach, List.foldl_cons, ← forEach]
    refine ih (s.askCommit h) ?_
    by_cases hr : g ∈ r
    · exact .inl hr
    · exact .inr (s.askCommit_asked h g (hg.imp (fun hmem => (List.mem_cons.mp hmem).resolve_right hr) id))

/-! ## Vectors granted and released -/

section
variable (s : State) (items : List Nat)

/-- Items granted leave the admissions, and the groves they touch are asked to commit. -/
theorem State.grantItems_spec (tag : Tag) : (s.grantItems tag items).admissions = s.admissions
    ∧ ∀ g ∈ itemGroves items, (s.grantItems tag items).commitAsked g := by
  refine ⟨?_, fun _ hg => forEach_askCommit_asked (itemGroves items) _ (.inl hg)⟩
  simp only [State.grantItems, forEach_admissions, State.askCommit_admissions, State.grantItem_admissions, implies_true]

/-- A vector admitted stands at its tag, and its groves are asked to commit. -/
theorem State.admitVector_spec (hdr : Nat) : (s.admitVector hdr items).admissions
      = (s.fc, s.tn.adm.wr (bits hdr 63 54) none
          (some ⟨BitVec.ofNat 2 (bits hdr 53 52), bit hdr 51, items.map (BitVec.ofNat 64)⟩))
    ∧ ∀ g ∈ itemGroves items, (s.admitVector hdr items).commitAsked g := by
  unfold State.admitVector
  extract_lets t v _ entered _ metered
  obtain ⟨hadm, hasked⟩ := metered.grantItems_spec items (BitVec.ofNat 10 t)
  have hmetered : metered.admissions = entered.admissions := by
    simp only [metered, State.ite_admissions]
    split <;> rfl
  exact ⟨hadm.trans hmetered, hasked⟩

/-- Items added stand behind those that the vector had. -/
theorem State.extendItems_admissions (t : Nat) (v : AVec) : (s.extendItems t v items).admissions
    = (s.fc, s.tn.adm.wr t none (some { v with items := v.items ++ items.map (BitVec.ofNat 64) })) := by
  simp only [State.extendItems, forEach_admissions, State.askCommit_admissions, State.grantItem_admissions, implies_true]
  rfl

/-- What a vector is after a release of items from it: what is left of it, or with CELLS among them nothing. -/
def vectorLeft (items keep : List Nat) (old : Option AVec) : Option AVec :=
  if items.any (fun w => itKind w == 8) then none else old.map (fun v => { v with items := keep.map (BitVec.ofNat 64) })

/-- After a release the tag's vector is what is left of it, and every other stands. -/
theorem State.releaseItems_adm (t t' : Nat) : (s.releaseItems t items).tn.adm.rd t' none
    = if t' = t then vectorLeft items (leftOf (s.itemsOf t) items) (s.tn.adm.rd t none) else s.tn.adm.rd t' none := by
  unfold State.releaseItems
  extract_lets tag keep released _ entered left dropped asked
  have hreleased : released.tn.adm = s.tn.adm := (State.of_admissions (by simp [released])).2
  have hasked : asked.tn.adm = s.tn.adm.up t none (fun v => v.map (fun v => { v with items := keep.map (BitVec.ofNat 64) })) := by
    have h : asked.admissions = entered.admissions := by simp [asked, dropped]
    rw [(State.of_admissions h).2, ← hreleased]
  unfold vectorLeft
  split_ifs with hcells ht ht
  · subst ht
    exact Tbl.rd_del_same ..
  · exact (Tbl.rd_del_other _ _ ht).trans (by rw [hasked, Tbl.rd_up_other _ _ _ _ ht])
  · rw [hasked, ht, Tbl.rd_up_same]
  · rw [hasked, Tbl.rd_up_other _ _ _ _ ht]

end

section
variable {s t u : State}

/-- A grove asked to commit is so in a state that is the same but for heartwood. -/
theorem State.commitAsked_of_same (h : t.SameButHeart u) {g : Nat} (hg : u.commitAsked g) : t.commitAsked g := by
  obtain ⟨⟨-, htl, -, hfc⟩, hreg⟩ := h
  obtain ⟨hflag, hat⟩ := hg
  exact ⟨(State.flag_of_reg (hreg _ _ (by decide)) 31).trans hflag, by rw [htl, hfc, hat]⟩

/-- The admissions of a state whose table was written at one tag, read back in a state that is the same but for heartwood. -/
theorem State.adm_of_written (h : t.SameButHeart u) {tag : Nat} {v : AVec} (hw : u.admissions = (s.fc, s.tn.adm.wr tag none (some v))) :
    t.tn.adm.rd tag none = some v ∧ ∀ tag', tag' ≠ tag → t.tn.adm.rd tag' none = s.tn.adm.rd tag' none := by
  obtain ⟨⟨htn, -⟩, -⟩ := h
  rw [htn, (Prod.mk.inj hw).2]
  exact ⟨Tbl.rd_wr_same .., fun _ hne => Tbl.rd_wr_other _ _ _ _ hne⟩

end

/-- A release drops pending shadows first, and leaves the admissions as `State.releaseItems_adm` says all the same. -/
theorem State.releaseItems_dropShadows_adm (s : State) (p : GShadow → Bool) (items : List Nat) (t t' : Nat) :
    ((s.dropShadows p).releaseItems t items).tn.adm.rd t' none
      = if t' = t then vectorLeft items (leftOf (s.itemsOf t) items) (s.tn.adm.rd t none) else s.tn.adm.rd t' none := by
  obtain ⟨-, hadm⟩ := State.of_admissions (s.dropShadows_admissions p)
  have hitems : (s.dropShadows p).itemsOf t = s.itemsOf t := by rw [State.itemsOf, hadm, State.itemsOf]
  rw [State.releaseItems_adm, hitems, hadm]

/-- A list of which every element passes has none that fails. -/
theorem findIdx?_eq_none_of_all {α : Type} {l : List α} {p : α → Bool} (h : l.all p = true) : l.findIdx? (fun a => !p a) = none :=
  List.findIdx?_eq_none_iff.mpr fun a ha => by rw [List.all_eq_true.mp h a ha]; rfl

/-- A vector entered in place of the one that stood at a tag. -/
def State.reentered (s : State) (t : Nat) (v : AVec) (items : List Nat) : State :=
  { s with tn := { s.tn with adm := s.tn.adm.wr t none (some { v with items := items.map (BitVec.ofNat 64) }) } }

theorem State.reentered_adm (s : State) (t : Nat) (v : AVec) (items : List Nat) :
    (s.reentered t v items).tn.adm.rd t none = some { v with items := items.map (BitVec.ofNat 64) } := by
  rw [State.reentered, Tbl.rd_wr_same]

/-- Settles O47: a call on a vector is judged on the vector it names, and grants and releases leave every other admission (R240, R244,
R426). -/
theorem vectorsAreAdmittedExtendedAndReleased : Obligations.VectorsAreAdmittedExtendedAndReleased := by
  intro ch s hdr items hvec t
  refine ⟨fun hstands => ⟨?grant, ?notAdmitted⟩, fun hstands => ⟨?extend, ?notExtended, ?noHeader⟩, fun hstands => ⟨?release, ?notReleased⟩,
    fun hstands hzero htag hclean => ?regrant⟩
  case grant =>
    intro hgood
    obtain ⟨hadm, hasked⟩ := (s.taken ch).admitVector_spec items hdr
    obtain ⟨hfc, -⟩ := Prod.mk.inj hadm
    refine hstands.vector_waits hvec (u := (s.taken ch).admitVector hdr items) (by simp only [hgood]) fun u hu => ?_
    obtain ⟨hown, hothers⟩ := State.adm_of_written hu hadm
    refine ⟨hown, hothers, fun g hg => ?_⟩
    obtain ⟨hflag, hat⟩ := State.commitAsked_of_same hu (hasked g hg)
    obtain ⟨⟨-, -, -, hsame⟩, -⟩ := hu
    exact ⟨hflag, by rw [hat, hsame, hfc]; rfl⟩
  case notAdmitted =>
    intro r i hbad
    exact hstands.vector_refused hvec (by simp only [hbad]) rfl
  case extend =>
    intro v hheader hv hgood
    have hhead : (s.taken ch).addHeader hdr = none := hheader
    have hfound : (s.taken ch).tn.adm.rd t none = some v := hv
    exact hstands.vector_waits hvec (u := (s.taken ch).extendItems t v items) (by simp only [hhead, t, hfound, hgood]) fun u hu =>
      State.adm_of_written hu ((s.taken ch).extendItems_admissions items t v)
  case notExtended =>
    intro v r i hheader hv hbad
    have hhead : (s.taken ch).addHeader hdr = none := hheader
    have hfound : (s.taken ch).tn.adm.rd t none = some v := hv
    exact hstands.vector_refused hvec (by simp only [hhead, t, hfound, hbad]) rfl
  case noHeader =>
    intro r hheader
    have hhead : (s.taken ch).addHeader hdr = some r := hheader
    exact hstands.vector_refused hvec (by simp only [hhead]) rfl
  case release =>
    intro hgood
    refine hstands.vector_waits hvec (by simp only [hgood]; rfl) fun u hu => ?_
    obtain ⟨⟨htn, -⟩, -⟩ := hu
    have hleft (t' : Nat) : u.tn.adm.rd t' none
        = if t' = t then vectorLeft items (leftOf (s.itemsOf t) items) (s.tn.adm.rd t none) else s.tn.adm.rd t' none := by
      rw [htn]
      exact (s.taken ch).releaseItems_dropShadows_adm _ items t t'
    refine ⟨fun hcells => ?_, fun hcells v hv => ?_, fun t' hne => (hleft t').trans (if_neg hne)⟩
    · rw [hleft, if_pos rfl, vectorLeft, if_pos hcells]
    · rw [hleft, if_pos rfl, vectorLeft, if_neg (by simp [hcells]), hv]
      rfl
  case notReleased =>
    intro r i hbad
    exact hstands.vector_refused hvec (by simp only [hbad]) rfl
  case regrant =>
    have hform : (bits hdr 50 13 != 0 || decide (511 < t)) = false := by simpa [hzero] using htag
    have hfirst : items.findIdx? (fun i => !([8, 10, 12].contains (itKind i)) || !itemClean i) = none := by
      simpa only [Bool.not_and] using findIdx?_eq_none_of_all hclean
    refine ⟨fun hv => ?_, fun v hv => ?_⟩
    · have hfound : (s.taken ch).tn.adm.rd t none = none := hv
      exact hstands.vector_refused hvec (by simp only [t, hform, hfirst, hfound, Bool.false_eq_true, if_false]) rfl
    · intro new bare hgranted hgood
      have hfound : (s.taken ch).tn.adm.rd t none = some v := hv
      have hitems : (s.taken ch).itemsOf t = s.itemsOf t := rfl
      have hothers : (s.taken ch).othersOf t = s.othersOf t := rfl
      have hheld := findIdx?_eq_none_of_all hgranted
      let entered := (s.taken ch).reentered t v new
      refine hstands.vector_done hvec (u := forEach items entered (State.regrantItem (BitVec.ofNat 10 t) new)) ?_ fun u hu => ?_
      · dsimp only [bare, new] at hgood
        simp only [t, hform, hfirst, hfound, hitems, hothers, hheld, hgood, Bool.false_eq_true, if_false]
        rfl
      · obtain ⟨⟨htn, -⟩, -⟩ := hu
        have hkept : (forEach items entered (State.regrantItem (BitVec.ofNat 10 t) new)).admissions = entered.admissions :=
          forEach_admissions _ _ _ fun i s => s.regrantItem_admissions _ _ i
        rw [htn, (State.of_admissions hkept).2]
        exact (s.taken ch).reentered_adm t v new

end Sys2Proof.Machine
end

section
/-! SUPPORT. The device's other calls (R254, R401, R419, R426, R433, R434, R471, R508, R541): what each writes and leaves; the obligation on
all of them. -/

namespace Sys2Proof.Machine

/-- A bit set reads as it was set. -/
theorem State.flag_setBit (s : State) (n : RegName) (i : Nat) {b : Nat} (v : Bool) (h : b < 32) : (s.setBit n i b v).flag n i b = v := by
  rw [State.flag, State.setBit, State.fld_setFld _ _ h]
  cases v <;> simp [b2n]

/-! ## The words of a request (R423) -/

section
variable (s : State) (c k : Nat)

theorem State.reqW_lt : s.reqW c k < 2 ^ 32 := (s.reg .htReq (8 * c + k)).isLt

/-- A word of a request fits a register. -/
theorem State.ofNat_reqW : (BitVec.ofNat 32 (s.reqW c k)).toNat = s.reqW c k :=
  (BitVec.toNat_ofNat ..).trans (Nat.mod_eq_of_lt (s.reqW_lt c k))

end

/-- A word whose bits from w on are reserved, in a call that stands, is below 2^w. -/
theorem State.callStands.word_lt {s : State} {ch : Fin 9} {opc : Nat} {used : List Nat} (h : s.callStands ch opc used) {k w : Nat}
    (hk : k < 7) (hused : used.getD k 0 = 2 ^ w - 1) : s.reqW ch.val (k + 1) < 2 ^ w := by
  obtain ⟨-, -, -, hwords, -⟩ := h
  have hclean := beq_iff_eq.mp (List.all_eq_true.mp hwords k (List.mem_range.mpr hk))
  rw [hused, show (0xFFFFFFFF : Nat) = 2 ^ 32 - 1 from rfl] at hclean
  refine Nat.lt_pow_two_of_testBit _ fun i hi => ?_
  by_cases htop : i < 32
  · have hbit := congrArg (Nat.testBit · i) hclean
    simpa only [Nat.testBit_and, Nat.testBit_xor, Nat.testBit_two_pow_sub_one, htop, Nat.not_lt.mpr hi, decide_true, decide_false,
      Bool.xor_false, Bool.and_true, Nat.zero_testBit] using hbit
  · exact Nat.testBit_lt_two_pow ((s.reqW_lt ..).trans_le (Nat.pow_le_pow_right (by decide) (Nat.not_lt.mp htop)))

/-! ## A bank goes offline (R254, R255) -/

section
variable (s : State) {n : RegName} (i : Nat)

theorem State.tellReduced_regs (tag : Tag) (block item index old new : Nat) :
    (s.tellReduced tag block item index old new).regs = s.regs := by simp [State.tellReduced]

variable (hfloor : n ≠ .cxFloor) (hrate : n ≠ .qeBcir)
include hfloor hrate

/-- A reduction put into force leaves every register but the floors and the committed rates. -/
theorem State.reduceTo_reg (lim t w new : Nat) : (s.reduceTo lim t w new).reg n i = s.reg n i := by
  unfold State.reduceTo
  extract_lets
  split_ifs
  · rfl
  · exact (State.reg_congr (State.tellReduced_regs ..) n i).trans (State.reg_setFld_name _ _ hfloor)
  · exact (State.reg_congr (State.tellReduced_regs ..) n i).trans (State.reg_setFld_name _ _ hrate)

/-- What is reduced under one limit, and told of, leaves the same registers. -/
theorem State.shedLimit_reg (lim : Nat) (granted limit : Int) : (s.shedLimit lim granted limit).reg n i = s.reg n i := by
  unfold State.shedLimit
  extract_lets its gs
  split
  next left gs' _ =>
  extract_lets reduced
  have hreduced : reduced.reg n i = s.reg n i := forEach_keeps (·.reg n i) _ _ _ fun x t => t.reduceTo_reg i hfloor hrate ..
  split_ifs
  · exact hreduced
  · exact hreduced

/-- Shedding leaves every register but the floors and the committed rates. -/
theorem State.shed_reg : s.shed.reg n i = s.reg n i := by
  unfold State.shed
  extract_lets floors floored rates
  rw [State.reg_congr (State.judgeFill_frame _).1, State.shedLimit_reg _ _ hfloor hrate, State.shedLimit_reg _ _ hfloor hrate]

end

/-- A bank taken offline is. -/
theorem State.bankOffline_online (s : State) {b : Nat} (h : b < 32) : (s.bankOffline b).online b = false := by
  rw [State.online, State.bankOffline, State.flag_of_reg ((s.setBit .cxStat 0 b false).shed_reg 0 (by decide) (by decide)),
    State.flag_setBit _ _ _ _ h]

/-! ## A pin changes hands (R508) -/

section
variable (s : State) (n own tag : Nat)

/-- The settings of the pins after one is given: its OWNER and TTAG are written. -/
theorem State.ownPin_reg (m : Nat) : (s.ownPin n own tag).reg .gpPcfg m
    = ((s.setFld .gpPcfg n 31 28 own).setFld .gpPcfg n 27 18 tag).reg .gpPcfg m := by
  rw [State.ownPin, State.setBit, State.reg_setFld_name _ _ (by decide), State.setBit, State.reg_setFld_name _ _ (by decide)]

/-- A pin given to a party is its own, with its tag, and neither driven nor set; every other keeps its owner. -/
theorem State.ownPin_spec : (s.ownPin n own tag).pinOwner n = own % 2 ^ 4 ∧ (s.ownPin n own tag).fld .gpPcfg n 27 18 = tag % 2 ^ 10
    ∧ (s.ownPin n own tag).flag .gpOut (n / 32) (n % 32) = false ∧ (s.ownPin n own tag).flag .gpOe (n / 32) (n % 32) = false
    ∧ ∀ m, m ≠ n → (s.ownPin n own tag).pinOwner m = s.pinOwner m := by
  refine ⟨?_, ?_, ?_, State.flag_setBit _ _ _ _ (Nat.mod_lt _ (by decide)), fun m hm => ?_⟩
  · rw [State.pinOwner, State.fld, State.ownPin_reg, ← State.fld, State.fld_setFld_apart _ _ (by decide) (by decide),
      State.fld_setFld _ _ (by decide)]
  · rw [State.fld, State.ownPin_reg, ← State.fld, State.fld_setFld _ _ (by decide)]
  · exact (State.flag_of_reg (State.reg_setFld_name _ _ (by decide)) _).trans (State.flag_setBit _ _ _ _ (Nat.mod_lt _ (by decide)))
  · rw [State.pinOwner, State.fld, State.ownPin_reg, State.setFld, State.reg_setReg_index _ _ _ hm, State.setFld,
      State.reg_setReg_index _ _ _ hm, ← State.fld, ← State.pinOwner]

end

/-! ## The NVM is written (R471) -/

/-- A byte of the NVM after a write is the one written there, and every other stands. -/
theorem State.nvmPut_rd (s : State) (a : Nat) (l : List Byte) : (∀ i (hi : i < l.length), (s.nvmPut a l).cf.nvm.rd (a + i) 0 = l[i])
    ∧ ∀ x, x < a ∨ a + l.length ≤ x → (s.nvmPut a l).cf.nvm.rd x 0 = s.cf.nvm.rd x 0 := by
  have hmap : l.zipIdx.map (fun x => a + x.2) = (List.range l.length).map (a + ·) := by
    rw [List.range_eq_range', ← List.zipIdx_map_snd 0 l, List.map_map]
    rfl
  obtain ⟨hset, hkept⟩ := rd_foldl_wr (fun x : Byte × Nat => a + x.2) (fun x => x.1) 0 (l := l.zipIdx)
    (by rw [hmap]; exact List.nodup_range.map fun _ _ e => by simpa using e) s.cf.nvm
  refine ⟨fun i hi => hset (l[i], i) (List.mem_zipIdx_iff_getElem?.mpr (List.getElem?_eq_getElem hi)), fun x hx => hkept x ?_⟩
  rw [hmap, List.mem_map]
  rintro ⟨j, hj, rfl⟩
  have := List.mem_range.mp hj
  omega

/-- Bytes written into the NVM are read back. -/
theorem State.nvmBytes_nvmPut (s : State) (a : Nat) (l : List Byte) : (s.nvmPut a l).nvmBytes a l.length = l := by
  refine List.ext_getElem (by simp [State.nvmBytes]) fun i hi hl => ?_
  simp only [State.nvmBytes, List.getElem_map, List.getElem_range, State.nvmByte]
  exact (s.nvmPut_rd a l).1 i hl

/-- An argument block has the bytes asked for. -/
theorem State.callBlock_length {s : State} {ch : Fin 9} {n : Nat} {l : List Byte} (h : s.callBlock ch n = some l) : l.length = n := by
  obtain ⟨a, -, -, rfl⟩ := State.callBlock_read h
  simp [State.sramBytes]

/-! ## A domain's switching is judged (R539, R541) -/

/-- What refuses a DOMAIN call that would switch domain d on or off (R539, R541). -/
def State.domainBad (s : State) (d : Nat) (on : Bool) : Bool :=
  95 < d || s.powered d == on || (!on && s.closed d) || s.fld .cfStat 0 31 28 != 5
    || (!on && 80 ≤ d && (s.online (d - 80) || s.cx.link.any (fun e => e.1 / 65536 == d - 80 && e.2.st != .free)))

/-- A domain's restoration asked for. -/
def State.restoreAsked (s : State) (d : Nat) : State := { s with pw := { s.pw with restoring := s.pw.restoring.wr d false true } }

/-- A domain's fence asked for. -/
def State.fenceAsked (s : State) (d : Nat) : State := { s with pw := { s.pw with fenceAsk := s.pw.fenceAsk.wr d false true } }

/-- The verdict on a DOMAIN call, as `execDomainCall_eq` ties it to the call. -/
def State.domainVerdict (s : State) (d : Nat) (on : Bool) : Verdict :=
  if s.domainBad d on then .refused 0x0F 0
  else if on then .waits (s.restoreAsked d) (.domain d true) []
  else .waits (s.fenceAsked d) (.domain d false) []

theorem execDomainCall_eq (ch : Fin 9) (s : State) : execDomainCall ch s
    = .next (s.runCall ch 0x1A [0x8000007F] fun s w => s.domainVerdict (bits (w 1) 6 0) (bit (w 1) 31)) := rfl

section
variable {s : State} {d : Nat} {on : Bool}

theorem State.domainVerdict_refused (h : s.domainBad d on = true) : s.domainVerdict d on = .refused 0x0F 0 := if_pos h

theorem State.domainVerdict_on (hon : on = true) (h : s.domainBad d true = false) :
    s.domainVerdict d on = .waits (s.restoreAsked d) (.domain d true) [] := by
  rw [hon, State.domainVerdict, h]
  rfl

theorem State.domainVerdict_off (hoff : on = false) (h : s.domainBad d false = false) :
    s.domainVerdict d on = .waits (s.fenceAsked d) (.domain d false) [] := by
  rw [hoff, State.domainVerdict, h]
  rfl

end

/-! ## The clock (R433, R434) -/

/-- The clock set to a number of seconds, and known. -/
def State.rtcSet (s : State) (sec : Nat) : State :=
  { s.setBit .pbStat 0 30 true with ht := { s.ht with rtcSec := BitVec.ofNat 48 sec, rtcSub := 0 } }

theorem State.rtcSet_spec (s : State) {sec : Nat} (h : sec < 2 ^ 48) : (s.rtcSet sec).flag .pbStat 0 30 = true
    ∧ (s.rtcSet sec).ht.rtcSec.toNat = sec ∧ (s.rtcSet sec).ht.rtcSub = 0 := by
  have hregs : (s.rtcSet sec).regs = (s.setBit .pbStat 0 30 true).regs := by simp only [State.rtcSet]
  refine ⟨?_, (BitVec.toNat_ofNat ..).trans (Nat.mod_eq_of_lt h), rfl⟩
  rw [State.flag, State.fld_congr hregs, ← State.flag, State.flag_setBit_true _ (by decide)]

/-- The state in which the clock is latched for a reader. -/
def State.rtcLatched (s : State) : State :=
  let t := ((s.setReg .pbRtcl 0 (BitVec.ofNat 32 s.ht.rtcSec.toNat)).setReg .pbRtch 0 (BitVec.ofNat 32 (s.ht.rtcSec.toNat / 2 ^ 32))).setReg
    .pbRtcsub 0 (BitVec.ofNat 32 s.ht.rtcSub.toNat)
  t.ans .ok [t.reg .pbRtcl 0]

/-- A latch holds the clock's seconds and fraction, and answers the seconds' lower half. -/
theorem State.rtcLatched_spec (s : State) : (s.rtcLatched.reg .pbRtcl 0).toNat = s.ht.rtcSec.toNat % 2 ^ 32
    ∧ (s.rtcLatched.reg .pbRtch 0).toNat = s.ht.rtcSec.toNat / 2 ^ 32 ∧ (s.rtcLatched.reg .pbRtcsub 0).toNat = s.ht.rtcSub.toNat
    ∧ s.rtcLatched.answer = ⟨.ok, [s.rtcLatched.reg .pbRtcl 0]⟩ ∧ s.rtcLatched.ht = s.ht := by
  have hsec := s.ht.rtcSec.isLt
  have hsub := s.ht.rtcSub.isLt
  have hregs : s.rtcLatched.regs = (((s.setReg .pbRtcl 0 (BitVec.ofNat 32 s.ht.rtcSec.toNat)).setReg .pbRtch 0
    (BitVec.ofNat 32 (s.ht.rtcSec.toNat / 2 ^ 32))).setReg .pbRtcsub 0 (BitVec.ofNat 32 s.ht.rtcSub.toNat)).regs := rfl
  have hl : s.rtcLatched.reg .pbRtcl 0 = BitVec.ofNat 32 s.ht.rtcSec.toNat := by
    rw [State.reg_congr hregs, State.reg_setReg_name _ _ _ _ (by decide), State.reg_setReg_name _ _ _ _ (by decide), State.reg_setReg_same]
  have hh : s.rtcLatched.reg .pbRtch 0 = BitVec.ofNat 32 (s.ht.rtcSec.toNat / 2 ^ 32) := by
    rw [State.reg_congr hregs, State.reg_setReg_name _ _ _ _ (by decide), State.reg_setReg_same]
  have hs : s.rtcLatched.reg .pbRtcsub 0 = BitVec.ofNat 32 s.ht.rtcSub.toNat := by
    rw [State.reg_congr hregs, State.reg_setReg_same]
  refine ⟨?_, ?_, ?_, ?_, rfl⟩
  · rw [hl, BitVec.toNat_ofNat]
  · rw [hh, BitVec.toNat_ofNat, Nat.mod_eq_of_lt (by omega)]
  · rw [hs, BitVec.toNat_ofNat, Nat.mod_eq_of_lt (by omega)]
  · rfl

/-! ## The obligation -/

/-- Settles O50: each call that stands comes to its own verdict, and what it writes is read back (R254, R401, R419, R426, R433, R434, R471,
R508, R541). -/
theorem deviceCallsDoWhatTheyName : Obligations.DeviceCallsDoWhatTheyName := by
  refine ⟨fun ch s => ⟨?info, ?pbread, ?bank, ?domain, ?portrate, ?pinown, ?trnom, ?bootcfg, ?rtcset, ?fwwrite, ?nvmwrite⟩, ?latch⟩
  case info =>
    intro hstands
    exact ⟨_, _, hstands.done rfl rfl⟩
  case pbread =>
    intro hstands
    exact hstands.done rfl rfl
  case bank =>
    intro hstands b
    have hb : b < 32 := (bits_lt ..).trans (by decide)
    refine ⟨fun hdiffers => ?_, fun hsame => ?_⟩
    · refine hstands.done (if_neg fun e => hdiffers (beq_iff_eq.mp e)) ?_
      cases hon : bit (s.reqW ch.val 1) 31 with
      | true => exact State.flag_setBit _ _ _ _ hb
      | false => exact State.bankOffline_online _ hb
    · exact hstands.refused (if_pos (beq_iff_eq.mpr hsame)) rfl
  case domain =>
    rw [show exec (.domainCall ch) s = _ from execDomainCall_eq ch s]
    intro hstands d
    refine ⟨fun hd hrunning => ⟨fun hon hdown => ?_, fun hoff hpowered hopen hgrove => ?_, fun hoff hbank honline => ?_⟩, fun hbad => ?_⟩
    · have hgood : (s.taken ch).domainBad d true = false := by
        have hp : (s.taken ch).powered d = false := hdown
        have hc : (s.taken ch).fld .cfStat 0 31 28 = 5 := hrunning
        simp [State.domainBad, hd, hp, hc]
      refine hstands.waits (State.domainVerdict_on hon hgood) fun t ht => ?_
      obtain ⟨⟨-, -, hpw, -⟩, hreg⟩ := ht
      exact ⟨by rw [hpw, State.restoreAsked, Tbl.rd_wr_same], (State.flag_of_reg (hreg .pwDompwr _ (by decide)) _).trans hdown⟩
    · have hgood : (s.taken ch).domainBad d false = false := by
        have hp : (s.taken ch).powered d = true := hpowered
        have ho : (s.taken ch).closed d = false := hopen
        have hc : (s.taken ch).fld .cfStat 0 31 28 = 5 := hrunning
        simp [State.domainBad, hd, hp, ho, hc, hgrove]
      refine hstands.waits (State.domainVerdict_off hoff hgood) fun t ht => ?_
      obtain ⟨⟨-, -, hpw, -⟩, hreg⟩ := ht
      exact ⟨by rw [hpw, State.fenceAsked, Tbl.rd_wr_same], (State.flag_of_reg (hreg .pwDompwr _ (by decide)) _).trans hpowered⟩
    · have hrefused : (s.taken ch).domainBad d (bit (s.reqW ch.val 1) 31) = true := by
        have ho : (s.taken ch).online (d - 80) = true := honline
        simp [State.domainBad, hoff, hbank, ho]
      exact hstands.refused (State.domainVerdict_refused hrefused) rfl
    · have hrefused : (s.taken ch).domainBad d (bit (s.reqW ch.val 1) 31) = true := by
        have hor : (s.taken ch).fld .cfStat 0 31 28 ≠ 5 ∨ (s.taken ch).powered d = bit (s.reqW ch.val 1) 31 := hbad
        rcases hor with h | h <;> simp [State.domainBad, h]
      exact hstands.refused (State.domainVerdict_refused hrefused) rfl
  case portrate =>
    intro hstands
    refine ⟨fun hcovers => ?_, fun hshort => ?_⟩
    · refine hstands.done (if_neg (Nat.not_lt.mpr hcovers)) ⟨?_, fun i hi => ?_⟩
      · rw [State.reg_setReg_same, State.ofNat_reqW]
      · exact State.reg_setReg_index _ _ _ hi
    · exact hstands.refused (if_pos hshort) rfl
  case pinown =>
    intro hstands n o
    obtain ⟨hown, htag, hout, hoe, hothers⟩ := (s.taken ch).ownPin_spec n o 0x3FF
    have hvalid (h : o ≤ 9 ∨ o = 15) : ¬(decide (9 < o) && o != 15) = true := by
      simp only [Bool.and_eq_true, decide_eq_true_eq, bne_iff_ne]
      omega
    refine ⟨fun ho hpin => ?_, fun hlow hhigh => ?_, fun ho hpin => ?_⟩
    · have hfree : ¬((s.taken ch).pinOwner n == 0xA) = true := fun e => hpin (beq_iff_eq.mp e)
      exact hstands.done ((if_neg (hvalid ho)).trans (if_neg hfree))
        ⟨hown.trans (Nat.mod_eq_of_lt (bits_lt ..)), htag, hout, hoe, hothers⟩
    · have hbad : (decide (9 < o) && o != 15) = true := by simp [hlow, hhigh]
      exact hstands.refused (if_pos hbad) rfl
    · exact hstands.refused ((if_neg (hvalid (.inl ho))).trans (if_pos (beq_iff_eq.mpr hpin))) rfl
  case trnom =>
    intro hstands
    exact hstands.done rfl (by rw [State.reg_setReg_same, State.ofNat_reqW])
  case bootcfg =>
    intro hstands w2 w3
    refine ⟨fun hwrites halign htop => ?_, fun hleaves => ?_, fun hwrites hbad => ?_⟩
    · have hgood : ¬(bit w2 31 && (w3 % 512 != 0 || decide (0x1800000 ≤ w3))) = true := by simp [halign, htop]
      refine hstands.done (if_neg hgood) ?_
      rw [hwrites, if_pos rfl]
      refine ⟨?_, ?_⟩
      · rw [State.reg_setReg_index _ _ _ (by decide), State.reg_setReg_same, State.ofNat_reqW]
      · rw [State.reg_setReg_same, State.ofNat_reqW]
    · have hgood : ¬(bit w2 31 && (w3 % 512 != 0 || decide (0x1800000 ≤ w3))) = true := by simp [hleaves]
      refine hstands.done (if_neg hgood) ?_
      rw [hleaves, if_neg Bool.false_ne_true]
      refine ⟨?_, ?_⟩
      · rw [State.reg_setReg_same, State.ofNat_reqW]
      · rw [State.reg_setReg_index _ _ _ (by decide)]
        rfl
    · have hrefused : (bit w2 31 && (w3 % 512 != 0 || decide (0x1800000 ≤ w3))) = true := by simpa [hwrites] using hbad
      exact hstands.refused (if_pos hrefused) rfl
  case rtcset =>
    intro hstands
    have hhigh : s.reqW ch.val 2 < 2 ^ 16 := hstands.word_lt (k := 1) (by decide) rfl
    have hlow := s.reqW_lt ch.val 1
    exact hstands.done (t := (s.taken ch).rtcSet (s.reqW ch.val 2 * 2 ^ 32 + s.reqW ch.val 1)) rfl ((s.taken ch).rtcSet_spec (by omega))
  case fwwrite =>
    intro l hstands hblock
    refine ⟨fun hgood => ?_, fun r hbad => ?_⟩
    · have hreason : (s.taken ch).fwReason l = none := hgood
      exact hstands.done (t := ((s.taken ch).nvmPut (fwBase (s.reqW ch.val 3)) l).keepBlock l)
        ((State.block_of_callBlock _ hblock).trans (by simp only [hreason]; rfl)) ⟨(s.taken ch).nvmBytes_nvmPut _ l, rfl⟩
    · have hreason : (s.taken ch).fwReason l = some r := hbad
      exact hstands.refused ((State.block_of_callBlock _ hblock).trans (by simp only [hreason]; rfl)) rfl
  case nvmwrite =>
    intro hstands o n
    refine ⟨fun l ho hn htop hend hblock => ?_, fun hbad => ?_⟩
    · have hgood : ¬(o % 512 != 0 || n % 512 != 0 || decide (0x1800000 ≤ o) || decide (slotEnd o < o + n)) = true := by
        simp [ho, hn, htop, hend]
      have hlen : l.length = n := State.callBlock_length hblock
      obtain ⟨-, hothers⟩ := (s.taken ch).nvmPut_rd o l
      refine hstands.done (t := ((s.taken ch).nvmPut o l).keepBlock l)
        ((if_neg hgood).trans (State.block_of_callBlock _ hblock)) ⟨?_, ?_, rfl⟩
      · exact hlen ▸ (s.taken ch).nvmBytes_nvmPut o l
      · exact hlen ▸ hothers
    · have hrefused : (o % 512 != 0 || n % 512 != 0 || decide (0x1800000 ≤ o) || decide (slotEnd o < o + n)) = true := by
        simp only [Bool.or_eq_true, decide_eq_true_eq, bne_iff_ne]
        omega
      exact hstands.refused (if_pos hrefused) rfl
  case latch =>
    intro p s hp
    have hlatch : exec (.rtcReadLatch p) s = .next s.rtcLatched := by
      rcases hp with rfl | ⟨c, rfl⟩ <;> rfl
    exact ⟨_, hlatch, s.rtcLatched_spec⟩

end Sys2Proof.Machine
end

section
/-! SUPPORT. Registers that the operator alone writes (R10, R12, R263, R266, R302-R308): what a write of one comes to, field by field; and a
change made for each of some elements. -/

namespace Sys2Proof.Machine

/-! ## The operator's writes (R10, R12) -/

/-- Registers of the lanes and of the time base that act on a write: each field is read-only or the operator's. -/
def ofOperator (n : RegName) : Prop := n = .lnCfg ∨ n = .lnTrain ∨ n = .lnEyectl ∨ n = .lnCntctl ∨ n = .msTbcmd

theorem fields_ofOperator {n : RegName} (i : Nat) (h : ofOperator n) : (n.fields i).Pairwise Field.Apart
    ∧ (∀ f ∈ n.fields i, f.ty = .ro ∨ f.names .o = true) ∧ n ≠ .msAlarm := by
  rcases h with rfl | rfl | rfl | rfl | rfl <;>
    simp [RegName.fields, Field.Apart, Field.names, Sys2Proof.fO, Sys2Proof.fR, Sys2Proof.cO, Sys2Proof.act]

section
variable {p : Writer} {ok : Nat → Nat → Bool} (w : Nat)

theorem judgeField_acts_idle (j : Judged) {f : Field} (hty : f.ty = .wo) (hno : bits w f.hi f.lo = 0 ∨ ok f.lo (bits w f.hi f.lo) = false) :
    (judgeField p ok w j f).acts = j.acts := by
  unfold judgeField
  dsimp only
  split_ifs with hjudged hnames hok
  · rcases hno with hno | hno
    · simp [Field.judged, hty, hno] at hjudged
    · rw [hno] at hok
      cases hok
  all_goals rfl

/-- An action field that is written 0, or whose rule refuses the value, does not act. -/
theorem judge_idle {fs : List Field} (hd : fs.Pairwise Field.Apart) (cur : Nat) {f : Field} (hf : f ∈ fs) (hty : f.ty = .wo)
    (hno : bits w f.hi f.lo = 0 ∨ ok f.lo (bits w f.hi f.lo) = false) : bits (judge fs p ok cur w).acts f.hi f.lo = 0 := by
  have hfold (j : Judged) : bits (fs.foldl (judgeField p ok w) j).acts f.hi f.lo = bits j.acts f.hi f.lo := by
    induction fs generalizing j with
    | nil => cases hf
    | cons g r ih =>
      obtain ⟨hg, hr⟩ := List.pairwise_cons.mp hd
      rw [List.foldl_cons]
      rcases List.mem_cons.mp hf with rfl | hmem
      · rw [foldl_judgeField_acts_apart w _ f (fun x hx => (hg x hx).symm), judgeField_acts_idle w j hty hno]
      · rw [ih hr hmem, judgeField_acts_apart w j (hg f hmem)]
  exact (hfold _).trans (by simp [bits])

end

section
variable (s : State) {p : Party} {n : RegName} {i : Nat} {extra : Nat → Nat → Bool} {w : Word} {f : Field}
variable (hn : ofOperator n) (hp : p.writer = .o)

section
include hn hp

/-- The operator is refused no such register for its writer. -/
theorem State.judgeOp_byWriter : (s.judgeW p n i extra w).byWriter = false := by
  obtain ⟨hd, hnames, -⟩ := fields_ofOperator i hn
  rw [Bool.eq_false_iff, Ne, State.judgeW, judge, foldl_judgeField_byWriter _ _ _ hd, hp]
  rintro (h | ⟨f, hf, hj, hno⟩)
  · cases h
  · rcases hnames f hf with hro | hyes
    · simp [Field.judged, hro] at hj
    · simp [hyes] at hno

/-- A write whose values every field allows completes. -/
theorem State.judgeOp_ok (hok : ∀ f ∈ n.fields i, (n.okVal i f.lo (bits w.toNat f.hi f.lo) && extra f.lo (bits w.toNat f.hi f.lo)) = true) :
    (s.judgeW p n i extra w).status = .ok :=
  Judged.status_ok (by simp [s.judgeOp_byWriter hn hp])
    (Bool.eq_false_iff.mp (judge_allowed (p := p.writer) (ok := fun lo v => n.okVal i lo v && extra lo v) _ _
      (fields_ofOperator i hn).1 hok))

/-- A write is refused for the value of a field that it changes or that acts. -/
theorem State.judgeOp_denied (hf : f ∈ n.fields i) (hj : f.judged (s.fld n i f.hi f.lo) (bits w.toNat f.hi f.lo) = true)
    (hno : (n.okVal i f.lo (bits w.toNat f.hi f.lo) && extra f.lo (bits w.toNat f.hi f.lo)) = false) :
    (s.judgeW p n i extra w).status = .denied := by
  obtain ⟨hd, hnames, -⟩ := fields_ofOperator i hn
  refine Judged.status_denied (.inr ((foldl_judgeField_byValue _ _ _ hd _).mpr (.inr ⟨f, hf, hj, ?_, hno⟩)))
  rcases hnames f hf with hro | hyes
  · simp [Field.judged, hro] at hj
  · exact hp ▸ hyes

/-- A plain field takes the value written, where its rule allows it. -/
theorem State.judgeOp_takes (hf : f ∈ n.fields i) (hty : f.ty = .rw)
    (hok : (n.okVal i f.lo (bits w.toNat f.hi f.lo) && extra f.lo (bits w.toNat f.hi f.lo)) = true) :
    bits (s.judgeW p n i extra w).val f.hi f.lo = bits w.toNat f.hi f.lo := by
  obtain ⟨hd, hnames, -⟩ := fields_ofOperator i hn
  refine judge_takes _ _ hd hf hty ?_ hok
  rcases hnames f hf with hro | hyes
  · simp [hro] at hty
  · exact hp ▸ hyes

/-- An action bit that is written 1 acts, where its rule allows it. -/
theorem State.judgeOp_acts (hf : f ∈ n.fields i) (hty : f.ty = .wo) (hlo : f.hi = f.lo) (hw : bits w.toNat f.hi f.lo = 1)
    (hok : (n.okVal i f.lo 1 && extra f.lo 1) = true) : bit (s.judgeW p n i extra w).acts f.lo = true := by
  obtain ⟨hd, hnames, -⟩ := fields_ofOperator i hn
  have hyes : f.names p.writer = true := by
    rcases hnames f hf with hro | hyes
    · simp [hro] at hty
    · exact hp ▸ hyes
  have hacts := judge_acts (p := p.writer) (ok := fun lo v => n.okVal i lo v && extra lo v) w.toNat hty hyes (by rw [hw]; exact hok)
    (by simp [hw]) hd (s.reg n i).toNat hf
  rw [hw, hlo] at hacts
  simp [bit_eq_bits, State.judgeW, hacts]

/-- A write of the operator's changes its own register and the answer alone. -/
theorem State.landOp : s.land n i (s.judgeW p n i extra w)
    = (s.setReg n i (BitVec.ofNat 32 (s.judgeW p n i extra w).val)).ans (s.judgeW p n i extra w).status [] := by
  simp [State.land, s.judgeOp_byWriter hn hp]

end

include hn

/-- A read-only field, and one whose rule refuses the value, keeps what it holds. -/
theorem State.judgeOp_keeps (hf : f ∈ n.fields i)
    (hno : f.ty = .ro ∨ (n.okVal i f.lo (bits w.toNat f.hi f.lo) && extra f.lo (bits w.toNat f.hi f.lo)) = false) :
    bits (s.judgeW p n i extra w).val f.hi f.lo = s.fld n i f.hi f.lo := by
  refine (foldl_judgeField_bits _ _ _ (fields_ofOperator i hn).1 _ hf).trans ?_
  rcases hno with hro | hno
  · exact Field.landed_of_not_judged _ _ (by simp [Field.judged, hro])
  · exact Field.landed_of_refused _ _ _ (.inr hno)

/-- An action bit that is written 0, or whose rule refuses the value, does not act. -/
theorem State.judgeOp_idle (hf : f ∈ n.fields i) (hty : f.ty = .wo) (hlo : f.hi = f.lo)
    (hno : bits w.toNat f.hi f.lo = 0 ∨ (n.okVal i f.lo (bits w.toNat f.hi f.lo) && extra f.lo (bits w.toNat f.hi f.lo)) = false) :
    bit (s.judgeW p n i extra w).acts f.lo = false := by
  have hacts := judge_idle (p := p.writer) (ok := fun lo v => n.okVal i lo v && extra lo v) w.toNat (fields_ofOperator i hn).1
    (s.reg n i).toNat hf hty hno
  rw [hlo] at hacts
  simp [bit_eq_bits, State.judgeW, hacts]

end

/-! ## Bits of a register -/

section
variable (s : State) {n m : RegName} {i k b c hi lo : Nat}

/-- A field write leaves the bits beside the field. -/
theorem State.flag_setFld_apart (v : Nat) (hb : b < 32) (ha : b < lo ∨ hi < b) : (s.setFld n i hi lo v).flag n i b = s.flag n i b := by
  rw [State.flag, s.fld_setFld_apart v hb ha, ← State.flag]

/-- A bit set leaves the others. -/
theorem State.flag_setBit_other (v : Bool) (hb : b < 32) (hc : b ≠ c) : (s.setBit n i c v).flag n i b = s.flag n i b :=
  s.flag_setFld_apart _ hb (by omega)

/-- A bit set leaves the registers of other names and indices. -/
theorem State.reg_setBit_other (v : Bool) (h : ¬ (m = n ∧ k = i)) : (s.setBit n i b v).reg m k = s.reg m k :=
  s.reg_setReg_other _ _ _ _ _ (fun e => h (regKey_inj e))

theorem State.flag_congr {s t : State} (h : t.regs = s.regs) (n : RegName) (i b : Nat) : t.flag n i b = s.flag n i b :=
  State.flag_of_reg (State.reg_congr h n i) b

end

/-! ## A change for each of some elements -/

/-- What the change for one element brings about, and the change for any keeps, stands at the end. -/
theorem forEach_reaches {α : Type} {P : State → Prop} {f : α → State → State} {a : α} {l : List α} (ha : a ∈ l)
    (hset : ∀ s, P (f a s)) (hkeep : ∀ b s, P s → P (f b s)) (s : State) : P (forEach l s f) := by
  induction l generalizing s with
  | nil => cases ha
  | cons b r ih =>
    rw [forEach, List.foldl_cons]
    rcases List.mem_cons.mp ha with rfl | hr
    · exact List.foldlRecOn r (fun s a => f a s) (hset s) (fun t ht b _ => hkeep b t ht)
    · exact ih hr (f b s)

end Sys2Proof.Machine
end

section
/-! SUPPORT. Lanes enabled, trained and measured (R263, R265, R266, R294, R302-R305): what the writes of LN_CFG, LN_TRAIN and LN_EYECTL come
to, and what an enabled lane starts with; the obligation on them. -/

namespace Sys2Proof.Machine

/-! ## LN_STAT (R303) -/

section
variable (s : State) {i b c sticky : Nat}

/-- A lane's loss changes LN_STAT of the lane alone. -/
theorem State.laneLoses_other {m : RegName} {k : Nat} (h : ¬ (m = .lnStat ∧ k = i)) : (s.laneLoses i b sticky).reg m k = s.reg m k := by
  unfold State.laneLoses
  split
  · rw [State.laneSticky, State.reg_setBit_other _ _ h, State.reg_setBit_other _ _ h]
  · rfl

/-- What a lane has lost reads 0. -/
theorem State.laneLoses_lost (hb : b < 32) (hs : b ≠ sticky) : (s.laneLoses i b sticky).flag .lnStat i b = false := by
  unfold State.laneLoses
  split
  · rw [State.laneSticky, State.flag_setBit_other _ _ hb hs, State.flag_setBit _ _ _ _ hb]
  · next h => exact Bool.eq_false_iff.mpr h

/-- A loss leaves the bits but what is lost and its sticky bit. -/
theorem State.laneLoses_flag (hc : c < 32) (hb : c ≠ b) (hs : c ≠ sticky) :
    (s.laneLoses i b sticky).flag .lnStat i c = s.flag .lnStat i c := by
  unfold State.laneLoses
  split
  · rw [State.laneSticky, State.flag_setBit_other _ _ hc hs, State.flag_setBit_other _ _ hc hb]
  · rfl

theorem State.laneLoses_answer : (s.laneLoses i b sticky).answer = s.answer := by
  unfold State.laneLoses
  split <;> rfl

end

/-! ## A Pyril lane enters DOWN (R294) -/

section
variable (s : State) (j : Nat)

theorem State.pyDown_regs : (s.pyDown j).regs
    = (((s.setFld .lnPyl j 15 0 (s.fld .lnPyl j 15 0 + 1)).setFld .lnStat j 28 27 1).setBit .lnStat j 3 true).regs := rfl

/-- It changes the lane's epoch and its state alone among the registers. -/
theorem State.pyDown_reg {n : RegName} (i : Nat) (hp : n ≠ .lnPyl) (hs : n ≠ .lnStat) : (s.pyDown j).reg n i = s.reg n i := by
  rw [State.reg_congr (s.pyDown_regs j), State.reg_setBit_other _ _ (fun h => hs h.1), State.reg_setFld_name _ _ hs,
    State.reg_setFld_name _ _ hp]

theorem State.pyDown_pySt : (s.pyDown j).pySt j = 1 := by
  rw [State.pySt, State.fld_congr (s.pyDown_regs j), State.setBit, State.fld_setFld_apart _ _ (by decide) (by decide),
    State.fld_setFld _ _ (by decide)]
  rfl

/-- Its answer, and what the lane's engine knows, are left. -/
theorem State.pyDown_frame : (s.pyDown j).answer = s.answer ∧ (s.pyDown j).ln.py = s.ln.py ∧ (s.pyDown j).fc = s.fc := by
  simp [State.pyDown, State.laneSticky]

theorem State.pyDown_epoch : (s.pyDown j).fld .lnPyl j 15 0 = (s.fld .lnPyl j 15 0 + 1) % 2 ^ 16 := by
  rw [State.fld_congr (s.pyDown_regs j), State.fld, State.setBit, State.reg_setFld_name _ _ (by decide),
    State.reg_setFld_name _ _ (by decide), ← State.fld, State.fld_setFld _ _ (by decide)]

/-- PYCHG tells of it. -/
theorem State.pyDown_told : (s.pyDown j).flag .lnStat j 3 = true :=
  (State.flag_congr (s.pyDown_regs j) _ _ _).trans (State.flag_setBit_true _ (by decide))

theorem State.pyDown_flag {b : Nat} (hb : b < 32) (h3 : b ≠ 3) (hst : b < 27 ∨ 28 < b) :
    (s.pyDown j).flag .lnStat j b = s.flag .lnStat j b := by
  rw [State.flag_congr (s.pyDown_regs j), State.flag_setBit_other _ _ hb h3, State.flag_setFld_apart _ _ hb hst]
  exact State.flag_of_reg (State.reg_setFld_name _ _ (by decide)) b

end

/-! ## A lane starts afresh (R265, R281, R294) -/

/-- A lane's lock, alignment and calibration are lost. -/
def State.laneAfresh (i : Nat) (s : State) : State := ((s.laneLoses i 31 7).laneLoses i 30 6).setBit .lnStat i 29 false

/-- LOCK and CALDONE of a lane are 0. -/
def unlocked (j : Nat) (s : State) : Prop := s.flag .lnStat j 31 = false ∧ s.flag .lnStat j 29 = false

section
variable (s : State) (i j : Nat)

theorem State.laneAfresh_other {m : RegName} {k : Nat} (h : ¬ (m = .lnStat ∧ k = i)) : (s.laneAfresh i).reg m k = s.reg m k := by
  rw [State.laneAfresh, State.reg_setBit_other _ _ h, State.laneLoses_other _ h, State.laneLoses_other _ h]

theorem State.laneAfresh_unlocked : unlocked i (s.laneAfresh i) := by
  refine ⟨?_, State.flag_setBit _ _ _ _ (by decide)⟩
  rw [State.laneAfresh, State.flag_setBit_other _ _ (by decide) (by decide),
    State.laneLoses_flag _ (by decide) (by decide) (by decide), State.laneLoses_lost _ (by decide) (by decide)]

theorem State.laneAfresh_answer : (s.laneAfresh i).answer = s.answer := by
  simp [State.laneAfresh, State.laneLoses_answer]

/-- What a lane has lost stays lost when another starts afresh. -/
theorem State.laneAfresh_keeps (h : unlocked j s) : unlocked j (s.laneAfresh i) := by
  by_cases hij : j = i
  · exact hij ▸ s.laneAfresh_unlocked j
  · have hreg := s.laneAfresh_other i (m := .lnStat) (k := j) (fun e => hij e.2)
    exact ⟨(State.flag_of_reg hreg 31).trans h.1, (State.flag_of_reg hreg 29).trans h.2⟩

/-- The first lane of a port is a member of it. -/
theorem State.mem_members : j ∈ s.members j :=
  List.mem_map.mpr ⟨0, List.mem_range.mpr (Nat.two_pow_pos _), rfl⟩

/-- The member lanes have started afresh, and nothing waits to be sent. -/
def State.portAfresh : State := (forEach (s.members j) s State.laneAfresh).setTx j txZero

theorem State.laneUp_eq : s.laneUp j = if (s.portAfresh j).flag .lnCfg j 20 then
    ((s.portAfresh j).setPy j { (s.portAfresh j).py j with helloAt := (s.portAfresh j).fc, first := true }).pyDown j
    else s.portAfresh j := rfl

theorem State.portAfresh_frame : (s.portAfresh j).regs = (forEach (s.members j) s State.laneAfresh).regs
    ∧ (s.portAfresh j).answer = (forEach (s.members j) s State.laneAfresh).answer := ⟨rfl, rfl⟩

theorem State.portAfresh_reg {n : RegName} (k : Nat) (hs : n ≠ .lnStat) : (s.portAfresh j).reg n k = s.reg n k :=
  (State.reg_congr (s.portAfresh_frame j).1 n k).trans
    (forEach_keeps (·.reg n k) _ _ _ fun i t => t.laneAfresh_other i fun e => hs e.1)

/-- What is known of the peer has no part in entering DOWN. -/
theorem State.pyDown_setPy_regs (x : PyrilSt) : ((s.setPy j x).pyDown j).regs = (s.pyDown j).regs := rfl

/-- The registers of an enabled lane that starts afresh. -/
theorem State.laneUp_regs : (s.laneUp j).regs
    = if (s.portAfresh j).flag .lnCfg j 20 then ((s.portAfresh j).pyDown j).regs else (s.portAfresh j).regs := by
  rw [State.laneUp_eq, apply_ite State.regs, State.pyDown_setPy_regs]

/-- An enabled lane that starts afresh keeps every register but LN_STAT and its epoch. -/
theorem State.laneUp_reg {n : RegName} (k : Nat) (hp : n ≠ .lnPyl) (hs : n ≠ .lnStat) : (s.laneUp j).reg n k = s.reg n k := by
  have hregs := s.laneUp_regs j
  split at hregs
  · rw [State.reg_congr hregs, State.pyDown_reg _ _ _ hp hs, s.portAfresh_reg j k hs]
  · rw [State.reg_congr hregs, s.portAfresh_reg j k hs]

theorem State.laneUp_unlocked : unlocked j (s.laneUp j) := by
  have hmembers : unlocked j (forEach (s.members j) s State.laneAfresh) :=
    forEach_reaches (s.mem_members j) (fun t => t.laneAfresh_unlocked j) (fun i t => t.laneAfresh_keeps i j) s
  have hport {b : Nat} := State.flag_congr (s.portAfresh_frame j).1 .lnStat j b
  obtain ⟨hlock, hcal⟩ := hmembers
  have hregs := s.laneUp_regs j
  split at hregs
  · rw [unlocked, State.flag_congr hregs, State.flag_congr hregs, State.pyDown_flag _ _ (by decide) (by decide) (by decide),
      State.pyDown_flag _ _ (by decide) (by decide) (by decide), hport, hport]
    exact ⟨hlock, hcal⟩
  · rw [unlocked, State.flag_congr hregs, State.flag_congr hregs, hport, hport]
    exact ⟨hlock, hcal⟩

/-- An enabled Pyril lane starts DOWN. -/
theorem State.laneUp_pySt (h : s.flag .lnCfg j 20 = true) : (s.laneUp j).pySt j = 1 := by
  have hregs := s.laneUp_regs j
  rw [if_pos ((State.flag_of_reg (s.portAfresh_reg j j (by decide)) 20).trans h)] at hregs
  rw [State.pySt, State.fld_congr hregs]
  exact State.pyDown_pySt _ j

theorem State.laneUp_answer : (s.laneUp j).answer = s.answer := by
  have hport : (s.portAfresh j).answer = s.answer := (s.portAfresh_frame j).2.trans
    (forEach_keeps (·.answer) _ _ _ fun i t => t.laneAfresh_answer i)
  rw [State.laneUp_eq]
  split
  · rw [(State.pyDown_frame _ j).1]
    exact hport
  · exact hport

end

/-! ## LANE_ENABLE (R263) -/

/-- The operator's write of a lane register goes to the register's own rule. -/
theorem State.writeLn_op (s : State) {p : Party} (hp : p.isOp = true) (j : Nat) (w : Word) :
    s.writeLn p .lnCfg j w = s.writeLnCfg p j w ∧ s.writeLn p .lnTrain j w = s.writeTrain p j w
    ∧ s.writeLn p .lnEyectl j w = s.writeEye p j w ∧ s.writeLn p .lnCntctl j w = s.writeCntctl p j w := by
  cases p with
  | core n => exact ⟨rfl, rfl, rfl, rfl⟩
  | pf0 => exact ⟨rfl, rfl, rfl, rfl⟩
  | heartwood => cases hp
  | tenant n => cases hp

/-- The operator's write of LN_CFG, judged. -/
def State.cfgJudged (s : State) (p : Party) (j : Nat) (w : Word) : Judged := s.judgeW p .lnCfg j (fun _ _ => true) w

theorem State.flag_eq_bit (s : State) (n : RegName) (i b : Nat) : s.flag n i b = bit (s.reg n i).toNat b := (bit_eq_bits _ _).symm

section
variable {s : State} {p : Party} {j : Nat} {w : Word} (hp : p.isOp = true)
include hp

theorem State.cfgJudged_byWriter : (s.cfgJudged p j w).byWriter = false :=
  s.judgeOp_byWriter (.inl rfl) (writer_of_isOp hp)

section
variable (hen : s.lnEn j = false) (hw : bit w.toNat 31 = true)
include hen hw

/-- EN of a disabled lane that passes the checks: the fields land, and the lane starts afresh. -/
theorem State.writeLnCfg_enables (hok : s.enableOk j w.toNat = true) :
    s.writeLnCfg p j w = (s.land .lnCfg j (s.cfgJudged p j w)).laneUp j := by
  have hbw : ¬ (s.cfgJudged p j w).byWriter = true := by simp [State.cfgJudged_byWriter hp]
  rw [State.lnEn, State.flag_eq_bit] at hen
  exact (if_neg hbw).trans ((if_neg (by simp [hen])).trans ((if_pos hw).trans (if_neg (by simp [hok]))))

/-- EN of a disabled lane that fails a check is refused whole. -/
theorem State.writeLnCfg_fails (hok : s.enableOk j w.toNat = false) : s.writeLnCfg p j w = s.ans .denied [] := by
  have hbw : ¬ (s.cfgJudged p j w).byWriter = true := by simp [State.cfgJudged_byWriter hp]
  rw [State.lnEn, State.flag_eq_bit] at hen
  exact (if_neg hbw).trans ((if_neg (by simp [hen])).trans ((if_pos hw).trans (if_pos (by simp [hok]))))

end

/-- A change of another field of an enabled lane is refused whole. -/
theorem State.writeLnCfg_enabled (hen : s.lnEn j = true)
    (hother : bits (s.reg .lnCfg j).toNat 30 20 ≠ bits w.toNat 30 20 ∨ bits (s.reg .lnCfg j).toNat 13 0 ≠ bits w.toNat 13 0) :
    s.writeLnCfg p j w = s.ans .denied [] := by
  have hbw : ¬ (s.cfgJudged p j w).byWriter = true := by simp [State.cfgJudged_byWriter hp]
  rw [State.lnEn, State.flag_eq_bit] at hen
  exact (if_neg hbw).trans ((if_pos hen).trans (if_pos (by simpa using hother)))

/-- Every field of LN_CFG but MAXLEN takes the value written. -/
theorem State.cfgJudged_takes {f : Field} (hf : f ∈ RegName.lnCfg.fields j) (hlo : f.lo ≠ 0) :
    bits (s.cfgJudged p j w).val f.hi f.lo = bits w.toNat f.hi f.lo := by
  have hty : ∀ f ∈ RegName.lnCfg.fields j, f.ty = .rw := by simp [RegName.fields, Sys2Proof.fO]
  exact s.judgeOp_takes (.inl rfl) (writer_of_isOp hp) hf (hty f hf) (by simp [RegName.okVal, hlo])

/-- RATE, RAW, FEC, LANES, PMD, FCS and PYRIL as written. -/
theorem State.cfgJudged_mode : bits (s.cfgJudged p j w).val 30 20 = bits w.toNat 30 20 := by
  have htakes {hi lo rst : Nat} (hf : Sys2Proof.fO hi lo rst ∈ RegName.lnCfg.fields j) (hlo : lo ≠ 0) :
      bits (s.cfgJudged p j w).val hi lo = bits w.toNat hi lo := State.cfgJudged_takes hp hf hlo
  have h20 := htakes (hi := 20) (lo := 20) (rst := 0) (by simp [RegName.fields]) (by decide)
  have h21 := htakes (hi := 21) (lo := 21) (rst := 1) (by simp [RegName.fields]) (by decide)
  have h23 := htakes (hi := 23) (lo := 22) (rst := 0) (by simp [RegName.fields]) (by decide)
  have h25 := htakes (hi := 25) (lo := 24) (rst := 0) (by simp [RegName.fields]) (by decide)
  have h26 := htakes (hi := 26) (lo := 26) (rst := 0) (by simp [RegName.fields]) (by decide)
  have h27 := htakes (hi := 27) (lo := 27) (rst := 0) (by simp [RegName.fields]) (by decide)
  have h30 := htakes (hi := 30) (lo := 28) (rst := 0) (by simp [RegName.fields]) (by decide)
  exact bits_eq_of_parts h20 (bits_eq_of_parts h21 (bits_eq_of_parts h23 (bits_eq_of_parts h25 (bits_eq_of_parts h26
    (bits_eq_of_parts h27 h30)))))

/-- A MAXLEN of 64 or more is taken. -/
theorem State.cfgJudged_maxlen (hlen : 64 ≤ bits w.toNat 13 0) :
    bits (s.cfgJudged p j w).val 13 0 = bits w.toNat 13 0 ∧ (s.cfgJudged p j w).status = .ok := by
  refine ⟨s.judgeOp_takes (f := Sys2Proof.fO 13 0 9600) (.inl rfl) (writer_of_isOp hp) (by simp [RegName.fields]) rfl
    (by simp [Sys2Proof.fO, RegName.okVal, hlen]), s.judgeOp_ok (.inl rfl) (writer_of_isOp hp) ?_⟩
  simp [RegName.fields, Sys2Proof.fO, RegName.okVal, hlen]

/-- Another MAXLEN below 64 is refused, and the field keeps its value. -/
theorem State.cfgJudged_short (hlen : bits w.toNat 13 0 < 64) (hne : bits w.toNat 13 0 ≠ s.fld .lnCfg j 13 0) :
    bits (s.cfgJudged p j w).val 13 0 = s.fld .lnCfg j 13 0 ∧ (s.cfgJudged p j w).status = .denied := by
  have hf : Sys2Proof.fO 13 0 9600 ∈ RegName.lnCfg.fields j := by simp [RegName.fields]
  have hno : (RegName.lnCfg.okVal j 0 (bits w.toNat 13 0) && true) = false := by simp [RegName.okVal, hlen]
  exact ⟨s.judgeOp_keeps (.inl rfl) hf (.inr hno), s.judgeOp_denied (.inl rfl) (writer_of_isOp hp) hf
    (by simp [Field.judged, Sys2Proof.fO, hne.symm]) hno⟩

/-- What a lane that the operator enables holds. -/
theorem State.enabled_spec (hw : bit w.toNat 31 = true) : let t := (s.land .lnCfg j (s.cfgJudged p j w)).laneUp j
    t.lnEn j = true ∧ t.fld .lnCfg j 30 20 = bits w.toNat 30 20
    ∧ (64 ≤ bits w.toNat 13 0 → t.fld .lnCfg j 13 0 = bits w.toNat 13 0 ∧ t.answer = ⟨.ok, []⟩)
    ∧ (bits w.toNat 13 0 < 64 → bits w.toNat 13 0 ≠ s.fld .lnCfg j 13 0 →
        t.fld .lnCfg j 13 0 = s.fld .lnCfg j 13 0 ∧ t.answer = ⟨.denied, []⟩)
    ∧ t.flag .lnStat j 31 = false ∧ t.flag .lnStat j 29 = false ∧ (bit w.toNat 20 = true → t.pySt j = 1)
    ∧ ∀ i, i ≠ j → t.reg .lnCfg i = s.reg .lnCfg i := by
  set u := s.land .lnCfg j (s.cfgJudged p j w) with hu
  have hreg (k : Nat) : (u.laneUp j).reg .lnCfg k = u.reg .lnCfg k := u.laneUp_reg j k (by decide) (by decide)
  have hfld {hi : Nat} (lo : Nat) (h : hi < 32) : u.fld .lnCfg j hi lo = bits (s.cfgJudged p j w).val hi lo :=
    s.land_fld j _ lo (by decide) h
  have hfld' {hi : Nat} (lo : Nat) (h : hi < 32) : (u.laneUp j).fld .lnCfg j hi lo = bits (s.cfgJudged p j w).val hi lo := by
    rw [State.fld, hreg, ← State.fld, hfld lo h]
  have hbit {b : Nat} (hf : ∃ rst, Sys2Proof.fO b b rst ∈ RegName.lnCfg.fields j) (h0 : b ≠ 0) (h : b < 32) (hb : bit w.toNat b = true) :
      u.flag .lnCfg j b = true := by
    obtain ⟨rst, hf⟩ := hf
    rw [State.flag, hfld b h, show bits _ b b = bits w.toNat b b from State.cfgJudged_takes hp hf h0, ← bit_eq_bits, hb]
  have hanswer : (u.laneUp j).answer = ⟨(s.cfgJudged p j w).status, []⟩ := (u.laneUp_answer j).trans (s.land_answer ..)
  obtain ⟨hlock, hcal⟩ := u.laneUp_unlocked j
  refine ⟨?_, ?_, fun hlen => ?_, fun hlen hne => ?_, hlock, hcal, fun h20 => ?_, fun i hi => ?_⟩
  · exact (State.flag_of_reg (hreg j) 31).trans (hbit ⟨0, by simp [RegName.fields]⟩ (by decide) (by decide) hw)
  · exact (hfld' 20 (by decide)).trans (State.cfgJudged_mode hp)
  · obtain ⟨hval, hstatus⟩ := State.cfgJudged_maxlen (s := s) (j := j) hp hlen
    exact ⟨(hfld' 0 (by decide)).trans hval, by rw [hanswer, hstatus]⟩
  · obtain ⟨hval, hstatus⟩ := State.cfgJudged_short hp hlen hne
    exact ⟨(hfld' 0 (by decide)).trans hval, by rw [hanswer, hstatus]⟩
  · exact u.laneUp_pySt j (hbit ⟨0, by simp [RegName.fields]⟩ (by decide) (by decide) h20)
  · exact (hreg i).trans (s.land_reg_other j _ (fun e => hi e.2) (by decide))

end

/-! ## Training (R266) -/

section
variable {s : State} {p : Party} {j : Nat} {w : Word} (hp : p.isOp = true) (hstart : bits w.toNat 31 31 = 1)
include hp hstart

/-- START of training acts. -/
theorem State.judge_train_acts : bit (s.judgeW p .lnTrain j (fun _ _ => true) w).acts 31 = true :=
  s.judgeOp_acts (f := Sys2Proof.act 31 31 false true false) (.inr (.inl rfl)) (writer_of_isOp hp) (by simp [RegName.fields]) rfl rfl
    hstart (by simp [RegName.okVal, Sys2Proof.act])

theorem State.writeTrain_refused (hbad : s.trainBad j = true) : s.writeTrain p j w = s.ans .denied [] :=
  if_pos (by simp [State.judge_train_acts hp hstart, hbad])

/-- START with a time sets BUSY, and the time is taken. -/
theorem State.writeTrain_starts (htime : bits w.toNat 15 0 ≠ 0) (hgood : s.trainBad j = false) : let t := s.writeTrain p j w
    t.flag .lnTrain j 30 = true ∧ t.fld .lnTrain j 15 0 = bits w.toNat 15 0 ∧ t.answer = ⟨.ok, []⟩
    ∧ t.reg .lnTxeq j = s.reg .lnTxeq j := by
  have hn : ofOperator .lnTrain := .inr (.inl rfl)
  have hstatus : (s.judgeW p .lnTrain j (fun _ _ => true) w).status = .ok := s.judgeOp_ok hn (writer_of_isOp hp)
    (by simp [RegName.fields, Sys2Proof.fO, Sys2Proof.fR, Sys2Proof.act, RegName.okVal, htime])
  have htmo : bits (s.judgeW p .lnTrain j (fun _ _ => true) w).val 15 0 = bits w.toNat 15 0 :=
    s.judgeOp_takes (f := Sys2Proof.fO 15 0 500) hn (writer_of_isOp hp) (by simp [RegName.fields]) rfl
      (by simp [Sys2Proof.fO, RegName.okVal, htime])
  have hact := State.judge_train_acts (s := s) (j := j) hp hstart
  set u := s.land .lnTrain j (s.judgeW p .lnTrain j (fun _ _ => true) w) with hu
  have hwrite : s.writeTrain p j w = { u.setBit .lnTrain j 30 true with ln := { u.ln with trainAt := u.ln.trainAt.wr j 0 u.fc } } :=
    (if_neg (by simp [hgood])).trans (if_pos hact)
  have hregs : (s.writeTrain p j w).regs = (u.setBit .lnTrain j 30 true).regs := by rw [hwrite]
  refine ⟨?_, ?_, ?_, ?_⟩
  · exact (State.flag_congr hregs _ _ _).trans (State.flag_setBit_true _ (by decide))
  · rw [State.fld_congr hregs, State.setBit, State.fld_setFld_apart _ _ (by decide) (by decide), hu,
      s.land_fld j _ 0 (by decide) (by decide), htmo]
  · have hanswer : u.answer = ⟨.ok, []⟩ := (s.land_answer j _).trans (by rw [hstatus])
    rw [hwrite, ← hanswer]
    exact (u.setBit_frame .lnTrain j 30 true).2.1
  · rw [State.reg_congr hregs, State.reg_setBit_other _ _ (fun e => by cases e.1)]
    exact s.land_reg_other j _ (fun e => by cases e.1) (by decide)

end

/-- The taps settled on stand in the member lanes in turn, as far as they go. -/
theorem State.writeTaps_reg (s : State) (n : RegName) (j k : Nat) (taps : List Word) (i : Nat) (hi : i < k) :
    (forEach (((List.range k).map (j + ·)).zip taps) s (fun x s => s.setReg n x.1 x.2)).reg n (j + i)
      = taps.getD i (s.reg n (j + i)) := by
  induction k generalizing s j taps i with
  | zero => omega
  | succ k ih =>
    have hrange : (List.range (k + 1)).map (j + ·) = j :: (List.range k).map (j + 1 + ·) := by
      rw [List.range_succ_eq_map, List.map_cons, List.map_map]
      exact congrArg (j :: ·) (List.map_congr_left fun a _ => by simp only [Function.comp, Nat.succ_eq_add_one]; omega)
    cases taps with
    | nil => simp
    | cons w r =>
      rw [hrange, List.zip_cons_cons, forEach, List.foldl_cons, ← forEach]
      cases i with
      | zero =>
        have hrest : (forEach (((List.range k).map (j + 1 + ·)).zip r) (s.setReg n j w) (fun x s => s.setReg n x.1 x.2)).reg n j
            = (s.setReg n j w).reg n j := by
          refine List.foldlRecOn (motive := fun t => t.reg n j = (s.setReg n j w).reg n j) _ _ rfl fun (t : State) ht x hx => ?_
          obtain ⟨a, -, ha⟩ := List.mem_map.mp (List.of_mem_zip hx).1
          rw [← ht]
          exact t.reg_setReg_index n _ (by omega)
        simpa using hrest
      | succ i =>
        have := ih (s.setReg n j w) (j + 1) r i (by omega)
        rw [State.reg_setReg_index _ _ _ (by omega)] at this
        rw [show j + (i + 1) = j + 1 + i by omega, this]
        rfl

/-- Training ends TIMEOUT exactly when its time is over. -/
theorem timeout_matches {late : Prop} [Decidable late] (r : BitVec 2) : (decide late == (r == 3)) = true ↔ (late ↔ r = 3) := by
  rw [beq_iff_eq, Bool.eq_iff_iff, decide_eq_true_iff, beq_iff_eq]

/-- The end of a training: its result, the taps of one that was OK, and TRDONE. -/
theorem State.trainingEnded (s : State) {j : Fin 128} {r : BitVec 2} {taps : List Word} (hbusy : s.flag .lnTrain j.val 30 = true)
    (hr : r ≠ 0) (hlate : s.ln.trainAt.rd j.val 0 + 1600000 * s.fld .lnTrain j.val 15 0 ≤ s.fc ↔ r = 3) :
    Goes (exec (.trainingEnd j r taps) s) (fun t => t.flag .lnTrain j.val 30 = false ∧ t.fld .lnTrain j.val 29 28 = r.toNat
      ∧ (∀ i, i < s.lnK j.val → t.reg .lnTxeq (j.val + i)
          = (if r = 1 then taps.getD i (s.reg .lnTxeq (j.val + i)) else s.reg .lnTxeq (j.val + i)))
      ∧ t.flag .lnStat j.val 5 = true ∧ t.reg .lnCfg j.val = s.reg .lnCfg j.val) := by
  set u := (s.setBit .lnTrain j.val 30 false).setFld .lnTrain j.val 29 28 r.toNat with hu
  have hureg {n : RegName} (k : Nat) (hn : n ≠ .lnTrain) : u.reg n k = s.reg n k := by
    rw [hu, State.reg_setFld_name _ _ hn, State.reg_setBit_other _ _ (fun e => hn e.1)]
  have hk : u.lnK j.val = s.lnK j.val := by rw [State.lnK, State.fld, hureg _ (by decide), ← State.fld, ← State.lnK]
  set v := if r = 1 then forEach ((u.members j.val).zip taps) u (fun x s => s.setReg .lnTxeq x.1 x.2) else u with hv
  have hvreg {n : RegName} (k : Nat) (hn : n ≠ .lnTxeq) : v.reg n k = u.reg n k := by
    rw [hv]
    split
    · exact forEach_keeps (·.reg n k) _ _ _ fun x t => t.reg_setReg_name _ _ _ hn
    · rfl
  have hexec : exec (.trainingEnd j r taps) s = .next (v.laneSticky j.val 5) := by
    refine congrArg Host.Outcome.next (if_pos ?_)
    rw [hbusy, bne_iff_ne.mpr hr, (timeout_matches r).mpr hlate]
    rfl
  have htreg {n : RegName} (k : Nat) (hn : n ≠ .lnStat) : (v.laneSticky j.val 5).reg n k = v.reg n k :=
    State.reg_setBit_other _ _ (fun e => hn e.1)
  have htrain : (v.laneSticky j.val 5).reg .lnTrain j.val = u.reg .lnTrain j.val :=
    (htreg _ (by decide)).trans (hvreg _ (by decide))
  refine ⟨_, hexec, ?_, ?_, fun i hi => ?_, State.flag_setBit_true _ (by decide), ?_⟩
  · rw [State.flag_of_reg htrain, hu, State.flag_setFld_apart _ _ (by decide) (by decide), State.flag_setBit _ _ _ _ (by decide)]
  · rw [State.fld, htrain, ← State.fld, hu, State.fld_setFld _ _ (by decide)]
    exact Nat.mod_eq_of_lt r.isLt
  · rw [htreg _ (by decide), hv, ← hureg (n := .lnTxeq) (j.val + i) (by decide)]
    split
    · exact u.writeTaps_reg .lnTxeq j.val (u.lnK j.val) taps i (hk ▸ hi)
    · rfl
  · rw [htreg _ (by decide), hvreg _ (by decide), hureg _ (by decide)]

/-! ## Eyes (R305) -/

section
variable {s : State} {p : Party} {j : Nat} {w : Word} (hp : p.isOp = true) (hstart : bits w.toNat 31 31 = 1)

/-- START of an eye measurement is refused while one runs and on a lane that is not locked. -/
def State.eyeBad (s : State) (j : Nat) : Bool := s.flag .lnEyectl j 30 || !s.flag .lnStat j 31

/-- The write of LN_EYECTL, judged. -/
def State.eyeJudged (s : State) (p : Party) (j : Nat) (w : Word) : Judged :=
  s.judgeW p .lnEyectl j (fun lo _ => lo != 31 || !s.eyeBad j) w

theorem State.writeEye_eq : s.writeEye p j w = (let u := s.land .lnEyectl j (s.eyeJudged p j w)
    if bit (s.eyeJudged p j w).acts 31 then u.setBit .lnEyectl j 30 true else u) := rfl

theorem eyectl_ofOperator : ofOperator .lnEyectl := .inr (.inr (.inl rfl))

include hp hstart

/-- START where it is allowed sets BUSY, and the time is taken. -/
theorem State.writeEye_starts (htime : bits w.toNat 7 0 ≠ 0) (hgood : s.eyeBad j = false) : let t := s.writeEye p j w
    t.flag .lnEyectl j 30 = true ∧ t.fld .lnEyectl j 7 0 = bits w.toNat 7 0 ∧ t.answer = ⟨.ok, []⟩ := by
  have hstatus : (s.eyeJudged p j w).status = .ok := s.judgeOp_ok eyectl_ofOperator (writer_of_isOp hp)
    (by simp [RegName.fields, Sys2Proof.fO, Sys2Proof.fR, Sys2Proof.act, RegName.okVal, htime, hgood])
  have htakes : bits (s.eyeJudged p j w).val 7 0 = bits w.toNat 7 0 :=
    s.judgeOp_takes (f := Sys2Proof.fO 7 0 16) eyectl_ofOperator (writer_of_isOp hp) (by simp [RegName.fields]) rfl
      (by simp [Sys2Proof.fO, RegName.okVal, htime])
  have hact : bit (s.eyeJudged p j w).acts 31 = true :=
    s.judgeOp_acts (f := Sys2Proof.act 31 31 false true false) eyectl_ofOperator (writer_of_isOp hp) (by simp [RegName.fields]) rfl rfl
      hstart (by simp [RegName.okVal, Sys2Proof.act, hgood])
  have hwrite : s.writeEye p j w = (s.land .lnEyectl j (s.eyeJudged p j w)).setBit .lnEyectl j 30 true := by
    rw [State.writeEye_eq]
    exact if_pos hact
  rw [hwrite]
  refine ⟨State.flag_setBit_true _ (by decide), ?_,
    (State.setBit_frame _ .lnEyectl j 30 true).2.1.trans ((s.land_answer j _).trans (by rw [hstatus]))⟩
  rw [State.setBit, State.fld_setFld_apart _ _ (by decide) (by decide), s.land_fld j _ 0 (by decide) (by decide), htakes]

/-- START where it is not allowed is refused without an alarm, and BUSY stays. -/
theorem State.writeEye_refused (hbad : s.eyeBad j = true) : let t := s.writeEye p j w
    t.flag .lnEyectl j 30 = s.flag .lnEyectl j 30 ∧ t.answer = ⟨.denied, []⟩ ∧ t.reg .msAlarm 0 = s.reg .msAlarm 0 := by
  have hf : Sys2Proof.act 31 31 false true false ∈ RegName.lnEyectl.fields j := by simp [RegName.fields]
  have hno : (RegName.lnEyectl.okVal j 31 (bits w.toNat 31 31) && (31 != 31 || !s.eyeBad j)) = false := by simp [hbad]
  have hstatus : (s.eyeJudged p j w).status = .denied := s.judgeOp_denied eyectl_ofOperator (writer_of_isOp hp) hf
    (by simp [Field.judged, Sys2Proof.act, hstart]) hno
  have hidle : bit (s.eyeJudged p j w).acts 31 = false := s.judgeOp_idle eyectl_ofOperator hf rfl rfl (.inr hno)
  have hbusy : bits (s.eyeJudged p j w).val 30 30 = s.fld .lnEyectl j 30 30 :=
    s.judgeOp_keeps (f := Sys2Proof.fR 30 30 0) eyectl_ofOperator (by simp [RegName.fields]) (.inl rfl)
  have hwrite : s.writeEye p j w = s.land .lnEyectl j (s.eyeJudged p j w) := by
    rw [State.writeEye_eq]
    exact if_neg (by simp [hidle])
  rw [hwrite]
  refine ⟨?_, (s.land_answer j _).trans (by rw [hstatus]),
    s.land_alarm_stays j _ (by decide) (s.judgeOp_byWriter eyectl_ofOperator (writer_of_isOp hp))⟩
  rw [State.flag, s.land_fld j _ 30 (by decide) (by decide), hbusy, ← State.flag]

end

/-- The end of an eye measurement: the margins, BUSY and EYEDONE. -/
theorem State.eyeDone_spec (s : State) {j : Fin 128} (m0 m1 m2 : Word) (hbusy : s.flag .lnEyectl j.val 30 = true) :
    Goes (exec (.eyeDone j m0 m1 m2) s) (fun t => t.reg .lnEye (3 * j.val) = m0
      ∧ t.reg .lnEye (3 * j.val + 1) = (if rateFam (s.rateOf j.val) = 1 then 0 else m1)
      ∧ t.reg .lnEye (3 * j.val + 2) = (if rateFam (s.rateOf j.val) = 1 then 0 else m2)
      ∧ t.flag .lnEyectl j.val 30 = false ∧ t.flag .lnStat j.val 2 = true) := by
  have hrate (m : Word) : (if rateFam (s.rateOf j.val) == 1 then 0 else m) = if rateFam (s.rateOf j.val) = 1 then 0 else m := by
    simp only [beq_iff_eq]
  set u := ((s.setReg .lnEye (3 * j.val) m0).setReg .lnEye (3 * j.val + 1)
    (if rateFam (s.rateOf j.val) == 1 then 0 else m1)).setReg .lnEye (3 * j.val + 2)
    (if rateFam (s.rateOf j.val) == 1 then 0 else m2) with hu
  have hexec : exec (.eyeDone j m0 m1 m2) s = .next ((u.setBit .lnEyectl j.val 30 false).laneSticky j.val 2) :=
    congrArg Host.Outcome.next (if_pos hbusy)
  have hreg (k : Nat) : ((u.setBit .lnEyectl j.val 30 false).laneSticky j.val 2).reg .lnEye k = u.reg .lnEye k := by
    rw [State.laneSticky, State.reg_setBit_other _ _ (fun e => by cases e.1), State.reg_setBit_other _ _ (fun e => by cases e.1)]
  refine ⟨_, hexec, ?_, ?_, ?_, ?_, State.flag_setBit_true _ (by decide)⟩
  · rw [hreg, hu, State.reg_setReg_index _ _ _ (by omega), State.reg_setReg_index _ _ _ (by omega), State.reg_setReg_same]
  · rw [hreg, hu, State.reg_setReg_index _ _ _ (by omega), State.reg_setReg_same, hrate]
  · rw [hreg, hu, State.reg_setReg_same, hrate]
  · exact (State.flag_of_reg (State.reg_setBit_other _ _ fun e => by cases e.1) 30).trans (State.flag_setBit _ _ _ _ (by decide))

/-! ## The obligation -/

/-- Settles O18: the checks come before anything lands, and each command changes the registers it names. -/
theorem lanesAreEnabledTrainedAndMeasured : Obligations.LanesAreEnabledTrainedAndMeasured := by
  refine ⟨fun p j w s => ⟨fun hp hen hw => ⟨fun hok => ?_, fun hok => ?_⟩, fun hp hen hother => ?_, fun n => rfl⟩,
    ⟨fun p j w s hp hstart htime => ⟨fun hgood => ?_, fun hbad => ?_⟩, fun j r taps s hbusy hr => ⟨fun hlate => ?_, fun hlate => ?_⟩⟩,
    fun p j w s hp hstart htime => ⟨fun hbusy hlock => ?_, fun hbad => ?_⟩, fun j m0 m1 m2 s hbusy => s.eyeDone_spec m0 m1 m2 hbusy⟩
  case refine_1 =>
    exact ⟨_, congrArg Host.Outcome.next ((s.writeLn_op hp _ _).1.trans (State.writeLnCfg_enables hp hen hw hok)), State.enabled_spec hp hw⟩
  case refine_2 => exact congrArg Host.Outcome.next ((s.writeLn_op hp _ _).1.trans (State.writeLnCfg_fails hp hen hw hok))
  case refine_3 => exact congrArg Host.Outcome.next ((s.writeLn_op hp _ _).1.trans (State.writeLnCfg_enabled hp hen hother))
  case refine_4 =>
    exact ⟨_, congrArg Host.Outcome.next (s.writeLn_op hp _ _).2.1, State.writeTrain_starts hp hstart htime hgood⟩
  case refine_5 => exact congrArg Host.Outcome.next ((s.writeLn_op hp _ _).2.1.trans (State.writeTrain_refused hp hstart hbad))
  case refine_6 => exact s.trainingEnded hbusy hr hlate
  case refine_7 =>
    exact congrArg Host.Outcome.next (if_neg fun h => hlate ((timeout_matches r).mp (Bool.and_eq_true_iff.mp h).2))
  case refine_8 =>
    exact ⟨_, congrArg Host.Outcome.next (s.writeLn_op hp _ _).2.2.1,
      State.writeEye_starts hp hstart htime (by simp [State.eyeBad, hbusy, hlock])⟩
  case refine_9 =>
    exact ⟨_, congrArg Host.Outcome.next (s.writeLn_op hp _ _).2.2.1, State.writeEye_refused hp hstart (by simpa [State.eyeBad] using hbad)⟩

end Sys2Proof.Machine
end

section
/-! SUPPORT. Lane status and counters (R280, R281, R294, R303, R306): a status bit that follows the line, and the counters of a lane copied
and taken away; the obligation on them. -/

namespace Sys2Proof.Machine

/-! ## Status bits (R303) -/

/-- A status bit of a lane follows the line from what it was, and a change is kept in its sticky bit. -/
def State.laneFollows (s : State) (j b sticky : Nat) (was now : Bool) : State :=
  if was == now then s else (s.setBit .lnStat j b now).laneSticky j sticky

section
variable (s : State) {j b c sticky : Nat} {was now : Bool}

theorem State.laneFollows_bit (hwas : s.flag .lnStat j b = was) (hb : b < 32) (hs : b ≠ sticky) :
    (s.laneFollows j b sticky was now).flag .lnStat j b = now := by
  unfold State.laneFollows
  split
  · next h => exact hwas.trans (beq_iff_eq.mp h)
  · rw [State.laneSticky, State.flag_setBit_other _ _ hb hs, State.flag_setBit _ _ _ _ hb]

/-- The sticky bit is set by a change, and by nothing else. -/
theorem State.laneFollows_sticky (hs : sticky < 32) :
    (s.laneFollows j b sticky was now).flag .lnStat j sticky = (s.flag .lnStat j sticky || (was != now)) := by
  unfold State.laneFollows
  split
  · next h => simp [beq_iff_eq.mp h]
  · next h => rw [State.laneSticky, State.flag_setBit_true _ hs, bne, Bool.eq_false_iff.mpr h, Bool.not_false, Bool.or_true]

/-- The other bits are left. -/
theorem State.laneFollows_flag (hc : c < 32) (hb : c ≠ b) (hs : c ≠ sticky) :
    (s.laneFollows j b sticky was now).flag .lnStat j c = s.flag .lnStat j c := by
  unfold State.laneFollows
  split
  · rfl
  · rw [State.laneSticky, State.flag_setBit_other _ _ hc hs, State.flag_setBit_other _ _ hc hb]

theorem State.laneFollows_pySt (hb : b < 27 ∨ 28 < b) (hs : sticky < 27 ∨ 28 < sticky) :
    (s.laneFollows j b sticky was now).pySt j = s.pySt j := by
  unfold State.laneFollows
  split
  · rfl
  · rw [State.pySt, State.laneSticky, State.setBit, State.fld_setFld_apart _ _ (by decide) (by omega), State.setBit,
      State.fld_setFld_apart _ _ (by decide) (by omega), State.pySt]

end

/-- A source that asserts is noted behind the others. -/
theorem State.assertSrc_asserting (s : State) (e : Nat) :
    (s.assertSrc e).dp.asserting = s.dp.asserting ++ [(e, (s.fc + 4) / 2 * 2)] := rfl

/-! ## LOCK_CHANGE (R265, R294, R303) -/

section
variable (s : State) (j : Nat) (l a : Bool)

/-- LOCK and ALIGN have followed the line. -/
def State.lockFollows : State :=
  (s.laneFollows j 31 7 (s.flag .lnStat j 31) l).laneFollows j 30 6 (s.flag .lnStat j 30) a

/-- The Pyril engine of an UP lane that has lost alignment is DOWN. -/
def State.lockLost : State :=
  if s.flag .lnStat j 30 && !a && (s.lockFollows j l a).pySt j == 2 then (s.lockFollows j l a).pyDown j else s.lockFollows j l a

theorem State.lockFollows_spec : (s.lockFollows j l a).flag .lnStat j 31 = l ∧ (s.lockFollows j l a).flag .lnStat j 30 = a
    ∧ (s.lockFollows j l a).flag .lnStat j 7 = (s.flag .lnStat j 7 || (s.flag .lnStat j 31 != l))
    ∧ (s.lockFollows j l a).flag .lnStat j 6 = (s.flag .lnStat j 6 || (s.flag .lnStat j 30 != a))
    ∧ (s.lockFollows j l a).pySt j = s.pySt j := by
  have halign := s.laneFollows_flag (j := j) (b := 31) (c := 30) (sticky := 7) (was := s.flag .lnStat j 31) (now := l)
    (by decide) (by decide) (by decide)
  refine ⟨?_, State.laneFollows_bit _ halign (by decide) (by decide), ?_, ?_, ?_⟩
  · exact (State.laneFollows_flag _ (by decide) (by decide) (by decide)).trans (s.laneFollows_bit rfl (by decide) (by decide))
  · exact (State.laneFollows_flag _ (by decide) (by decide) (by decide)).trans (s.laneFollows_sticky (by decide))
  · refine (State.laneFollows_sticky _ (by decide)).trans ?_
    rw [State.laneFollows_flag _ (by decide) (by decide) (by decide)]
  · exact (State.laneFollows_pySt _ (by decide) (by decide)).trans (s.laneFollows_pySt (by decide) (by decide))

/-- Entering DOWN leaves the bits that follow the line, and their sticky bits. -/
theorem State.lockLost_flag {b : Nat} (hb : b < 32) (h3 : b ≠ 3) (hst : b < 27 ∨ 28 < b) :
    (s.lockLost j l a).flag .lnStat j b = (s.lockFollows j l a).flag .lnStat j b := by
  unfold State.lockLost
  split
  · exact State.pyDown_flag _ _ hb h3 hst
  · rfl

theorem State.lockLost_pySt : (s.lockLost j l a).pySt j
    = if s.pySt j = 2 ∧ s.flag .lnStat j 30 = true ∧ a = false then 1 else s.pySt j := by
  obtain ⟨-, -, -, -, hpy⟩ := s.lockFollows_spec j l a
  unfold State.lockLost
  rw [hpy, apply_ite (fun t : State => t.pySt j), State.pyDown_pySt, hpy]
  refine if_congr ?_ rfl rfl
  simp only [Bool.and_eq_true, Bool.not_eq_true', beq_iff_eq]
  tauto

end

/-- What the line's change comes to; a raw lane without FEC that gains lock marks its next beat (R280). -/
theorem execLockChange_enabled (s : State) (j : Fin 128) (l a : Bool) (hport : (s.portOf j.val).isSome = true) :
    exec (.lockChange j l a) s = .next (
      if l && !s.flag .lnStat j.val 31 && (s.lockLost j.val l a).lnRaw j.val && !(s.lockLost j.val l a).flag .lnCfg j.val 26 then
        { s.lockLost j.val l a with
          ln := { (s.lockLost j.val l a).ln with relock := (s.lockLost j.val l a).ln.relock.wr j.val false true } }
      else s.lockLost j.val l a) :=
  if_neg (by rw [Option.isNone_eq_false_iff.mpr hport]; decide)

/-- Marking a beat changes no register. -/
theorem State.lockChange_goes (s : State) (j : Fin 128) (l a : Bool) (hport : (s.portOf j.val).isSome = true) :
    Goes (exec (.lockChange j l a) s) (fun t => t.regs = (s.lockLost j.val l a).regs) := by
  refine ⟨_, execLockChange_enabled s j l a hport, ?_⟩
  generalize s.lockLost j.val l a = u
  rw [apply_ite State.regs]
  exact ite_self _

/-! ## LANE_COUNTER_SNAP (R306) -/

/-- One counter of a lane is copied as it stood when the fc began, and that much is taken from it. -/
def State.snapCounter (j i : Nat) (s : State) : State :=
  { s.setReg .lnCnt (32 * j + i) (s.was.live.rd (32 * j + i) 0) with
    ln := { s.ln with live := s.ln.live.up (32 * j + i) 0 (· - s.was.live.rd (32 * j + i) 0) }
    was := { s.was with live := s.was.live.del (32 * j + i) } }

/-- The first n counters of a lane have been copied and taken away, and no other. -/
theorem State.snapCounters_spec (s : State) (j n k : Nat) : let t := forEach (List.range n) s (State.snapCounter j)
    t.reg .lnCnt k = (if 32 * j ≤ k ∧ k < 32 * j + n then s.was.live.rd k 0 else s.reg .lnCnt k)
    ∧ t.ln.live.rd k 0 = (if 32 * j ≤ k ∧ k < 32 * j + n then s.ln.live.rd k 0 - s.was.live.rd k 0 else s.ln.live.rd k 0)
    ∧ (¬ (32 * j ≤ k ∧ k < 32 * j + n) → t.was.live.rd k 0 = s.was.live.rd k 0) := by
  induction n generalizing k with
  | zero => exact ⟨(if_neg (by omega)).symm, (if_neg (by omega)).symm, fun _ => rfl⟩
  | succ n ih =>
    have hlast : forEach (List.range (n + 1)) s (State.snapCounter j)
        = State.snapCounter j n (forEach (List.range n) s (State.snapCounter j)) := by
      rw [forEach, List.range_succ, List.foldl_append]
      rfl
    rw [hlast]
    set u := forEach (List.range n) s (State.snapCounter j)
    obtain ⟨hcnt, hlive, hwas⟩ := ih k
    have hreg : (State.snapCounter j n u).reg .lnCnt k = if k = 32 * j + n then u.was.live.rd (32 * j + n) 0 else u.reg .lnCnt k :=
      u.reg_setReg .lnCnt (32 * j + n) k _
    have hlv : (State.snapCounter j n u).ln.live.rd k 0
        = if k = 32 * j + n then u.ln.live.rd (32 * j + n) 0 - u.was.live.rd (32 * j + n) 0 else u.ln.live.rd k 0 :=
      Tbl.rd_up u.ln.live (32 * j + n) k 0 (· - u.was.live.rd (32 * j + n) 0)
    have hws (hk : k ≠ 32 * j + n) : (State.snapCounter j n u).was.live.rd k 0 = u.was.live.rd k 0 := Tbl.rd_del_other _ _ hk
    dsimp only
    by_cases hk : k = 32 * j + n
    · subst hk
      have hout : ¬ (32 * j ≤ 32 * j + n ∧ 32 * j + n < 32 * j + n) := by omega
      rw [if_neg hout] at hlive
      rw [hreg, hlv, if_pos rfl, if_pos rfl, if_pos (by omega), if_pos (by omega), hwas hout, hlive]
      exact ⟨rfl, rfl, fun h => absurd ⟨by omega, by omega⟩ h⟩
    · have hiff : (32 * j ≤ k ∧ k < 32 * j + (n + 1)) ↔ (32 * j ≤ k ∧ k < 32 * j + n) := by omega
      rw [hreg, hlv, if_neg hk, if_neg hk, hcnt, hlive]
      exact ⟨if_congr hiff.symm rfl rfl, if_congr hiff.symm rfl rfl, fun h => (hws hk).trans (hwas fun h' => h (hiff.mpr h'))⟩

theorem cntctl_ofOperator : ofOperator .lnCntctl := .inr (.inr (.inr (.inl rfl)))

/-- SNAP lands, and copies each of the lane's counters. -/
theorem State.writeCntctl_snaps (s : State) {p : Party} {w : Word} (hp : p.isOp = true) (hsnap : bits w.toNat 31 31 = 1) (j : Nat) :
    let J := s.judgeW p .lnCntctl j (fun _ _ => true) w
    s.writeCntctl p j w = forEach (List.range 32) ((s.setReg .lnCntctl j (BitVec.ofNat 32 J.val)).ans .ok []) (State.snapCounter j) := by
  have hact : bit (s.judgeW p .lnCntctl j (fun _ _ => true) w).acts 31 = true :=
    s.judgeOp_acts (f := Sys2Proof.act 31 31 false true false) cntctl_ofOperator (writer_of_isOp hp) (by simp [RegName.fields]) rfl rfl
      hsnap (by simp [RegName.okVal])
  have hstatus : (s.judgeW p .lnCntctl j (fun _ _ => true) w).status = .ok :=
    s.judgeOp_ok cntctl_ofOperator (writer_of_isOp hp) (by simp [RegName.okVal])
  have hland := s.landOp (i := j) (extra := fun _ _ => true) (w := w) cntctl_ofOperator (writer_of_isOp hp)
  rw [hstatus] at hland
  dsimp only
  rw [← hland]
  exact if_pos hact

/-- What the operator's SNAP leaves. -/
theorem State.laneSnap_spec (s : State) {p : Party} {j : Fin 128} {w : Word} (hp : p.isOp = true) (hsnap : bits w.toNat 31 31 = 1) :
    Goes (exec (.laneCounterSnap p j w) s) (fun t =>
      (∀ i, i < 32 → t.reg .lnCnt (32 * j.val + i) = s.was.live.rd (32 * j.val + i) 0
        ∧ t.ln.live.rd (32 * j.val + i) 0 = s.ln.live.rd (32 * j.val + i) 0 - s.was.live.rd (32 * j.val + i) 0)
      ∧ (∀ k, k / 32 ≠ j.val → t.reg .lnCnt k = s.reg .lnCnt k ∧ t.ln.live.rd k 0 = s.ln.live.rd k 0)
      ∧ t.answer = ⟨.ok, []⟩) := by
  refine ⟨_, congrArg Host.Outcome.next ((s.writeLn_op hp _ _).2.2.2.trans (s.writeCntctl_snaps hp hsnap j.val)), ?_⟩
  set u := (s.setReg .lnCntctl j.val (BitVec.ofNat 32 (s.judgeW p .lnCntctl j.val (fun _ _ => true) w).val)).ans .ok []
  have hspec (k : Nat) := u.snapCounters_spec j.val 32 k
  refine ⟨fun i hi => ?_, fun k hk => ?_, forEach_keeps (·.answer) (List.range 32) u (State.snapCounter j.val) fun _ _ => rfl⟩
  · obtain ⟨hcnt, hlive, -⟩ := hspec (32 * j.val + i)
    rw [if_pos (by omega)] at hcnt hlive
    exact ⟨hcnt, hlive⟩
  · obtain ⟨hcnt, hlive, -⟩ := hspec k
    rw [if_neg (by omega)] at hcnt hlive
    exact ⟨hcnt.trans (s.reg_setReg_name _ _ _ (by decide)), hlive⟩

/-- The lock of a group's PLL follows the line, and a change asserts its source. -/
theorem State.pllLockChange_spec (s : State) (g : Fin 16) (lock : Bool) (hne : s.flag .lnGcfg g.val 30 ≠ lock) :
    Goes (exec (.pllLockChange g lock) s) (fun t => t.flag .lnGcfg g.val 30 = lock
      ∧ (∃ c, t.dp.asserting = s.dp.asserting ++ [(640 + g.val, c)]) ∧ t.reg .lnStat = s.reg .lnStat) := by
  set u := s.setBit .lnGcfg g.val 30 lock with hu
  have hregs : (u.assertSrc (640 + g.val)).regs = u.regs := by simp
  have hdp : u.dp = s.dp := by simp [hu]
  refine ⟨u.assertSrc (640 + g.val), congrArg Host.Outcome.next (if_neg (by simpa using hne)), ?_, ⟨(u.fc + 4) / 2 * 2, ?_⟩, ?_⟩
  · exact (State.flag_congr hregs _ _ _).trans (State.flag_setBit _ _ _ _ (by decide))
  · rw [State.assertSrc_asserting, hdp]
  · exact funext fun k => (State.reg_congr hregs _ _).trans (State.reg_setBit_other _ _ fun e => by cases e.1)

/-! ## The obligation -/

/-- Settles O19: every change of the line lands in its status bit and its sticky bit, and a snap goes counter by counter. -/
theorem laneStatusAndCounters : Obligations.LaneStatusAndCounters := by
  refine ⟨⟨fun g lock s hne => ?pll, fun j s hport => ?calibration, fun j l a s hport => ?lock, fun j l a s hnone => if_pos (by simp [hnone])⟩,
    fun p j w s hp hsnap => s.laneSnap_spec hp hsnap⟩
  case pll => exact s.pllLockChange_spec g lock hne
  case calibration =>
    exact ⟨_, congrArg Host.Outcome.next (if_pos hport), State.flag_setBit_true _ (by decide),
      fun b hb hne => State.flag_setBit_other _ _ hb hne⟩
  case lock =>
    obtain ⟨t, hexec, hregs⟩ := s.lockChange_goes j l a hport
    obtain ⟨hlock, halign, hlockchg, halignchg, -⟩ := s.lockFollows_spec j.val l a
    have hflag {b : Nat} (hb : b < 32) (h3 : b ≠ 3) (hst : b < 27 ∨ 28 < b) :
        t.flag .lnStat j.val b = (s.lockFollows j.val l a).flag .lnStat j.val b :=
      (State.flag_congr hregs _ _ _).trans (s.lockLost_flag j.val l a hb h3 hst)
    refine ⟨t, hexec, (hflag (by decide) (by decide) (by decide)).trans hlock, (hflag (by decide) (by decide) (by decide)).trans halign,
      (hflag (by decide) (by decide) (by decide)).trans hlockchg, (hflag (by decide) (by decide) (by decide)).trans halignchg, ?_⟩
    rw [State.pySt, State.fld_congr hregs]
    exact s.lockLost_pySt j.val l a

end Sys2Proof.Machine
end

section
/-! SUPPORT. The time base (R286-R289, R308): what SNAP, SET and ADJ come to, the four registers of a time value, and the fc after a SET; the
obligation on them. -/

namespace Sys2Proof.Machine

/-! ## MS_TBCMD (R287, R308) -/

section
variable (s : State) {p : Party} {w : Word}

theorem tbcmd_ofOperator : ofOperator .msTbcmd := .inr (.inr (.inr (.inr rfl)))

/-- The operator's write of MS_TBCMD goes to the register's own rule. -/
theorem State.writeTb_op (hp : p.isOp = true) (w : Word) : s.writeTb p .msTbcmd 0 w = s.writeTbcmd p w := by
  cases p with
  | core n => rfl
  | pf0 => rfl
  | heartwood => cases hp
  | tenant n => cases hp

/-- A write of MS_TBCMD, judged. -/
def State.tbJudged (p : Party) (w : Word) : Judged := s.judgeW p .msTbcmd 0 (fun _ _ => true) w

/-- A write of MS_TBCMD, landed. -/
def State.tbLanded (p : Party) (w : Word) : State := s.land .msTbcmd 0 (s.tbJudged p w)

/-- The commands that act in a write of MS_TBCMD, in their order. -/
def State.tbCommands (u : State) (snap set adj minus : Bool) : State :=
  let u := if snap then u.putTime .msTbrsh .msTbrsl .msTbrns .msTbrfr u.now16 else u
  let u := if set then { u with tb := { u.tb with setTo := some u.staged, adj := 0 } } else u
  if adj then { u with tb := { u.tb with adj := u.tb.adj + (if minus then -(u.staged : Int) else u.staged) } } else u

theorem State.writeTbcmd_eq (p : Party) (w : Word) : s.writeTbcmd p w = (s.tbLanded p w).tbCommands (bit (s.tbJudged p w).acts 31)
    (bit (s.tbJudged p w).acts 30) (bit (s.tbJudged p w).acts 29) (bit (s.tbJudged p w).val 28) := rfl

/-- The time base reads the same where it stands the same. -/
theorem State.now16_congr {s t : State} (h : t.tb = s.tb) : t.now16 = s.now16 := by
  simp only [State.now16, State.now32, h]

/-- The three command bits of a write, as one number. -/
theorem bits_commands {n v : Nat} (h : bits n 31 29 = v) : bit n 31 = bit v 2 ∧ bit n 30 = bit v 1 ∧ bit n 29 = bit v 0 := by
  subst h
  simp only [bit, bits]
  exact ⟨congrArg (· == 1) (by omega), congrArg (· == 1) (by omega), congrArg (· == 1) (by omega)⟩

section
variable (hp : p.isOp = true)
include hp

/-- A command bit acts when it is written 1. -/
theorem State.tbJudged_acts {b : Nat} (hf : Sys2Proof.act b b false true false ∈ RegName.msTbcmd.fields 0) :
    bit (s.tbJudged p w).acts b = bit w.toNat b := by
  have hlt : bits w.toNat b b < 2 := by simpa using bits_lt w.toNat b b
  rcases (show bits w.toNat b b = 0 ∨ bits w.toNat b b = 1 by omega) with h0 | h1
  · rw [bit_eq_bits w.toNat, h0]
    exact s.judgeOp_idle tbcmd_ofOperator hf rfl rfl (.inl h0)
  · rw [bit_eq_bits w.toNat, h1]
    exact s.judgeOp_acts tbcmd_ofOperator (writer_of_isOp hp) hf rfl rfl h1 (by simp [RegName.okVal])

/-- The sign of ADJ is taken as it is written. -/
theorem State.tbJudged_sign : bit (s.tbJudged p w).val 28 = bit w.toNat 28 := by
  rw [bit_eq_bits, bit_eq_bits]
  exact congrArg (· == 1) (s.judgeOp_takes (f := Sys2Proof.fO 28 28 0) tbcmd_ofOperator (writer_of_isOp hp) (by simp [RegName.fields]) rfl
    (by simp [RegName.okVal]))

/-- The operator's write completes, and changes its own register alone. -/
theorem State.tbLanded_eq : s.tbLanded p w = (s.setReg .msTbcmd 0 (BitVec.ofNat 32 (s.tbJudged p w).val)).ans .ok [] := by
  have hstatus : (s.tbJudged p w).status = .ok := s.judgeOp_ok tbcmd_ofOperator (writer_of_isOp hp) (by simp [RegName.okVal])
  rw [← hstatus]
  exact s.landOp tbcmd_ofOperator (writer_of_isOp hp)

theorem State.tbLanded_frame : (s.tbLanded p w).tb = s.tb ∧ (s.tbLanded p w).answer = ⟨.ok, []⟩
    ∧ (s.tbLanded p w).staged = s.staged := by
  rw [s.tbLanded_eq hp]
  have hreg {n : RegName} (k : Nat) (hn : n ≠ .msTbcmd) :
      ((s.setReg .msTbcmd 0 (BitVec.ofNat 32 (s.tbJudged p w).val)).ans .ok []).reg n k = s.reg n k := s.reg_setReg_name 0 k _ hn
  refine ⟨rfl, rfl, ?_⟩
  simp only [State.staged, State.fld, hreg _ (show RegName.msTbwsh ≠ .msTbcmd by decide), hreg _ (show RegName.msTbwsl ≠ .msTbcmd by decide),
    hreg _ (show RegName.msTbwns ≠ .msTbcmd by decide), hreg _ (show RegName.msTbwfr ≠ .msTbcmd by decide)]

/-- What of the three commands acts in a write of MS_TBCMD. -/
theorem State.tbJudged_commands {v : Nat} (hv : bits w.toNat 31 29 = v) : bit (s.tbJudged p w).acts 31 = bit v 2
    ∧ bit (s.tbJudged p w).acts 30 = bit v 1 ∧ bit (s.tbJudged p w).acts 29 = bit v 0 := by
  obtain ⟨h31, h30, h29⟩ := bits_commands hv
  exact ⟨(s.tbJudged_acts hp (by simp [RegName.fields])).trans h31, (s.tbJudged_acts hp (by simp [RegName.fields])).trans h30,
    (s.tbJudged_acts hp (by simp [RegName.fields])).trans h29⟩

/-- SNAP alone copies the time base. -/
theorem State.writeTbcmd_snap (hv : bits w.toNat 31 29 = 4) :
    s.writeTbcmd p w = (s.tbLanded p w).putTime .msTbrsh .msTbrsl .msTbrns .msTbrfr s.now16 := by
  obtain ⟨hsnap, hset, hadj⟩ := s.tbJudged_commands hp hv
  rw [State.writeTbcmd_eq, hsnap, hset, hadj, ← State.now16_congr (s.tbLanded_frame hp).1]
  rfl

/-- SET alone stages the load of the staged value. -/
theorem State.writeTbcmd_set (hv : bits w.toNat 31 29 = 2) :
    s.writeTbcmd p w = { s.tbLanded p w with tb := { s.tb with setTo := some s.staged, adj := 0 } } := by
  obtain ⟨hsnap, hset, hadj⟩ := s.tbJudged_commands hp hv
  obtain ⟨htb, -, hstaged⟩ := s.tbLanded_frame (w := w) hp
  rw [State.writeTbcmd_eq, hsnap, hset, hadj, ← htb, ← hstaged]
  rfl

/-- ADJ alone stages the addition or subtraction of the staged value. -/
theorem State.writeTbcmd_adj (hv : bits w.toNat 31 29 = 1) : s.writeTbcmd p w = { s.tbLanded p w with
    tb := { s.tb with adj := s.tb.adj + (if bit w.toNat 28 then -(s.staged : Int) else s.staged) } } := by
  obtain ⟨hsnap, hset, hadj⟩ := s.tbJudged_commands hp hv
  obtain ⟨htb, -, hstaged⟩ := s.tbLanded_frame (w := w) hp
  rw [State.writeTbcmd_eq, hsnap, hset, hadj, ← htb, ← hstaged, ← s.tbJudged_sign hp]
  rfl

end

end

/-! ## The registers of a time value (R308) -/

section
variable (s : State) {h l n f : RegName} (t : Nat)

@[simp] theorem State.putTime_frame : (s.putTime h l n f t).tb = s.tb ∧ (s.putTime h l n f t).answer = s.answer
    ∧ (s.putTime h l n f t).dp = s.dp := by
  simp [State.putTime]

/-- What a time value put into its registers is read back as: seconds, nanoseconds and fraction. -/
theorem State.putTime_spec (hd : [h, l, n, f].Nodup) : (s.putTime h l n f t).fld h 0 15 0 = t / sec16 / 2 ^ 32 % 2 ^ 16
    ∧ ((s.putTime h l n f t).reg l 0).toNat = t / sec16 % 2 ^ 32 ∧ ((s.putTime h l n f t).reg n 0).toNat = t % sec16 / 65536
    ∧ ((s.putTime h l n f t).reg f 0).toNat = t % 65536 := by
  obtain ⟨⟨hhl, hhn, hhf⟩, ⟨hln, hlf⟩, hnf⟩ : (h ≠ l ∧ h ≠ n ∧ h ≠ f) ∧ (l ≠ n ∧ l ≠ f) ∧ n ≠ f := by simpa using hd
  have hns : t % sec16 / 65536 < 2 ^ 32 := by
    have := Nat.mod_lt t (show 0 < sec16 by decide)
    simp only [sec16] at *
    omega
  refine ⟨?_, ?_, ?_, ?_⟩ <;> rw [State.putTime]
  · rw [State.fld, State.reg_setReg_name _ _ _ _ hhf, State.reg_setReg_name _ _ _ _ hhn, State.reg_setReg_name _ _ _ _ hhl, ← State.fld,
      State.fld_setFld _ _ (by decide)]
  · rw [State.reg_setReg_name _ _ _ _ hlf, State.reg_setReg_name _ _ _ _ hln, State.reg_setReg_same, BitVec.toNat_ofNat]
  · rw [State.reg_setReg_name _ _ _ _ hnf, State.reg_setReg_same, BitVec.toNat_ofNat, Nat.mod_eq_of_lt hns]
  · rw [State.reg_setReg_same, BitVec.toNat_ofNat]
    omega

end

/-! ## One fc of the time base (R286, R287) -/

/-- A number of 2^-32 ns put into the time base is what it then reads. -/
theorem State.now32_setNow (s : State) {t : Nat} (ht : t < 2 ^ 48 * sec32) : (s.setNow t).now32 = t := by
  have hsec : t / sec32 < 2 ^ 48 := Nat.div_lt_of_lt_mul (by rwa [Nat.mul_comm])
  have hnow : (s.setNow t).now32 = (t / sec32 % 2 ^ 48 * 1000000000 + t % sec32 / 2 ^ 32) * 2 ^ 32 + t % 2 ^ 32 := by
    simp only [State.now32, State.setNow, Nat.mod_eq_of_lt ht, BitVec.toNat_ofNat, Nat.mod_mod]
  rw [hnow, Nat.mod_eq_of_lt hsec]
  simp only [sec32]
  omega

/-- In the fc after a SET the time base holds the value loaded. -/
theorem State.tickTime_set {s : State} {v : Nat} (hset : s.tb.setTo = some v) (hadj : s.tb.adj = 0) (hv : v < 2 ^ 48 * sec32) :
    s.tickTime.now32 = v ∧ s.tickTime.tb.setTo = none := by
  have hval : ((((v : Nat) : Int) + s.tb.adj) % ((2 ^ 48 * sec32 : Nat) : Int)).toNat = v := by
    rw [hadj, Int.add_zero, ← Int.natCast_emod, Nat.mod_eq_of_lt hv, Int.toNat_natCast]
  have hnow : s.tickTime.now32 = (s.setNow v).now32 := by
    simp only [State.tickTime, State.now32, hset, hval]
  exact ⟨hnow.trans (s.now32_setNow hv), rfl⟩

/-! ## The obligation -/

/-- An edge of PPS_IN with capture enabled and the last one read copies the time base and asserts source 724. -/
theorem State.ppsIn_captures {s : State} (hen : s.flag .msPpscfg 0 30 = true) (hread : s.flag .msTbcmd 0 0 = false) :
    Goes (exec .ppsInCapture s) (fun t => (t.reg .msPpsisl 0).toNat = s.now16 / sec16 % 2 ^ 32
      ∧ (t.reg .msPpsins 0).toNat = s.now16 % sec16 / 65536 ∧ (t.reg .msPpsifr 0).toNat = s.now16 % 65536
      ∧ t.flag .msTbcmd 0 0 = true ∧ t.tb = s.tb ∧ (∃ c, t.dp.asserting = s.dp.asserting ++ [(724, c)])) := by
  set u := s.putTime .msPpsish .msPpsisl .msPpsins .msPpsifr s.now16 with hu
  set v := u.setBit .msTbcmd 0 0 true with hv
  obtain ⟨-, hsec, hns, hfrac⟩ := s.putTime_spec s.now16 (h := .msPpsish) (l := .msPpsisl) (n := .msPpsins) (f := .msPpsifr) (by decide)
  have hregs : (v.assertSrc 724).regs = v.regs := by simp
  have hreg {n : RegName} (hn : n ≠ .msTbcmd) : (v.assertSrc 724).reg n 0 = u.reg n 0 :=
    (State.reg_congr hregs n 0).trans (State.reg_setBit_other _ _ fun e => hn e.1)
  have hdp : v.dp = s.dp := by simp [hv, hu]
  refine ⟨v.assertSrc 724, congrArg Host.Outcome.next (if_pos (by rw [hen, hread]; rfl)), ?_, ?_, ?_, ?_, by simp [hv, hu],
    ⟨(v.fc + 4) / 2 * 2, ?_⟩⟩
  · rw [hreg (by decide), hsec]
  · rw [hreg (by decide), hns]
  · rw [hreg (by decide), hfrac]
  · exact (State.flag_congr hregs _ _ _).trans (State.flag_setBit_true _ (by decide))
  · rw [State.assertSrc_asserting, hdp]

/-- Settles O22: a write of MS_TBCMD with one command bit does that command alone. -/
theorem timeBaseAndPps : Obligations.TimeBaseAndPps := by
  refine ⟨⟨fun p w s hp => ⟨fun hv => ?snap, fun hv => ?set, fun hv => ?adj⟩, fun n w s => ⟨rfl, rfl, rfl⟩,
    fun s v hset hadj hv => State.tickTime_set hset hadj hv⟩,
    fun s => ⟨fun hen hsec => ?rises, fun hout hwidth => ?falls, State.ppsIn_captures, fun hfull => ?lost⟩⟩
  case snap =>
    obtain ⟨hsec, hlow, hns, hfrac⟩ := (s.tbLanded p w).putTime_spec s.now16 (h := .msTbrsh) (l := .msTbrsl) (n := .msTbrns)
      (f := .msTbrfr) (by decide)
    obtain ⟨htb, hanswer, -⟩ := s.tbLanded_frame (w := w) hp
    obtain ⟨hputTb, hputAnswer, -⟩ := (s.tbLanded p w).putTime_frame s.now16 (h := .msTbrsh) (l := .msTbrsl) (n := .msTbrns) (f := .msTbrfr)
    exact ⟨_, congrArg Host.Outcome.next ((s.writeTb_op hp w).trans (s.writeTbcmd_snap hp hv)), hsec, hlow, hns, hfrac,
      hputTb.trans htb, hputAnswer.trans hanswer⟩
  case set =>
    obtain ⟨-, hanswer, -⟩ := s.tbLanded_frame (w := w) hp
    exact ⟨_, congrArg Host.Outcome.next ((s.writeTb_op hp w).trans (s.writeTbcmd_set hp hv)), rfl, hanswer, rfl⟩
  case adj =>
    obtain ⟨-, hanswer, -⟩ := s.tbLanded_frame (w := w) hp
    exact ⟨_, congrArg Host.Outcome.next ((s.writeTb_op hp w).trans (s.writeTbcmd_adj hp hv)), rfl, hanswer⟩
  case rises => exact congrArg Host.Outcome.next ((if_pos rfl).trans (if_pos (by rw [hen, hsec]; rfl)))
  case falls =>
    exact congrArg Host.Outcome.next ((if_neg Bool.false_ne_true).trans (if_pos (by rw [hout, decide_eq_true hwidth]; rfl)))
  case lost => exact congrArg Host.Outcome.next (if_neg (by simp [hfull]))

end Sys2Proof.Machine
end

section
/-! SUPPORT. A lane beyond its registers (R272-R280, R306): what its live counters, its transmit side and its edge stages are read back as,
and what each operation on them leaves. -/

namespace Sys2Proof.Machine

/-! ## Parts of a lane -/

section
variable (s : State) (j : Nat)

@[simp] theorem State.tx_setTx (x : TxSt) : (s.setTx j x).tx j = x := Tbl.rd_wr_same _ _ _ _

@[simp] theorem State.py_setPy (x : PyrilSt) : (s.setPy j x).py j = x := Tbl.rd_wr_same _ _ _ _

/-- The transmit side of a lane has no part in anything else. -/
@[simp] theorem State.setTx_frame (x : TxSt) : (s.setTx j x).regs = s.regs ∧ (s.setTx j x).sw = s.sw ∧ (s.setTx j x).fc = s.fc
    ∧ (s.setTx j x).line = s.line ∧ (s.setTx j x).ln.live = s.ln.live ∧ (s.setTx j x).ln.sent = s.ln.sent
    ∧ (s.setTx j x).ln.granted = s.ln.granted :=
  ⟨rfl, rfl, rfl, rfl, rfl, rfl, rfl⟩

@[simp] theorem State.setPy_frame (x : PyrilSt) : (s.setPy j x).regs = s.regs ∧ (s.setPy j x).fc = s.fc ∧ (s.setPy j x).line = s.line
    ∧ (s.setPy j x).ln.changed = s.ln.changed :=
  ⟨rfl, rfl, rfl, rfl⟩

/-- What waits on the line has no part in anything else. -/
@[simp] theorem State.onLine_frame (l : List Byte) : (s.onLine l).regs = s.regs ∧ (s.onLine l).sw = s.sw ∧ (s.onLine l).fc = s.fc
    ∧ (s.onLine l).ln = s.ln ∧ (s.onLine l).line = l.map (·.toNat) :=
  ⟨rfl, rfl, rfl, rfl, rfl⟩

theorem State.tx_congr {s t : State} (h : t.ln.tx = s.ln.tx) (j : Nat) : t.tx j = s.tx j := by rw [State.tx, h, State.tx]

theorem State.py_congr {s t : State} (h : t.ln.py = s.ln.py) (j : Nat) : t.py j = s.py j := by rw [State.py, h, State.py]

theorem State.stageAt_congr {s t : State} (h : t.sw = s.sw) (k : Nat) : t.stageAt k = s.stageAt k := by
  rw [State.stageAt, h, State.stageAt]

end

/-! ## Live counters (R306) -/

section
variable (s : State) (j i k : Nat)

/-- A count changes the live counters alone. -/
@[simp] theorem State.lnCount_frame : (s.lnCount j i k).regs = s.regs ∧ (s.lnCount j i k).sw = s.sw ∧ (s.lnCount j i k).fc = s.fc
    ∧ (s.lnCount j i k).line = s.line ∧ (s.lnCount j i k).ln.rx = s.ln.rx ∧ (s.lnCount j i k).ln.rxGap = s.ln.rxGap
    ∧ (s.lnCount j i k).ln.tx = s.ln.tx ∧ (s.lnCount j i k).ln.sent = s.ln.sent ∧ (s.lnCount j i k).ln.recv = s.ln.recv
    ∧ (s.lnCount j i k).ln.granted = s.ln.granted :=
  ⟨rfl, rfl, rfl, rfl, rfl, rfl, rfl, rfl, rfl, rfl⟩

@[simp] theorem State.tx_lnCount (j' : Nat) : (s.lnCount j i k).tx j' = s.tx j' := rfl

theorem State.lnCount_live :
    (s.lnCount j i k).ln.live = s.ln.live.up (32 * j + i) 0 (fun v => BitVec.ofNat 32 (satAdd 32 v.toNat k)) := rfl

/-- A live counter adds and saturates. -/
theorem State.live_lnCount :
    ((s.lnCount j i k).ln.live.rd (32 * j + i) 0).toNat = satAdd 32 (s.ln.live.rd (32 * j + i) 0).toNat k := by
  rw [State.lnCount_live, Tbl.rd_up_same, BitVec.toNat_ofNat]
  exact Nat.mod_eq_of_lt (by unfold satAdd; omega)

/-- Another counter stays. -/
theorem State.live_lnCount_other {c : Nat} (h : c ≠ 32 * j + i) : (s.lnCount j i k).ln.live.rd c 0 = s.ln.live.rd c 0 := by
  rw [State.lnCount_live, Tbl.rd_up_other _ _ _ _ h]

/-- Nothing counted leaves every counter. -/
theorem State.live_lnCount_zero (c : Nat) : (s.lnCount j i 0).ln.live.rd c 0 = s.ln.live.rd c 0 := by
  by_cases h : c = 32 * j + i
  · subst h
    apply BitVec.eq_of_toNat_eq
    rw [State.live_lnCount]
    have := (s.ln.live.rd (32 * j + i) 0).isLt
    unfold satAdd
    omega
  · exact s.live_lnCount_other j i 0 h

end

/-! ## The edge stages of a port (R120, R276) -/

/-- The stages that feed a lane are six different ones. -/
theorem laneOuts_nodup (j : Nat) : (laneOuts j).Nodup :=
  List.Nodup.map (fun a b h => by simpa using h) List.nodup_range

section
variable (s : State) (j : Nat)

/-- The oldest word leaves each stage of the port's members. -/
theorem State.popRow_eq : s.popRow j = s.popStages ((s.members j).flatMap laneOuts) := rfl

@[simp] theorem State.popRow_frame : (s.popRow j).regs = s.regs ∧ (s.popRow j).fc = s.fc ∧ (s.popRow j).ln = s.ln
    ∧ (s.popRow j).line = s.line := by
  obtain ⟨hfc, hregs, -⟩ := s.popStages_frame ((s.members j).flatMap laneOuts)
  exact ⟨hregs, hfc, forEach_keeps (·.ln) _ s _ fun _ _ => rfl, forEach_keeps (·.line) _ s _ fun _ _ => rfl⟩

/-- A port of one lane takes a word from each of the lane's six stages. -/
theorem State.popRow_stageAt (hk : s.lnK j = 1) : ∀ k ∈ laneOuts j, (s.popRow j).stageAt k = (s.stageAt k).pop s.fc := by
  have hmembers : (s.members j).flatMap laneOuts = laneOuts j := by simp [State.members, hk]
  intro k hmem
  rw [State.popRow_eq, hmembers, s.popStages_stageAt (laneOuts_nodup j), if_pos hmem]

/-- Words discarded are counted. -/
theorem State.txDiscard_eq (ws : List CWord) :
    s.txDiscard j ws = s.lnCount j 7 (ws.filter (fun w => w.code.toNat != codeIDLE)).length := rfl

/-- Idle words discarded count nothing. -/
theorem State.txDiscard_idle {ws : List CWord} (h : ∀ w ∈ ws, w.code.toNat = codeIDLE) : s.txDiscard j ws = s.lnCount j 7 0 := by
  have hnone : ws.filter (fun w => w.code.toNat != codeIDLE) = [] := List.filter_eq_nil_iff.mpr fun w hw => by simp [h w hw]
  rw [State.txDiscard_eq, hnone]
  rfl

end

/-- Where nothing of a lane's six stages can be taken, no word is seen and nothing changes. -/
theorem State.txHeads_none {s : State} {j : Nat} (upset : List Nat) (h : ∀ k ∈ laneOuts j, (s.stageAt k).head s.fc = none) :
    s.txHeads j upset = ([], s) := by
  have hmem : ∀ x ∈ (laneOuts j).zipIdx, x.1 ∈ laneOuts j := fun x hx => (List.mem_zipIdx' hx).2 ▸ List.getElem_mem _
  unfold State.txHeads
  refine List.foldlRecOn (motive := fun p => p = (([] : List CWord), s)) _ _ rfl fun p hp x hx => ?_
  subst hp
  dsimp only
  rw [h x.1 (hmem x hx)]

/-- A port of one lane without words takes no row. -/
theorem State.txRow_none {s : State} {j : Nat} (upset : List (Fin 48)) (hk : s.lnK j = 1)
    (h : ∀ k ∈ laneOuts j, (s.stageAt k).head s.fc = none) : s.txRow j upset = (none, s) := by
  have hheads (l : List Nat) := State.txHeads_none l h
  simp [State.txRow, hk, List.range_succ, hheads]

/-- No row, no change. -/
theorem State.txTake_none {s t : State} {j : Nat} (kind : TxRow) {upset : List (Fin 48)} (h : s.txRow j upset = (none, t)) :
    s.txTake j kind upset = t := by
  unfold State.txTake
  rw [h]

/-- Judging the words of a lane counts replacements and drops; every other register stays. -/
theorem State.txHeads_reg (s : State) (j : Nat) (upset : List Nat) {n : RegName} (i : Nat) (hpar : n ≠ .swGpar) (hbark : n ≠ .swGbark) :
    (s.txHeads j upset).2.reg n i = s.reg n i := by
  have hnote (t : State) (g owner loc : Nat) : (t.parityNote g owner loc).reg n i = t.reg n i := t.reg_count_name 1 hpar
  have hset (t : State) (x : Src) (st : Stage) : (t.setSrc x st).reg n i = t.reg n i := rfl
  have hdrop (t : State) (w : CWord) : (t.laneBark j w).reg n i = t.reg n i := by
    unfold State.laneBark
    dsimp only
    split <;> exact t.reg_count_name 1 hbark
  unfold State.txHeads
  refine foldl_keeps (fun x : List CWord × State => x.2.reg n i) _ _ _ fun x e => ?_
  dsimp only
  split
  · next w _ =>
    have hupset (w' : CWord) : (if upset.contains e.2 = true then
        (x.2.parityNote (laneGroves.getD (j / 8) 0) opTag.toNat (laneLoc j)).setSrc (.stage e.1) ((x.2.stageAt e.1).swap w')
        else x.2).reg n i = x.2.reg n i := by
      split
      · exact (hset _ _ _).trans (hnote _ _ _ _)
      · rfl
    split
    · exact hupset _
    · exact (hset _ _ _).trans ((hdrop _ _).trans (hupset _))
  · rfl

theorem State.txRow_reg (s : State) (j : Nat) (upset : List (Fin 48)) {n : RegName} (i : Nat) (hpar : n ≠ .swGpar) (hbark : n ≠ .swGbark) :
    (s.txRow j upset).2.reg n i = s.reg n i := by
  unfold State.txRow
  dsimp only
  refine foldl_keeps (fun x : List (List CWord) × State => x.2.reg n i) _ _ _ fun x e => ?_
  dsimp only
  exact x.2.txHeads_reg _ _ i hpar hbark

end Sys2Proof.Machine
end

section
/-! SUPPORT. Frames and raw words received (R268-R274, R280): what the ingress buffer of a port takes, and what is counted; the obligation on
them. -/

namespace Sys2Proof.Machine

/-! ## The ingress buffer (R272, R274) -/

section
variable (s : State) (j : Nat)

theorem State.rxPush_rx (rows : List (List (List CWord))) : (s.rxPush j rows).ln.rx = s.ln.rx.up j [] (· ++ rows) := rfl

/-- Rows wait behind those that wait already. -/
@[simp] theorem State.rx_rxPush (rows : List (List (List CWord))) : (s.rxPush j rows).ln.rx.rd j [] = s.ln.rx.rd j [] ++ rows := by
  rw [State.rxPush_rx, Tbl.rd_up_same]

/-- Rows that wait have no part in anything else. -/
@[simp] theorem State.rxPush_frame (rows : List (List (List CWord))) : (s.rxPush j rows).regs = s.regs ∧ (s.rxPush j rows).sw = s.sw
    ∧ (s.rxPush j rows).ln.live = s.ln.live ∧ (s.rxPush j rows).ln.relock = s.ln.relock
    ∧ (s.rxPush j rows).ln.peerGranted = s.ln.peerGranted ∧ (s.rxPush j rows).ln.recv = s.ln.recv :=
  ⟨rfl, rfl, rfl, rfl, rfl, rfl⟩

theorem State.rxUsed_congr {s t : State} (h : t.ln.rx = s.ln.rx) (j : Nat) : t.rxUsed j = s.rxUsed j := by
  rw [State.rxUsed, h, State.rxUsed]

/-- A frame that fits is stored whole. -/
theorem State.rxStore_fits {m ws : List CWord} (h : (m :: beatsOf ws).length ≤ 1024 * s.lnK j - s.rxUsed j) :
    s.rxStore j m ws = (true, s.rxPush j (rowsOf (s.lnK j) (m :: beatsOf ws))) := if_pos h

end

/-! ## Frames delivered (R268, R271) -/

section
variable {s : State} {j : Nat} {f : RxFrame}

@[simp] theorem State.fecCount_nil (s : State) (j : Nat) : s.fecCount j [] = s := rfl

/-- A frame that nothing keeps from being delivered intact has 64 bytes or more. -/
theorem State.length_of_intact (h : s.rxCauses j f = []) : 64 ≤ f.bytes.length := by
  by_contra hlt
  unfold State.rxCauses at h
  split at h
  · cases h
  · rw [if_pos (not_le.mp hlt)] at h
    simp at h

/-- An intact frame that fits is stored whole behind its META beat, and counted. -/
theorem State.rxDeliver_intact (low : Nat) (body : List Byte) (hintact : s.rxCauses j f = [])
    (hfits : let i := j + f.lane.val % s.lnK j
      (metaBeatOf j low (s.flag .lnStat i 29) (s.ingressTime i f.ago) :: beatsOf (rotWords f.rot (packetWords body))).length
        ≤ 1024 * s.lnK j - s.rxUsed j) :
    s.rxDeliver j f low body = (let i := j + f.lane.val % s.lnK j
      (s.rxPush j (rowsOf (s.lnK j) (metaBeatOf j low (s.flag .lnStat i 29) (s.ingressTime i f.ago)
        :: beatsOf (rotWords f.rot (packetWords body))))).lnCount j 0 1) := by
  have hcause : s.rxCause j f = (none, s) := by
    unfold State.rxCause
    rw [hintact]
  dsimp only at hfits ⊢
  have hstore := s.rxStore_fits j hfits
  unfold State.rxDeliver
  simp only [hintact, List.contains_nil, Bool.false_eq_true, if_false, hcause, hstore, if_true]

end

/-! ## Raw words (R280) -/

theorem length_beatsOf (ws : List CWord) : (beatsOf ws).length = (ws.length + 5) / 6 := by
  rw [beatsOf, List.length_map, List.length_range]

theorem length_rotWords (rot : List Nat) (ws : List CWord) : (rotWords rot ws).length = ws.length := by
  rw [rotWords, List.length_map, List.length_zipIdx]

section
variable {s : State} {j : Nat}

/-- The ingress buffer of a lane with nothing lost and room for some beats. -/
def rawRoom (s : State) (j n : Nat) : Prop := s.ln.rxGap.rd j 0 = 0 ∧ s.rxUsed j + n ≤ 1024

/-- Beats of a raw lane wait as they come, with nothing lost before them. -/
def State.rawPushed (s : State) (j : Nat) (bs : List (List CWord)) : State :=
  { s with ln := { s.ln with rxGap := s.ln.rxGap.wr j 0 0 } }.rxPush j (bs.map (fun b => [b]))

@[simp] theorem State.rx_rawPushed (s : State) (j : Nat) (bs : List (List CWord)) :
    (s.rawPushed j bs).ln.rx.rd j [] = s.ln.rx.rd j [] ++ bs.map (fun b => [b]) := State.rx_rxPush _ j _

theorem State.rawPushed_frame (s : State) (j : Nat) (bs : List (List CWord)) : (s.rawPushed j bs).regs = s.regs
    ∧ (s.rawPushed j bs).ln.live = s.ln.live ∧ (s.rawPushed j bs).ln.relock = s.ln.relock := ⟨rfl, rfl, rfl⟩

/-- Beats that fit where nothing was lost are stored. -/
theorem State.rawStore_fits (units : Nat) {bs : List (List CWord)} (h : rawRoom s j bs.length) :
    s.rawStore j units bs = (true, s.rawPushed j bs) := by
  obtain ⟨hgap, hroom⟩ := h
  unfold State.rawStore
  simp only [hgap, if_true, List.length_nil, Nat.add_zero, List.nil_append, if_pos hroom]
  rfl

/-- A packet of a raw lane is stored and, when it fits, counted. -/
def State.rawCounted (s : State) (j units i : Nat) (bs : List (List CWord)) : State :=
  if (s.rawStore j units bs).1 then (s.rawStore j units bs).2.lnCount j i 1 else (s.rawStore j units bs).2

theorem State.rawCounted_fits (units i : Nat) {bs : List (List CWord)} (h : rawRoom s j bs.length) :
    s.rawCounted j units i bs = (s.rawPushed j bs).lnCount j i 1 := by
  rw [State.rawCounted, State.rawStore_fits units h]
  rfl

/-- The runs of good and bad codewords of a lane, with one more. -/
def State.cwRun (s : State) (j : Nat) (good : Bool) : State :=
  let g := if good then s.ln.good.rd j 0 + 1 else 0
  let b := if good then 0 else s.ln.badRun.rd j 0 + 1
  { s with ln := { s.ln with good := s.ln.good.wr j 0 (min g 8), badRun := s.ln.badRun.wr j 0 (min b 8) } }

theorem State.cwLock_eq (s : State) (j : Nat) (good : Bool) : s.cwLock j good =
    (let now := if (s.cwRun j good).flag .lnStat j 30 then decide ((if good then 0 else s.ln.badRun.rd j 0 + 1) < 8)
      else decide (8 ≤ if good then s.ln.good.rd j 0 + 1 else 0)
    if (s.cwRun j good).flag .lnStat j 30 == now then s.cwRun j good
    else ((s.cwRun j good).setBit .lnStat j 30 now).laneSticky j 6) := rfl

theorem State.cwRun_frame (s : State) (j : Nat) (good : Bool) : (s.cwRun j good).regs = s.regs
    ∧ (s.cwRun j good).ln.rx = s.ln.rx ∧ (s.cwRun j good).ln.rxGap = s.ln.rxGap ∧ (s.cwRun j good).ln.live = s.ln.live :=
  ⟨rfl, rfl, rfl, rfl⟩

/-- A good codeword of a locked lane leaves it locked. -/
theorem State.cwLock_good (h : s.flag .lnStat j 30 = true) : s.cwLock j true = s.cwRun j true := by
  have hlock : (s.cwRun j true).flag .lnStat j 30 = true := (State.flag_congr (s.cwRun_frame j true).1 _ _ _).trans h
  rw [State.cwLock_eq, hlock]
  exact if_pos rfl

/-- A corrected codeword counts itself, its bits and its symbols, none of them as a frame. -/
theorem State.fecCount_corrected (s : State) (j : Nat) (n : Fin 16) (b : Nat) :
    (s.fecCount j [⟨some n, b⟩]).regs = s.regs ∧ (s.fecCount j [⟨some n, b⟩]).ln.rx = s.ln.rx
    ∧ (s.fecCount j [⟨some n, b⟩]).ln.rxGap = s.ln.rxGap
    ∧ (s.fecCount j [⟨some n, b⟩]).ln.live.rd (32 * j) 0 = s.ln.live.rd (32 * j) 0 := by
  have hcount : s.fecCount j [⟨some n, b⟩] = ((s.lnCount j 9 1).lnCount j 10 b).lnCount j (11 + n.val) 1 := rfl
  rw [hcount]
  refine ⟨by simp, by simp, by simp, ?_⟩
  rw [State.live_lnCount_other _ _ _ _ (by omega), State.live_lnCount_other _ _ _ _ (by omega),
    State.live_lnCount_other _ _ _ _ (by omega)]

end

section
variable {s : State} {j : Fin 128} (ago : Nat) (rot : List Nat) {ws : List W24}
variable (hen : s.lnEn j.val = true) (hraw : s.lnRaw j.val = true) (hon : s.groupOn j.val = true)
variable (hlock : s.flag .lnStat j.val 31 = true) (hgap : s.ln.rxGap.rd j.val 0 = 0) (hroom : s.rxUsed j.val + 40 ≤ 1024)
include hen hraw hon hlock hgap hroom

/-- A beat of a locked raw lane without FEC. -/
theorem State.rawBeat_goes (hfec : s.flag .lnCfg j.val 26 = false) (hlen : ws.length = 6) :
    Goes (exec (.rawReceive j (.beat ws) ago rot) s) (fun t =>
      t.ln.rx.rd j.val [] = s.ln.rx.rd j.val [] ++ (if s.ln.relock.rd j.val false then
          [[metaBeatOf j.val (2 ^ 16) (s.flag .lnStat j.val 29) (s.ingressTime j.val ago)]] else [])
        ++ [[rotWords rot (ws.map (fun w => opWord codeDATA w.toNat))]]
      ∧ t.ln.relock.rd j.val false = false ∧ t.regs = s.regs) := by
  set bs := (if s.ln.relock.rd j.val false then [metaBeatOf j.val (2 ^ 16) (s.flag .lnStat j.val 29) (s.ingressTime j.val ago)] else [])
    ++ [rotWords rot (ws.map (fun w => opWord codeDATA w.toNat))] with hbs
  have hbsLen : bs.length ≤ 2 := by
    rw [hbs]
    split <;> simp
  set u : State := { s with ln := { s.ln with relock := s.ln.relock.wr j.val false false } } with hu
  have hfits : rawRoom u j.val bs.length := ⟨hgap, by rw [State.rxUsed_congr (t := u) (s := s) rfl]; omega⟩
  have hexec : exec (.rawReceive j (.beat ws) ago rot) s = .next (u.rawStore j.val 1 bs).2 :=
    congrArg Host.Outcome.next ((if_neg (by simp [hen, hraw, hon])).trans (if_neg (by simp [hfec, hlock, hlen])))
  rw [State.rawStore_fits 1 hfits] at hexec
  obtain ⟨hregs, -, hrelock⟩ := u.rawPushed_frame j.val bs
  refine ⟨_, hexec, ?_, ?_, hregs⟩
  case refine_2 =>
    rw [hrelock]
    exact Tbl.rd_wr_same s.ln.relock j.val false false
  rw [State.rx_rawPushed, hbs, List.map_append, ← List.append_assoc]
  split <;> rfl

/-- A corrected codeword of a locked raw lane with FEC. -/
theorem State.rawCodeword_goes (n : Fin 16) (b : Nat) (hfec : s.flag .lnCfg j.val 26 = true) (halign : s.flag .lnStat j.val 30 = true)
    (hlen : ws.length = 215) : Goes (exec (.rawReceive j (.codeword ws ⟨some n, b⟩) ago rot) s) (fun t =>
      (t.ln.rx.rd j.val []).length = (s.ln.rx.rd j.val []).length + 37
      ∧ (t.ln.rx.rd j.val [])[(s.ln.rx.rd j.val []).length]?
          = some [metaBeatOf j.val (n.val * 2 ^ 6) (s.flag .lnStat j.val 29) (s.ingressTime j.val ago)]
      ∧ (t.ln.live.rd (32 * j.val) 0).toNat = satAdd 32 (s.ln.live.rd (32 * j.val) 0).toNat 1) := by
  obtain ⟨hfecRegs, hfecRx, hfecGap, hfecLive⟩ := s.fecCount_corrected j.val n b
  obtain ⟨-, hcwRx, hcwGap, hcwLive⟩ := (s.fecCount j.val [⟨some n, b⟩]).cwRun_frame j.val true
  rw [← State.cwLock_good ((State.flag_congr hfecRegs .lnStat j.val 30).trans halign)] at hcwRx hcwGap hcwLive
  set u := (s.fecCount j.val [⟨some n, b⟩]).cwLock j.val true with hu
  have hrx : u.ln.rx = s.ln.rx := hcwRx.trans hfecRx
  set m := metaBeatOf j.val (n.val * 2 ^ 6) (s.flag .lnStat j.val 29) (s.ingressTime j.val ago) with hm
  obtain ⟨body, hbody, hexec⟩ : ∃ body : List CWord, body.length = 215
      ∧ exec (.rawReceive j (.codeword ws ⟨some n, b⟩) ago rot) s = .next (u.rawCounted j.val 1 0 (m :: beatsOf body)) := by
    refine ⟨_, ?_, congrArg Host.Outcome.next ((if_neg (by simp [hen, hraw, hon])).trans
      ((if_neg (by simp [hfec, hlock, hlen])).trans (if_neg (by simp [halign]))))⟩
    rw [length_rotWords, List.length_map, List.length_zipIdx, hlen]
  have hbeats : (m :: beatsOf body).length = 37 := by rw [List.length_cons, length_beatsOf, hbody]
  have hfits : rawRoom u j.val (m :: beatsOf body).length :=
    ⟨by rw [hcwGap, hfecGap, hgap], by rw [State.rxUsed_congr hrx, hbeats]; omega⟩
  rw [State.rawCounted_fits 1 0 hfits] at hexec
  have hpushed : ((u.rawPushed j.val (m :: beatsOf body)).lnCount j.val 0 1).ln.rx.rd j.val []
      = s.ln.rx.rd j.val [] ++ (m :: beatsOf body).map (fun b => [b]) := by
    rw [← hrx]
    exact u.rx_rawPushed j.val _
  refine ⟨_, hexec, ?_, ?_, ?_⟩
  · rw [hpushed, List.length_append, List.length_map, hbeats]
  · rw [hpushed, List.getElem?_append_right (Nat.le_refl _), Nat.sub_self]
    rfl
  · obtain ⟨-, hlive, -⟩ := u.rawPushed_frame j.val (m :: beatsOf body)
    have hcount := (u.rawPushed j.val (m :: beatsOf body)).live_lnCount j.val 0 1
    rw [hlive, hcwLive, Nat.add_zero, hfecLive] at hcount
    exact hcount

end

/-! ## The obligation -/

/-- Settles O20: what fits the ingress buffer waits behind what is there, and its counter alone counts it. -/
theorem lanesReceiveFramesAndRawWords : Obligations.LanesReceiveFramesAndRawWords := by
  refine ⟨fun j f s hopen hpyril hfec => ⟨fun hwatch hmac hintact => ?frame, fun hwatch => ?unwatched⟩,
    fun j s ago rot ws hen hraw hon hlock hgap hroom => ⟨State.rawBeat_goes ago rot hen hraw hon hlock hgap hroom,
      fun n b => State.rawCodeword_goes ago rot hen hraw hon hlock hgap hroom n b⟩⟩
  case frame =>
    intro body bs hfits
    have hbody : (if s.flag .lnCfg j.val 21 && decide (4 < f.bytes.length) then f.bytes.take (f.bytes.length - 4) else f.bytes) = body := by
      have hlen := State.length_of_intact hintact
      simp [body, show 4 < f.bytes.length by omega]
    have hexec : exec (.receiveFrame j f) s = .next (s.rxDeliver j.val f 0 body) := by
      refine congrArg Host.Outcome.next ((if_neg (by simp [hopen, hpyril])).trans ?_)
      simp only [hfec, State.fecCount_nil, hwatch, hmac, Nat.zero_mul, if_true, Bool.not_true, Bool.false_eq_true, if_false, hbody]
    rw [State.rxDeliver_intact 0 body hintact hfits] at hexec
    refine ⟨_, hexec, State.rx_rxPush s j.val _, State.live_lnCount _ j.val 0 1, rfl, rfl⟩
  case unwatched =>
    refine ⟨s.lnCount j.val 3 1, congrArg Host.Outcome.next ((if_neg (by simp [hopen, hpyril])).trans ?_), rfl, rfl,
      s.live_lnCount j.val 3 1⟩
    simp only [hfec, State.fecCount_nil, hwatch, Bool.not_false, if_true]

end Sys2Proof.Machine
end

section
/-! SUPPORT. Frames and raw words sent (R276-R280, R284): a row that is taken, a frame of one word at the head of the transmit buffer, and
the line of a raw lane; the obligation on them. -/

namespace Sys2Proof.Machine

/-! ## Rows (R276, R278) -/

/-- A frame of one word, whole, of which nothing is on the line. -/
def oneWord (cmd : Nat) (w : CWord) : TxFrame := ⟨cmd, [w], some true, 0, none⟩

theorem oneWord_beats (cmd : Nat) (w : CWord) : (oneWord cmd w).beats ≤ (oneWord cmd w).sent + 1 := by
  simp [oneWord, TxFrame.beats]

/-- The codes of a word that opens and ends a frame. -/
theorem code_of_whole {c : Nat} (hopens : codeOpens c = true) (hends : codeEnds c = true) : c = 5 ∨ c = 6 ∨ c = 7 := by
  simp only [codeOpens, codeEnds, Bool.or_eq_true, Bool.and_eq_true, beq_iff_eq, decide_eq_true_eq] at hopens hends
  omega

theorem length_toLE (k n : Nat) : (toLE k n).length = k := by
  induction k generalizing n with
  | zero => rfl
  | succ k ih => rw [toLE, List.length_cons, ih]

theorem length_toBE (k n : Nat) : (toBE k n).length = k := by rw [toBE, List.length_reverse, length_toLE]

theorem frameBytes_single (w : CWord) : frameBytes [w] = wordBytes24 w.data (codeBytes w.code.toNat) := by
  simp [frameBytes]

/-- A word has three bytes at most. -/
theorem length_frameBytes_single (w : CWord) : (frameBytes [w]).length ≤ 3 := by
  rw [frameBytes_single, wordBytes24, List.length_take, length_toBE]
  exact Nat.min_le_right _ _

/-- Between frames the words of a row are left. -/
theorem TxSt.eat_between {x : TxSt} (maxl : Nat) (ws : List CWord) (hin : x.inFrame = false) (hskip : x.skip = false) :
    TxSt.eat maxl ws x = (x, ws) := by
  cases ws with
  | nil => rfl
  | cons w r =>
    unfold TxSt.eat
    simp [hin, hskip]

section
variable {w : CWord} (hopens : codeOpens w.code.toNat = true) (hends : codeEnds w.code.toNat = true)
include hopens hends

/-- A word that opens and ends a frame is that frame, which MAXLEN allows. -/
theorem TxSt.row_oneWord {maxl : Nat} (l : List CWord) (hmax : 64 ≤ maxl) :
    TxSt.row txZero maxl (w :: l) = ({ txZero with q := [oneWord 0x800000 w] }, l) := by
  have hcode := code_of_whole hopens hends
  have hmeta : (w.code.toNat == codeMETA) = false := by simp [codeMETA]; omega
  have hidle : (w.code.toNat == codeIDLE) = false := by simp [codeIDLE]; omega
  have hother : (w.code.toNat == 11 || w.code.toNat == 15) = false := by simp; omega
  have hlen : TxFrame.length ⟨0x800000, [w], none, 0, none⟩ ≤ maxl := by
    have := length_frameBytes_single w
    simp only [TxFrame.length, show bit 0x800000 0 = false by decide, show bit 0x800000 23 = true by decide]
    simp only [Bool.false_eq_true, if_false, if_true]
    omega
  have heat : TxSt.eat maxl (w :: l) txZero.open' = TxSt.eat maxl l { txZero with q := [oneWord 0x800000 w] } := by
    rw [TxSt.eat]
    simp [TxSt.open', txZero, hidle, hother, hopens, hends, onLast, TxSt.close, oneWord, hlen]
  have hrow : TxSt.row txZero maxl (w :: l) = TxSt.eat maxl (w :: l) txZero.open' := by
    simp [TxSt.row, hmeta, hopens, show txZero.inFrame = false from rfl, show txZero.skip = false from rfl]
  rw [hrow, heat, TxSt.eat_between maxl l rfl rfl]

/-- Without a command word it is an Ethernet frame's. -/
theorem State.rowKind_oneWord {s : State} {j : Nat} (l : List CWord) (htx : s.tx j = txZero) : s.rowKind j (w :: l) = .frame := by
  have hcode := code_of_whole hopens hends
  have hmeta : (w.code.toNat == codeMETA) = false := by simp [codeMETA]; omega
  have hctrl : (w.code.toNat == codeCTRL) = false := by simp [codeCTRL]; omega
  have hpyril : txZero.pyril w = false := by simp [TxSt.pyril, txZero, hmeta, bit]
  have hcredit : txZero.credit w = false := by simp [TxSt.credit, hctrl]
  simp [State.rowKind, htx, hpyril, hcredit]

end

/-- A row that is taken leaves the stages; the transmit side has its words, but those it discards. -/
theorem State.txTake_row {s u : State} {j : Nat} {kind : TxRow} {upset : List (Fin 48)} {rows : List (List CWord)}
    (hrow : s.txRow j upset = (some rows, u)) (hkind : u.rowKind j (rows.flatMap id) = kind) (htrain : u.flag .lnTrain j 30 = false)
    (hroom : (u.tx j).used + u.lnK j ≤ 1024 * u.lnK j) :
    s.txTake j kind upset = (let r := (u.tx j).row (u.fld .lnCfg j 13 0) (rows.flatMap id)
      ((u.popRow j).setTx j r.1).txDiscard j r.2) := by
  unfold State.txTake
  rw [hrow]
  dsimp only
  rw [hkind, if_neg (by simp), if_neg (by simp [htrain]), if_neg (Nat.not_lt.mpr hroom)]

/-! ## The frame at the head of the buffer (R278, R279) -/

section
variable {s u : State} {j n : Nat} {kind : Bool} {begin' : TxFrame → State → TxBegin} {f : TxFrame} {r : List TxFrame}

theorem State.txDrain_empty (due : Bool) (n : Nat) (hq : (s.tx j).q = []) : State.txDrain j kind due begin' n s = s := by
  cases n with
  | zero => rfl
  | succ n =>
    unfold State.txDrain
    rw [hq]

/-- No word of the buffer is lost where none is uncorrectable. -/
theorem State.txRot_false (s : State) (j : Nat) (kind : Bool) : s.txRot j kind false = s := by
  unfold State.txRot
  split <;> rfl

/-- The last beat of a whole frame sends it. -/
theorem State.txBeat_last (hlast : f.beats ≤ f.sent + 1) (hended : f.ended = some true) :
    s.txBeat j f = (false, (s.setTx j { s.tx j with q := (s.tx j).q.drop 1 }).txSend j { f with sent := f.sent + 1 }) := by
  have hdrop : s.txDrop j { f with sent := f.sent + 1 } = s.setTx j { s.tx j with q := (s.tx j).q.drop 1 } := by
    simp [State.txDrop, hended]
  have hmore : ¬ ({ f with sent := f.sent + 1 } : TxFrame).sent < ({ f with sent := f.sent + 1 } : TxFrame).beats :=
    Nat.not_lt.mpr hlast
  unfold State.txBeat
  rw [if_neg hmore, hdrop]
  dsimp only
  rw [if_pos hended]

section
variable (hq : (s.tx j).q = f :: r) (hkind : bit f.cmd 0 = kind) (hstart : f.start = none) (hended : f.ended.isSome = true)
include hq hkind hstart hended

theorem State.txDrain_hold (hbegin : begin' f s = .hold) : State.txDrain j kind false begin' (n + 1) s = s := by
  unfold State.txDrain
  rw [hq]
  dsimp only
  rw [if_neg (by simp [hkind]), if_neg (by simp [hstart]), if_neg (by simp [hended]), hbegin]

theorem State.txDrain_drop (hbegin : begin' f s = .drop u) : State.txDrain j kind false begin' (n + 1) s = u.txDrop j f := by
  unfold State.txDrain
  rw [hq]
  dsimp only
  rw [if_neg (by simp [hkind]), if_neg (by simp [hstart]), if_neg (by simp [hended]), hbegin]

/-- A frame that begins and has one beat is sent. -/
theorem State.txDrain_go {t : Nat} {hdr : List Byte} (hbegin : begin' f s = .go u t hdr) (hlast : f.beats ≤ f.sent + 1)
    (hwhole : f.ended = some true) : State.txDrain j kind false begin' (n + 1) s
      = (u.setTx j { u.tx j with q := (u.tx j).q.drop 1 }).txSend j { f with start := some (t, hdr), sent := f.sent + 1 } := by
  have hbeat := State.txBeat_last (s := u) (j := j) (f := { f with start := some (t, hdr) }) hlast hwhole
  unfold State.txDrain
  rw [hq]
  dsimp only
  rw [if_neg (by simp [hkind]), if_neg (by simp [hstart]), if_neg (by simp [hended]), hbegin]
  dsimp only
  rw [hbeat]
  rfl

end

/-- A whole frame whose FCS the MAC makes is counted, and its bytes and their FCS stand on the line. -/
theorem State.txSend_eq (s : State) (j : Nat) {l : List Byte} (hbody : f.body = (l, true)) (hfcs : (bit f.cmd 23 || bit f.cmd 0) = true) :
    s.txSend j f = (s.onLine (l ++ fcsOf l)).lnCount j 5 1 := by
  unfold State.txSend
  rw [hbody]
  dsimp only
  rw [if_pos rfl, if_pos hfcs]

/-- A frame of one word that stands alone in the buffer is sent when it begins. -/
theorem State.txDrain_oneWord {cmd t : Nat} {w : CWord} {hdr : List Byte} (htx : s.tx j = { txZero with q := [oneWord cmd w] })
    (hkind : bit cmd 0 = kind) (hu : u.tx j = s.tx j) (hbegin : begin' (oneWord cmd w) s = .go u t hdr) :
    State.txDrain j kind false begin' 1 s = (u.setTx j txZero).txSend j ⟨cmd, [w], some true, 1, some (t, hdr)⟩ := by
  have hq : (s.tx j).q = [oneWord cmd w] := by rw [htx]
  have hgo := State.txDrain_go (n := 0) hq hkind rfl rfl hbegin (oneWord_beats cmd w) rfl
  rw [hu, htx] at hgo
  exact hgo

end

/-- An Ethernet frame of one word: its bytes and zeros up to 60. -/
theorem body_oneWord (w : CWord) (t : Nat) :
    TxFrame.body ⟨0x800000, [w], some true, 1, some (t, [])⟩ = (padTo 60 (wordBytes24 w.data (codeBytes w.code.toNat)), true) := by
  unfold TxFrame.body
  simp only [Option.getD_some, show bit 0x800000 0 = false by decide, show bit 0x800000 21 = false by decide,
    show bit 0x800000 23 = true by decide, frameBytes_single, Bool.false_eq_true, if_false, Bool.false_and, Bool.not_false, Bool.or_true,
    if_true]

/-! ## TRANSMIT_FRAME (R276, R279) -/

section
variable {j : Fin 128} {n : Nat} {m : Fin 8} {up : List (Fin 48)} {s : State} {w : CWord}
variable (hclosed : s.closed (64 + j.val / 8) = false) (hopen : s.txOpen j.val = true) (hk : s.lnK j.val = 1)
variable (htrain : s.flag .lnTrain j.val 30 = false)
include hclosed hopen hk htrain

/-- An open port of one lane: the line takes a beat of a frame, then a row enters the buffer. -/
theorem execTransmitFrame_open : exec (.transmitFrame j n m false up) s
    = .next ((State.txDrain j.val false (s.pyDue j.val) (State.beginFrame m.val j.val) (min n 1) s).txTake j.val .frame up) := by
  refine congrArg Host.Outcome.next ((if_neg (by simp [hclosed])).trans ((if_neg (by simp [hopen])).trans ?_))
  rw [State.txRot_false, hk, if_neg (by simp [htrain])]

/-- A frame of one word enters an empty buffer. -/
theorem State.transmitFrame_enters {l : List CWord} (hopens : codeOpens w.code.toNat = true) (hends : codeEnds w.code.toNat = true)
    (hrow : s.txRow j.val up = (some [w :: l], s)) (htx : s.tx j.val = txZero) (hidle : ∀ y ∈ l, y.code.toNat = codeIDLE)
    (hmax : 64 ≤ s.fld .lnCfg j.val 13 0) :
    Goes (exec (.transmitFrame j n m false up) s) (fun t => t.tx j.val = { txZero with q := [oneWord 0x800000 w] } ∧ t.line = s.line
      ∧ t.regs = s.regs ∧ (∀ k ∈ laneOuts j.val, t.stageAt k = (s.stageAt k).pop s.fc)) := by
  have hflat : [w :: l].flatMap id = w :: l := by simp
  have hkind : s.rowKind j.val ([w :: l].flatMap id) = .frame := hflat ▸ State.rowKind_oneWord hopens hends l htx
  have hroom : (s.tx j.val).used + s.lnK j.val ≤ 1024 * s.lnK j.val := by
    rw [htx, hk]
    decide
  have hexec := execTransmitFrame_open (n := n) (m := m) (up := up) hclosed hopen hk htrain
  rw [State.txDrain_empty _ _ (by rw [htx]; rfl), State.txTake_row hrow hkind htrain hroom, hflat, htx,
    TxSt.row_oneWord hopens hends l hmax, State.txDiscard_idle _ _ hidle] at hexec
  generalize hx : ({ txZero with q := [oneWord 0x800000 w] } : TxSt) = x at hexec
  set t := ((s.popRow j.val).setTx j.val x).lnCount j.val 7 0 with ht
  have hsw : t.sw = (s.popRow j.val).sw := by simp [ht]
  refine ⟨t, hexec, by simp [ht], by simp [ht], by simp [ht], fun k hmem => ?_⟩
  exact (State.stageAt_congr hsw k).trans (s.popRow_stageAt j.val hk k hmem)

/-- The frame at the buffer's head goes out. -/
theorem State.transmitFrame_sends (hheads : ∀ k ∈ laneOuts j.val, (s.stageAt k).head s.fc = none)
    (htx : s.tx j.val = { txZero with q := [oneWord 0x800000 w] }) (hdue : s.pyDue j.val = false) (hn : 1 ≤ n) :
    let b := padTo 60 (wordBytes24 w.data (codeBytes w.code.toNat))
    Goes (exec (.transmitFrame j n m false up) s) (fun t => t.line = (b ++ fcsOf b).map BitVec.toNat
      ∧ (t.ln.live.rd (32 * j.val + 5) 0).toNat = satAdd 32 (s.ln.live.rd (32 * j.val + 5) 0).toNat 1
      ∧ t.tx j.val = txZero ∧ t.regs = s.regs ∧ t.sw = s.sw) := by
  intro b
  set u := s.setTx j.val txZero with hu
  set t := (u.onLine (b ++ fcsOf b)).lnCount j.val 5 1 with ht
  have hbegin : State.beginFrame m.val j.val (oneWord 0x800000 w) s = .go s (s.egressTime (j.val + m.val % s.lnK j.val)) [] := by
    have hstamp : bit (oneWord 0x800000 w).cmd 22 = false := show bit 0x800000 22 = false by decide
    rw [State.beginFrame, hstamp]
    rfl
  have hsent : State.txDrain j.val false (s.pyDue j.val) (State.beginFrame m.val j.val) (min n 1) s = t := by
    rw [hdue, Nat.min_eq_right hn, State.txDrain_oneWord htx (by decide) rfl hbegin,
      State.txSend_eq _ _ (body_oneWord w _) (show (bit 0x800000 23 || bit 0x800000 0) = true by decide)]
  have hframe : t.regs = s.regs ∧ t.sw = s.sw ∧ t.fc = s.fc := by simp [ht, hu]
  obtain ⟨hregs, hsw, hfc⟩ := hframe
  have hnone : t.txRow j.val up = (none, t) := by
    refine State.txRow_none up ?_ fun k hmem => ?_
    · rw [State.lnK, State.fld_congr hregs, ← State.lnK, hk]
    · rw [State.stageAt_congr hsw, hfc, hheads k hmem]
  have hexec := execTransmitFrame_open (n := n) (m := m) (up := up) hclosed hopen hk htrain
  rw [hsent, State.txTake_none .frame hnone] at hexec
  refine ⟨t, hexec, by simp [ht], ?_, ?_, hregs, hsw⟩
  · rw [ht, State.live_lnCount]
    simp [hu]
  · exact (State.tx_congr (s := u) (by simp [ht]) _).trans (State.tx_setTx _ _ _)

end

/-! ## RAW_TRANSMIT (R280) -/

/-- Nothing counted leaves a counter. -/
theorem satAdd_zero_word (w : Word) : satAdd 32 w.toNat 0 = w.toNat := by
  have := w.isLt
  unfold satAdd
  omega

/-- The state of a raw lane without FEC whose oldest words have left the buffer. -/
def State.rawTaken (s : State) (j : Nat) : State := s.setTx j { s.tx j with ws := (s.tx j).ws.drop 6 }

/-- Six words of a raw lane without FEC, or what there is and fill. -/
theorem State.rawSend_words {s : State} {j : Nat} (hfec : s.flag .lnCfg j 26 = false) : s.rawSend j =
    { (if ((s.tx j).ws.take 6).isEmpty then (s.rawTaken j).lnCount j 6 1 else s.rawTaken j) with
      line := ((s.tx j).ws.take 6).map (fun w => w.data.toNat)
        ++ List.replicate (6 - ((s.tx j).ws.take 6).length) (s.fld .lnRawfill j 23 0) } := by
  unfold State.rawSend
  rw [hfec]
  rfl

/-- A unit of the line of a raw lane without FEC. -/
theorem State.rawSend_spec {s : State} {j : Nat} (hfec : s.flag .lnCfg j 26 = false) : let t := s.rawSend j
    let got := (s.tx j).ws.take 6
    t.line = got.map (fun w => w.data.toNat) ++ List.replicate (6 - got.length) (s.fld .lnRawfill j 23 0)
    ∧ (t.tx j).ws = (s.tx j).ws.drop 6
    ∧ (t.ln.live.rd (32 * j + 6) 0).toNat = satAdd 32 (s.ln.live.rd (32 * j + 6) 0).toNat (if got = [] then 1 else 0)
    ∧ t.regs = s.regs ∧ t.sw = s.sw ∧ t.fc = s.fc := by
  have htaken : ((s.rawTaken j).tx j).ws = (s.tx j).ws.drop 6 := by rw [State.rawTaken, State.tx_setTx]
  dsimp only
  rw [State.rawSend_words hfec]
  generalize (s.tx j).ws.take 6 = got
  cases got with
  | nil => exact ⟨rfl, htaken, (s.rawTaken j).live_lnCount j 6 1, rfl, rfl, rfl⟩
  | cons w r => exact ⟨rfl, htaken, (satAdd_zero_word _).symm, rfl, rfl, rfl⟩

section
variable {j : Fin 128} {up : List (Fin 48)} {s : State}
variable (hclosed : s.closed (64 + j.val / 8) = false) (hen : s.lnEn j.val = true) (hraw : s.lnRaw j.val = true)
variable (hon : s.groupOn j.val = true) (htx : s.ln.txOn = true) (hfec : s.flag .lnCfg j.val 26 = false)
include hclosed hen hraw hon htx hfec

/-- A beat is due, and no words come. -/
theorem execRawTransmit_due (hk : s.lnK j.val = 1) (hheads : ∀ k ∈ laneOuts j.val, (s.stageAt k).head s.fc = none) :
    exec (.rawTransmit j true up) s = .next (s.rawSend j.val) := by
  obtain ⟨-, -, -, hregs, hsw, hfc⟩ := State.rawSend_spec hfec
  have hnone : (s.rawSend j.val).txRow j.val up = (none, s.rawSend j.val) := by
    refine State.txRow_none up ?_ fun k hmem => ?_
    · rw [State.lnK, State.fld_congr hregs, ← State.lnK, hk]
    · rw [State.stageAt_congr hsw, hfc, hheads k hmem]
  refine congrArg Host.Outcome.next ((if_neg (by simp [hclosed])).trans ((if_neg (by simp [hen, hraw, hon, htx])).trans ?_))
  dsimp only
  rw [if_pos rfl, hnone]

/-- A row comes while there is room: its data words join those that wait. -/
theorem execRawTransmit_row {rows : List (List CWord)} {u : State} (hrow : s.txRow j.val up = (some rows, u))
    (hroom : (u.tx j.val).used + ((u.tx j.val).ws.length + 5) / 6 + 1 ≤ 1024) : exec (.rawTransmit j false up) s
      = .next (((u.popRow j.val).lnCount j.val 7
          ((rows.flatMap id).filter (fun w => !rawTakes w.code.toNat && w.code.toNat != codeIDLE)).length).setTx j.val
          { u.tx j.val with ws := (u.tx j.val).ws ++ (rows.flatMap id).filter (fun w => rawTakes w.code.toNat) }) := by
  have hfecU : u.flag .lnCfg j.val 26 = false := by
    have hreg := s.txRow_reg j.val up (n := .lnCfg) j.val (by decide) (by decide)
    rw [hrow] at hreg
    exact (State.flag_of_reg hreg 26).trans hfec
  refine congrArg Host.Outcome.next ((if_neg (by simp [hclosed])).trans ((if_neg (by simp [hen, hraw, hon, htx])).trans ?_))
  dsimp only
  rw [if_neg Bool.false_ne_true, hrow]
  dsimp only
  rw [if_neg (Nat.not_lt.mpr hroom), if_neg (by simp [hfecU])]

end

/-! ## The obligation -/

/-- Settles O21: a row enters the buffer after the line has had its beats, so a frame goes out in an fc after the one it came in. -/
theorem lanesSendFramesAndRawWords : Obligations.LanesSendFramesAndRawWords := by
  refine ⟨fun j n m up s w hclosed hopen hk htrain hopens hends => ⟨fun l hrow htx hidle hmax => ?_, fun hheads htx hdue hn => ?_⟩,
    fun j up s hclosed hen hraw hon htx hfec => ⟨fun hk hheads => ?_, fun rows u hrow hroom => ?_⟩⟩
  · exact State.transmitFrame_enters hclosed hopen hk htrain hopens hends hrow htx hidle hmax
  · exact State.transmitFrame_sends hclosed hopen hk htrain hheads htx hdue hn
  · obtain ⟨hline, hws, hlive, -⟩ := State.rawSend_spec hfec
    exact ⟨_, execRawTransmit_due hclosed hen hraw hon htx hfec hk hheads, hline, hws, hlive⟩
  · refine ⟨_, execRawTransmit_row hclosed hen hraw hon htx hfec hrow hroom, by simp, by simp, ?_⟩
    rw [State.tx_setTx]

end Sys2Proof.Machine
end

section
/-! SUPPORT. Pyril hellos and credit (R291-R295, R299): what a lane sends of itself, and what it learns and forgets of its peer. -/

namespace Sys2Proof.Tbl

variable {α : Type}

/-- Deleting another key keeps an entry. -/
theorem mem_del_other {t : Tbl α} {k : Nat} {e : Nat × α} (he : e ∈ t) (hk : e.1 ≠ k) : e ∈ t.del k := by
  induction t with
  | nil => cases he
  | cons a r ih =>
    obtain ⟨k', v⟩ := a
    rcases List.mem_cons.mp he with rfl | hr
    · simp only [Tbl.del, if_neg hk]
      exact List.mem_cons_self
    · simp only [Tbl.del]
      split
      · exact ih hr
      · exact List.mem_cons_of_mem _ (ih hr)

/-- Putting in an entry keeps the others. -/
theorem mem_ins_old {t : Tbl α} (k : Nat) (v : α) {e : Nat × α} (he : e ∈ t) : e ∈ t.ins k v := by
  induction t with
  | nil => cases he
  | cons a r ih =>
    obtain ⟨k', w⟩ := a
    simp only [Tbl.ins]
    split
    · exact List.mem_cons_of_mem _ he
    · rcases List.mem_cons.mp he with rfl | hr
      · exact List.mem_cons_self
      · exact List.mem_cons_of_mem _ (ih hr)

/-- A write of another key keeps an entry. -/
theorem mem_wr_other [DecidableEq α] {t : Tbl α} {k : Nat} (d v : α) {e : Nat × α} (he : e ∈ t) (hk : e.1 ≠ k) : e ∈ t.wr k d v := by
  unfold Tbl.wr
  split
  · exact mem_del_other he hk
  · exact mem_ins_old k v (mem_del_other he hk)

/-- Keys deleted one after the other read as the default. -/
theorem rd_foldl_del (ks : List Nat) (t : Tbl α) {k : Nat} {d : α} (h : k ∈ ks ∨ t.rd k d = d) :
    (ks.foldl (fun t k => t.del k) t).rd k d = d := by
  induction ks generalizing t with
  | nil => exact h.resolve_left List.not_mem_nil
  | cons a r ih =>
    refine ih (t.del a) ?_
    by_cases hka : k = a
    · exact .inr (hka ▸ Tbl.rd_del_same t a d)
    · exact h.imp (fun hmem => (List.mem_cons.mp hmem).resolve_left hka) (fun hd => (Tbl.rd_del_other t d hka).trans hd)

end Sys2Proof.Tbl

namespace Sys2Proof.Machine

/-! ## What a lane sends of itself (R291, R295) -/

/-- Pieces of one length make up a multiple of it. -/
theorem length_flatMap_pieces {α β : Type} {f : α → List β} {c : Nat} (l : List α) (h : ∀ a, (f a).length = c) :
    (l.flatMap f).length = c * l.length := by
  induction l with
  | nil => rfl
  | cons a r ih => rw [List.flatMap_cons, List.length_append, ih, h, List.length_cons, Nat.mul_succ, Nat.add_comm]

/-- What a lane has told is no longer changed. -/
theorem State.told_changed (s : State) {ks : List Nat} {k : Nat} (h : k ∈ ks) : (s.told ks).ln.changed.rd k false = false :=
  Tbl.rd_foldl_del ks s.ln.changed (.inl h)

@[simp] theorem State.told_frame (s : State) (ks : List Nat) : (s.told ks).regs = s.regs ∧ (s.told ks).line = s.line
    ∧ (s.told ks).ln.py = s.ln.py :=
  ⟨rfl, rfl, rfl⟩

section
variable (s : State) (j : Nat)

/-- The bytes of a HELLO. -/
def State.helloBody : List Byte :=
  [BitVec.ofNat 8 (s.txVer j * 16 + 3), BitVec.ofNat 8 verMax] ++ toBE 2 (s.fld .lnPyl j 15 0) ++ toBE 4 (s.py j).hseq.toNat
    ++ toBE 2 (s.laneStreams j).length ++ (s.laneStreams j).flatMap s.helloEntry

/-- A HELLO carries the lane's version, epoch and sequence, and an entry of 8 bytes for each of its streams. -/
theorem State.helloBody_spec : (s.helloBody j).length = 10 + 8 * (s.laneStreams j).length
    ∧ (s.helloBody j).take 1 = [BitVec.ofNat 8 (s.txVer j * 16 + 3)] ∧ ((s.helloBody j).drop 2).take 2 = toBE 2 (s.fld .lnPyl j 15 0)
    ∧ ((s.helloBody j).drop 4).take 4 = toBE 4 (s.py j).hseq.toNat := by
  have hentries := length_flatMap_pieces (s.laneStreams j) (f := s.helloEntry) (c := 8)
    fun k => by rw [State.helloEntry, List.length_append, length_toBE]; rfl
  refine ⟨?_, rfl, ?_, ?_⟩
  · simp only [State.helloBody, List.length_append, length_toBE, hentries, List.length_cons, List.length_nil]
  · rw [State.helloBody, List.append_assoc, List.append_assoc, List.append_assoc,
      List.drop_left' (show [_, _].length = 2 from rfl), List.take_left' (length_toBE 2 _)]
  · rw [State.helloBody, List.append_assoc, List.append_assoc, List.drop_left' (by simp [length_toBE]), List.take_left' (length_toBE 4 _)]

/-- The bytes of a CREDIT for some streams. -/
def State.creditBody (ks : List Nat) : List Byte :=
  [BitVec.ofNat 8 (s.txVer j * 16 + 2), BitVec.ofNat 8 ks.length, 0, 0, 0, 0, 0, 0]
    ++ ks.flatMap (fun k => [BitVec.ofNat 8 (k % 256), 0] ++ toBE 4 (s.grantedOf k).toNat)

/-- A CREDIT says how many streams it lists, and has an entry of 6 bytes for each. -/
theorem State.creditBody_spec (ks : List Nat) : (s.creditBody j ks).length = 8 + 6 * ks.length
    ∧ (s.creditBody j ks).take 2 = [BitVec.ofNat 8 (s.txVer j * 16 + 2), BitVec.ofNat 8 ks.length] := by
  refine ⟨?_, rfl⟩
  rw [State.creditBody, List.length_append, length_flatMap_pieces ks (c := 6) fun k => by rw [List.length_append, length_toBE]; rfl]
  rfl

end

section
variable {s : State} {j : Fin 128} (hon : s.pyOn j.val = true) (hbound : s.atBoundary j.val = true)
include hon hbound

/-- A HELLO that is due goes out and tells of every stream of the lane. -/
theorem State.helloSend_sends (hdue : (s.py j.val).first = true ∨ (s.py j.val).helloAt + 1600000 ≤ s.fc) :
    Goes (exec (.helloSend j) s) (fun t =>
      (∃ body, t.line = (s.pyFrame j.val body).map BitVec.toNat ∧ body.length = 10 + 8 * (s.laneStreams j.val).length
        ∧ body.take 1 = [BitVec.ofNat 8 (s.txVer j.val * 16 + 3)] ∧ (body.drop 2).take 2 = toBE 2 (s.fld .lnPyl j.val 15 0)
        ∧ (body.drop 4).take 4 = toBE 4 (s.py j.val).hseq.toNat)
      ∧ (t.py j.val).helloAt = s.fc ∧ (t.py j.val).hseq = (s.py j.val).hseq + 1
      ∧ (∀ k ∈ s.laneStreams j.val, t.ln.changed.rd k false = false) ∧ t.regs = s.regs) := by
  set x : PyrilSt := { s.py j.val with hseq := (s.py j.val).hseq + 1, helloAt := s.fc, first := false } with hx
  set u := (s.onLine (s.pyFrame j.val (s.helloBody j.val))).setPy j.val x with hu
  have hexec : exec (.helloSend j) s = .next (u.told (s.laneStreams j.val)) := by
    refine congrArg Host.Outcome.next (if_neg ?_)
    rw [hon, hbound]
    have hgo : ((s.py j.val).first || decide ((s.py j.val).helloAt + 1600000 ≤ s.fc)) = true := by simpa using hdue
    simp [hgo]
  have hpy : (u.told (s.laneStreams j.val)).py j.val = x :=
    (State.py_congr (s := u) (by simp) j.val).trans (State.py_setPy _ _ _)
  exact ⟨_, hexec, ⟨s.helloBody j.val, by simp [hu], s.helloBody_spec j.val⟩, by rw [hpy], by rw [hpy],
    fun k hk => u.told_changed hk, by simp [hu]⟩

/-- A CREDIT lists the streams whose credit has changed, and tells of them. -/
theorem State.creditSend_sends (hsome : ((s.laneStreams j.val).filter (fun k => s.ln.changed.rd k false)).take 64 ≠ []) :
    let ks := ((s.laneStreams j.val).filter (fun k => s.ln.changed.rd k false)).take 64
    Goes (exec (.creditSend j) s) (fun t =>
      (∃ body, t.line = (s.pyFrame j.val body).map BitVec.toNat ∧ body.length = 8 + 6 * ks.length
        ∧ body.take 2 = [BitVec.ofNat 8 (s.txVer j.val * 16 + 2), BitVec.ofNat 8 ks.length])
      ∧ (∀ k ∈ ks, t.ln.changed.rd k false = false) ∧ t.regs = s.regs) := by
  intro ks
  have hexec : exec (.creditSend j) s = .next ((s.onLine (s.pyFrame j.val (s.creditBody j.val ks))).told ks) := by
    refine congrArg Host.Outcome.next (if_neg ?_)
    rw [hon, hbound, List.isEmpty_eq_false_iff.mpr hsome]
    decide
  exact ⟨_, hexec, ⟨s.creditBody j.val ks, by simp, s.creditBody_spec j.val ks⟩, fun k hk => State.told_changed _ hk, by simp⟩

end

/-! ## What a lane learns and forgets of its peer (R293, R294) -/

section
variable (s : State) (j : Nat)

/-- The state of a Pyril engine set, and the rest of the registers. -/
theorem State.setPySt_spec {v : Nat} (hv : v < 4) : (s.setPySt j v).pySt j = v ∧ (s.setPySt j v).ln = s.ln
    ∧ ∀ n i, n ≠ .lnStat → (s.setPySt j v).reg n i = s.reg n i := by
  unfold State.setPySt
  split
  · next h => exact ⟨h, rfl, fun _ _ _ => rfl⟩
  · refine ⟨?_, by simp [State.laneSticky], fun n i hn => ?_⟩
    · rw [State.pySt, State.laneSticky, State.setBit, State.fld_setFld_apart _ _ (by decide) (by decide),
        State.fld_setFld _ _ (by decide)]
      exact Nat.mod_eq_of_lt hv
    · rw [State.laneSticky, State.reg_setBit_other _ _ (fun e => hn e.1), State.reg_setFld_name _ _ hn]

/-- A change of the lane's epoch leaves its streams. -/
theorem State.laneStreams_epoch {k : Nat} (v : Nat) (h : k ∈ s.laneStreams j) : k ∈ (s.setFld .lnPyl j 15 0 v).laneStreams j := by
  obtain ⟨e, he, rfl⟩ := List.mem_map.mp h
  obtain ⟨hmem, htest⟩ := List.mem_filter.mp he
  refine List.mem_map.mpr ⟨e, List.mem_filter.mpr ⟨Tbl.mem_wr_other _ _ hmem fun hkey => ?_, htest⟩, rfl⟩
  simp only [Bool.and_eq_true, beq_iff_eq] at htest
  obtain ⟨⟨⟨hname, -⟩, -⟩, -⟩ := htest
  rw [hkey, key_mod] at hname
  exact absurd hname (by decide)

/-- A lane that enters DOWN forgets what its streams have counted. -/
theorem State.pyDown_forgets : ∀ k ∈ s.laneStreams j, (s.pyDown j).ln.sent.rd k 0 = 0 ∧ (s.pyDown j).ln.recv.rd k 0 = 0
    ∧ (s.pyDown j).ln.granted.rd k 0 = 0 ∧ (s.pyDown j).ln.peerGranted.rd k 0 = 0 := by
  intro k hk
  have hmem := s.laneStreams_epoch j (s.fld .lnPyl j 15 0 + 1) hk
  simp only [State.pyDown, State.laneSticky, State.setBit_frame, State.setFld_frame]
  exact ⟨Tbl.rd_foldl_del _ s.ln.sent (.inl hmem), Tbl.rd_foldl_del _ s.ln.recv (.inl hmem),
    Tbl.rd_foldl_del _ s.ln.granted (.inl hmem), Tbl.rd_foldl_del _ s.ln.peerGranted (.inl hmem)⟩

/-- A new epoch of the peer takes a lane that was UP through DOWN. -/
def State.newEpoch (ep : BitVec 16) : State :=
  if s.pySt j == 2 && (s.py j).peerEpoch != some ep then s.pyDown j else s

theorem State.newEpoch_fld (ep : BitVec 16) : (s.newEpoch j ep).fld .lnPyl j 15 0
    = if s.pySt j = 2 ∧ (s.py j).peerEpoch ≠ some ep then (s.fld .lnPyl j 15 0 + 1) % 2 ^ 16 else s.fld .lnPyl j 15 0 := by
  unfold State.newEpoch
  rw [apply_ite (fun t : State => t.fld .lnPyl j 15 0), State.pyDown_epoch]
  exact if_congr (by simp) rfl rfl

theorem State.newEpoch_fc (ep : BitVec 16) : (s.newEpoch j ep).fc = s.fc := by
  unfold State.newEpoch
  split
  · exact (s.pyDown_frame j).2.2
  · rfl

/-- The lane is UP, with the versions it will use. -/
def State.helloUp (version ours : Nat) : State :=
  ((s.setPySt j 2).setFld .lnPyl j 31 28 version).setFld .lnPyl j 27 24 ours

theorem State.helloUp_spec (version ours : Nat) : (s.helloUp j version ours).pySt j = 2
    ∧ (s.helloUp j version ours).py j = s.py j ∧ (s.helloUp j version ours).fld .lnPyl j 15 0 = s.fld .lnPyl j 15 0 := by
  obtain ⟨hst, hln, hreg⟩ := s.setPySt_spec j (v := 2) (by decide)
  refine ⟨?_, State.py_congr (by simp [State.helloUp, hln]) j, ?_⟩
  · rw [State.pySt, State.fld, State.helloUp, State.reg_setFld_name _ _ (by decide), State.reg_setFld_name _ _ (by decide), ← State.fld,
      ← State.pySt, hst]
  · rw [State.helloUp, State.fld_setFld_apart _ _ (by decide) (by decide), State.fld_setFld_apart _ _ (by decide) (by decide), State.fld,
      hreg _ _ (by decide), ← State.fld]

end

section
variable {s : State} {j : Fin 128} {f : RxFrame} (hfec : f.fec = []) (hfcs : fcsGood f.bytes = true) (hpcs : f.pcsError = false)
include hfec hfcs hpcs

/-- A valid HELLO without entries brings the lane UP. -/
theorem State.helloReceive_up (htakes : s.pyTakes j.val f 3 = true) (hvalid : helloValid (pyBody f) = true)
    (hempty : be16 (pyBody f) 8 = 0) : Goes (exec (.helloReceive j f) s) (fun t => t.pySt j.val = 2 ∧ (t.py j.val).heard = s.fc
      ∧ (t.py j.val).peerEpoch = some (BitVec.ofNat 16 (be16 (pyBody f) 2))
      ∧ (t.py j.val).peerSa = some (BitVec.ofNat 48 (bytesBE ((f.bytes.drop 6).take 6)))
      ∧ t.fld .lnPyl j.val 15 0 = (if s.pySt j.val = 2 ∧ (s.py j.val).peerEpoch ≠ some (BitVec.ofNat 16 (be16 (pyBody f) 2))
          then (s.fld .lnPyl j.val 15 0 + 1) % 2 ^ 16 else s.fld .lnPyl j.val 15 0)) := by
  set ep : BitVec 16 := BitVec.ofNat 16 (be16 (pyBody f) 2) with hep
  set u := s.newEpoch j.val ep with hu
  set x : PyrilSt := { u.py j.val with
    peerSa := some (BitVec.ofNat 48 (bytesBE ((f.bytes.drop 6).take 6))), peerEpoch := some ep, heard := u.fc } with hx
  have hexec : exec (.helloReceive j f) s = .next ((u.setPy j.val x).helloUp j.val (min (byteAt (pyBody f) 1) 15)
      (min verMax (byteAt (pyBody f) 1))) := by
    refine congrArg Host.Outcome.next ((if_neg (by simp [htakes])).trans ?_)
    rw [hfec, State.fecCount_nil, hempty]
    exact (if_neg (by simp [hfcs])).trans (if_neg (by simp [hpcs, hvalid]))
  obtain ⟨hst, hpy, hfld⟩ := (u.setPy j.val x).helloUp_spec j.val (min (byteAt (pyBody f) 1) 15) (min verMax (byteAt (pyBody f) 1))
  rw [State.py_setPy] at hpy
  refine ⟨_, hexec, hst, ?_, by rw [hpy], by rw [hpy], hfld.trans (s.newEpoch_fld j.val ep)⟩
  rw [hpy]
  exact s.newEpoch_fc j.val ep

omit hpcs in
/-- A CREDIT on a lane that is not UP is ignored. -/
theorem State.creditReceive_ignored (htakes : s.pyTakes j.val f 2 = true) (hdown : s.pySt j.val ≠ 2) :
    exec (.creditReceive j f) s = .next s := by
  refine congrArg Host.Outcome.next ((if_neg (by simp [htakes])).trans ?_)
  rw [hfec, State.fecCount_nil]
  exact (if_neg (by simp [hfcs])).trans (if_pos (by simp [hdown]))

/-- A CREDIT with one entry of an enabled stream gives the credit of that stream. -/
theorem State.creditReceive_takes (htakes : s.pyTakes j.val f 2 = true) (hver : 1 ≤ pyVer (pyBody f)) (hmax : pyVer (pyBody f) ≤ verMax)
    {st : Nat} (hup : s.pySt j.val = 2) (hone : byteAt (pyBody f) 1 = 1) (hst : byteAt (pyBody f) 8 = st) (hen : s.streamOn j.val st = true) :
    Goes (exec (.creditReceive j f) s) (fun t =>
      t.ln.peerGranted.rd (streamKey j.val st) 0 = BitVec.ofNat 32 (bytesBE (((pyBody f).drop 10).take 4))
      ∧ (∀ k, k ≠ streamKey j.val st → t.ln.peerGranted.rd k 0 = s.ln.peerGranted.rd k 0)) := by
  set g : Word := BitVec.ofNat 32 (bytesBE (((pyBody f).drop 10).take 4)) with hg
  have hexec : exec (.creditReceive j f) s = .next (s.peerEntry j.val st g) := by
    refine congrArg Host.Outcome.next ((if_neg (by simp [htakes])).trans ?_)
    rw [hfec, State.fecCount_nil, hone, ← hst]
    exact (if_neg (by simp [hfcs])).trans (if_neg (by simp [hpcs, hup, hver, hmax]))
  have hgranted : (s.peerEntry j.val st g).ln.peerGranted = s.ln.peerGranted.wr (streamKey j.val st) 0 g := by
    rw [State.peerEntry, if_pos hen]
    dsimp only
    split <;> rfl
  refine ⟨_, hexec, ?_, fun k hk => ?_⟩
  · rw [hgranted, Tbl.rd_wr_same]
  · rw [hgranted, Tbl.rd_wr_other _ _ _ _ hk]

end

end Sys2Proof.Machine
end

section
/-! SUPPORT. Pyril data frames and credit returns (R277, R293, R296-R298): a frame begins, waits for credit or is discarded, and one that
comes is accepted or counted; the obligations on Pyril lanes. -/

namespace Sys2Proof.Machine

/-! ## Data frames sent (R296) -/

/-- The Pyril bytes ahead of a data frame's payload. -/
def State.dataHead (s : State) (j st : Nat) : List Byte :=
  [BitVec.ofNat 8 (s.txVer j * 16 + 1), BitVec.ofNat 8 st, BitVec.ofNat 8 (s.fld .lnPyg (streamKey j st) 31 24), 0]
    ++ toBE 2 (s.fld .lnPys (streamKey j st) 27 18 * 64) ++ [0, 0]

theorem State.length_dataHead (s : State) (j st : Nat) : (s.dataHead j st).length = 8 := by
  simp [State.dataHead, length_toBE]

/-- A data frame of one word as it stands on the line. -/
theorem State.pyFrame_oneWord (s : State) (j st : Nat) {cmd : Nat} (w : CWord) (hcmd : bit cmd 0 = true) :
    TxFrame.body ⟨cmd, [w], some true, 1, some (0, s.pyHead j ++ s.dataHead j st)⟩
      = (padTo 60 (s.pyHead j ++ (s.dataHead j st ++ wordBytes24 w.data (codeBytes w.code.toNat))), true) := by
  unfold TxFrame.body
  simp only [Option.getD_some, hcmd, if_true, frameBytes_single, List.append_assoc]

/-- A stream's command that is in order, of an enabled stream of an UP lane. -/
def pyrilOk (s : State) (j cmd : Nat) : Prop := pyCmdOk cmd = true ∧ s.streamOn j (bits cmd 20 13) = true ∧ s.pySt j = 2

theorem pyrilOk_iff (s : State) (j cmd : Nat) :
    (!pyCmdOk cmd || !s.streamOn j (bits cmd 20 13) || s.pySt j != 2) = true ↔ ¬ pyrilOk s j cmd := by
  simp only [pyrilOk, Bool.or_eq_true, Bool.not_eq_true', bne_iff_ne, ← Bool.not_eq_true]
  tauto

/-- One credit of a stream is used. -/
def State.creditUsed (s : State) (k : Nat) : State := { s with ln := { s.ln with sent := s.ln.sent.up k 0 (· + 1) } }

theorem State.creditUsed_frame (s : State) (k : Nat) : (s.creditUsed k).regs = s.regs ∧ (s.creditUsed k).sw = s.sw
    ∧ (s.creditUsed k).fc = s.fc ∧ (s.creditUsed k).ln.tx = s.ln.tx := ⟨rfl, rfl, rfl, rfl⟩

section
variable {s : State} {j cmd : Nat} {w : CWord}

theorem State.beginPyril_drop (hno : ¬ pyrilOk s j cmd) : s.beginPyril j (oneWord cmd w) = .drop (s.lnCount j 29 1) :=
  if_pos ((pyrilOk_iff s j cmd).mpr hno)

section
variable (hok : pyrilOk s j cmd)
include hok

theorem State.beginPyril_hold (hnone : s.avail (streamKey j (bits cmd 20 13)) = 0) : s.beginPyril j (oneWord cmd w) = .hold :=
  (if_neg fun h => (pyrilOk_iff s j cmd).mp h hok).trans (if_pos hnone)

theorem State.beginPyril_go (hsome : s.avail (streamKey j (bits cmd 20 13)) ≠ 0) : s.beginPyril j (oneWord cmd w)
    = .go (s.creditUsed (streamKey j (bits cmd 20 13))) 0 (s.pyHead j ++ s.dataHead j (bits cmd 20 13)) := by
  rw [State.dataHead, ← List.append_assoc, ← List.append_assoc]
  exact (if_neg fun h => (pyrilOk_iff s j cmd).mp h hok).trans (if_neg hsome)

end

end

section
variable {j : Fin 128} {n cmd : Nat} {up : List (Fin 48)} {s : State} {w : CWord}
variable (hopen : s.txOpen j.val = true) (hk : s.lnK j.val = 1) (htrain : s.flag .lnTrain j.val 30 = false)
variable (hdue : s.pyDue j.val = false) (hn : 1 ≤ n) (hheads : ∀ k ∈ laneOuts j.val, (s.stageAt k).head s.fc = none)
variable (htx : s.tx j.val = { txZero with q := [oneWord cmd w] }) (hcmd : bit cmd 0 = true)
include hopen hk htrain hdue hn hheads

/-- An open port of one lane on which no words come: the line takes a beat of a data frame. -/
theorem execPyrilDataSend_beat {t : State} (hdrain : State.txDrain j.val true false (State.beginPyril j.val) 1 s = t)
    (hframe : t.regs = s.regs ∧ t.sw = s.sw ∧ t.fc = s.fc) : exec (.pyrilDataSend j n false up) s = .next t := by
  obtain ⟨hregs, hsw, hfc⟩ := hframe
  have hnone : t.txRow j.val up = (none, t) := by
    refine State.txRow_none up ?_ fun k hmem => ?_
    · rw [State.lnK, State.fld_congr hregs, ← State.lnK, hk]
    · rw [State.stageAt_congr hsw, hfc, hheads k hmem]
  refine congrArg Host.Outcome.next ((if_neg (by simp [hopen])).trans ?_)
  rw [State.txRot_false, hk, hdue, Nat.min_eq_right hn, if_neg (by simp [htrain]), hdrain, State.txTake_none .pyril hnone]

include htx hcmd

/-- A data frame without credit stays. -/
theorem State.pyrilDataSend_waits (hok : pyrilOk s j.val cmd) (hnone : s.avail (streamKey j.val (bits cmd 20 13)) = 0) :
    exec (.pyrilDataSend j n false up) s = .next s :=
  execPyrilDataSend_beat hopen hk htrain hdue hn hheads
    (State.txDrain_hold (n := 0) (f := oneWord cmd w) (r := []) (by rw [htx]) hcmd rfl rfl (State.beginPyril_hold hok hnone))
    ⟨rfl, rfl, rfl⟩

/-- A data frame with credit uses it, and stands on the line. -/
theorem State.pyrilDataSend_sends (hok : pyrilOk s j.val cmd) (hsome : s.avail (streamKey j.val (bits cmd 20 13)) ≠ 0) :
    let st := bits cmd 20 13
    Goes (exec (.pyrilDataSend j n false up) s) (fun t => t.ln.sent.rd (streamKey j.val st) 0 = s.ln.sent.rd (streamKey j.val st) 0 + 1
      ∧ (∃ body, t.line = (s.pyFrame j.val body).map BitVec.toNat
        ∧ body.take 2 = [BitVec.ofNat 8 (s.txVer j.val * 16 + 1), BitVec.ofNat 8 st]
        ∧ body.drop 8 = wordBytes24 w.data (codeBytes w.code.toNat)) ∧ t.tx j.val = txZero ∧ t.regs = s.regs) := by
  intro st
  set k := streamKey j.val st with hkey
  set body := s.dataHead j.val st ++ wordBytes24 w.data (codeBytes w.code.toNat) with hbody
  set u := (s.creditUsed k).setTx j.val txZero with hu
  set t := (u.onLine (s.pyFrame j.val body)).lnCount j.val 5 1 with ht
  have hsent : State.txDrain j.val true false (State.beginPyril j.val) 1 s = t := by
    have hbytes := s.pyFrame_oneWord j.val st w hcmd
    rw [State.txDrain_oneWord htx hcmd (State.tx_congr (s.creditUsed_frame k).2.2.2 j.val) (State.beginPyril_go hok hsome),
      State.txSend_eq _ _ hbytes (by simp [hcmd])]
    rfl
  have hused : t.ln.sent = s.ln.sent.up k 0 (· + 1) := by
    simp [ht, hu, State.creditUsed]
  have hframe : t.regs = s.regs ∧ t.sw = s.sw ∧ t.fc = s.fc := by simp [ht, hu, s.creditUsed_frame k]
  refine ⟨t, execPyrilDataSend_beat hopen hk htrain hdue hn hheads hsent hframe, ?_, ⟨body, by simp [ht], rfl, ?_⟩, ?_, hframe.1⟩
  · rw [hused, Tbl.rd_up_same]
  · rw [hbody, List.drop_left' (s.length_dataHead j.val st)]
  · exact (State.tx_congr (s := u) (by simp [ht]) _).trans (State.tx_setTx _ _ _)

/-- A data frame that must not go out is discarded and counted. -/
theorem State.pyrilDataSend_drops (hno : ¬ pyrilOk s j.val cmd) :
    Goes (exec (.pyrilDataSend j n false up) s) (fun t => t.tx j.val = txZero ∧ t.line = s.line ∧ t.ln.sent = s.ln.sent
      ∧ (t.ln.live.rd (32 * j.val + 29) 0).toNat = satAdd 32 (s.ln.live.rd (32 * j.val + 29) 0).toNat 1) := by
  set u := s.lnCount j.val 29 1 with hu
  have hdrop : u.txDrop j.val (oneWord cmd w) = u.setTx j.val txZero := by
    have htxU : u.tx j.val = { txZero with q := [oneWord cmd w] } := htx
    unfold State.txDrop
    rw [htxU]
    rfl
  have hdrain : State.txDrain j.val true false (State.beginPyril j.val) 1 s = u.setTx j.val txZero := by
    rw [State.txDrain_drop (n := 0) (f := oneWord cmd w) (r := []) (by rw [htx]) hcmd rfl rfl (State.beginPyril_drop hno), hdrop]
  refine ⟨_, execPyrilDataSend_beat hopen hk htrain hdue hn hheads hdrain (by simp [hu]), State.tx_setTx _ _ _, by simp [hu], by simp [hu], ?_⟩
  exact s.live_lnCount j.val 29 1

end

/-! ## Data frames received (R297) -/

section
variable (s : State) (j : Nat)

theorem State.rxStore_leaves (m ws : List CWord) : (s.rxStore j m ws).2.regs = s.regs ∧ (s.rxStore j m ws).2.ln.recv = s.ln.recv := by
  unfold State.rxStore
  dsimp only
  split
  · simp
  · split <;> simp

/-- A frame delivered changes no register, and nothing that a stream has counted. -/
theorem State.rxDeliver_leaves (f : RxFrame) (low : Nat) (body : List Byte) :
    (s.rxDeliver j f low body).regs = s.regs ∧ (s.rxDeliver j f low body).ln.recv = s.ln.recv := by
  have hstored (u : State) (i : Nat) (m ws : List CWord) (hu : u.regs = s.regs ∧ u.ln.recv = s.ln.recv) :
      (if (u.rxStore j m ws).1 then (u.rxStore j m ws).2.lnCount j i 1 else (u.rxStore j m ws).2).regs = s.regs
      ∧ (if (u.rxStore j m ws).1 then (u.rxStore j m ws).2.lnCount j i 1 else (u.rxStore j m ws).2).ln.recv = s.ln.recv := by
    obtain ⟨hregs, hrecv⟩ := u.rxStore_leaves j m ws
    split <;> simp [hregs, hrecv, hu]
  unfold State.rxDeliver
  extract_lets i m cs u
  have hu : u.regs = s.regs ∧ u.ln.recv = s.ln.recv := by
    simp only [u]
    split <;> exact ⟨rfl, rfl⟩
  clear_value u
  have hcause : (u.rxCause j f).2.regs = u.regs ∧ (u.rxCause j f).2.ln.recv = u.ln.recv := by
    unfold State.rxCause
    split <;> exact ⟨rfl, rfl⟩
  split
  · next v heq =>
    rw [heq] at hcause
    exact hstored v 0 m _ ⟨hcause.1.trans hu.1, hcause.2.trans hu.2⟩
  · next c v heq =>
    rw [heq] at hcause
    exact hstored v 1 m _ ⟨hcause.1.trans hu.1, hcause.2.trans hu.2⟩

end

section
variable {s : State} {j : Fin 128} {f : RxFrame} (pay : Fin 39)
variable (hopen : s.rxOpen j.val f = true) (hpyril : s.isPyril j.val f = true) (hfec : f.fec = []) (htype : pyType (pyBody f) = 1)
variable (hver : pyVer (pyBody f) = 1) (hup : s.pySt j.val = 2) (hen : s.streamOn j.val (byteAt (pyBody f) 1) = true)
include hopen hpyril hfec htype hver hup hen

/-- A data frame of a stream that has used its credit is counted as refused. -/
theorem State.pyrilDataReceive_refused (hused : (s.grantedOf (streamKey j.val (byteAt (pyBody f) 1))).toNat
    ≤ (s.ln.recv.rd (streamKey j.val (byteAt (pyBody f) 1)) 0).toNat) :
    exec (.pyrilDataReceive j f pay) s = .next (s.lnCount j.val 28 1) := by
  refine congrArg Host.Outcome.next ((if_neg (by simp [hopen, hpyril, htype])).trans ?_)
  rw [hfec, State.fecCount_nil]
  exact (if_neg (by simp [htype, hver, hup, verMax])).trans ((if_neg (by simp [hen])).trans (if_pos hused))

/-- An accepted data frame is counted as received. -/
theorem State.pyrilDataReceive_accepts (hcredit : (s.ln.recv.rd (streamKey j.val (byteAt (pyBody f) 1)) 0).toNat
      < (s.grantedOf (streamKey j.val (byteAt (pyBody f) 1))).toNat)
    (htag : be16 (pyBody f) 4 / 64 = s.fld .lnPys (streamKey j.val (byteAt (pyBody f) 1)) 27 18)
    (hgen : genOk (s.fld .lnPyg (streamKey j.val (byteAt (pyBody f) 1)) 23 16)
      (s.fld .lnPyg (streamKey j.val (byteAt (pyBody f) 1)) 15 8) (byteAt (pyBody f) 2) = true) :
    Goes (exec (.pyrilDataReceive j f pay) s) (fun t => t.ln.recv.rd (streamKey j.val (byteAt (pyBody f) 1)) 0
        = s.ln.recv.rd (streamKey j.val (byteAt (pyBody f) 1)) 0 + 1 ∧ t.regs = s.regs) := by
  set k := streamKey j.val (byteAt (pyBody f) 1) with hkey
  set u : State := { s with ln := { s.ln with recv := s.ln.recv.up k 0 (· + 1) } } with hu
  have hrecv : u.ln.recv.rd k 0 = s.ln.recv.rd k 0 + 1 := Tbl.rd_up_same s.ln.recv k 0 (· + 1)
  set body := if f.bytes.length = 64 then ((pyBody f).drop 8).take (max 1 pay.val) else (pyBody f).drop 8 with hbody
  have hexec : exec (.pyrilDataReceive j f pay) s
      = .next (if !u.laneWatched j.val then u.lnCount j.val 3 1 else u.rxDeliver j.val f (2 ^ 14 + byteAt (pyBody f) 1 * 2 ^ 6) body) := by
    refine congrArg Host.Outcome.next ((if_neg (by simp [hopen, hpyril, htype])).trans ?_)
    rw [hfec, State.fecCount_nil]
    exact (if_neg (by simp [htype, hver, hup, verMax])).trans ((if_neg (by simp [hen])).trans ((if_neg (by rw [← hkey]; omega)).trans
      ((if_neg (by rw [← hkey]; simp [htag])).trans (if_neg (by rw [← hkey]; simp [hgen])))))
  refine ⟨_, hexec, ?_⟩
  split
  · exact ⟨hrecv, rfl⟩
  · obtain ⟨hregs, hkept⟩ := u.rxDeliver_leaves j.val f (2 ^ 14 + byteAt (pyBody f) 1 * 2 ^ 6) body
    exact ⟨by rw [hkept, hrecv], hregs⟩

end

/-! ## Credit returned (R298) -/

/-- A CTRL word of OP 0x1 between frames returns credit. -/
theorem State.rowKind_credit {u : State} {j : Nat} {ws : List CWord} (htrain : u.flag .lnTrain j 30 = false)
    (hin : (u.tx j).inFrame = false) (hskip : (u.tx j).skip = false) (hcode : (ws.headD opIdle).code.toNat = codeCTRL)
    (hop : bits (ws.headD opIdle).data.toNat 23 20 = 1) : u.rowKind j ws = .credit := by
  unfold State.rowKind
  dsimp only
  generalize ws.headD opIdle = w at hcode hop
  have hpyril : (u.tx j).pyril w = false := by
    simp [TxSt.pyril, hin, hskip, hcode, codeCTRL, codeMETA, codeOpens]
  have hcredit : (u.tx j).credit w = true := by
    simp [TxSt.credit, hin, hskip, hcode, hop]
  simp [htrain, hpyril, hcredit]

/-- A row that is taken leaves the streams and their credit. -/
theorem State.creditRow_frame (u : State) (j st : Nat) (ws : List CWord) :
    ((u.popRow j).txDiscard j ws).streamOn j st = u.streamOn j st ∧ ((u.popRow j).txDiscard j ws).ln.granted = u.ln.granted := by
  have hregs : ((u.popRow j).txDiscard j ws).regs = u.regs := by simp [State.txDiscard_eq]
  refine ⟨?_, by simp [State.txDiscard_eq]⟩
  unfold State.streamOn
  dsimp only
  rw [State.flag_congr hregs, State.fld_congr hregs]

/-- A row of idle words is taken without a count. -/
theorem State.creditRow_live (u : State) (j c : Nat) {ws : List CWord} (hidle : ∀ w ∈ ws, w.code.toNat = codeIDLE) :
    ((u.popRow j).txDiscard j ws).ln.live.rd c 0 = u.ln.live.rd c 0 := by
  rw [State.txDiscard_idle _ _ hidle, State.live_lnCount_zero, (u.popRow_frame j).2.2.1]

section
variable {s u : State} {j : Fin 128} {up : List (Fin 48)} {rows : List (List CWord)} (hopen : s.txOpen j.val = true)
variable (hrow : s.txRow j.val up = (some rows, u)) (hkind : u.rowKind j.val (rows.flatMap id) = .credit)
include hopen hrow hkind

/-- The row leaves its stages and its other words are discarded, then the return is judged. -/
theorem execCreditReturn_row : let w := (rows.flatMap id).headD opIdle
    let st := bits w.data.toNat 19 12
    let n := bits w.data.toNat 11 0
    let k := streamKey j.val st
    let t := (u.popRow j.val).txDiscard j.val ((rows.flatMap id).drop 1)
    exec (.creditReturn j up) s = .next (if n != 0 && t.streamOn j.val st then
      { t with ln := { t.ln with granted := t.ln.granted.up k 0 (· + BitVec.ofNat 32 n), changed := t.ln.changed.wr k false true } }
      else t.lnCount j.val 7 1) := by
  refine congrArg Host.Outcome.next ((if_neg (by simp [hopen])).trans ?_)
  rw [hrow]
  dsimp only
  rw [hkind, if_neg (by simp)]

end

/-! ## The obligations -/

/-- Settles O23: each frame of the engine changes what its type names, once it is judged. -/
theorem pyrilLanesComeUpAndSpendCredit : Obligations.PyrilLanesComeUpAndSpendCredit := by
  refine ⟨fun j s hon hbound => ⟨fun hdue => State.helloSend_sends hon hbound hdue, fun hfirst hearly => ?early,
      fun hsome => State.creditSend_sends hon hbound hsome, fun hnone => ?nothing⟩,
    ⟨fun j f s htakes hfec hfcs hpcs hvalid hempty => State.helloReceive_up hfec hfcs hpcs htakes hvalid hempty,
      fun j s hup => ⟨fun hlate => ?silence, fun hheard => ?heard⟩,
      fun j f s htakes hfec hfcs hpcs hver hmax => ⟨fun hdown => State.creditReceive_ignored hfec hfcs htakes hdown,
        fun st hup hone hst hen => State.creditReceive_takes hfec hfcs hpcs htakes hver hmax hup hone hst hen⟩⟩,
    fun j n cmd up s w hopen hk htrain hdue hn hheads htx hcmd =>
      ⟨fun hok hsome => State.pyrilDataSend_sends hopen hk htrain hdue hn hheads htx hcmd hok hsome,
        fun hok hnone => State.pyrilDataSend_waits hopen hk htrain hdue hn hheads htx hcmd hok hnone,
        fun hno => State.pyrilDataSend_drops hopen hk htrain hdue hn hheads htx hcmd hno⟩,
    fun j f pay s hopen hpyril hfec htype hver hup hen => ⟨fun hused => ?refused, fun hcredit htag hgen =>
      State.pyrilDataReceive_accepts pay hopen hpyril hfec htype hver hup hen hcredit htag hgen⟩⟩
  case early => exact congrArg Host.Outcome.next (if_pos (by simp [hfirst, show ¬ (s.py j.val).helloAt + 1600000 ≤ s.fc by omega]))
  case nothing =>
    refine congrArg Host.Outcome.next (if_pos ?_)
    rw [hnone]
    simp
  case silence =>
    have hexec : exec (.helloTimeout j) s = .next (s.pyDown j.val) := congrArg Host.Outcome.next (if_pos (by simp [hup, hlate]))
    exact ⟨_, hexec, s.pyDown_pySt j.val, s.pyDown_epoch j.val, s.pyDown_told j.val, s.pyDown_forgets j.val⟩
  case heard => exact congrArg Host.Outcome.next (if_neg (by simp [hheard]))
  case refused =>
    exact ⟨_, State.pyrilDataReceive_refused pay hopen hpyril hfec htype hver hup hen hused, by simp, by simp, by simp,
      s.live_lnCount j.val 28 1⟩

/-- Settles O24: only a count that is not 0, for a stream that is on, is added. -/
theorem creditReturnsAreAddedOrDiscarded : Obligations.CreditReturnsAreAddedOrDiscarded := by
  intro j up s u rows w k count hopen hrow htrain hin hskip hcode hop
  have hkind : u.rowKind j.val (rows.flatMap id) = .credit := State.rowKind_credit htrain hin hskip hcode hop
  obtain ⟨hstream, hgranted⟩ := u.creditRow_frame j.val (bits w.data.toNat 19 12) ((rows.flatMap id).drop 1)
  have hlive := u.creditRow_live j.val (32 * j.val + 7) (ws := (rows.flatMap id).drop 1)
  have hexec := execCreditReturn_row hopen hrow hkind
  set t := (u.popRow j.val).txDiscard j.val ((rows.flatMap id).drop 1)
  refine ⟨fun hcount hen => ?added, fun hno hidle => ?discarded⟩
  case added =>
    have hadd : (count != 0 && t.streamOn j.val (bits w.data.toNat 19 12)) = true := by simp [hstream, hcount, hen]
    refine ⟨_, hexec.trans (congrArg Host.Outcome.next (if_pos hadd)), ?_, fun k' hk' => ?_⟩
    · rw [← hgranted]
      exact Tbl.rd_up_same t.ln.granted k 0 (· + BitVec.ofNat 32 count)
    · rw [← hgranted]
      exact Tbl.rd_up_other t.ln.granted 0 0 (· + BitVec.ofNat 32 count) hk'
  case discarded =>
    have hnot : ¬ (count != 0 && t.streamOn j.val (bits w.data.toNat 19 12)) = true := by
      rcases hno with h | h <;> simp [hstream, h]
    refine ⟨_, hexec.trans (congrArg Host.Outcome.next (if_neg hnot)), by simp [hgranted], ?_⟩
    rw [State.live_lnCount, hlive hidle]

end Sys2Proof.Machine
end
